-- ==== Sys2Proof/Syntax.lean ====
section
/-! DEFINITION. The instructions of the part: one constructor for each row of spec/opcode_table.json.
The first 217 are the instruction forms of R162 to R195; the others are the part's own steps, which have no
encoding: the arguments name the unit at which the step happens, or carry what comes from outside the part. -/

namespace Sys2Proof

/-- Accesses to a queue-port page that are no enqueue (R329). -/
inductive PortAccess where
  /-- a DMWr of another length or at another offset -/
  | otherDmwr
  /-- a DMWr to a port page of the physical function -/
  | pfDmwr
  /-- a posted memory write -/
  | postedWrite
  /-- a memory read -/
  | read
deriving DecidableEq, Repr

/-- The host's coherence traffic on a host line held at its home slice (R136). -/
inductive Snoop where
  /-- the host reads the line: the home delivers its bytes and keeps the line clean -/
  | data
  /-- the host takes the line: the home writes it back and drops it -/
  | inv
deriving DecidableEq, Repr

/-- The instruction forms and hardware steps of the part. -/
inductive Instr where
  /-- LUI (R191): Writes the sign-extended 20-bit immediate shifted left by 12 to rd. -/
  | lui (rd : BitVec 5) (imm : BitVec 20)
  /-- AUIPC (R191): Writes pc plus the shifted upper immediate to rd. -/
  | auipc (rd : BitVec 5) (imm : BitVec 20)
  /-- JAL (R198): Jumps pc-relative and links pc+4 in rd, applying DEADM at a call. -/
  | jal (rd : BitVec 5) (imm : BitVec 20)
  /-- JALR (R198): Jumps to rs1 plus offset with bit 0 cleared, links pc+4, and applies call or return dead marking. -/
  | jalr (rd : BitVec 5) (rs1 : BitVec 5) (imm : BitVec 12)
  /-- BEQ (R191): Branches when rs1 equals rs2. -/
  | beq (rs1 : BitVec 5) (rs2 : BitVec 5) (imm : BitVec 12)
  /-- BNE (R191): Branches when rs1 differs from rs2. -/
  | bne (rs1 : BitVec 5) (rs2 : BitVec 5) (imm : BitVec 12)
  /-- BLT (R191): Branches when rs1 is less than rs2, signed. -/
  | blt (rs1 : BitVec 5) (rs2 : BitVec 5) (imm : BitVec 12)
  /-- BGE (R191): Branches when rs1 is at least rs2, signed. -/
  | bge (rs1 : BitVec 5) (rs2 : BitVec 5) (imm : BitVec 12)
  /-- BLTU (R191): Branches when rs1 is less than rs2, unsigned. -/
  | bltu (rs1 : BitVec 5) (rs2 : BitVec 5) (imm : BitVec 12)
  /-- BGEU (R191): Branches when rs1 is at least rs2, unsigned. -/
  | bgeu (rs1 : BitVec 5) (rs2 : BitVec 5) (imm : BitVec 12)
  /-- LB (R200): Loads a sign-extended byte by its address class. -/
  | lb (rd : BitVec 5) (rs1 : BitVec 5) (imm : BitVec 12)
  /-- LH (R200): Loads a sign-extended halfword by its address class. -/
  | lh (rd : BitVec 5) (rs1 : BitVec 5) (imm : BitVec 12)
  /-- LW (R200): Loads a sign-extended word by its address class. -/
  | lw (rd : BitVec 5) (rs1 : BitVec 5) (imm : BitVec 12)
  /-- LD (R200): Loads a doubleword by its address class. -/
  | ld (rd : BitVec 5) (rs1 : BitVec 5) (imm : BitVec 12)
  /-- LBU (R200): Loads a zero-extended byte. -/
  | lbu (rd : BitVec 5) (rs1 : BitVec 5) (imm : BitVec 12)
  /-- LHU (R200): Loads a zero-extended halfword. -/
  | lhu (rd : BitVec 5) (rs1 : BitVec 5) (imm : BitVec 12)
  /-- LWU (R200): Loads a zero-extended word. -/
  | lwu (rd : BitVec 5) (rs1 : BitVec 5) (imm : BitVec 12)
  /-- SB (R202): Stores a byte, logging it for global memory or writing scratchpad or MMIO in place. -/
  | sb (rs1 : BitVec 5) (rs2 : BitVec 5) (imm : BitVec 12)
  /-- SH (R202): Stores a halfword by its address class. -/
  | sh (rs1 : BitVec 5) (rs2 : BitVec 5) (imm : BitVec 12)
  /-- SW (R202): Stores a word by its address class. -/
  | sw (rs1 : BitVec 5) (rs2 : BitVec 5) (imm : BitVec 12)
  /-- SD (R202): Stores a doubleword by its address class. -/
  | sd (rs1 : BitVec 5) (rs2 : BitVec 5) (imm : BitVec 12)
  /-- ADDI (R193): Adds a sign-extended immediate to rs1. -/
  | addi (rd : BitVec 5) (rs1 : BitVec 5) (imm : BitVec 12)
  /-- SLTI (R193): Sets rd to 1 when rs1 is below the immediate, signed. -/
  | slti (rd : BitVec 5) (rs1 : BitVec 5) (imm : BitVec 12)
  /-- SLTIU (R193): Sets rd to 1 when rs1 is below the immediate, unsigned. -/
  | sltiu (rd : BitVec 5) (rs1 : BitVec 5) (imm : BitVec 12)
  /-- XORI (R193): XORs rs1 with the immediate. -/
  | xori (rd : BitVec 5) (rs1 : BitVec 5) (imm : BitVec 12)
  /-- ORI (R193): ORs rs1 with the immediate. -/
  | ori (rd : BitVec 5) (rs1 : BitVec 5) (imm : BitVec 12)
  /-- ANDI (R193): ANDs rs1 with the immediate. -/
  | andi (rd : BitVec 5) (rs1 : BitVec 5) (imm : BitVec 12)
  /-- SLLI (R193): Shifts rs1 left logically by a 6-bit amount. -/
  | slli (rd : BitVec 5) (rs1 : BitVec 5) (sh : BitVec 6)
  /-- SRLI (R193): Shifts rs1 right logically by a 6-bit amount. -/
  | srli (rd : BitVec 5) (rs1 : BitVec 5) (sh : BitVec 6)
  /-- SRAI (R193): Shifts rs1 right arithmetically by a 6-bit amount. -/
  | srai (rd : BitVec 5) (rs1 : BitVec 5) (sh : BitVec 6)
  /-- ADDIW (R193): Adds the immediate and sign-extends the low 32 bits. -/
  | addiw (rd : BitVec 5) (rs1 : BitVec 5) (imm : BitVec 12)
  /-- SLLIW (R193): Shifts the low word left and sign-extends. -/
  | slliw (rd : BitVec 5) (rs1 : BitVec 5) (sh : BitVec 5)
  /-- SRLIW (R193): Shifts the low word right logically and sign-extends. -/
  | srliw (rd : BitVec 5) (rs1 : BitVec 5) (sh : BitVec 5)
  /-- SRAIW (R193): Shifts the low word right arithmetically and sign-extends. -/
  | sraiw (rd : BitVec 5) (rs1 : BitVec 5) (sh : BitVec 5)
  /-- ADD (R194): Adds rs1 and rs2. -/
  | add (rd : BitVec 5) (rs1 : BitVec 5) (rs2 : BitVec 5)
  /-- SUB (R194): Subtracts rs2 from rs1. -/
  | sub (rd : BitVec 5) (rs1 : BitVec 5) (rs2 : BitVec 5)
  /-- SLL (R194): Shifts rs1 left by rs2[5:0]. -/
  | sll (rd : BitVec 5) (rs1 : BitVec 5) (rs2 : BitVec 5)
  /-- SLT (R194): Sets rd when rs1 is below rs2, signed. -/
  | slt (rd : BitVec 5) (rs1 : BitVec 5) (rs2 : BitVec 5)
  /-- SLTU (R194): Sets rd when rs1 is below rs2, unsigned. -/
  | sltu (rd : BitVec 5) (rs1 : BitVec 5) (rs2 : BitVec 5)
  /-- XOR (R194): XORs rs1 and rs2. -/
  | xor (rd : BitVec 5) (rs1 : BitVec 5) (rs2 : BitVec 5)
  /-- SRL (R194): Shifts rs1 right logically by rs2[5:0]. -/
  | srl (rd : BitVec 5) (rs1 : BitVec 5) (rs2 : BitVec 5)
  /-- SRA (R194): Shifts rs1 right arithmetically by rs2[5:0]. -/
  | sra (rd : BitVec 5) (rs1 : BitVec 5) (rs2 : BitVec 5)
  /-- OR (R194): ORs rs1 and rs2. -/
  | or (rd : BitVec 5) (rs1 : BitVec 5) (rs2 : BitVec 5)
  /-- AND (R194): ANDs rs1 and rs2. -/
  | and (rd : BitVec 5) (rs1 : BitVec 5) (rs2 : BitVec 5)
  /-- MUL (R194): Writes the low 64 bits of the product. -/
  | mul (rd : BitVec 5) (rs1 : BitVec 5) (rs2 : BitVec 5)
  /-- MULH (R194): Writes the high 64 bits of the signed product. -/
  | mulh (rd : BitVec 5) (rs1 : BitVec 5) (rs2 : BitVec 5)
  /-- MULHSU (R194): Writes the high 64 bits of the signed-by-unsigned product. -/
  | mulhsu (rd : BitVec 5) (rs1 : BitVec 5) (rs2 : BitVec 5)
  /-- MULHU (R194): Writes the high 64 bits of the unsigned product. -/
  | mulhu (rd : BitVec 5) (rs1 : BitVec 5) (rs2 : BitVec 5)
  /-- DIV (R196): Writes the signed quotient, never trapping. -/
  | div (rd : BitVec 5) (rs1 : BitVec 5) (rs2 : BitVec 5)
  /-- DIVU (R196): Writes the unsigned quotient. -/
  | divu (rd : BitVec 5) (rs1 : BitVec 5) (rs2 : BitVec 5)
  /-- REM (R196): Writes the signed remainder. -/
  | rem (rd : BitVec 5) (rs1 : BitVec 5) (rs2 : BitVec 5)
  /-- REMU (R196): Writes the unsigned remainder. -/
  | remu (rd : BitVec 5) (rs1 : BitVec 5) (rs2 : BitVec 5)
  /-- ADDW (R194): Adds and sign-extends the low 32 bits. -/
  | addw (rd : BitVec 5) (rs1 : BitVec 5) (rs2 : BitVec 5)
  /-- SUBW (R194): Subtracts and sign-extends the low 32 bits. -/
  | subw (rd : BitVec 5) (rs1 : BitVec 5) (rs2 : BitVec 5)
  /-- SLLW (R194): Shifts the low word left and sign-extends. -/
  | sllw (rd : BitVec 5) (rs1 : BitVec 5) (rs2 : BitVec 5)
  /-- SRLW (R194): Shifts the low word right logically and sign-extends. -/
  | srlw (rd : BitVec 5) (rs1 : BitVec 5) (rs2 : BitVec 5)
  /-- SRAW (R194): Shifts the low word right arithmetically and sign-extends. -/
  | sraw (rd : BitVec 5) (rs1 : BitVec 5) (rs2 : BitVec 5)
  /-- MULW (R194): Multiplies the low words and sign-extends the low 32 bits. -/
  | mulw (rd : BitVec 5) (rs1 : BitVec 5) (rs2 : BitVec 5)
  /-- DIVW (R196): Signed division of the low words, sign-extended. -/
  | divw (rd : BitVec 5) (rs1 : BitVec 5) (rs2 : BitVec 5)
  /-- DIVUW (R196): Unsigned division of the low words, sign-extended. -/
  | divuw (rd : BitVec 5) (rs1 : BitVec 5) (rs2 : BitVec 5)
  /-- REMW (R196): Signed remainder of the low words, sign-extended. -/
  | remw (rd : BitVec 5) (rs1 : BitVec 5) (rs2 : BitVec 5)
  /-- REMUW (R196): Unsigned remainder of the low words, sign-extended. -/
  | remuw (rd : BitVec 5) (rs1 : BitVec 5) (rs2 : BitVec 5)
  /-- FENCE (R205): Performs a release and the four drains, ordering later MMIO accesses. -/
  | fence (fm : BitVec 1) (pred : BitVec 4) (succ : BitVec 4)
  /-- FENCE_I (R205): Releases, waits for acknowledgement, then invalidates the core's instruction lines. -/
  | fenceI
  /-- ECALL (R206): Raises the environment-call trap. -/
  | ecall
  /-- EBREAK (R206): Raises the breakpoint trap. -/
  | ebreak
  /-- CSRRW (R207): Swaps a system register with rs1. -/
  | csrrw (rd : BitVec 5) (rs1 : BitVec 5) (csr : BitVec 12)
  /-- CSRRS (R207): Reads a system register and sets the bits of rs1. -/
  | csrrs (rd : BitVec 5) (rs1 : BitVec 5) (csr : BitVec 12)
  /-- CSRRC (R207): Reads a system register and clears the bits of rs1. -/
  | csrrc (rd : BitVec 5) (rs1 : BitVec 5) (csr : BitVec 12)
  /-- CSRRWI (R207): Swaps a system register with a 5-bit immediate. -/
  | csrrwi (rd : BitVec 5) (csr : BitVec 12) (zimm : BitVec 5)
  /-- CSRRSI (R207): Reads a system register and sets immediate bits. -/
  | csrrsi (rd : BitVec 5) (csr : BitVec 12) (zimm : BitVec 5)
  /-- CSRRCI (R207): Reads a system register and clears immediate bits. -/
  | csrrci (rd : BitVec 5) (csr : BitVec 12) (zimm : BitVec 5)
  /-- TEND (R216): Ends the running task, emptying its queues and popping its frame. -/
  | tend
  /-- POST (R217): Posts a record to the own ready set with an implicit release and returns the status. -/
  | post (rd : BitVec 5) (rs1 : BitVec 5) (e1 : BitVec 1)
  /-- POSTE (R217): Posts a record to another endpoint's ready set with an implicit release. -/
  | poste (rd : BitVec 5) (rs1 : BitVec 5) (rs2 : BitVec 5) (e1 : BitVec 1) (e2 : BitVec 1)
  /-- SUCC (R220): Arms a successor record for the next engine command. -/
  | succ (rs1 : BitVec 5) (e1 : BitVec 1)
  /-- DLSET (R222): Arms the task's deadline and optional deadline successor. -/
  | dlset (rs1 : BitVec 5) (rs2 : BitVec 5) (e1 : BitVec 1) (e2 : BitVec 1)
  /-- DLCLR (R222): Disarms the deadline and frees its successor reservation. -/
  | dlclr
  /-- SPAWN (R219): Builds a record and posts it to a team member's ready set. -/
  | spawn (rd : BitVec 5) (rs1 : BitVec 5) (rs2 : BitVec 5) (e1 : BitVec 1) (e2 : BitVec 1)
  /-- CLAIM (R224): Pushes the threshold and raises it to the resource's ceiling. -/
  | claim (rs1 : BitVec 5) (e1 : BitVec 1)
  /-- UNCLAIM (R224): Pops the top claim and restores its threshold. -/
  | unclaim (rs1 : BitVec 5) (e1 : BitVec 1)
  /-- HOLD (R225): Sets one hold class bit in HOLDM. -/
  | hold (rs1 : BitVec 5) (e1 : BitVec 1)
  /-- UNHOLD (R225): Clears one hold class bit in HOLDM. -/
  | unhold (rs1 : BitVec 5) (e1 : BitVec 1)
  /-- HOLDM (R225): Sets the hold classes named by a mask. -/
  | holdm (rs1 : BitVec 5) (e1 : BitVec 1)
  /-- UNHOLDM (R225): Clears the hold classes named by a mask. -/
  | unholdm (rs1 : BitVec 5) (e1 : BitVec 1)
  /-- TBAR (R226): Publishes and arrives at the team barrier, completing it at the last arrival. -/
  | tbar
  /-- GBAR (R228): Publishes and arrives at a gang barrier, handing its rounds to the network interface. -/
  | gbar (rs1 : BitVec 5) (e1 : BitVec 1)
  /-- CARVE (R229): Records a validated carve-out request for the next team barrier. -/
  | carve (rs1 : BitVec 5) (e1 : BitVec 1)
  /-- ALIGN (R58): Stalls until every team member reaches the same ALIGN instance or 256 cycles pass. -/
  | align
  /-- TBARQ (R227): Returns the state of the open team barrier. -/
  | tbarq (rd : BitVec 5)
  /-- SEND (R217): Posts a record to an endpoint's receive queue with an implicit release. -/
  | send (rd : BitVec 5) (rs1 : BitVec 5) (rs2 : BitVec 5) (e1 : BitVec 1) (e2 : BitVec 1)
  /-- LDR (R232): Issues a split-phase 8-byte remote load, marking rd empty. -/
  | ldr (rd : BitVec 5) (rs1 : BitVec 5) (e1 : BitVec 1)
  /-- LDRW (R232): Issues a split-phase 4-byte remote load, marking rd empty. -/
  | ldrw (rd : BitVec 5) (rs1 : BitVec 5) (e1 : BitVec 1)
  /-- TJMP (R233): Jumps through a length-checked relative jump table. -/
  | tjmp (rs1 : BitVec 5) (rs2 : BitVec 5) (e1 : BitVec 1) (e2 : BitVec 1)
  /-- QPUSH (R234): Appends a value to q0, waiting while it is full. -/
  | qpush (rs1 : BitVec 5) (e1 : BitVec 1) (q : BitVec 5)
  /-- QPOP (R234): Removes the oldest entry of q1, q2 or q4 into rd, or marks rd empty. -/
  | qpop (rd : BitVec 5) (q : BitVec 5)
  /-- QLEN (R234): Returns the number of entries of a queue. -/
  | qlen (rd : BitVec 5) (q : BitVec 5)
  /-- ONE (R59): Prefix electing one team member to execute the governed instruction for all. -/
  | one
  /-- FMT (R173): Prefix setting two pending format codes for the governed vector instruction. -/
  | fmt (f1 : BitVec 3) (f2 : BitVec 3)
  /-- TRET (R235): Pops the trap frame and resumes the trapped frame. -/
  | tret
  /-- TKILL (R235): Pops the trap frame and ends the trapped task. -/
  | tkill
  /-- TFRD (R236): Reads a selected item of the trapped frame. -/
  | tfrd (rd : BitVec 5) (rs1 : BitVec 5) (e1 : BitVec 1)
  /-- TFWR (R236): Writes a selected item of the trapped frame. -/
  | tfwr (rs1 : BitVec 5) (rs2 : BitVec 5) (e1 : BitVec 1) (e2 : BitVec 1)
  /-- XINV (R237): Invalidates translations of a virtual device and waits for egress requests using them. -/
  | xinv (rs1 : BitVec 5) (rs2 : BitVec 5) (e1 : BitVec 1) (e2 : BitVec 1)
  /-- CKPT (R238): Takes a checkpoint at retirement. -/
  | ckpt
  /-- REL (R140): Stamps the span of records since the last release and streams it to the homes. -/
  | rel
  /-- ACQ (R240): Acquires one named endpoint's publications. -/
  | acq (rs1 : BitVec 5) (e1 : BitVec 1)
  /-- ACQM (R240): Acquires the team members named by a mask. -/
  | acqm (rs1 : BitVec 5) (e1 : BitVec 1)
  /-- ACQG (R240): Acquires the endpoints of one log-group table entry. -/
  | acqg (rs1 : BitVec 5) (e1 : BitVec 1)
  /-- ACQV (R151): Acquires every writer of the virtual device at the device publish horizon. -/
  | acqv
  /-- DRAIN_S (R132): Waits for the core's earlier scratchpad-destination copies. -/
  | drainS
  /-- DRAIN_G (R132): Waits for the core's earlier global-destination copies. -/
  | drainG
  /-- DRAIN_R (R132): Waits for the core's earlier remote-chip copies. -/
  | drainR
  /-- DRAIN_K (R132): Waits for the core's earlier kiln scratchpad writes. -/
  | drainK
  /-- ATOM_ADD (R242): Home atomic 64-bit add returning the old value. -/
  | atomAdd (rd : BitVec 5) (rs1 : BitVec 5) (rs2 : BitVec 5) (e1 : BitVec 1) (e2 : BitVec 1)
  /-- ATOM_AND (R242): Home atomic 64-bit AND. -/
  | atomAnd (rd : BitVec 5) (rs1 : BitVec 5) (rs2 : BitVec 5) (e1 : BitVec 1) (e2 : BitVec 1)
  /-- ATOM_OR (R242): Home atomic 64-bit OR. -/
  | atomOr (rd : BitVec 5) (rs1 : BitVec 5) (rs2 : BitVec 5) (e1 : BitVec 1) (e2 : BitVec 1)
  /-- ATOM_XOR (R242): Home atomic 64-bit XOR. -/
  | atomXor (rd : BitVec 5) (rs1 : BitVec 5) (rs2 : BitVec 5) (e1 : BitVec 1) (e2 : BitVec 1)
  /-- ATOM_MIN (R242): Home atomic 64-bit signed minimum. -/
  | atomMin (rd : BitVec 5) (rs1 : BitVec 5) (rs2 : BitVec 5) (e1 : BitVec 1) (e2 : BitVec 1)
  /-- ATOM_MAX (R242): Home atomic 64-bit signed maximum. -/
  | atomMax (rd : BitVec 5) (rs1 : BitVec 5) (rs2 : BitVec 5) (e1 : BitVec 1) (e2 : BitVec 1)
  /-- ATOM_MINU (R242): Home atomic 64-bit unsigned minimum. -/
  | atomMinu (rd : BitVec 5) (rs1 : BitVec 5) (rs2 : BitVec 5) (e1 : BitVec 1) (e2 : BitVec 1)
  /-- ATOM_MAXU (R242): Home atomic 64-bit unsigned maximum. -/
  | atomMaxu (rd : BitVec 5) (rs1 : BitVec 5) (rs2 : BitVec 5) (e1 : BitVec 1) (e2 : BitVec 1)
  /-- ATOM_SWAP (R242): Home atomic 64-bit swap. -/
  | atomSwap (rd : BitVec 5) (rs1 : BitVec 5) (rs2 : BitVec 5) (e1 : BitVec 1) (e2 : BitVec 1)
  /-- ATOM_ADD_W (R242): Home atomic 32-bit add. -/
  | atomAddW (rd : BitVec 5) (rs1 : BitVec 5) (rs2 : BitVec 5) (e1 : BitVec 1) (e2 : BitVec 1)
  /-- ATOM_AND_W (R242): Home atomic 32-bit AND. -/
  | atomAndW (rd : BitVec 5) (rs1 : BitVec 5) (rs2 : BitVec 5) (e1 : BitVec 1) (e2 : BitVec 1)
  /-- ATOM_OR_W (R242): Home atomic 32-bit OR. -/
  | atomOrW (rd : BitVec 5) (rs1 : BitVec 5) (rs2 : BitVec 5) (e1 : BitVec 1) (e2 : BitVec 1)
  /-- ATOM_XOR_W (R242): Home atomic 32-bit XOR. -/
  | atomXorW (rd : BitVec 5) (rs1 : BitVec 5) (rs2 : BitVec 5) (e1 : BitVec 1) (e2 : BitVec 1)
  /-- ATOM_MIN_W (R242): Home atomic 32-bit signed minimum. -/
  | atomMinW (rd : BitVec 5) (rs1 : BitVec 5) (rs2 : BitVec 5) (e1 : BitVec 1) (e2 : BitVec 1)
  /-- ATOM_MAX_W (R242): Home atomic 32-bit signed maximum. -/
  | atomMaxW (rd : BitVec 5) (rs1 : BitVec 5) (rs2 : BitVec 5) (e1 : BitVec 1) (e2 : BitVec 1)
  /-- ATOM_MINU_W (R242): Home atomic 32-bit unsigned minimum. -/
  | atomMinuW (rd : BitVec 5) (rs1 : BitVec 5) (rs2 : BitVec 5) (e1 : BitVec 1) (e2 : BitVec 1)
  /-- ATOM_MAXU_W (R242): Home atomic 32-bit unsigned maximum. -/
  | atomMaxuW (rd : BitVec 5) (rs1 : BitVec 5) (rs2 : BitVec 5) (e1 : BitVec 1) (e2 : BitVec 1)
  /-- ATOM_SWAP_W (R242): Home atomic 32-bit swap. -/
  | atomSwapW (rd : BitVec 5) (rs1 : BitVec 5) (rs2 : BitVec 5) (e1 : BitVec 1) (e2 : BitVec 1)
  /-- ATOM_CAS (R242): Home atomic 64-bit compare-and-swap. -/
  | atomCas (rd : BitVec 5) (rs1 : BitVec 5) (rs2 : BitVec 5) (rs3 : BitVec 5)
  /-- ATOM_CAS_W (R242): Home atomic 32-bit compare-and-swap. -/
  | atomCasW (rd : BitVec 5) (rs1 : BitVec 5) (rs2 : BitVec 5) (rs3 : BitVec 5)
  /-- RED_ADD (R243): Contributes to a 64-bit integer sum reduction. -/
  | redAdd (rs1 : BitVec 5) (rs2 : BitVec 5) (e1 : BitVec 1) (e2 : BitVec 1)
  /-- RED_ADDF (R243): Contributes to two FP32 sum reductions. -/
  | redAddf (rs1 : BitVec 5) (rs2 : BitVec 5) (e1 : BitVec 1) (e2 : BitVec 1)
  /-- RED_MIN (R243): Contributes to a 64-bit signed minimum reduction. -/
  | redMin (rs1 : BitVec 5) (rs2 : BitVec 5) (e1 : BitVec 1) (e2 : BitVec 1)
  /-- RED_MAX (R243): Contributes to a 64-bit signed maximum reduction. -/
  | redMax (rs1 : BitVec 5) (rs2 : BitVec 5) (e1 : BitVec 1) (e2 : BitVec 1)
  /-- RED_ADD_W (R243): Contributes to a 32-bit integer sum reduction. -/
  | redAddW (rs1 : BitVec 5) (rs2 : BitVec 5) (e1 : BitVec 1) (e2 : BitVec 1)
  /-- RED_ADDF_W (R243): Contributes to one FP32 sum reduction. -/
  | redAddfW (rs1 : BitVec 5) (rs2 : BitVec 5) (e1 : BitVec 1) (e2 : BitVec 1)
  /-- RED_MIN_W (R243): Contributes to a 32-bit signed minimum reduction. -/
  | redMinW (rs1 : BitVec 5) (rs2 : BitVec 5) (e1 : BitVec 1) (e2 : BitVec 1)
  /-- RED_MAX_W (R243): Contributes to a 32-bit signed maximum reduction. -/
  | redMaxW (rs1 : BitVec 5) (rs2 : BitVec 5) (e1 : BitVec 1) (e2 : BitVec 1)
  /-- COPY (R245): Issues a linear copy on the copy engine and returns its tag. -/
  | copy (rd : BitVec 5) (rs1 : BitVec 5) (rs2 : BitVec 5) (rs3 : BitVec 5)
  /-- COPY2D (R246): Issues a strided two-dimensional copy from a descriptor. -/
  | copy2d (rd : BitVec 5) (rs1 : BitVec 5) (rs2 : BitVec 5) (rs3 : BitVec 5)
  /-- COPYB (R247): Issues a copy broadcast into team members' scratchpads. -/
  | copyb (rd : BitVec 5) (rs1 : BitVec 5) (rs2 : BitVec 5) (rs3 : BitVec 5)
  /-- CPCNT (R248): Arms a byte counter for the next copy. -/
  | cpcnt (rs1 : BitVec 5) (e1 : BitVec 1)
  /-- COPYQ (R250): Returns the bytes landed by the copy with a given tag. -/
  | copyq (rd : BitVec 5) (rs1 : BitVec 5) (e1 : BitVec 1)
  /-- PREF (R251): Requests an L1 fill of a sector without trapping. -/
  | pref (rs1 : BitVec 5) (e1 : BitVec 1)
  /-- VSPL (R263): Splats a scalar register into every element of vd. -/
  | vspl (vd : BitVec 3) (xs : BitVec 5) (sz : BitVec 2)
  /-- VSPLQ (R263): Splats the oldest q0 entry into every element of vd. -/
  | vsplq (vd : BitVec 3) (sz : BitVec 2)
  /-- VOUTQ (R263): Pushes one element of vs1 to q1. -/
  | voutq (vs1 : BitVec 3) (xs : BitVec 5) (sz : BitVec 2)
  /-- VMV (R263): Copies one vector register to another. -/
  | vmv (vd : BitVec 3) (vs1 : BitVec 3)
  /-- VLANE (R263): Broadcasts one element of vs1 into vd. -/
  | vlane (vd : BitVec 3) (vs1 : BitVec 3) (xs : BitVec 5) (sz : BitVec 2)
  /-- VLD (R264): Loads 128 contiguous scratchpad bytes into vd. -/
  | vld (vd : BitVec 3) (xs : BitVec 5)
  /-- VST (R264): Stores vs1 to 128 contiguous scratchpad bytes. -/
  | vst (vs1 : BitVec 3) (xs : BitVec 5)
  /-- VLDS (R264): Loads elements at a signed stride into vd. -/
  | vlds (vd : BitVec 3) (vs1 : BitVec 3) (xs : BitVec 5) (sz : BitVec 2)
  /-- VGTH (R264): Gathers 32-bit words at per-lane offsets. -/
  | vgth (vd : BitVec 3) (vs1 : BitVec 3) (xs : BitVec 5)
  /-- VSCT (R264): Scatters 32-bit words to per-lane offsets. -/
  | vsct (vs1 : BitVec 3) (vs2 : BitVec 3) (xs : BitVec 5)
  /-- VADD (R265): Floating-point elementwise add. -/
  | vadd (vd : BitVec 3) (vs1 : BitVec 3) (vs2 : BitVec 3) (sz : BitVec 2)
  /-- VSUB (R265): Floating-point elementwise subtract. -/
  | vsub (vd : BitVec 3) (vs1 : BitVec 3) (vs2 : BitVec 3) (sz : BitVec 2)
  /-- VMUL (R265): Floating-point elementwise multiply. -/
  | vmul (vd : BitVec 3) (vs1 : BitVec 3) (vs2 : BitVec 3) (sz : BitVec 2)
  /-- VFMA (R265): Fused multiply-add into vd. -/
  | vfma (vd : BitVec 3) (vs1 : BitVec 3) (vs2 : BitVec 3) (sz : BitVec 2)
  /-- VMAX (R265): Floating-point elementwise maximum. -/
  | vmax (vd : BitVec 3) (vs1 : BitVec 3) (vs2 : BitVec 3) (sz : BitVec 2)
  /-- VMIN (R265): Floating-point elementwise minimum. -/
  | vmin (vd : BitVec 3) (vs1 : BitVec 3) (vs2 : BitVec 3) (sz : BitVec 2)
  /-- VABS (R265): Floating-point absolute value. -/
  | vabs (vd : BitVec 3) (vs1 : BitVec 3) (sz : BitVec 2)
  /-- VNEG (R265): Floating-point negation. -/
  | vneg (vd : BitVec 3) (vs1 : BitVec 3) (sz : BitVec 2)
  /-- VIADD (R266): INT32 add modulo 2^32. -/
  | viadd (vd : BitVec 3) (vs1 : BitVec 3) (vs2 : BitVec 3)
  /-- VISUB (R266): INT32 subtract modulo 2^32. -/
  | visub (vd : BitVec 3) (vs1 : BitVec 3) (vs2 : BitVec 3)
  /-- VIMUL (R266): INT32 multiply, low 32 bits. -/
  | vimul (vd : BitVec 3) (vs1 : BitVec 3) (vs2 : BitVec 3)
  /-- VAND (R266): Bitwise AND per lane. -/
  | vand (vd : BitVec 3) (vs1 : BitVec 3) (vs2 : BitVec 3)
  /-- VOR (R266): Bitwise OR per lane. -/
  | vor (vd : BitVec 3) (vs1 : BitVec 3) (vs2 : BitVec 3)
  /-- VXOR (R266): Bitwise XOR per lane. -/
  | vxor (vd : BitVec 3) (vs1 : BitVec 3) (vs2 : BitVec 3)
  /-- VSHL (R266): Logical left shift per lane. -/
  | vshl (vd : BitVec 3) (vs1 : BitVec 3) (vs2 : BitVec 3)
  /-- VSHR (R266): Logical right shift per lane. -/
  | vshr (vd : BitVec 3) (vs1 : BitVec 3) (vs2 : BitVec 3)
  /-- VSRA (R266): Arithmetic right shift per lane. -/
  | vsra (vd : BitVec 3) (vs1 : BitVec 3) (vs2 : BitVec 3)
  /-- VIADDS (R266): Saturating signed INT32 add setting SAT. -/
  | viadds (vd : BitVec 3) (vs1 : BitVec 3) (vs2 : BitVec 3)
  /-- VCVT (R268): Converts one part between floating formats under a rounding mode. -/
  | vcvt (vd : BitVec 3) (vs1 : BitVec 3) (part : BitVec 3) (sato : BitVec 1) (mode : BitVec 2)
  /-- VCVTI (R268): Converts one part between integer and floating formats. -/
  | vcvti (vd : BitVec 3) (vs1 : BitVec 3) (part : BitVec 3) (sato : BitVec 1) (mode : BitVec 2)
  /-- VCMPEQ (R269): Writes all-ones elements where operands are equal. -/
  | vcmpeq (vd : BitVec 3) (vs1 : BitVec 3) (vs2 : BitVec 3) (sz : BitVec 2) (code : BitVec 1)
  /-- VCMPLT (R269): Writes all-ones elements where vs1 is less than vs2. -/
  | vcmplt (vd : BitVec 3) (vs1 : BitVec 3) (vs2 : BitVec 3) (sz : BitVec 2) (code : BitVec 1)
  /-- VCMPLE (R269): Writes all-ones elements where vs1 is at most vs2. -/
  | vcmple (vd : BitVec 3) (vs1 : BitVec 3) (vs2 : BitVec 3) (sz : BitVec 2) (code : BitVec 1)
  /-- VSEL (R270): Selects bits of vs1 or vs2 by the mask in vd. -/
  | vsel (vd : BitVec 3) (vs1 : BitVec 3) (vs2 : BitVec 3)
  /-- VBQ (R270): Pushes a lane-nonzero mask to q2. -/
  | vbq (vs1 : BitVec 3)
  /-- VSUM (R271): Sums all elements in a fixed pairwise tree into element 0. -/
  | vsum (vd : BitVec 3) (vs1 : BitVec 3) (sz : BitVec 2) (code : BitVec 1)
  /-- VRMAX (R271): Reduces to the maximum element. -/
  | vrmax (vd : BitVec 3) (vs1 : BitVec 3) (sz : BitVec 2) (code : BitVec 1)
  /-- VRMIN (R271): Reduces to the minimum element. -/
  | vrmin (vd : BitVec 3) (vs1 : BitVec 3) (sz : BitVec 2) (code : BitVec 1)
  /-- VPERM (R272): Permutes elements of vs1 by indices in vs2. -/
  | vperm (vd : BitVec 3) (vs1 : BitVec 3) (vs2 : BitVec 3) (sz : BitVec 2)
  /-- VROT (R272): Rotates elements of vs1 by a scalar count. -/
  | vrot (vd : BitVec 3) (vs1 : BitVec 3) (xs : BitVec 5) (sz : BitVec 2)
  /-- VEXP2 (R273): Correctly rounded 2^x per element. -/
  | vexp2 (vd : BitVec 3) (vs1 : BitVec 3) (sz : BitVec 2)
  /-- VRCP (R273): Correctly rounded reciprocal per element. -/
  | vrcp (vd : BitVec 3) (vs1 : BitVec 3) (sz : BitVec 2)
  /-- VRSQ (R273): Correctly rounded reciprocal square root per element. -/
  | vrsq (vd : BitVec 3) (vs1 : BitVec 3) (sz : BitVec 2)
  /-- VLOG2 (R273): Correctly rounded base-2 logarithm per element. -/
  | vlog2 (vd : BitVec 3) (vs1 : BitVec 3) (sz : BitVec 2)
  /-- VSEED (R274): Sets each lane's LFSR seed from vs1. -/
  | vseed (vs1 : BitVec 3)
  /-- LEASE (R281): Waits at the queue head until its level holds the matrix lease. -/
  | lease
  /-- UNLEASE (R280): Ends the level's firing once its issued matrix commands retire. -/
  | unlease
  /-- RINGDEF (R284): Defines a ring from a 16-byte scratchpad record. -/
  | ringdef (xs : BitVec 5) (ia : BitVec 2)
  /-- RINGQ (R286): Pushes a ring's TILES, TAIL and HEAD to q1. -/
  | ringq (ia : BitVec 2)
  /-- RINGADV (R285): Advances a ring's tail by a count. -/
  | ringadv (xs : BitVec 5) (ia : BitVec 2)
  /-- KMMA (R290): Multiplies two ring tiles and accumulates or overwrites k0. -/
  | kmma (ia : BitVec 2) (ib : BitVec 2) (fa : BitVec 3) (fb : BitVec 3) (mode : BitVec 2)
  /-- KMMAS (R290): Tile product scaled by a popped q3 scale frame. -/
  | kmmas (ia : BitVec 2) (ib : BitVec 2) (fa : BitVec 3) (fb : BitVec 3) (mode : BitVec 2)
  /-- KMMAT (R290): Tile product with B read transposed. -/
  | kmmat (ia : BitVec 2) (ib : BitVec 2) (fa : BitVec 3) (fb : BitVec 3) (mode : BitVec 2)
  /-- KMMAN (R290): Negated tile product. -/
  | kmman (ia : BitVec 2) (ib : BitVec 2) (fa : BitVec 3) (fb : BitVec 3) (mode : BitVec 2)
  /-- KZERO (R292): Zeroes every element of k0. -/
  | kzero
  /-- KLD (R292): Loads k0 from 4,096 scratchpad bytes. -/
  | kld (xs : BitVec 5)
  /-- KST (R292): Stores k0 to 4,096 scratchpad bytes on path K. -/
  | kst (xs : BitVec 5)
  /-- KROW (R292): Moves a row or column of k0 into vd. -/
  | krow (vd : BitVec 3) (n : BitVec 6)
  /-- KPUTROW (R292): Moves vs into a row or column of k0. -/
  | kputrow (vs : BitVec 3) (n : BitVec 6)
  /-- KEEP (R293): Forms a scale frame from two scale rings for a target core's q3. -/
  | keep (xs : BitVec 5) (ia : BitVec 2) (ib : BitVec 2)
  /-- KSCQ (R295): Reports or removes the oldest q3 scale frame. -/
  | kscq (mode : BitVec 2)
  /-- KFAC (R297): Cholesky-factors the n×n lower triangle of k0 step by step. -/
  | kfac (n : BitVec 6)
  /-- KTRSL (R298): Forward-solves L y = b. -/
  | ktrsl (vd : BitVec 3) (vs : BitVec 3) (n : BitVec 6)
  /-- KTRSU (R298): Back-solves L^T x = y. -/
  | ktrsu (vd : BitVec 3) (vs : BitVec 3) (n : BitVec 6)
  /-- KMV (R299): Matrix-vector product with k0. -/
  | kmv (vd : BitVec 3) (vs : BitVec 3) (n : BitVec 6)
  /-- KMVT (R299): Transposed matrix-vector product with k0. -/
  | kmvt (vd : BitVec 3) (vs : BitVec 3) (n : BitVec 6)
  /-- KDIAG (R299): Adds an FP32 scalar to the diagonal of k0. -/
  | kdiag (xs : BitVec 5) (n : BitVec 6)
  /-- KCHKQ (R302): Pushes the checksum counters to q1, optionally clearing them. -/
  | kchkq (mode : BitVec 2)
  /-- KFLG (R303): Pushes KFLAGS to q1, optionally clearing selected flags. -/
  | kflg (xs : BitVec 5) (mode : BitVec 2)
  /-- POWER_ON_BOOT (R373): The Nierman controller verifies firmware, trains memory, zeroes keys and releases the compute dies. -/
  | powerOnBoot (ok : Bool)
  /-- SETCHIP (R374): Mailbox command setting CHIP on every endpoint. -/
  | setchip
  /-- RUN (R374): Mailbox command moving the part to the running state. -/
  | run
  /-- FKEYW (R374): Mailbox command writing a fabric key in every sluice and resetting its invocation counters. -/
  | fkeyw
  /-- MKEYW (R374): Mailbox command writing a memory key in every stack's XTS engine. -/
  | mkeyw
  /-- ATTEST (R375): Mailbox command writing a signed attestation report. -/
  | attest
  /-- ENQUEUE (R331): A 128-byte DMWr to a queue port is checked and accepted, answered busy or refused. -/
  | enqueue (vf port : Nat) (bytes : List (BitVec 8))
  /-- QUEUE_PORT_OTHER_ACCESS (R329): Another access to a queue port page completes with Unsupported Request, is discarded or reads zeros. -/
  | queuePortOtherAccess (a : PortAccess)
  /-- DISPATCHER_RESOLVE (R335): A die dispatcher resolves one queued record's placement by MODE. -/
  | dispatcherResolve (die : Nat)
  /-- DISPATCHER_DELIVERY (R336): A resolved host record is delivered to a free ready-set slot of its core. -/
  | dispatcherDelivery (die : Nat)
  /-- OCCUPANCY_REPORT (R335): Each cluster reports ready-set occupancy to its dispatcher every 64 cycles. -/
  | occupancyReport (cluster : Nat)
  /-- PUSH_FRAME (R37): At a selection point the chosen eligible record's frame is pushed and its task starts. -/
  | pushFrame (ep : Nat)
  /-- BOUNDARY_TRAP (R418): A pending step, watchpoint or kiln-check trap is taken at a frame's boundary. -/
  | boundaryTrap (ep : Nat)
  /-- DEADLINE_EXPIRY (R53): A task or record deadline expires, ending or discarding it and posting the deadline successor. -/
  | deadlineExpiry (ep : Nat)
  /-- REPLY_FILL (R44): A reply to a split-phase request fills its register in the issuing frame's window. -/
  | replyFill (ep : Nat)
  /-- ONE_RESULT_FILL (R59): The elected member's result fills a follower's destination. -/
  | oneResultFill (cluster : Nat)
  /-- ALIGN_TIMEOUT (R58): An ALIGN wait ends after 256 cycles. -/
  | alignTimeout (ep : Nat)
  /-- BANK_RETENTION (R72): A register bank with no access for 32 cycles enters retention. -/
  | bankRetention (ep bank : Nat)
  /-- KILN_VECTOR_ISSUE (R253): The vector section issues one ready command round-robin among the quad's queues. -/
  | kilnVectorIssue (quad : Nat)
  /-- LEASE_GRANT (R279): The matrix lease is granted to the next requesting core and level. -/
  | leaseGrant (quad : Nat)
  /-- MATRIX_COMMAND_ISSUE (R290): The lease holder's matrix command issues, taking its issue tiles. -/
  | matrixCommandIssue (quad : Nat)
  /-- KILN_COMMAND_RETIRE (R278): A kiln command reaches its retirement, writing results, popping tiles and pushing queue entries. -/
  | kilnCommandRetire (quad : Nat)
  /-- SOLVE_STEP_COMPLETE (R300): A step of KFAC, KTRSL or KTRSU finishes, where the command may suspend or abort. -/
  | solveStepComplete (quad : Nat)
  /-- SCALE_FRAME_DELIVERY (R293): A KEEP's scale frame is delivered to the target's q3 once it has room. -/
  | scaleFrameDelivery (quad : Nat)
  /-- KILN_GATE (R376): A kiln section idle for 1,024 cycles is gated. -/
  | kilnGate (quad : Nat) (matrix : Bool)
  /-- GAP_MEASUREMENT (R377): Every 1,024 cycles package draw is measured and the firing gap adjusted. -/
  | gapMeasurement (draw : Nat)
  /-- CONE_REPLAN (R378): Hourly ageing sampling re-plans each cluster's voltage guard band. -/
  | coneReplan (cluster band : Nat) (out : Bool)
  /-- DRAM_SCRUB (R405): Each stack's logic die scrubs the whole stack once every 24 hours. -/
  | dramScrub (stack : Nat)
  /-- ERRCTL_WRITE (R410): A write of ERRCTL with EN 1 resets HEAD, TAIL and LOST. -/
  | errctlWrite (v : BitVec 64)
  /-- CHECKPOINT_TIMER (R368): A checkpoint is taken when CKI cycles have passed since the last. -/
  | checkpointTimer (ep : Nat)
  /-- COMPACTION (R143): A published record is applied at its home slice and sends notes or invalidations. -/
  | compaction (home : Nat)
  /-- RECORD_ACKNOWLEDGEMENT (R144): An acknowledgement reaches the writer, freeing log space and advancing its compacted horizon. -/
  | recordAcknowledgement (ep : Nat)
  /-- STALE_NOTE (R146): A stale note reaches a sharer and is buffered or discarded. -/
  | staleNote (ep : Nat)
  /-- INVALIDATION (R146): An invalidation reaches a sharer, dropping its L1 line and buffered notes. -/
  | invalidation (ep : Nat)
  /-- DIRECTORY_PORT_SEND_NOTE (R148): A directory port write with INV 0 sends the latched note or LOSS invalidation. -/
  | directoryPortSendNote (slice target : Nat)
  /-- DIRECTORY_PORT_SEND_INVALIDATION (R148): A directory port write with INV 1 sends an invalidation of the latched line. -/
  | directoryPortSendInvalidation (slice target : Nat)
  /-- ACQUIRE_QUERY (R149): An acquire query reaches a writer, which takes its target. -/
  | acquireQuery (ep : Nat)
  /-- ACQUIRE_ANSWER (R150): A writer answers a query once its compacted horizon reaches the target. -/
  | acquireAnswer (ep : Nat)
  /-- ACQUIRE_COMPLETE (R150): All answers arrive; matching notes are replayed and CLK advanced. -/
  | acquireComplete (ep : Nat)
  /-- VH_REFRESH (R151): Dispatchers start a two-phase device publish horizon refresh. -/
  | vhRefresh (vdev : Nat)
  /-- VH_REFRESH_COMPLETE (R151): A horizon refresh completes and VH takes the least report. -/
  | vhRefreshComplete (vdev : Nat)
  /-- FILL_AT_HOME (R145): A fill request reaches its home slice, which registers the sharer and replies. -/
  | fillAtHome (home : Nat)
  /-- WRITE_BACK_GRANT (R129): An evicted sector is granted a memory-controller token and written back. -/
  | writeBackGrant (home : Nat)
  /-- FILL_REPLY (R128): A sector fill arrives, own unacknowledged records are applied and the load returns. -/
  | fillReply (ep : Nat)
  /-- ATOM_AT_HOME (R157): An atomic is applied at its home in one step and replies with the old value. -/
  | atomAtHome (home : Nat)
  /-- REDUCTION_AT_HOME (R158): A merged reduction is applied at the home as one operation. -/
  | reductionAtHome (home : Nat)
  /-- REMOTE_LOAD_AT_TARGET (R232): An LDR or LDRW request reads at the home or scratchpad and replies. -/
  | remoteLoadAtTarget (ep : Nat)
  /-- SCRATCHPAD_REMOTE_ACCESS (R126): A team-window or core-array access reaches another core's scratchpad. -/
  | scratchpadRemoteAccess (ep : Nat)
  /-- CHUNK_ISSUE (R309): The copy engine issues one chunk, reading its source. -/
  | chunkIssue (cluster : Nat)
  /-- CHUNK_LANDING (R310): A chunk is written in a scratchpad or applied at its home. -/
  | chunkLanding (target : Nat)
  /-- CHUNK_ACKNOWLEDGEMENT (R312): A chunk's acknowledgement returns, after its bytes are counted. -/
  | chunkAcknowledgement (cluster : Nat)
  /-- STAMP_PACKET (R311): A copy's stamp packet reaches a home and stamps its bytes. -/
  | stampPacket (home : Nat)
  /-- COPY_COMPLETION (R249): A copy completes: locks freed, tag pushed to q4, successor posted. -/
  | copyCompletion (cluster : Nat)
  /-- POST_ARRIVAL (R30): A posted record arrives at its target ready set or receive queue. -/
  | postArrival (ep : Nat)
  /-- POST_STATUS (R218): A post's status returns and settles its implicit release. -/
  | postStatus (ep : Nat)
  /-- ARBITER_GRANT (R339): An arbiter with a free output grants a guaranteed or borrowed request. -/
  | arbiterGrant (kind unit : Nat)
  /-- NI_DELIVERY (R320): A network interface delivers a packet in SSEQ order or refuses it. -/
  | niDelivery (ep : Nat)
  /-- SKIP_NOTICE (R461): A skip notice consumes a sequence number that will never arrive. -/
  | skipNotice (src dst seq : Nat)
  /-- REFUSAL_AT_SENDER (R437): A refusal reaches its sender and fills, fails or aborts the request. -/
  | refusalAtSender (ep : Nat)
  /-- SLUICE_EGRESS (R315): A sluice turns a mesh packet into an encrypted link packet under its send allowance. -/
  | sluiceEgress (port : Nat)
  /-- SLUICE_INGRESS (R324): An ingress sluice authenticates and decrypts a link packet and routes it. -/
  | sluiceIngress (port : Nat) (tagOk : Bool)
  /-- LINK_FRAME_RESEND (R317): A link frame failing its CRC is resent. -/
  | linkFrameResend (port : Nat)
  /-- PORT_DOWN (R439): A port that resends one frame 64 times is declared down and its packets rerouted. -/
  | portDown (port : Nat)
  /-- BARRIER_NOTICE (R327): A gang barrier notice arrives, advancing rounds or completing the arrival. -/
  | barrierNotice (ep : Nat)
  /-- ABORT_NOTICE (R446): An ABORT notice completes an open gang arrival with ABORTED and is forwarded. -/
  | abortNotice (ep : Nat)
  /-- CARVE_OUT_APPLY (R124): A member applies a new carve-out at its first idle moment. -/
  | carveOutApply (ep : Nat)
  /-- SLICE_END (R348): A saggar slice ends after its length and the rotation moves on. -/
  | sliceEnd (sag : Nat)
  /-- SLICE_EARLY_END (R348): A slice ends early after 4,096 cycles with no work and credits its unused cycles. -/
  | sliceEarlyEnd (sag : Nat)
  /-- LAUNCH (R356): VDCTL command 1 launches a virtual device with initial context blocks. -/
  | launch (vdev : Nat)
  /-- RESET (R445): VDCTL command 2 resets a virtual device to a new generation. -/
  | reset (vdev : Nat)
  /-- TEARDOWN (R448): VDCTL command 3 resets a device and starts the quiet handshake. -/
  | teardown (vdev : Nat)
  /-- RESET_SCAN (R447): 2^17 cycles after a reset, old-generation reservations are freed and the reset completes. -/
  | resetScan (vdev : Nat)
  /-- QUIET_MARKER (R448): A peer sluice answers a QUIET marker after delivering earlier frames. -/
  | quietMarker (port : Nat)
  /-- QUIET_ANSWER (R448): A QUIET answer arrives; the last completes the teardown. -/
  | quietAnswer (vdev port : Nat)
  /-- QUIET_HANDSHAKE_TIMEOUT (R448): The teardown completes by timeout 2^20 cycles after the command. -/
  | quietHandshakeTimeout (vdev : Nat)
  /-- GEN_REFUND_NOTICE (R447): A notice for a dropped old-generation packet refunds its flits to the sluice bucket. -/
  | genRefundNotice (port vdev cls flits : Nat)
  /-- SAGGAR_CONTAINMENT (R441): A class-3 event fences, stops and clears a saggar and resets its device. -/
  | saggarContainment (sag : Nat)
  /-- FENCE_FALL (R441): The fence falls when containment steps have completed. -/
  | fenceFall (sag : Nat)
  /-- ATS_RESPONSE (R367): An ATS translation completes, mapping the VA or sending a page request. -/
  | atsResponse (id : Nat) (hpa : Option Nat) (perm : BitVec 3)
  /-- PAGE_RESPONSE (R367): A PRI page response posts the page-response task or is dropped. -/
  | pageResponse (grp code : Nat)
  /-- ATS_INVALIDATION (R367): A host ATS invalidation drops cached translations. -/
  | atsInvalidation (vdev va : Nat)
  /-- HOST_CXL_MEM_READ (R366): A host CXL.mem read returns the value at the home slice. -/
  | hostCxlMemRead (addr n : Nat)
  /-- HOST_CXL_MEM_WRITE (R366): A host CXL.mem write is applied at the home as an atomic. -/
  | hostCxlMemWrite (addr : Nat) (bytes : List (BitVec 8)) (poison : Bool)
  /-- TEAMSTG_WRITE (R83): Stages the core's next team mask, trapping if its own bit is clear. -/
  | teamstgWrite (v : BitVec 64)
  /-- KTOL_KFLOOR_WRITE (R208): Waits for queued kiln commands, then stores a clamped KTOL or KFLOOR. -/
  | ktolKfloorWrite (csr : BitVec 12) (v : BitVec 64)
  /-- SUCC_CSR_WRITE (R81): Writing SUCC.ARM 1 arms a successor as the SUCC instruction does. -/
  | succCsrWrite (v : BitVec 64)
  /-- TBCTL_WITHDRAW (R429): Withdraws this core's standing team barrier arrival. -/
  | tbctlWithdraw
  /-- GBSTAT_WITHDRAW (R430): Withdraws this core's gang barrier arrival with the selected BID. -/
  | gbstatWithdraw
  /-- BKCFG_WRITE (R345): Configures a bucket and starts enforcement at its arbiter. -/
  | bkcfgWrite (v : BitVec 64)
  /-- SGRECT_WRITE (R358): Defines or disables a saggar, trapping on illegal rectangles. -/
  | sgrectWrite (v : BitVec 64)
  /-- REGISTER_WRITE (R207): A write to any other register applies field access codes and clamps. -/
  | registerWrite (csr : BitVec 12) (v : BitVec 64)
  /-- ILLEGAL_INSTRUCTION_WORD (R172): A fetched word that fails a decode check raises the illegal-instruction trap with no other effect. -/
  | illegalInstructionWord (w : BitVec 32)
  /-- INSTRUCTION_FETCH_FAULT (R163): A fetch from a non-executable, local-window, core-array or MMIO address raises the access fault with the PC at the fetched word. -/
  | instructionFetchFault (addr : BitVec 64)
  /-- LEASE_GRANT_TERM_EXPIRY (R281): 64 cycles after a grant to a LEASE, the firing may end under event 5 when another core is requesting and the holder is not. -/
  | leaseGrantTermExpiry (quad : Nat)
  /-- CXL_CACHE_HOST_SNOOP (R136): The host's coherence traffic under CXL.cache acts on a host line held at its home slice. -/
  | cxlCacheHostSnoop (addr : Nat) (k : Snoop)
deriving DecidableEq, Repr

/-- Whether the instruction has an encoding (R172): the hardware steps of the opcode table have none. -/
def Instr.hasWord : Instr → Bool
  | .powerOnBoot _ => false
  | .setchip => false
  | .run => false
  | .fkeyw => false
  | .mkeyw => false
  | .attest => false
  | .enqueue _ _ _ => false
  | .queuePortOtherAccess _ => false
  | .dispatcherResolve _ => false
  | .dispatcherDelivery _ => false
  | .occupancyReport _ => false
  | .pushFrame _ => false
  | .boundaryTrap _ => false
  | .deadlineExpiry _ => false
  | .replyFill _ => false
  | .oneResultFill _ => false
  | .alignTimeout _ => false
  | .bankRetention _ _ => false
  | .kilnVectorIssue _ => false
  | .leaseGrant _ => false
  | .matrixCommandIssue _ => false
  | .kilnCommandRetire _ => false
  | .solveStepComplete _ => false
  | .scaleFrameDelivery _ => false
  | .kilnGate _ _ => false
  | .gapMeasurement _ => false
  | .coneReplan _ _ _ => false
  | .dramScrub _ => false
  | .errctlWrite _ => false
  | .checkpointTimer _ => false
  | .compaction _ => false
  | .recordAcknowledgement _ => false
  | .staleNote _ => false
  | .invalidation _ => false
  | .directoryPortSendNote _ _ => false
  | .directoryPortSendInvalidation _ _ => false
  | .acquireQuery _ => false
  | .acquireAnswer _ => false
  | .acquireComplete _ => false
  | .vhRefresh _ => false
  | .vhRefreshComplete _ => false
  | .fillAtHome _ => false
  | .writeBackGrant _ => false
  | .fillReply _ => false
  | .atomAtHome _ => false
  | .reductionAtHome _ => false
  | .remoteLoadAtTarget _ => false
  | .scratchpadRemoteAccess _ => false
  | .chunkIssue _ => false
  | .chunkLanding _ => false
  | .chunkAcknowledgement _ => false
  | .stampPacket _ => false
  | .copyCompletion _ => false
  | .postArrival _ => false
  | .postStatus _ => false
  | .arbiterGrant _ _ => false
  | .niDelivery _ => false
  | .skipNotice _ _ _ => false
  | .refusalAtSender _ => false
  | .sluiceEgress _ => false
  | .sluiceIngress _ _ => false
  | .linkFrameResend _ => false
  | .portDown _ => false
  | .barrierNotice _ => false
  | .abortNotice _ => false
  | .carveOutApply _ => false
  | .sliceEnd _ => false
  | .sliceEarlyEnd _ => false
  | .launch _ => false
  | .reset _ => false
  | .teardown _ => false
  | .resetScan _ => false
  | .quietMarker _ => false
  | .quietAnswer _ _ => false
  | .quietHandshakeTimeout _ => false
  | .genRefundNotice _ _ _ _ => false
  | .saggarContainment _ => false
  | .fenceFall _ => false
  | .atsResponse _ _ _ => false
  | .pageResponse _ _ => false
  | .atsInvalidation _ _ => false
  | .hostCxlMemRead _ _ => false
  | .hostCxlMemWrite _ _ _ => false
  | .teamstgWrite _ => false
  | .ktolKfloorWrite _ _ => false
  | .succCsrWrite _ => false
  | .tbctlWithdraw => false
  | .gbstatWithdraw => false
  | .bkcfgWrite _ => false
  | .sgrectWrite _ => false
  | .registerWrite _ _ => false
  | .illegalInstructionWord _ => false
  | .instructionFetchFault _ => false
  | .leaseGrantTermExpiry _ => false
  | .cxlCacheHostSnoop _ _ => false
  | _ => true

end Sys2Proof
end

