-- ==== Sys2Proof/Machine/KilnOrder.lean ====
section
/-! DEFINITION. What a kiln command reads and writes of its state set, and which commands it holds back (R37, R254, R276,
R284, R300). -/

namespace Sys2Proof.Machine

/-- Matrix commands (R275). -/
def isMatrix : Instr → Bool
  | .kmma .. | .kmmas .. | .kmmat .. | .kmman .. | .kzero | .kld .. | .kst .. | .krow .. | .kputrow ..
  | .kfac .. | .ktrsl .. | .ktrsu .. | .kmv .. | .kmvt .. | .kdiag .. => true
  | _ => false

def isLease : Instr → Bool
  | .lease => true
  | _ => false

/-- Whether a command may set bits of KFLAGS. Bits are only ever added, so such commands keep no order among themselves;
they follow a KFLG that clears bits (R276; log entry 15). -/
def setsFlags : Instr → Bool
  | .vld .. | .vst .. | .vlds .. | .vgth .. | .vsct .. | .vadd .. | .vsub .. | .vmul .. | .vfma .. | .vmax .. | .vmin ..
  | .vabs .. | .vneg .. | .viadds .. | .vcvt .. | .vcvti .. | .vcmplt .. | .vcmple .. | .vsum .. | .vrmax .. | .vrmin ..
  | .vexp2 .. | .vrcp .. | .vrsq .. | .vlog2 .. | .kmma .. | .kmmas .. | .kmmat .. | .kmman .. | .kld .. | .kst ..
  | .keep .. | .kfac .. | .ktrsl .. | .ktrsu .. | .kmv .. | .kmvt .. | .kdiag .. => true
  | _ => false

/-- The registers, k0, rings and queues a command reads: v-registers 0 to 7, k0 8, rings 9 to 12, q1 13, q3 14. A KEEP
writes the q3 of its target, which its operand names (R293). -/
def kReads : Instr → List Nat
  | .voutq v _ _ => [v.toNat]
  | .vmv _ v => [v.toNat]
  | .vlane _ v _ _ => [v.toNat]
  | .vst v _ => [v.toNat]
  | .vlds _ v _ _ => [v.toNat]
  | .vgth _ v _ => [v.toNat]
  | .vsct a b _ => [a.toNat, b.toNat]
  | .vadd _ a b _ | .vsub _ a b _ | .vmul _ a b _ | .vmax _ a b _ | .vmin _ a b _ => [a.toNat, b.toNat]
  | .vfma d a b _ => [d.toNat, a.toNat, b.toNat]
  | .vabs _ a _ | .vneg _ a _ => [a.toNat]
  | .viadd _ a b | .visub _ a b | .vimul _ a b | .vand _ a b | .vor _ a b | .vxor _ a b | .vshl _ a b | .vshr _ a b
  | .vsra _ a b | .viadds _ a b => [a.toNat, b.toNat]
  | .vcvt d a _ _ _ | .vcvti d a _ _ _ => [d.toNat, a.toNat]
  | .vcmpeq _ a b _ _ | .vcmplt _ a b _ _ | .vcmple _ a b _ _ => [a.toNat, b.toNat]
  | .vsel d a b => [d.toNat, a.toNat, b.toNat]
  | .vbq a | .vseed a => [a.toNat]
  | .vsum _ a _ _ | .vrmax _ a _ _ | .vrmin _ a _ _ => [a.toNat]
  | .vperm _ a b _ => [a.toNat, b.toNat]
  | .vrot _ a _ _ => [a.toNat]
  | .vexp2 _ a _ | .vrcp _ a _ | .vrsq _ a _ | .vlog2 _ a _ => [a.toNat]
  | .ringq ia => [9 + ia.toNat]
  | .kmma ia ib _ _ _ | .kmmas ia ib _ _ _ | .kmmat ia ib _ _ _ | .kmman ia ib _ _ _ => [8, 9 + ia.toNat, 9 + ib.toNat]
  | .kst _ => [8]
  | .krow _ _ => [8]
  | .kputrow v _ => [v.toNat]
  | .keep _ ia ib => [9 + ia.toNat, 9 + ib.toNat]
  | .kscq _ => [14]
  | .kfac _ => [8]
  | .ktrsl _ v _ | .ktrsu _ v _ | .kmv _ v _ | .kmvt _ v _ => [8, v.toNat]
  | .kdiag _ _ => [8]
  | _ => []

/-- The same, for what a command writes. -/
def kWrites : Instr → List Nat
  | .vspl v _ _ => [v.toNat]
  | .vsplq v _ => [v.toNat]
  | .voutq _ _ _ => [13]
  | .vmv v _ => [v.toNat]
  | .vlane v _ _ _ => [v.toNat]
  | .vld v _ => [v.toNat]
  | .vlds v _ _ _ => [v.toNat]
  | .vgth v _ _ => [v.toNat]
  | .vadd d _ _ _ | .vsub d _ _ _ | .vmul d _ _ _ | .vmax d _ _ _ | .vmin d _ _ _ | .vfma d _ _ _ => [d.toNat]
  | .vabs d _ _ | .vneg d _ _ => [d.toNat]
  | .viadd d _ _ | .visub d _ _ | .vimul d _ _ | .vand d _ _ | .vor d _ _ | .vxor d _ _ | .vshl d _ _ | .vshr d _ _
  | .vsra d _ _ | .viadds d _ _ => [d.toNat]
  | .vcvt d _ _ _ _ | .vcvti d _ _ _ _ => [d.toNat]
  | .vcmpeq d _ _ _ _ | .vcmplt d _ _ _ _ | .vcmple d _ _ _ _ => [d.toNat]
  | .vsel d _ _ => [d.toNat]
  | .vsum d _ _ _ | .vrmax d _ _ _ | .vrmin d _ _ _ => [d.toNat]
  | .vperm d _ _ _ => [d.toNat]
  | .vrot d _ _ _ => [d.toNat]
  | .vexp2 d _ _ | .vrcp d _ _ | .vrsq d _ _ | .vlog2 d _ _ => [d.toNat]
  | .ringdef _ ia | .ringadv _ ia => [9 + ia.toNat]
  | .ringq _ => [13]
  | .kmma ia ib _ _ _ | .kmmat ia ib _ _ _ | .kmman ia ib _ _ _ => [8, 9 + ia.toNat, 9 + ib.toNat]
  | .kmmas ia ib _ _ _ => [8, 9 + ia.toNat, 9 + ib.toNat, 14]
  | .kzero => [8]
  | .kld _ => [8]
  | .kputrow _ _ => [8]
  | .krow v _ => [v.toNat]
  | .keep _ ia ib => [9 + ia.toNat, 9 + ib.toNat]
  | .kscq m => if m = 0 then [13] else [14]
  | .kfac _ => [8]
  | .ktrsl v _ _ | .ktrsu v _ _ | .kmv v _ _ | .kmvt v _ _ => [v.toNat]
  | .kdiag _ _ => [8]
  | .kchkq _ | .kflg _ _ => [13]
  | _ => []

/-- Commands that wait for every earlier command of their set (R276). -/
def waitsAll : Instr → Bool
  | .kflg .. => true
  | .kchkq _ => true
  | _ => false

/-- Whether a command clears bits of KFLAGS. -/
def clearsFlags : Instr → Bool
  | .kflg _ m => m = 1
  | _ => false

/-- Whether a RINGDEF meets an earlier command that uses its ring (R284). -/
def ringUsed (f c : Instr) : Bool :=
  match c with
  | .ringdef _ ia => (kReads f).contains (9 + ia.toNat)
  | _ => false

/-- Whether a command holds back a later one of its state set (R254, R276, R284); of two products more is to be said (R276). -/
def holdsBack (f c : Instr) : Bool :=
  waitsAll c || (kWrites f).any (fun r => (kReads c).contains r || (kWrites c).contains r) ||
    (clearsFlags f && setsFlags c) || ringUsed f c

/-- Whether a command has to do with what a suspended solve command reads or writes, so that it cannot go before it. -/
def tied (f c : Instr) : Bool := holdsBack f c || (kWrites c).any (fun r => (kReads f).contains r)

end Sys2Proof.Machine
end

