-- ==== Sys2Proof/WellFormed.lean ====
section
/-! DEFINITION. Which instructions have an encoding: the format codes, sz values, modes and queue codes that each
entry accepts (check 5 of R172, R166). -/

namespace Sys2Proof

/-- A queue code names q0 to q4 (R234). -/
def queueOk (q : BitVec 5) : Bool := q.toNat ≤ 4

/-- A mode of KMMA, KSCQ, KCHKQ or KFLG is 0 or 1 (R289, R295, R302, R303). -/
def modeOk (m : BitVec 2) : Bool := m.toNat ≤ 1

/-- The format pairs that the products accept, fa naming A and fb naming B (R289, codes of R166). -/
def pairOk (fa fb : BitVec 3) : Bool :=
  match fa.toNat, fb.toNat with
  | 1, 1 => true
  | 2, 2 => true
  | 3, 3 => true
  | 3, 4 => true
  | 4, 3 => true
  | 4, 4 => true
  | 5, 1 => true
  | 1, 5 => true
  | 6, 6 => true
  | _, _ => false

/-- The pairs of KMMAS: not INT8 (R289). -/
def scaledPairOk (fa fb : BitVec 3) : Bool := pairOk fa fb && fa.toNat != 6

/-- In a compare or a reduction the xs code is 1 only with sz = 0b00 (R259). -/
def codeOk (sz : BitVec 2) (code : BitVec 1) : Bool := code == 0#1 || sz == 0#2

/-- A conversion's MODE is NE, TZ or SR (R267). -/
def convModeOk (m : BitVec 2) : Bool := m != 3#2

/-- In KFLG with mode 0, xs is unused and zero (R303). -/
def flagModeOk (m : BitVec 2) (xs : BitVec 5) : Bool := modeOk m && (m != 0#2 || xs == 0#5)

/-- The instruction has an encoding, and its codes are ones its entry accepts. -/
def Instr.wellFormed : Instr → Bool
  | .qpush _ _ q => queueOk q
  | .qpop _ q => queueOk q
  | .qlen _ q => queueOk q
  | .vcvt _ _ _ _ m => convModeOk m
  | .vcvti _ _ _ _ m => convModeOk m
  | .vcmpeq _ _ _ sz c => codeOk sz c
  | .vcmplt _ _ _ sz c => codeOk sz c
  | .vcmple _ _ _ sz c => codeOk sz c
  | .vsum _ _ sz c => codeOk sz c
  | .vrmax _ _ sz c => codeOk sz c
  | .vrmin _ _ sz c => codeOk sz c
  | .kmma _ _ fa fb m => pairOk fa fb && modeOk m
  | .kmmas _ _ fa fb m => scaledPairOk fa fb && modeOk m
  | .kmmat _ _ fa fb m => pairOk fa fb && modeOk m
  | .kmman _ _ fa fb m => pairOk fa fb && modeOk m
  | .kscq m => modeOk m
  | .kchkq m => modeOk m
  | .kflg xs m => flagModeOk m xs
  | i => i.hasWord

end Sys2Proof
end

