-- ==== Sys2Proof/Decode.lean ====
section
/-! DEFINITION. The decoder of R172, total on every word and rejecting by name, and the encoder of the same tables
(R164, R168 to R171, R191 to R195). -/

namespace Sys2Proof

/-- The check of R172 that a word fails first. -/
inductive DecodeError where
  /-- check 1: bits [1:0] are not 0b11 -/
  | framing
  /-- check 2: bits [6:0] are no major opcode of the part -/
  | opcode
  /-- check 3: a word of a standard major opcode that R191 to R195 do not list -/
  | standard
  /-- check 4: funct3, funct5, funct6 or funct2 is not assigned -/
  | selector
  /-- check 5: a non-zero unused field, or a format code, sz value, mode or queue the entry does not accept -/
  | field
deriving DecidableEq, Repr

/-- The funct3 field. -/
def funct3 (w : BitVec 32) : BitVec 3 := w.extractLsb' 12 3
/-- The funct7 field of the R format. -/
def funct7 (w : BitVec 32) : BitVec 7 := w.extractLsb' 25 7
/-- The selecting bits imm[11:6] of the 64-bit shifts (R193), and funct6 of the V format (R164). -/
def funct6 (w : BitVec 32) : BitVec 6 := w.extractLsb' 26 6
/-- funct5 of the E, K and KV formats (R164). -/
def funct5 (w : BitVec 32) : BitVec 5 := w.extractLsb' 27 5
/-- funct2 of the E4 format (R164). -/
def funct2 (w : BitVec 32) : BitVec 2 := w.extractLsb' 25 2
/-- The whole I-type immediate, which selects ECALL and EBREAK (R195). -/
def funct12 (w : BitVec 32) : BitVec 12 := w.extractLsb' 20 12
/-- Bits [12:1] of the B-type immediate (R191). -/
def immB (w : BitVec 32) : BitVec 12 :=
  w.extractLsb' 31 1 ++ w.extractLsb' 7 1 ++ w.extractLsb' 25 6 ++ w.extractLsb' 8 4
/-- The S-type immediate (R192). -/
def immS (w : BitVec 32) : BitVec 12 := w.extractLsb' 25 7 ++ w.extractLsb' 7 5
/-- Bits [20:1] of the J-type immediate (R191). -/
def immJ (w : BitVec 32) : BitVec 20 :=
  w.extractLsb' 31 1 ++ w.extractLsb' 12 8 ++ w.extractLsb' 20 1 ++ w.extractLsb' 21 10

/-- Check 5 of R172 for the zero fields of R165: the instruction where they are as required. -/
def fields (p : Prop) [Decidable p] (i : Instr) : Except DecodeError Instr :=
  if p then .ok i else .error .field

/-- Words of major opcode 0x03 (R168 to R171, R191 to R195). -/
def decodeLoad (w : BitVec 32) : Except DecodeError Instr :=
  match (funct3 w).toNat with
  | 0 => .ok (.lb (w.extractLsb' 7 5) (w.extractLsb' 15 5) (w.extractLsb' 20 12))
  | 1 => .ok (.lh (w.extractLsb' 7 5) (w.extractLsb' 15 5) (w.extractLsb' 20 12))
  | 2 => .ok (.lw (w.extractLsb' 7 5) (w.extractLsb' 15 5) (w.extractLsb' 20 12))
  | 3 => .ok (.ld (w.extractLsb' 7 5) (w.extractLsb' 15 5) (w.extractLsb' 20 12))
  | 4 => .ok (.lbu (w.extractLsb' 7 5) (w.extractLsb' 15 5) (w.extractLsb' 20 12))
  | 5 => .ok (.lhu (w.extractLsb' 7 5) (w.extractLsb' 15 5) (w.extractLsb' 20 12))
  | 6 => .ok (.lwu (w.extractLsb' 7 5) (w.extractLsb' 15 5) (w.extractLsb' 20 12))
  | _ => .error .standard

/-- Words of major opcode 0x0f (R168 to R171, R191 to R195). -/
def decodeMiscMem (w : BitVec 32) : Except DecodeError Instr :=
  match (funct3 w).toNat with
  | 0 => fields (w.extractLsb' 7 5 = 0#5 ∧ w.extractLsb' 15 5 = 0#5 ∧ w.extractLsb' 28 3 = 0#3) (.fence (w.extractLsb' 31 1) (w.extractLsb' 24 4) (w.extractLsb' 20 4))
  | 1 => fields (w.extractLsb' 7 5 = 0#5 ∧ w.extractLsb' 15 17 = 0#17) (.fenceI)
  | _ => .error .standard

/-- Words of major opcode 0x13 (R168 to R171, R191 to R195). -/
def decodeOpImm (w : BitVec 32) : Except DecodeError Instr :=
  match (funct3 w).toNat with
  | 0 => .ok (.addi (w.extractLsb' 7 5) (w.extractLsb' 15 5) (w.extractLsb' 20 12))
  | 1 =>
    match (funct6 w).toNat with
    | 0 => .ok (.slli (w.extractLsb' 7 5) (w.extractLsb' 15 5) (w.extractLsb' 20 6))
    | _ => .error .standard
  | 2 => .ok (.slti (w.extractLsb' 7 5) (w.extractLsb' 15 5) (w.extractLsb' 20 12))
  | 3 => .ok (.sltiu (w.extractLsb' 7 5) (w.extractLsb' 15 5) (w.extractLsb' 20 12))
  | 4 => .ok (.xori (w.extractLsb' 7 5) (w.extractLsb' 15 5) (w.extractLsb' 20 12))
  | 5 =>
    match (funct6 w).toNat with
    | 0 => .ok (.srli (w.extractLsb' 7 5) (w.extractLsb' 15 5) (w.extractLsb' 20 6))
    | 16 => .ok (.srai (w.extractLsb' 7 5) (w.extractLsb' 15 5) (w.extractLsb' 20 6))
    | _ => .error .standard
  | 6 => .ok (.ori (w.extractLsb' 7 5) (w.extractLsb' 15 5) (w.extractLsb' 20 12))
  | 7 => .ok (.andi (w.extractLsb' 7 5) (w.extractLsb' 15 5) (w.extractLsb' 20 12))
  | _ => .error .standard

/-- Words of major opcode 0x1b (R168 to R171, R191 to R195). -/
def decodeOpImm32 (w : BitVec 32) : Except DecodeError Instr :=
  match (funct3 w).toNat with
  | 0 => .ok (.addiw (w.extractLsb' 7 5) (w.extractLsb' 15 5) (w.extractLsb' 20 12))
  | 1 =>
    match (funct7 w).toNat with
    | 0 => .ok (.slliw (w.extractLsb' 7 5) (w.extractLsb' 15 5) (w.extractLsb' 20 5))
    | _ => .error .standard
  | 5 =>
    match (funct7 w).toNat with
    | 0 => .ok (.srliw (w.extractLsb' 7 5) (w.extractLsb' 15 5) (w.extractLsb' 20 5))
    | 32 => .ok (.sraiw (w.extractLsb' 7 5) (w.extractLsb' 15 5) (w.extractLsb' 20 5))
    | _ => .error .standard
  | _ => .error .standard

/-- Words of major opcode 0x23 (R168 to R171, R191 to R195). -/
def decodeStore (w : BitVec 32) : Except DecodeError Instr :=
  match (funct3 w).toNat with
  | 0 => .ok (.sb (w.extractLsb' 15 5) (w.extractLsb' 20 5) (immS w))
  | 1 => .ok (.sh (w.extractLsb' 15 5) (w.extractLsb' 20 5) (immS w))
  | 2 => .ok (.sw (w.extractLsb' 15 5) (w.extractLsb' 20 5) (immS w))
  | 3 => .ok (.sd (w.extractLsb' 15 5) (w.extractLsb' 20 5) (immS w))
  | _ => .error .standard

/-- Words of major opcode 0x33 (R168 to R171, R191 to R195). -/
def decodeOp (w : BitVec 32) : Except DecodeError Instr :=
  match (funct3 w).toNat with
  | 0 =>
    match (funct7 w).toNat with
    | 0 => .ok (.add (w.extractLsb' 7 5) (w.extractLsb' 15 5) (w.extractLsb' 20 5))
    | 32 => .ok (.sub (w.extractLsb' 7 5) (w.extractLsb' 15 5) (w.extractLsb' 20 5))
    | 1 => .ok (.mul (w.extractLsb' 7 5) (w.extractLsb' 15 5) (w.extractLsb' 20 5))
    | _ => .error .standard
  | 1 =>
    match (funct7 w).toNat with
    | 0 => .ok (.sll (w.extractLsb' 7 5) (w.extractLsb' 15 5) (w.extractLsb' 20 5))
    | 1 => .ok (.mulh (w.extractLsb' 7 5) (w.extractLsb' 15 5) (w.extractLsb' 20 5))
    | _ => .error .standard
  | 2 =>
    match (funct7 w).toNat with
    | 0 => .ok (.slt (w.extractLsb' 7 5) (w.extractLsb' 15 5) (w.extractLsb' 20 5))
    | 1 => .ok (.mulhsu (w.extractLsb' 7 5) (w.extractLsb' 15 5) (w.extractLsb' 20 5))
    | _ => .error .standard
  | 3 =>
    match (funct7 w).toNat with
    | 0 => .ok (.sltu (w.extractLsb' 7 5) (w.extractLsb' 15 5) (w.extractLsb' 20 5))
    | 1 => .ok (.mulhu (w.extractLsb' 7 5) (w.extractLsb' 15 5) (w.extractLsb' 20 5))
    | _ => .error .standard
  | 4 =>
    match (funct7 w).toNat with
    | 0 => .ok (.xor (w.extractLsb' 7 5) (w.extractLsb' 15 5) (w.extractLsb' 20 5))
    | 1 => .ok (.div (w.extractLsb' 7 5) (w.extractLsb' 15 5) (w.extractLsb' 20 5))
    | _ => .error .standard
  | 5 =>
    match (funct7 w).toNat with
    | 0 => .ok (.srl (w.extractLsb' 7 5) (w.extractLsb' 15 5) (w.extractLsb' 20 5))
    | 32 => .ok (.sra (w.extractLsb' 7 5) (w.extractLsb' 15 5) (w.extractLsb' 20 5))
    | 1 => .ok (.divu (w.extractLsb' 7 5) (w.extractLsb' 15 5) (w.extractLsb' 20 5))
    | _ => .error .standard
  | 6 =>
    match (funct7 w).toNat with
    | 0 => .ok (.or (w.extractLsb' 7 5) (w.extractLsb' 15 5) (w.extractLsb' 20 5))
    | 1 => .ok (.rem (w.extractLsb' 7 5) (w.extractLsb' 15 5) (w.extractLsb' 20 5))
    | _ => .error .standard
  | 7 =>
    match (funct7 w).toNat with
    | 0 => .ok (.and (w.extractLsb' 7 5) (w.extractLsb' 15 5) (w.extractLsb' 20 5))
    | 1 => .ok (.remu (w.extractLsb' 7 5) (w.extractLsb' 15 5) (w.extractLsb' 20 5))
    | _ => .error .standard
  | _ => .error .standard

/-- Words of major opcode 0x3b (R168 to R171, R191 to R195). -/
def decodeOp32 (w : BitVec 32) : Except DecodeError Instr :=
  match (funct3 w).toNat with
  | 0 =>
    match (funct7 w).toNat with
    | 0 => .ok (.addw (w.extractLsb' 7 5) (w.extractLsb' 15 5) (w.extractLsb' 20 5))
    | 32 => .ok (.subw (w.extractLsb' 7 5) (w.extractLsb' 15 5) (w.extractLsb' 20 5))
    | 1 => .ok (.mulw (w.extractLsb' 7 5) (w.extractLsb' 15 5) (w.extractLsb' 20 5))
    | _ => .error .standard
  | 1 =>
    match (funct7 w).toNat with
    | 0 => .ok (.sllw (w.extractLsb' 7 5) (w.extractLsb' 15 5) (w.extractLsb' 20 5))
    | _ => .error .standard
  | 4 =>
    match (funct7 w).toNat with
    | 1 => .ok (.divw (w.extractLsb' 7 5) (w.extractLsb' 15 5) (w.extractLsb' 20 5))
    | _ => .error .standard
  | 5 =>
    match (funct7 w).toNat with
    | 0 => .ok (.srlw (w.extractLsb' 7 5) (w.extractLsb' 15 5) (w.extractLsb' 20 5))
    | 32 => .ok (.sraw (w.extractLsb' 7 5) (w.extractLsb' 15 5) (w.extractLsb' 20 5))
    | 1 => .ok (.divuw (w.extractLsb' 7 5) (w.extractLsb' 15 5) (w.extractLsb' 20 5))
    | _ => .error .standard
  | 6 =>
    match (funct7 w).toNat with
    | 1 => .ok (.remw (w.extractLsb' 7 5) (w.extractLsb' 15 5) (w.extractLsb' 20 5))
    | _ => .error .standard
  | 7 =>
    match (funct7 w).toNat with
    | 1 => .ok (.remuw (w.extractLsb' 7 5) (w.extractLsb' 15 5) (w.extractLsb' 20 5))
    | _ => .error .standard
  | _ => .error .standard

/-- Words of major opcode 0x63 (R168 to R171, R191 to R195). -/
def decodeBranch (w : BitVec 32) : Except DecodeError Instr :=
  match (funct3 w).toNat with
  | 0 => .ok (.beq (w.extractLsb' 15 5) (w.extractLsb' 20 5) (immB w))
  | 1 => .ok (.bne (w.extractLsb' 15 5) (w.extractLsb' 20 5) (immB w))
  | 4 => .ok (.blt (w.extractLsb' 15 5) (w.extractLsb' 20 5) (immB w))
  | 5 => .ok (.bge (w.extractLsb' 15 5) (w.extractLsb' 20 5) (immB w))
  | 6 => .ok (.bltu (w.extractLsb' 15 5) (w.extractLsb' 20 5) (immB w))
  | 7 => .ok (.bgeu (w.extractLsb' 15 5) (w.extractLsb' 20 5) (immB w))
  | _ => .error .standard

/-- Words of major opcode 0x67 (R168 to R171, R191 to R195). -/
def decodeJalr (w : BitVec 32) : Except DecodeError Instr :=
  match (funct3 w).toNat with
  | 0 => .ok (.jalr (w.extractLsb' 7 5) (w.extractLsb' 15 5) (w.extractLsb' 20 12))
  | _ => .error .standard

/-- Words of major opcode 0x73 (R168 to R171, R191 to R195). -/
def decodeSystem (w : BitVec 32) : Except DecodeError Instr :=
  match (funct3 w).toNat with
  | 0 =>
    match (funct12 w).toNat with
    | 0 => fields (w.extractLsb' 7 5 = 0#5 ∧ w.extractLsb' 15 5 = 0#5) (.ecall)
    | 1 => fields (w.extractLsb' 7 5 = 0#5 ∧ w.extractLsb' 15 5 = 0#5) (.ebreak)
    | _ => .error .standard
  | 1 => .ok (.csrrw (w.extractLsb' 7 5) (w.extractLsb' 15 5) (w.extractLsb' 20 12))
  | 2 => .ok (.csrrs (w.extractLsb' 7 5) (w.extractLsb' 15 5) (w.extractLsb' 20 12))
  | 3 => .ok (.csrrc (w.extractLsb' 7 5) (w.extractLsb' 15 5) (w.extractLsb' 20 12))
  | 5 => .ok (.csrrwi (w.extractLsb' 7 5) (w.extractLsb' 20 12) (w.extractLsb' 15 5))
  | 6 => .ok (.csrrsi (w.extractLsb' 7 5) (w.extractLsb' 20 12) (w.extractLsb' 15 5))
  | 7 => .ok (.csrrci (w.extractLsb' 7 5) (w.extractLsb' 20 12) (w.extractLsb' 15 5))
  | _ => .error .standard

/-- Words of major opcode 0x0b (R168 to R171, R191 to R195). -/
def decodeCustom0 (w : BitVec 32) : Except DecodeError Instr :=
  match (funct3 w).toNat with
  | 0 =>
    match (funct5 w).toNat with
    | 0 => fields (w.extractLsb' 7 5 = 0#5 ∧ w.extractLsb' 15 12 = 0#12) (.tend)
    | 1 => fields (w.extractLsb' 20 5 = 0#5 ∧ w.extractLsb' 26 1 = 0#1) (.post (w.extractLsb' 7 5) (w.extractLsb' 15 5) (w.extractLsb' 25 1))
    | 2 => .ok (.poste (w.extractLsb' 7 5) (w.extractLsb' 15 5) (w.extractLsb' 20 5) (w.extractLsb' 25 1) (w.extractLsb' 26 1))
    | 3 => fields (w.extractLsb' 7 5 = 0#5 ∧ w.extractLsb' 20 5 = 0#5 ∧ w.extractLsb' 26 1 = 0#1) (.succ (w.extractLsb' 15 5) (w.extractLsb' 25 1))
    | 4 => fields (w.extractLsb' 7 5 = 0#5) (.dlset (w.extractLsb' 15 5) (w.extractLsb' 20 5) (w.extractLsb' 25 1) (w.extractLsb' 26 1))
    | 5 => fields (w.extractLsb' 7 5 = 0#5 ∧ w.extractLsb' 15 12 = 0#12) (.dlclr)
    | _ => .error .selector
  | 1 =>
    match (funct5 w).toNat with
    | 0 => .ok (.spawn (w.extractLsb' 7 5) (w.extractLsb' 15 5) (w.extractLsb' 20 5) (w.extractLsb' 25 1) (w.extractLsb' 26 1))
    | _ => .error .selector
  | 2 =>
    match (funct5 w).toNat with
    | 0 => fields (w.extractLsb' 7 5 = 0#5 ∧ w.extractLsb' 20 5 = 0#5 ∧ w.extractLsb' 26 1 = 0#1) (.claim (w.extractLsb' 15 5) (w.extractLsb' 25 1))
    | 1 => fields (w.extractLsb' 7 5 = 0#5 ∧ w.extractLsb' 20 5 = 0#5 ∧ w.extractLsb' 26 1 = 0#1) (.unclaim (w.extractLsb' 15 5) (w.extractLsb' 25 1))
    | 2 => fields (w.extractLsb' 7 5 = 0#5 ∧ w.extractLsb' 20 5 = 0#5 ∧ w.extractLsb' 26 1 = 0#1) (.hold (w.extractLsb' 15 5) (w.extractLsb' 25 1))
    | 3 => fields (w.extractLsb' 7 5 = 0#5 ∧ w.extractLsb' 20 5 = 0#5 ∧ w.extractLsb' 26 1 = 0#1) (.unhold (w.extractLsb' 15 5) (w.extractLsb' 25 1))
    | 4 => fields (w.extractLsb' 7 5 = 0#5 ∧ w.extractLsb' 20 5 = 0#5 ∧ w.extractLsb' 26 1 = 0#1) (.holdm (w.extractLsb' 15 5) (w.extractLsb' 25 1))
    | 5 => fields (w.extractLsb' 7 5 = 0#5 ∧ w.extractLsb' 20 5 = 0#5 ∧ w.extractLsb' 26 1 = 0#1) (.unholdm (w.extractLsb' 15 5) (w.extractLsb' 25 1))
    | _ => .error .selector
  | 3 =>
    match (funct5 w).toNat with
    | 0 => fields (w.extractLsb' 7 5 = 0#5 ∧ w.extractLsb' 15 12 = 0#12) (.tbar)
    | 1 => fields (w.extractLsb' 7 5 = 0#5 ∧ w.extractLsb' 20 5 = 0#5 ∧ w.extractLsb' 26 1 = 0#1) (.gbar (w.extractLsb' 15 5) (w.extractLsb' 25 1))
    | 2 => fields (w.extractLsb' 7 5 = 0#5 ∧ w.extractLsb' 20 5 = 0#5 ∧ w.extractLsb' 26 1 = 0#1) (.carve (w.extractLsb' 15 5) (w.extractLsb' 25 1))
    | 3 => fields (w.extractLsb' 7 5 = 0#5 ∧ w.extractLsb' 15 12 = 0#12) (.align)
    | 4 => fields (w.extractLsb' 15 12 = 0#12) (.tbarq (w.extractLsb' 7 5))
    | _ => .error .selector
  | 4 =>
    match (funct5 w).toNat with
    | 0 => .ok (.send (w.extractLsb' 7 5) (w.extractLsb' 15 5) (w.extractLsb' 20 5) (w.extractLsb' 25 1) (w.extractLsb' 26 1))
    | 1 => fields (w.extractLsb' 20 5 = 0#5 ∧ w.extractLsb' 26 1 = 0#1) (.ldr (w.extractLsb' 7 5) (w.extractLsb' 15 5) (w.extractLsb' 25 1))
    | 2 => fields (w.extractLsb' 20 5 = 0#5 ∧ w.extractLsb' 26 1 = 0#1) (.ldrw (w.extractLsb' 7 5) (w.extractLsb' 15 5) (w.extractLsb' 25 1))
    | _ => .error .selector
  | 5 =>
    match (funct5 w).toNat with
    | 0 => fields (w.extractLsb' 7 5 = 0#5) (.tjmp (w.extractLsb' 15 5) (w.extractLsb' 20 5) (w.extractLsb' 25 1) (w.extractLsb' 26 1))
    | 1 => fields (w.extractLsb' 7 5 = 0#5 ∧ w.extractLsb' 26 1 = 0#1) (.qpush (w.extractLsb' 15 5) (w.extractLsb' 25 1) (w.extractLsb' 20 5))
    | 2 => fields (w.extractLsb' 15 5 = 0#5 ∧ w.extractLsb' 25 2 = 0#2) (.qpop (w.extractLsb' 7 5) (w.extractLsb' 20 5))
    | 3 => fields (w.extractLsb' 15 5 = 0#5 ∧ w.extractLsb' 25 2 = 0#2) (.qlen (w.extractLsb' 7 5) (w.extractLsb' 20 5))
    | _ => .error .selector
  | 6 =>
    match (funct5 w).toNat with
    | 0 => fields (w.extractLsb' 7 5 = 0#5 ∧ w.extractLsb' 15 12 = 0#12) (.one)
    | 1 => fields (w.extractLsb' 7 5 = 0#5 ∧ w.extractLsb' 18 2 = 0#2 ∧ w.extractLsb' 23 4 = 0#4) (.fmt (w.extractLsb' 15 3) (w.extractLsb' 20 3))
    | _ => .error .selector
  | 7 =>
    match (funct5 w).toNat with
    | 0 => fields (w.extractLsb' 7 5 = 0#5 ∧ w.extractLsb' 15 12 = 0#12) (.tret)
    | 1 => fields (w.extractLsb' 7 5 = 0#5 ∧ w.extractLsb' 15 12 = 0#12) (.tkill)
    | 2 => fields (w.extractLsb' 20 5 = 0#5 ∧ w.extractLsb' 26 1 = 0#1) (.tfrd (w.extractLsb' 7 5) (w.extractLsb' 15 5) (w.extractLsb' 25 1))
    | 3 => fields (w.extractLsb' 7 5 = 0#5) (.tfwr (w.extractLsb' 15 5) (w.extractLsb' 20 5) (w.extractLsb' 25 1) (w.extractLsb' 26 1))
    | 4 => fields (w.extractLsb' 7 5 = 0#5) (.xinv (w.extractLsb' 15 5) (w.extractLsb' 20 5) (w.extractLsb' 25 1) (w.extractLsb' 26 1))
    | 5 => fields (w.extractLsb' 7 5 = 0#5 ∧ w.extractLsb' 15 12 = 0#12) (.ckpt)
    | _ => .error .selector
  | _ => .error .selector

/-- Words of major opcode 0x2b (R168 to R171, R191 to R195). -/
def decodeCustom1 (w : BitVec 32) : Except DecodeError Instr :=
  match (funct3 w).toNat with
  | 0 =>
    match (funct5 w).toNat with
    | 0 => fields (w.extractLsb' 7 5 = 0#5 ∧ w.extractLsb' 15 12 = 0#12) (.rel)
    | 1 => fields (w.extractLsb' 7 5 = 0#5 ∧ w.extractLsb' 20 5 = 0#5 ∧ w.extractLsb' 26 1 = 0#1) (.acq (w.extractLsb' 15 5) (w.extractLsb' 25 1))
    | 2 => fields (w.extractLsb' 7 5 = 0#5 ∧ w.extractLsb' 20 5 = 0#5 ∧ w.extractLsb' 26 1 = 0#1) (.acqm (w.extractLsb' 15 5) (w.extractLsb' 25 1))
    | 3 => fields (w.extractLsb' 7 5 = 0#5 ∧ w.extractLsb' 20 5 = 0#5 ∧ w.extractLsb' 26 1 = 0#1) (.acqg (w.extractLsb' 15 5) (w.extractLsb' 25 1))
    | 4 => fields (w.extractLsb' 7 5 = 0#5 ∧ w.extractLsb' 15 12 = 0#12) (.acqv)
    | _ => .error .selector
  | 1 =>
    match (funct5 w).toNat with
    | 0 => fields (w.extractLsb' 7 5 = 0#5 ∧ w.extractLsb' 15 12 = 0#12) (.drainS)
    | 1 => fields (w.extractLsb' 7 5 = 0#5 ∧ w.extractLsb' 15 12 = 0#12) (.drainG)
    | 2 => fields (w.extractLsb' 7 5 = 0#5 ∧ w.extractLsb' 15 12 = 0#12) (.drainR)
    | 3 => fields (w.extractLsb' 7 5 = 0#5 ∧ w.extractLsb' 15 12 = 0#12) (.drainK)
    | _ => .error .selector
  | 2 =>
    match (funct5 w).toNat with
    | 0 => .ok (.atomAdd (w.extractLsb' 7 5) (w.extractLsb' 15 5) (w.extractLsb' 20 5) (w.extractLsb' 25 1) (w.extractLsb' 26 1))
    | 1 => .ok (.atomAnd (w.extractLsb' 7 5) (w.extractLsb' 15 5) (w.extractLsb' 20 5) (w.extractLsb' 25 1) (w.extractLsb' 26 1))
    | 2 => .ok (.atomOr (w.extractLsb' 7 5) (w.extractLsb' 15 5) (w.extractLsb' 20 5) (w.extractLsb' 25 1) (w.extractLsb' 26 1))
    | 3 => .ok (.atomXor (w.extractLsb' 7 5) (w.extractLsb' 15 5) (w.extractLsb' 20 5) (w.extractLsb' 25 1) (w.extractLsb' 26 1))
    | 4 => .ok (.atomMin (w.extractLsb' 7 5) (w.extractLsb' 15 5) (w.extractLsb' 20 5) (w.extractLsb' 25 1) (w.extractLsb' 26 1))
    | 5 => .ok (.atomMax (w.extractLsb' 7 5) (w.extractLsb' 15 5) (w.extractLsb' 20 5) (w.extractLsb' 25 1) (w.extractLsb' 26 1))
    | 6 => .ok (.atomMinu (w.extractLsb' 7 5) (w.extractLsb' 15 5) (w.extractLsb' 20 5) (w.extractLsb' 25 1) (w.extractLsb' 26 1))
    | 7 => .ok (.atomMaxu (w.extractLsb' 7 5) (w.extractLsb' 15 5) (w.extractLsb' 20 5) (w.extractLsb' 25 1) (w.extractLsb' 26 1))
    | 8 => .ok (.atomSwap (w.extractLsb' 7 5) (w.extractLsb' 15 5) (w.extractLsb' 20 5) (w.extractLsb' 25 1) (w.extractLsb' 26 1))
    | 16 => .ok (.atomAddW (w.extractLsb' 7 5) (w.extractLsb' 15 5) (w.extractLsb' 20 5) (w.extractLsb' 25 1) (w.extractLsb' 26 1))
    | 17 => .ok (.atomAndW (w.extractLsb' 7 5) (w.extractLsb' 15 5) (w.extractLsb' 20 5) (w.extractLsb' 25 1) (w.extractLsb' 26 1))
    | 18 => .ok (.atomOrW (w.extractLsb' 7 5) (w.extractLsb' 15 5) (w.extractLsb' 20 5) (w.extractLsb' 25 1) (w.extractLsb' 26 1))
    | 19 => .ok (.atomXorW (w.extractLsb' 7 5) (w.extractLsb' 15 5) (w.extractLsb' 20 5) (w.extractLsb' 25 1) (w.extractLsb' 26 1))
    | 20 => .ok (.atomMinW (w.extractLsb' 7 5) (w.extractLsb' 15 5) (w.extractLsb' 20 5) (w.extractLsb' 25 1) (w.extractLsb' 26 1))
    | 21 => .ok (.atomMaxW (w.extractLsb' 7 5) (w.extractLsb' 15 5) (w.extractLsb' 20 5) (w.extractLsb' 25 1) (w.extractLsb' 26 1))
    | 22 => .ok (.atomMinuW (w.extractLsb' 7 5) (w.extractLsb' 15 5) (w.extractLsb' 20 5) (w.extractLsb' 25 1) (w.extractLsb' 26 1))
    | 23 => .ok (.atomMaxuW (w.extractLsb' 7 5) (w.extractLsb' 15 5) (w.extractLsb' 20 5) (w.extractLsb' 25 1) (w.extractLsb' 26 1))
    | 24 => .ok (.atomSwapW (w.extractLsb' 7 5) (w.extractLsb' 15 5) (w.extractLsb' 20 5) (w.extractLsb' 25 1) (w.extractLsb' 26 1))
    | _ => .error .selector
  | 3 =>
    match (funct2 w).toNat with
    | 0 => .ok (.atomCas (w.extractLsb' 7 5) (w.extractLsb' 15 5) (w.extractLsb' 20 5) (w.extractLsb' 27 5))
    | 1 => .ok (.atomCasW (w.extractLsb' 7 5) (w.extractLsb' 15 5) (w.extractLsb' 20 5) (w.extractLsb' 27 5))
    | _ => .error .selector
  | 4 =>
    match (funct5 w).toNat with
    | 0 => fields (w.extractLsb' 7 5 = 0#5) (.redAdd (w.extractLsb' 15 5) (w.extractLsb' 20 5) (w.extractLsb' 25 1) (w.extractLsb' 26 1))
    | 1 => fields (w.extractLsb' 7 5 = 0#5) (.redAddf (w.extractLsb' 15 5) (w.extractLsb' 20 5) (w.extractLsb' 25 1) (w.extractLsb' 26 1))
    | 2 => fields (w.extractLsb' 7 5 = 0#5) (.redMin (w.extractLsb' 15 5) (w.extractLsb' 20 5) (w.extractLsb' 25 1) (w.extractLsb' 26 1))
    | 3 => fields (w.extractLsb' 7 5 = 0#5) (.redMax (w.extractLsb' 15 5) (w.extractLsb' 20 5) (w.extractLsb' 25 1) (w.extractLsb' 26 1))
    | 16 => fields (w.extractLsb' 7 5 = 0#5) (.redAddW (w.extractLsb' 15 5) (w.extractLsb' 20 5) (w.extractLsb' 25 1) (w.extractLsb' 26 1))
    | 17 => fields (w.extractLsb' 7 5 = 0#5) (.redAddfW (w.extractLsb' 15 5) (w.extractLsb' 20 5) (w.extractLsb' 25 1) (w.extractLsb' 26 1))
    | 18 => fields (w.extractLsb' 7 5 = 0#5) (.redMinW (w.extractLsb' 15 5) (w.extractLsb' 20 5) (w.extractLsb' 25 1) (w.extractLsb' 26 1))
    | 19 => fields (w.extractLsb' 7 5 = 0#5) (.redMaxW (w.extractLsb' 15 5) (w.extractLsb' 20 5) (w.extractLsb' 25 1) (w.extractLsb' 26 1))
    | _ => .error .selector
  | 5 =>
    match (funct2 w).toNat with
    | 0 => .ok (.copy (w.extractLsb' 7 5) (w.extractLsb' 15 5) (w.extractLsb' 20 5) (w.extractLsb' 27 5))
    | 1 => .ok (.copy2d (w.extractLsb' 7 5) (w.extractLsb' 15 5) (w.extractLsb' 20 5) (w.extractLsb' 27 5))
    | 2 => .ok (.copyb (w.extractLsb' 7 5) (w.extractLsb' 15 5) (w.extractLsb' 20 5) (w.extractLsb' 27 5))
    | _ => .error .selector
  | 6 =>
    match (funct5 w).toNat with
    | 0 => fields (w.extractLsb' 7 5 = 0#5 ∧ w.extractLsb' 20 5 = 0#5 ∧ w.extractLsb' 26 1 = 0#1) (.cpcnt (w.extractLsb' 15 5) (w.extractLsb' 25 1))
    | 1 => fields (w.extractLsb' 20 5 = 0#5 ∧ w.extractLsb' 26 1 = 0#1) (.copyq (w.extractLsb' 7 5) (w.extractLsb' 15 5) (w.extractLsb' 25 1))
    | _ => .error .selector
  | 7 =>
    match (funct5 w).toNat with
    | 0 => fields (w.extractLsb' 7 5 = 0#5 ∧ w.extractLsb' 20 5 = 0#5 ∧ w.extractLsb' 26 1 = 0#1) (.pref (w.extractLsb' 15 5) (w.extractLsb' 25 1))
    | _ => .error .selector
  | _ => .error .selector

/-- Words of major opcode 0x5b (R168 to R171, R191 to R195). -/
def decodeCustom2 (w : BitVec 32) : Except DecodeError Instr :=
  match (funct3 w).toNat with
  | 0 =>
    match (funct6 w).toNat with
    | 0 => fields (w.extractLsb' 18 6 = 0#6) (.vspl (w.extractLsb' 15 3) (w.extractLsb' 7 5) (w.extractLsb' 24 2))
    | 1 => fields (w.extractLsb' 7 5 = 0#5 ∧ w.extractLsb' 18 6 = 0#6) (.vsplq (w.extractLsb' 15 3) (w.extractLsb' 24 2))
    | 2 => fields (w.extractLsb' 15 3 = 0#3 ∧ w.extractLsb' 21 3 = 0#3) (.voutq (w.extractLsb' 18 3) (w.extractLsb' 7 5) (w.extractLsb' 24 2))
    | 3 => fields (w.extractLsb' 7 5 = 0#5 ∧ w.extractLsb' 21 5 = 0#5) (.vmv (w.extractLsb' 15 3) (w.extractLsb' 18 3))
    | 4 => fields (w.extractLsb' 21 3 = 0#3) (.vlane (w.extractLsb' 15 3) (w.extractLsb' 18 3) (w.extractLsb' 7 5) (w.extractLsb' 24 2))
    | _ => .error .selector
  | 1 =>
    match (funct6 w).toNat with
    | 0 => fields (w.extractLsb' 18 8 = 0#8) (.vld (w.extractLsb' 15 3) (w.extractLsb' 7 5))
    | 1 => fields (w.extractLsb' 15 3 = 0#3 ∧ w.extractLsb' 21 5 = 0#5) (.vst (w.extractLsb' 18 3) (w.extractLsb' 7 5))
    | 2 => fields (w.extractLsb' 21 3 = 0#3) (.vlds (w.extractLsb' 15 3) (w.extractLsb' 18 3) (w.extractLsb' 7 5) (w.extractLsb' 24 2))
    | 3 => fields (w.extractLsb' 21 5 = 0#5) (.vgth (w.extractLsb' 15 3) (w.extractLsb' 18 3) (w.extractLsb' 7 5))
    | 4 => fields (w.extractLsb' 15 3 = 0#3 ∧ w.extractLsb' 24 2 = 0#2) (.vsct (w.extractLsb' 18 3) (w.extractLsb' 21 3) (w.extractLsb' 7 5))
    | _ => .error .selector
  | 2 =>
    match (funct6 w).toNat with
    | 0 => fields (w.extractLsb' 7 5 = 0#5) (.vadd (w.extractLsb' 15 3) (w.extractLsb' 18 3) (w.extractLsb' 21 3) (w.extractLsb' 24 2))
    | 1 => fields (w.extractLsb' 7 5 = 0#5) (.vsub (w.extractLsb' 15 3) (w.extractLsb' 18 3) (w.extractLsb' 21 3) (w.extractLsb' 24 2))
    | 2 => fields (w.extractLsb' 7 5 = 0#5) (.vmul (w.extractLsb' 15 3) (w.extractLsb' 18 3) (w.extractLsb' 21 3) (w.extractLsb' 24 2))
    | 3 => fields (w.extractLsb' 7 5 = 0#5) (.vfma (w.extractLsb' 15 3) (w.extractLsb' 18 3) (w.extractLsb' 21 3) (w.extractLsb' 24 2))
    | 4 => fields (w.extractLsb' 7 5 = 0#5) (.vmax (w.extractLsb' 15 3) (w.extractLsb' 18 3) (w.extractLsb' 21 3) (w.extractLsb' 24 2))
    | 5 => fields (w.extractLsb' 7 5 = 0#5) (.vmin (w.extractLsb' 15 3) (w.extractLsb' 18 3) (w.extractLsb' 21 3) (w.extractLsb' 24 2))
    | 6 => fields (w.extractLsb' 7 5 = 0#5 ∧ w.extractLsb' 21 3 = 0#3) (.vabs (w.extractLsb' 15 3) (w.extractLsb' 18 3) (w.extractLsb' 24 2))
    | 7 => fields (w.extractLsb' 7 5 = 0#5 ∧ w.extractLsb' 21 3 = 0#3) (.vneg (w.extractLsb' 15 3) (w.extractLsb' 18 3) (w.extractLsb' 24 2))
    | _ => .error .selector
  | 3 =>
    match (funct6 w).toNat with
    | 0 => fields (w.extractLsb' 7 5 = 0#5 ∧ w.extractLsb' 24 2 = 0#2) (.viadd (w.extractLsb' 15 3) (w.extractLsb' 18 3) (w.extractLsb' 21 3))
    | 1 => fields (w.extractLsb' 7 5 = 0#5 ∧ w.extractLsb' 24 2 = 0#2) (.visub (w.extractLsb' 15 3) (w.extractLsb' 18 3) (w.extractLsb' 21 3))
    | 2 => fields (w.extractLsb' 7 5 = 0#5 ∧ w.extractLsb' 24 2 = 0#2) (.vimul (w.extractLsb' 15 3) (w.extractLsb' 18 3) (w.extractLsb' 21 3))
    | 3 => fields (w.extractLsb' 7 5 = 0#5 ∧ w.extractLsb' 24 2 = 0#2) (.vand (w.extractLsb' 15 3) (w.extractLsb' 18 3) (w.extractLsb' 21 3))
    | 4 => fields (w.extractLsb' 7 5 = 0#5 ∧ w.extractLsb' 24 2 = 0#2) (.vor (w.extractLsb' 15 3) (w.extractLsb' 18 3) (w.extractLsb' 21 3))
    | 5 => fields (w.extractLsb' 7 5 = 0#5 ∧ w.extractLsb' 24 2 = 0#2) (.vxor (w.extractLsb' 15 3) (w.extractLsb' 18 3) (w.extractLsb' 21 3))
    | 6 => fields (w.extractLsb' 7 5 = 0#5 ∧ w.extractLsb' 24 2 = 0#2) (.vshl (w.extractLsb' 15 3) (w.extractLsb' 18 3) (w.extractLsb' 21 3))
    | 7 => fields (w.extractLsb' 7 5 = 0#5 ∧ w.extractLsb' 24 2 = 0#2) (.vshr (w.extractLsb' 15 3) (w.extractLsb' 18 3) (w.extractLsb' 21 3))
    | 8 => fields (w.extractLsb' 7 5 = 0#5 ∧ w.extractLsb' 24 2 = 0#2) (.vsra (w.extractLsb' 15 3) (w.extractLsb' 18 3) (w.extractLsb' 21 3))
    | 9 => fields (w.extractLsb' 7 5 = 0#5 ∧ w.extractLsb' 24 2 = 0#2) (.viadds (w.extractLsb' 15 3) (w.extractLsb' 18 3) (w.extractLsb' 21 3))
    | _ => .error .selector
  | 4 =>
    match (funct6 w).toNat with
    | 0 => fields (w.extractLsb' 10 2 = 0#2 ∧ w.extractLsb' 24 2 = 3#2) (.vcvt (w.extractLsb' 15 3) (w.extractLsb' 18 3) (w.extractLsb' 21 3) (w.extractLsb' 9 1) (w.extractLsb' 7 2))
    | 1 => fields (w.extractLsb' 10 2 = 0#2 ∧ w.extractLsb' 24 2 = 3#2) (.vcvti (w.extractLsb' 15 3) (w.extractLsb' 18 3) (w.extractLsb' 21 3) (w.extractLsb' 9 1) (w.extractLsb' 7 2))
    | _ => .error .selector
  | 5 =>
    match (funct6 w).toNat with
    | 0 => fields (w.extractLsb' 8 4 = 0#4) (.vcmpeq (w.extractLsb' 15 3) (w.extractLsb' 18 3) (w.extractLsb' 21 3) (w.extractLsb' 24 2) (w.extractLsb' 7 1))
    | 1 => fields (w.extractLsb' 8 4 = 0#4) (.vcmplt (w.extractLsb' 15 3) (w.extractLsb' 18 3) (w.extractLsb' 21 3) (w.extractLsb' 24 2) (w.extractLsb' 7 1))
    | 2 => fields (w.extractLsb' 8 4 = 0#4) (.vcmple (w.extractLsb' 15 3) (w.extractLsb' 18 3) (w.extractLsb' 21 3) (w.extractLsb' 24 2) (w.extractLsb' 7 1))
    | 3 => fields (w.extractLsb' 7 5 = 0#5 ∧ w.extractLsb' 24 2 = 0#2) (.vsel (w.extractLsb' 15 3) (w.extractLsb' 18 3) (w.extractLsb' 21 3))
    | 4 => fields (w.extractLsb' 7 5 = 0#5 ∧ w.extractLsb' 15 3 = 0#3 ∧ w.extractLsb' 21 5 = 0#5) (.vbq (w.extractLsb' 18 3))
    | _ => .error .selector
  | 6 =>
    match (funct6 w).toNat with
    | 0 => fields (w.extractLsb' 8 4 = 0#4 ∧ w.extractLsb' 21 3 = 0#3) (.vsum (w.extractLsb' 15 3) (w.extractLsb' 18 3) (w.extractLsb' 24 2) (w.extractLsb' 7 1))
    | 1 => fields (w.extractLsb' 8 4 = 0#4 ∧ w.extractLsb' 21 3 = 0#3) (.vrmax (w.extractLsb' 15 3) (w.extractLsb' 18 3) (w.extractLsb' 24 2) (w.extractLsb' 7 1))
    | 2 => fields (w.extractLsb' 8 4 = 0#4 ∧ w.extractLsb' 21 3 = 0#3) (.vrmin (w.extractLsb' 15 3) (w.extractLsb' 18 3) (w.extractLsb' 24 2) (w.extractLsb' 7 1))
    | 3 => fields (w.extractLsb' 7 5 = 0#5) (.vperm (w.extractLsb' 15 3) (w.extractLsb' 18 3) (w.extractLsb' 21 3) (w.extractLsb' 24 2))
    | 4 => fields (w.extractLsb' 21 3 = 0#3) (.vrot (w.extractLsb' 15 3) (w.extractLsb' 18 3) (w.extractLsb' 7 5) (w.extractLsb' 24 2))
    | _ => .error .selector
  | 7 =>
    match (funct6 w).toNat with
    | 0 => fields (w.extractLsb' 7 5 = 0#5 ∧ w.extractLsb' 21 3 = 0#3) (.vexp2 (w.extractLsb' 15 3) (w.extractLsb' 18 3) (w.extractLsb' 24 2))
    | 1 => fields (w.extractLsb' 7 5 = 0#5 ∧ w.extractLsb' 21 3 = 0#3) (.vrcp (w.extractLsb' 15 3) (w.extractLsb' 18 3) (w.extractLsb' 24 2))
    | 2 => fields (w.extractLsb' 7 5 = 0#5 ∧ w.extractLsb' 21 3 = 0#3) (.vrsq (w.extractLsb' 15 3) (w.extractLsb' 18 3) (w.extractLsb' 24 2))
    | 3 => fields (w.extractLsb' 7 5 = 0#5 ∧ w.extractLsb' 21 3 = 0#3) (.vlog2 (w.extractLsb' 15 3) (w.extractLsb' 18 3) (w.extractLsb' 24 2))
    | 4 => fields (w.extractLsb' 7 5 = 0#5 ∧ w.extractLsb' 15 3 = 0#3 ∧ w.extractLsb' 21 5 = 0#5) (.vseed (w.extractLsb' 18 3))
    | _ => .error .selector
  | _ => .error .selector

/-- Words of major opcode 0x7b (R168 to R171, R191 to R195). -/
def decodeCustom3 (w : BitVec 32) : Except DecodeError Instr :=
  match (funct3 w).toNat with
  | 0 =>
    match (funct5 w).toNat with
    | 0 => fields (w.extractLsb' 7 5 = 0#5 ∧ w.extractLsb' 15 12 = 0#12) (.lease)
    | 1 => fields (w.extractLsb' 7 5 = 0#5 ∧ w.extractLsb' 15 12 = 0#12) (.unlease)
    | 2 => fields (w.extractLsb' 15 10 = 0#10) (.ringdef (w.extractLsb' 7 5) (w.extractLsb' 25 2))
    | 3 => fields (w.extractLsb' 7 5 = 0#5 ∧ w.extractLsb' 15 10 = 0#10) (.ringq (w.extractLsb' 25 2))
    | 4 => fields (w.extractLsb' 15 10 = 0#10) (.ringadv (w.extractLsb' 7 5) (w.extractLsb' 25 2))
    | _ => .error .selector
  | 1 =>
    match (funct5 w).toNat with
    | 0 => fields (w.extractLsb' 7 5 = 0#5) (.kmma (w.extractLsb' 25 2) (w.extractLsb' 23 2) (w.extractLsb' 20 3) (w.extractLsb' 17 3) (w.extractLsb' 15 2))
    | 1 => fields (w.extractLsb' 7 5 = 0#5) (.kmmas (w.extractLsb' 25 2) (w.extractLsb' 23 2) (w.extractLsb' 20 3) (w.extractLsb' 17 3) (w.extractLsb' 15 2))
    | 2 => fields (w.extractLsb' 7 5 = 0#5) (.kmmat (w.extractLsb' 25 2) (w.extractLsb' 23 2) (w.extractLsb' 20 3) (w.extractLsb' 17 3) (w.extractLsb' 15 2))
    | 3 => fields (w.extractLsb' 7 5 = 0#5) (.kmman (w.extractLsb' 25 2) (w.extractLsb' 23 2) (w.extractLsb' 20 3) (w.extractLsb' 17 3) (w.extractLsb' 15 2))
    | _ => .error .selector
  | 2 =>
    match (funct5 w).toNat with
    | 0 => fields (w.extractLsb' 7 5 = 0#5 ∧ w.extractLsb' 15 12 = 0#12) (.kzero)
    | 1 => fields (w.extractLsb' 15 12 = 0#12) (.kld (w.extractLsb' 7 5))
    | 2 => fields (w.extractLsb' 15 12 = 0#12) (.kst (w.extractLsb' 7 5))
    | 3 => fields (w.extractLsb' 7 5 = 0#5 ∧ w.extractLsb' 21 3 = 0#3) (.krow (w.extractLsb' 24 3) (w.extractLsb' 15 6))
    | 4 => fields (w.extractLsb' 7 5 = 0#5 ∧ w.extractLsb' 24 3 = 0#3) (.kputrow (w.extractLsb' 21 3) (w.extractLsb' 15 6))
    | _ => .error .selector
  | 3 =>
    match (funct5 w).toNat with
    | 0 => fields (w.extractLsb' 15 8 = 0#8) (.keep (w.extractLsb' 7 5) (w.extractLsb' 25 2) (w.extractLsb' 23 2))
    | 1 => fields (w.extractLsb' 7 5 = 0#5 ∧ w.extractLsb' 17 10 = 0#10) (.kscq (w.extractLsb' 15 2))
    | _ => .error .selector
  | 4 =>
    match (funct5 w).toNat with
    | 0 => fields (w.extractLsb' 7 5 = 0#5 ∧ w.extractLsb' 21 6 = 0#6) (.kfac (w.extractLsb' 15 6))
    | 1 => fields (w.extractLsb' 7 5 = 0#5) (.ktrsl (w.extractLsb' 24 3) (w.extractLsb' 21 3) (w.extractLsb' 15 6))
    | 2 => fields (w.extractLsb' 7 5 = 0#5) (.ktrsu (w.extractLsb' 24 3) (w.extractLsb' 21 3) (w.extractLsb' 15 6))
    | 3 => fields (w.extractLsb' 7 5 = 0#5) (.kmv (w.extractLsb' 24 3) (w.extractLsb' 21 3) (w.extractLsb' 15 6))
    | 4 => fields (w.extractLsb' 7 5 = 0#5) (.kmvt (w.extractLsb' 24 3) (w.extractLsb' 21 3) (w.extractLsb' 15 6))
    | 5 => fields (w.extractLsb' 21 6 = 0#6) (.kdiag (w.extractLsb' 7 5) (w.extractLsb' 15 6))
    | _ => .error .selector
  | 5 =>
    match (funct5 w).toNat with
    | 0 => fields (w.extractLsb' 7 5 = 0#5 ∧ w.extractLsb' 17 10 = 0#10) (.kchkq (w.extractLsb' 15 2))
    | 1 => fields (w.extractLsb' 17 10 = 0#10) (.kflg (w.extractLsb' 7 5) (w.extractLsb' 15 2))
    | _ => .error .selector
  | _ => .error .selector

/-- The first four checks of R172, and the zero fields of the fifth: the word's fields as an instruction. -/
def decodeFields (w : BitVec 32) : Except DecodeError Instr :=
  if w.extractLsb' 0 2 = 3#2 then
    match (w.extractLsb' 0 7).toNat with
    | 0x37 => .ok (.lui (w.extractLsb' 7 5) (w.extractLsb' 12 20))
    | 0x17 => .ok (.auipc (w.extractLsb' 7 5) (w.extractLsb' 12 20))
    | 0x6f => .ok (.jal (w.extractLsb' 7 5) (immJ w))
    | 0x03 => decodeLoad w
    | 0x0f => decodeMiscMem w
    | 0x13 => decodeOpImm w
    | 0x1b => decodeOpImm32 w
    | 0x23 => decodeStore w
    | 0x33 => decodeOp w
    | 0x3b => decodeOp32 w
    | 0x63 => decodeBranch w
    | 0x67 => decodeJalr w
    | 0x73 => decodeSystem w
    | 0x0b => decodeCustom0 w
    | 0x2b => decodeCustom1 w
    | 0x5b => decodeCustom2 w
    | 0x7b => decodeCustom3 w
    | _ => .error .opcode
  else .error .framing

/-- The decoder of R172: the fields, and then the codes that the instruction's entry accepts (R166). -/
def decode (w : BitVec 32) : Except DecodeError Instr :=
  match decodeFields w with
  | .ok i => if i.wellFormed then .ok i else .error .field
  | .error e => .error e

/-- The 32-bit word of four bytes, the first holding bits [7:0] (R4). -/
def wordOfBytes (b0 b1 b2 b3 : Byte) : BitVec 32 := b3 ++ b2 ++ b1 ++ b0

/-- Byte `k` of a 32-bit word (R4). -/
def byteOfWord (w : BitVec 32) (k : Nat) : Byte := w.extractLsb' (8 * k) 8

/-- The instruction that four bytes at rising addresses hold (R162). -/
def decodeBytes (b0 b1 b2 b3 : Byte) : Except DecodeError Instr := decode (wordOfBytes b0 b1 b2 b3)

/-- The instruction read from an instruction whose bits are `w`, numbered as spec/opcode_table.json numbers them;
every instruction is one 32-bit word (R162), laid out little-endian (R4). -/
def decodeTableWord (nbits w : Nat) : Option Instr :=
  let v := BitVec.ofNat 32 (w % 2 ^ nbits)
  (decodeBytes (byteOfWord v 0) (byteOfWord v 1) (byteOfWord v 2) (byteOfWord v 3)).toOption

/-- The word of an instruction form, field by field from the encoding tables (R164, R168 to R171, R191 to R195). -/
def encode : Instr → Option (BitVec 32)
  | .lui rd imm => some (imm ++ rd ++ 55#7)
  | .auipc rd imm => some (imm ++ rd ++ 23#7)
  | .jal rd imm => some (imm.extractLsb' 19 1 ++ imm.extractLsb' 0 10 ++ imm.extractLsb' 10 1 ++ imm.extractLsb' 11 8 ++ rd ++ 111#7)
  | .jalr rd rs1 imm => some (imm ++ rs1 ++ 0#3 ++ rd ++ 103#7)
  | .beq rs1 rs2 imm => some (imm.extractLsb' 11 1 ++ imm.extractLsb' 4 6 ++ rs2 ++ rs1 ++ 0#3 ++ imm.extractLsb' 0 4 ++ imm.extractLsb' 10 1 ++ 99#7)
  | .bne rs1 rs2 imm => some (imm.extractLsb' 11 1 ++ imm.extractLsb' 4 6 ++ rs2 ++ rs1 ++ 1#3 ++ imm.extractLsb' 0 4 ++ imm.extractLsb' 10 1 ++ 99#7)
  | .blt rs1 rs2 imm => some (imm.extractLsb' 11 1 ++ imm.extractLsb' 4 6 ++ rs2 ++ rs1 ++ 4#3 ++ imm.extractLsb' 0 4 ++ imm.extractLsb' 10 1 ++ 99#7)
  | .bge rs1 rs2 imm => some (imm.extractLsb' 11 1 ++ imm.extractLsb' 4 6 ++ rs2 ++ rs1 ++ 5#3 ++ imm.extractLsb' 0 4 ++ imm.extractLsb' 10 1 ++ 99#7)
  | .bltu rs1 rs2 imm => some (imm.extractLsb' 11 1 ++ imm.extractLsb' 4 6 ++ rs2 ++ rs1 ++ 6#3 ++ imm.extractLsb' 0 4 ++ imm.extractLsb' 10 1 ++ 99#7)
  | .bgeu rs1 rs2 imm => some (imm.extractLsb' 11 1 ++ imm.extractLsb' 4 6 ++ rs2 ++ rs1 ++ 7#3 ++ imm.extractLsb' 0 4 ++ imm.extractLsb' 10 1 ++ 99#7)
  | .lb rd rs1 imm => some (imm ++ rs1 ++ 0#3 ++ rd ++ 3#7)
  | .lh rd rs1 imm => some (imm ++ rs1 ++ 1#3 ++ rd ++ 3#7)
  | .lw rd rs1 imm => some (imm ++ rs1 ++ 2#3 ++ rd ++ 3#7)
  | .ld rd rs1 imm => some (imm ++ rs1 ++ 3#3 ++ rd ++ 3#7)
  | .lbu rd rs1 imm => some (imm ++ rs1 ++ 4#3 ++ rd ++ 3#7)
  | .lhu rd rs1 imm => some (imm ++ rs1 ++ 5#3 ++ rd ++ 3#7)
  | .lwu rd rs1 imm => some (imm ++ rs1 ++ 6#3 ++ rd ++ 3#7)
  | .sb rs1 rs2 imm => some (imm.extractLsb' 5 7 ++ rs2 ++ rs1 ++ 0#3 ++ imm.extractLsb' 0 5 ++ 35#7)
  | .sh rs1 rs2 imm => some (imm.extractLsb' 5 7 ++ rs2 ++ rs1 ++ 1#3 ++ imm.extractLsb' 0 5 ++ 35#7)
  | .sw rs1 rs2 imm => some (imm.extractLsb' 5 7 ++ rs2 ++ rs1 ++ 2#3 ++ imm.extractLsb' 0 5 ++ 35#7)
  | .sd rs1 rs2 imm => some (imm.extractLsb' 5 7 ++ rs2 ++ rs1 ++ 3#3 ++ imm.extractLsb' 0 5 ++ 35#7)
  | .addi rd rs1 imm => some (imm ++ rs1 ++ 0#3 ++ rd ++ 19#7)
  | .slti rd rs1 imm => some (imm ++ rs1 ++ 2#3 ++ rd ++ 19#7)
  | .sltiu rd rs1 imm => some (imm ++ rs1 ++ 3#3 ++ rd ++ 19#7)
  | .xori rd rs1 imm => some (imm ++ rs1 ++ 4#3 ++ rd ++ 19#7)
  | .ori rd rs1 imm => some (imm ++ rs1 ++ 6#3 ++ rd ++ 19#7)
  | .andi rd rs1 imm => some (imm ++ rs1 ++ 7#3 ++ rd ++ 19#7)
  | .slli rd rs1 sh => some (0#6 ++ sh ++ rs1 ++ 1#3 ++ rd ++ 19#7)
  | .srli rd rs1 sh => some (0#6 ++ sh ++ rs1 ++ 5#3 ++ rd ++ 19#7)
  | .srai rd rs1 sh => some (16#6 ++ sh ++ rs1 ++ 5#3 ++ rd ++ 19#7)
  | .addiw rd rs1 imm => some (imm ++ rs1 ++ 0#3 ++ rd ++ 27#7)
  | .slliw rd rs1 sh => some (0#7 ++ sh ++ rs1 ++ 1#3 ++ rd ++ 27#7)
  | .srliw rd rs1 sh => some (0#7 ++ sh ++ rs1 ++ 5#3 ++ rd ++ 27#7)
  | .sraiw rd rs1 sh => some (32#7 ++ sh ++ rs1 ++ 5#3 ++ rd ++ 27#7)
  | .add rd rs1 rs2 => some (0#7 ++ rs2 ++ rs1 ++ 0#3 ++ rd ++ 51#7)
  | .sub rd rs1 rs2 => some (32#7 ++ rs2 ++ rs1 ++ 0#3 ++ rd ++ 51#7)
  | .sll rd rs1 rs2 => some (0#7 ++ rs2 ++ rs1 ++ 1#3 ++ rd ++ 51#7)
  | .slt rd rs1 rs2 => some (0#7 ++ rs2 ++ rs1 ++ 2#3 ++ rd ++ 51#7)
  | .sltu rd rs1 rs2 => some (0#7 ++ rs2 ++ rs1 ++ 3#3 ++ rd ++ 51#7)
  | .xor rd rs1 rs2 => some (0#7 ++ rs2 ++ rs1 ++ 4#3 ++ rd ++ 51#7)
  | .srl rd rs1 rs2 => some (0#7 ++ rs2 ++ rs1 ++ 5#3 ++ rd ++ 51#7)
  | .sra rd rs1 rs2 => some (32#7 ++ rs2 ++ rs1 ++ 5#3 ++ rd ++ 51#7)
  | .or rd rs1 rs2 => some (0#7 ++ rs2 ++ rs1 ++ 6#3 ++ rd ++ 51#7)
  | .and rd rs1 rs2 => some (0#7 ++ rs2 ++ rs1 ++ 7#3 ++ rd ++ 51#7)
  | .mul rd rs1 rs2 => some (1#7 ++ rs2 ++ rs1 ++ 0#3 ++ rd ++ 51#7)
  | .mulh rd rs1 rs2 => some (1#7 ++ rs2 ++ rs1 ++ 1#3 ++ rd ++ 51#7)
  | .mulhsu rd rs1 rs2 => some (1#7 ++ rs2 ++ rs1 ++ 2#3 ++ rd ++ 51#7)
  | .mulhu rd rs1 rs2 => some (1#7 ++ rs2 ++ rs1 ++ 3#3 ++ rd ++ 51#7)
  | .div rd rs1 rs2 => some (1#7 ++ rs2 ++ rs1 ++ 4#3 ++ rd ++ 51#7)
  | .divu rd rs1 rs2 => some (1#7 ++ rs2 ++ rs1 ++ 5#3 ++ rd ++ 51#7)
  | .rem rd rs1 rs2 => some (1#7 ++ rs2 ++ rs1 ++ 6#3 ++ rd ++ 51#7)
  | .remu rd rs1 rs2 => some (1#7 ++ rs2 ++ rs1 ++ 7#3 ++ rd ++ 51#7)
  | .addw rd rs1 rs2 => some (0#7 ++ rs2 ++ rs1 ++ 0#3 ++ rd ++ 59#7)
  | .subw rd rs1 rs2 => some (32#7 ++ rs2 ++ rs1 ++ 0#3 ++ rd ++ 59#7)
  | .sllw rd rs1 rs2 => some (0#7 ++ rs2 ++ rs1 ++ 1#3 ++ rd ++ 59#7)
  | .srlw rd rs1 rs2 => some (0#7 ++ rs2 ++ rs1 ++ 5#3 ++ rd ++ 59#7)
  | .sraw rd rs1 rs2 => some (32#7 ++ rs2 ++ rs1 ++ 5#3 ++ rd ++ 59#7)
  | .mulw rd rs1 rs2 => some (1#7 ++ rs2 ++ rs1 ++ 0#3 ++ rd ++ 59#7)
  | .divw rd rs1 rs2 => some (1#7 ++ rs2 ++ rs1 ++ 4#3 ++ rd ++ 59#7)
  | .divuw rd rs1 rs2 => some (1#7 ++ rs2 ++ rs1 ++ 5#3 ++ rd ++ 59#7)
  | .remw rd rs1 rs2 => some (1#7 ++ rs2 ++ rs1 ++ 6#3 ++ rd ++ 59#7)
  | .remuw rd rs1 rs2 => some (1#7 ++ rs2 ++ rs1 ++ 7#3 ++ rd ++ 59#7)
  | .fence fm pred succ => some (fm ++ 0#3 ++ pred ++ succ ++ 0#5 ++ 0#3 ++ 0#5 ++ 15#7)
  | .fenceI => some (0#17 ++ 1#3 ++ 0#5 ++ 15#7)
  | .ecall => some (0#12 ++ 0#5 ++ 0#3 ++ 0#5 ++ 115#7)
  | .ebreak => some (1#12 ++ 0#5 ++ 0#3 ++ 0#5 ++ 115#7)
  | .csrrw rd rs1 csr => some (csr ++ rs1 ++ 1#3 ++ rd ++ 115#7)
  | .csrrs rd rs1 csr => some (csr ++ rs1 ++ 2#3 ++ rd ++ 115#7)
  | .csrrc rd rs1 csr => some (csr ++ rs1 ++ 3#3 ++ rd ++ 115#7)
  | .csrrwi rd csr zimm => some (csr ++ zimm ++ 5#3 ++ rd ++ 115#7)
  | .csrrsi rd csr zimm => some (csr ++ zimm ++ 6#3 ++ rd ++ 115#7)
  | .csrrci rd csr zimm => some (csr ++ zimm ++ 7#3 ++ rd ++ 115#7)
  | .tend => some (0#5 ++ 0#12 ++ 0#3 ++ 0#5 ++ 11#7)
  | .post rd rs1 e1 => some (1#5 ++ 0#1 ++ e1 ++ 0#5 ++ rs1 ++ 0#3 ++ rd ++ 11#7)
  | .poste rd rs1 rs2 e1 e2 => some (2#5 ++ e2 ++ e1 ++ rs2 ++ rs1 ++ 0#3 ++ rd ++ 11#7)
  | .succ rs1 e1 => some (3#5 ++ 0#1 ++ e1 ++ 0#5 ++ rs1 ++ 0#3 ++ 0#5 ++ 11#7)
  | .dlset rs1 rs2 e1 e2 => some (4#5 ++ e2 ++ e1 ++ rs2 ++ rs1 ++ 0#3 ++ 0#5 ++ 11#7)
  | .dlclr => some (5#5 ++ 0#12 ++ 0#3 ++ 0#5 ++ 11#7)
  | .spawn rd rs1 rs2 e1 e2 => some (0#5 ++ e2 ++ e1 ++ rs2 ++ rs1 ++ 1#3 ++ rd ++ 11#7)
  | .claim rs1 e1 => some (0#5 ++ 0#1 ++ e1 ++ 0#5 ++ rs1 ++ 2#3 ++ 0#5 ++ 11#7)
  | .unclaim rs1 e1 => some (1#5 ++ 0#1 ++ e1 ++ 0#5 ++ rs1 ++ 2#3 ++ 0#5 ++ 11#7)
  | .hold rs1 e1 => some (2#5 ++ 0#1 ++ e1 ++ 0#5 ++ rs1 ++ 2#3 ++ 0#5 ++ 11#7)
  | .unhold rs1 e1 => some (3#5 ++ 0#1 ++ e1 ++ 0#5 ++ rs1 ++ 2#3 ++ 0#5 ++ 11#7)
  | .holdm rs1 e1 => some (4#5 ++ 0#1 ++ e1 ++ 0#5 ++ rs1 ++ 2#3 ++ 0#5 ++ 11#7)
  | .unholdm rs1 e1 => some (5#5 ++ 0#1 ++ e1 ++ 0#5 ++ rs1 ++ 2#3 ++ 0#5 ++ 11#7)
  | .tbar => some (0#5 ++ 0#12 ++ 3#3 ++ 0#5 ++ 11#7)
  | .gbar rs1 e1 => some (1#5 ++ 0#1 ++ e1 ++ 0#5 ++ rs1 ++ 3#3 ++ 0#5 ++ 11#7)
  | .carve rs1 e1 => some (2#5 ++ 0#1 ++ e1 ++ 0#5 ++ rs1 ++ 3#3 ++ 0#5 ++ 11#7)
  | .align => some (3#5 ++ 0#12 ++ 3#3 ++ 0#5 ++ 11#7)
  | .tbarq rd => some (4#5 ++ 0#12 ++ 3#3 ++ rd ++ 11#7)
  | .send rd rs1 rs2 e1 e2 => some (0#5 ++ e2 ++ e1 ++ rs2 ++ rs1 ++ 4#3 ++ rd ++ 11#7)
  | .ldr rd rs1 e1 => some (1#5 ++ 0#1 ++ e1 ++ 0#5 ++ rs1 ++ 4#3 ++ rd ++ 11#7)
  | .ldrw rd rs1 e1 => some (2#5 ++ 0#1 ++ e1 ++ 0#5 ++ rs1 ++ 4#3 ++ rd ++ 11#7)
  | .tjmp rs1 rs2 e1 e2 => some (0#5 ++ e2 ++ e1 ++ rs2 ++ rs1 ++ 5#3 ++ 0#5 ++ 11#7)
  | .qpush rs1 e1 q => some (1#5 ++ 0#1 ++ e1 ++ q ++ rs1 ++ 5#3 ++ 0#5 ++ 11#7)
  | .qpop rd q => some (2#5 ++ 0#2 ++ q ++ 0#5 ++ 5#3 ++ rd ++ 11#7)
  | .qlen rd q => some (3#5 ++ 0#2 ++ q ++ 0#5 ++ 5#3 ++ rd ++ 11#7)
  | .one => some (0#5 ++ 0#12 ++ 6#3 ++ 0#5 ++ 11#7)
  | .fmt f1 f2 => some (1#5 ++ 0#4 ++ f2 ++ 0#2 ++ f1 ++ 6#3 ++ 0#5 ++ 11#7)
  | .tret => some (0#5 ++ 0#12 ++ 7#3 ++ 0#5 ++ 11#7)
  | .tkill => some (1#5 ++ 0#12 ++ 7#3 ++ 0#5 ++ 11#7)
  | .tfrd rd rs1 e1 => some (2#5 ++ 0#1 ++ e1 ++ 0#5 ++ rs1 ++ 7#3 ++ rd ++ 11#7)
  | .tfwr rs1 rs2 e1 e2 => some (3#5 ++ e2 ++ e1 ++ rs2 ++ rs1 ++ 7#3 ++ 0#5 ++ 11#7)
  | .xinv rs1 rs2 e1 e2 => some (4#5 ++ e2 ++ e1 ++ rs2 ++ rs1 ++ 7#3 ++ 0#5 ++ 11#7)
  | .ckpt => some (5#5 ++ 0#12 ++ 7#3 ++ 0#5 ++ 11#7)
  | .rel => some (0#5 ++ 0#12 ++ 0#3 ++ 0#5 ++ 43#7)
  | .acq rs1 e1 => some (1#5 ++ 0#1 ++ e1 ++ 0#5 ++ rs1 ++ 0#3 ++ 0#5 ++ 43#7)
  | .acqm rs1 e1 => some (2#5 ++ 0#1 ++ e1 ++ 0#5 ++ rs1 ++ 0#3 ++ 0#5 ++ 43#7)
  | .acqg rs1 e1 => some (3#5 ++ 0#1 ++ e1 ++ 0#5 ++ rs1 ++ 0#3 ++ 0#5 ++ 43#7)
  | .acqv => some (4#5 ++ 0#12 ++ 0#3 ++ 0#5 ++ 43#7)
  | .drainS => some (0#5 ++ 0#12 ++ 1#3 ++ 0#5 ++ 43#7)
  | .drainG => some (1#5 ++ 0#12 ++ 1#3 ++ 0#5 ++ 43#7)
  | .drainR => some (2#5 ++ 0#12 ++ 1#3 ++ 0#5 ++ 43#7)
  | .drainK => some (3#5 ++ 0#12 ++ 1#3 ++ 0#5 ++ 43#7)
  | .atomAdd rd rs1 rs2 e1 e2 => some (0#5 ++ e2 ++ e1 ++ rs2 ++ rs1 ++ 2#3 ++ rd ++ 43#7)
  | .atomAnd rd rs1 rs2 e1 e2 => some (1#5 ++ e2 ++ e1 ++ rs2 ++ rs1 ++ 2#3 ++ rd ++ 43#7)
  | .atomOr rd rs1 rs2 e1 e2 => some (2#5 ++ e2 ++ e1 ++ rs2 ++ rs1 ++ 2#3 ++ rd ++ 43#7)
  | .atomXor rd rs1 rs2 e1 e2 => some (3#5 ++ e2 ++ e1 ++ rs2 ++ rs1 ++ 2#3 ++ rd ++ 43#7)
  | .atomMin rd rs1 rs2 e1 e2 => some (4#5 ++ e2 ++ e1 ++ rs2 ++ rs1 ++ 2#3 ++ rd ++ 43#7)
  | .atomMax rd rs1 rs2 e1 e2 => some (5#5 ++ e2 ++ e1 ++ rs2 ++ rs1 ++ 2#3 ++ rd ++ 43#7)
  | .atomMinu rd rs1 rs2 e1 e2 => some (6#5 ++ e2 ++ e1 ++ rs2 ++ rs1 ++ 2#3 ++ rd ++ 43#7)
  | .atomMaxu rd rs1 rs2 e1 e2 => some (7#5 ++ e2 ++ e1 ++ rs2 ++ rs1 ++ 2#3 ++ rd ++ 43#7)
  | .atomSwap rd rs1 rs2 e1 e2 => some (8#5 ++ e2 ++ e1 ++ rs2 ++ rs1 ++ 2#3 ++ rd ++ 43#7)
  | .atomAddW rd rs1 rs2 e1 e2 => some (16#5 ++ e2 ++ e1 ++ rs2 ++ rs1 ++ 2#3 ++ rd ++ 43#7)
  | .atomAndW rd rs1 rs2 e1 e2 => some (17#5 ++ e2 ++ e1 ++ rs2 ++ rs1 ++ 2#3 ++ rd ++ 43#7)
  | .atomOrW rd rs1 rs2 e1 e2 => some (18#5 ++ e2 ++ e1 ++ rs2 ++ rs1 ++ 2#3 ++ rd ++ 43#7)
  | .atomXorW rd rs1 rs2 e1 e2 => some (19#5 ++ e2 ++ e1 ++ rs2 ++ rs1 ++ 2#3 ++ rd ++ 43#7)
  | .atomMinW rd rs1 rs2 e1 e2 => some (20#5 ++ e2 ++ e1 ++ rs2 ++ rs1 ++ 2#3 ++ rd ++ 43#7)
  | .atomMaxW rd rs1 rs2 e1 e2 => some (21#5 ++ e2 ++ e1 ++ rs2 ++ rs1 ++ 2#3 ++ rd ++ 43#7)
  | .atomMinuW rd rs1 rs2 e1 e2 => some (22#5 ++ e2 ++ e1 ++ rs2 ++ rs1 ++ 2#3 ++ rd ++ 43#7)
  | .atomMaxuW rd rs1 rs2 e1 e2 => some (23#5 ++ e2 ++ e1 ++ rs2 ++ rs1 ++ 2#3 ++ rd ++ 43#7)
  | .atomSwapW rd rs1 rs2 e1 e2 => some (24#5 ++ e2 ++ e1 ++ rs2 ++ rs1 ++ 2#3 ++ rd ++ 43#7)
  | .atomCas rd rs1 rs2 rs3 => some (rs3 ++ 0#2 ++ rs2 ++ rs1 ++ 3#3 ++ rd ++ 43#7)
  | .atomCasW rd rs1 rs2 rs3 => some (rs3 ++ 1#2 ++ rs2 ++ rs1 ++ 3#3 ++ rd ++ 43#7)
  | .redAdd rs1 rs2 e1 e2 => some (0#5 ++ e2 ++ e1 ++ rs2 ++ rs1 ++ 4#3 ++ 0#5 ++ 43#7)
  | .redAddf rs1 rs2 e1 e2 => some (1#5 ++ e2 ++ e1 ++ rs2 ++ rs1 ++ 4#3 ++ 0#5 ++ 43#7)
  | .redMin rs1 rs2 e1 e2 => some (2#5 ++ e2 ++ e1 ++ rs2 ++ rs1 ++ 4#3 ++ 0#5 ++ 43#7)
  | .redMax rs1 rs2 e1 e2 => some (3#5 ++ e2 ++ e1 ++ rs2 ++ rs1 ++ 4#3 ++ 0#5 ++ 43#7)
  | .redAddW rs1 rs2 e1 e2 => some (16#5 ++ e2 ++ e1 ++ rs2 ++ rs1 ++ 4#3 ++ 0#5 ++ 43#7)
  | .redAddfW rs1 rs2 e1 e2 => some (17#5 ++ e2 ++ e1 ++ rs2 ++ rs1 ++ 4#3 ++ 0#5 ++ 43#7)
  | .redMinW rs1 rs2 e1 e2 => some (18#5 ++ e2 ++ e1 ++ rs2 ++ rs1 ++ 4#3 ++ 0#5 ++ 43#7)
  | .redMaxW rs1 rs2 e1 e2 => some (19#5 ++ e2 ++ e1 ++ rs2 ++ rs1 ++ 4#3 ++ 0#5 ++ 43#7)
  | .copy rd rs1 rs2 rs3 => some (rs3 ++ 0#2 ++ rs2 ++ rs1 ++ 5#3 ++ rd ++ 43#7)
  | .copy2d rd rs1 rs2 rs3 => some (rs3 ++ 1#2 ++ rs2 ++ rs1 ++ 5#3 ++ rd ++ 43#7)
  | .copyb rd rs1 rs2 rs3 => some (rs3 ++ 2#2 ++ rs2 ++ rs1 ++ 5#3 ++ rd ++ 43#7)
  | .cpcnt rs1 e1 => some (0#5 ++ 0#1 ++ e1 ++ 0#5 ++ rs1 ++ 6#3 ++ 0#5 ++ 43#7)
  | .copyq rd rs1 e1 => some (1#5 ++ 0#1 ++ e1 ++ 0#5 ++ rs1 ++ 6#3 ++ rd ++ 43#7)
  | .pref rs1 e1 => some (0#5 ++ 0#1 ++ e1 ++ 0#5 ++ rs1 ++ 7#3 ++ 0#5 ++ 43#7)
  | .vspl vd xs sz => some (0#6 ++ sz ++ 0#6 ++ vd ++ 0#3 ++ xs ++ 91#7)
  | .vsplq vd sz => some (1#6 ++ sz ++ 0#6 ++ vd ++ 0#3 ++ 0#5 ++ 91#7)
  | .voutq vs1 xs sz => some (2#6 ++ sz ++ 0#3 ++ vs1 ++ 0#3 ++ 0#3 ++ xs ++ 91#7)
  | .vmv vd vs1 => some (3#6 ++ 0#5 ++ vs1 ++ vd ++ 0#3 ++ 0#5 ++ 91#7)
  | .vlane vd vs1 xs sz => some (4#6 ++ sz ++ 0#3 ++ vs1 ++ vd ++ 0#3 ++ xs ++ 91#7)
  | .vld vd xs => some (0#6 ++ 0#8 ++ vd ++ 1#3 ++ xs ++ 91#7)
  | .vst vs1 xs => some (1#6 ++ 0#5 ++ vs1 ++ 0#3 ++ 1#3 ++ xs ++ 91#7)
  | .vlds vd vs1 xs sz => some (2#6 ++ sz ++ 0#3 ++ vs1 ++ vd ++ 1#3 ++ xs ++ 91#7)
  | .vgth vd vs1 xs => some (3#6 ++ 0#5 ++ vs1 ++ vd ++ 1#3 ++ xs ++ 91#7)
  | .vsct vs1 vs2 xs => some (4#6 ++ 0#2 ++ vs2 ++ vs1 ++ 0#3 ++ 1#3 ++ xs ++ 91#7)
  | .vadd vd vs1 vs2 sz => some (0#6 ++ sz ++ vs2 ++ vs1 ++ vd ++ 2#3 ++ 0#5 ++ 91#7)
  | .vsub vd vs1 vs2 sz => some (1#6 ++ sz ++ vs2 ++ vs1 ++ vd ++ 2#3 ++ 0#5 ++ 91#7)
  | .vmul vd vs1 vs2 sz => some (2#6 ++ sz ++ vs2 ++ vs1 ++ vd ++ 2#3 ++ 0#5 ++ 91#7)
  | .vfma vd vs1 vs2 sz => some (3#6 ++ sz ++ vs2 ++ vs1 ++ vd ++ 2#3 ++ 0#5 ++ 91#7)
  | .vmax vd vs1 vs2 sz => some (4#6 ++ sz ++ vs2 ++ vs1 ++ vd ++ 2#3 ++ 0#5 ++ 91#7)
  | .vmin vd vs1 vs2 sz => some (5#6 ++ sz ++ vs2 ++ vs1 ++ vd ++ 2#3 ++ 0#5 ++ 91#7)
  | .vabs vd vs1 sz => some (6#6 ++ sz ++ 0#3 ++ vs1 ++ vd ++ 2#3 ++ 0#5 ++ 91#7)
  | .vneg vd vs1 sz => some (7#6 ++ sz ++ 0#3 ++ vs1 ++ vd ++ 2#3 ++ 0#5 ++ 91#7)
  | .viadd vd vs1 vs2 => some (0#6 ++ 0#2 ++ vs2 ++ vs1 ++ vd ++ 3#3 ++ 0#5 ++ 91#7)
  | .visub vd vs1 vs2 => some (1#6 ++ 0#2 ++ vs2 ++ vs1 ++ vd ++ 3#3 ++ 0#5 ++ 91#7)
  | .vimul vd vs1 vs2 => some (2#6 ++ 0#2 ++ vs2 ++ vs1 ++ vd ++ 3#3 ++ 0#5 ++ 91#7)
  | .vand vd vs1 vs2 => some (3#6 ++ 0#2 ++ vs2 ++ vs1 ++ vd ++ 3#3 ++ 0#5 ++ 91#7)
  | .vor vd vs1 vs2 => some (4#6 ++ 0#2 ++ vs2 ++ vs1 ++ vd ++ 3#3 ++ 0#5 ++ 91#7)
  | .vxor vd vs1 vs2 => some (5#6 ++ 0#2 ++ vs2 ++ vs1 ++ vd ++ 3#3 ++ 0#5 ++ 91#7)
  | .vshl vd vs1 vs2 => some (6#6 ++ 0#2 ++ vs2 ++ vs1 ++ vd ++ 3#3 ++ 0#5 ++ 91#7)
  | .vshr vd vs1 vs2 => some (7#6 ++ 0#2 ++ vs2 ++ vs1 ++ vd ++ 3#3 ++ 0#5 ++ 91#7)
  | .vsra vd vs1 vs2 => some (8#6 ++ 0#2 ++ vs2 ++ vs1 ++ vd ++ 3#3 ++ 0#5 ++ 91#7)
  | .viadds vd vs1 vs2 => some (9#6 ++ 0#2 ++ vs2 ++ vs1 ++ vd ++ 3#3 ++ 0#5 ++ 91#7)
  | .vcvt vd vs1 part sato mode => some (0#6 ++ 3#2 ++ part ++ vs1 ++ vd ++ 4#3 ++ 0#2 ++ sato ++ mode ++ 91#7)
  | .vcvti vd vs1 part sato mode => some (1#6 ++ 3#2 ++ part ++ vs1 ++ vd ++ 4#3 ++ 0#2 ++ sato ++ mode ++ 91#7)
  | .vcmpeq vd vs1 vs2 sz code => some (0#6 ++ sz ++ vs2 ++ vs1 ++ vd ++ 5#3 ++ 0#4 ++ code ++ 91#7)
  | .vcmplt vd vs1 vs2 sz code => some (1#6 ++ sz ++ vs2 ++ vs1 ++ vd ++ 5#3 ++ 0#4 ++ code ++ 91#7)
  | .vcmple vd vs1 vs2 sz code => some (2#6 ++ sz ++ vs2 ++ vs1 ++ vd ++ 5#3 ++ 0#4 ++ code ++ 91#7)
  | .vsel vd vs1 vs2 => some (3#6 ++ 0#2 ++ vs2 ++ vs1 ++ vd ++ 5#3 ++ 0#5 ++ 91#7)
  | .vbq vs1 => some (4#6 ++ 0#5 ++ vs1 ++ 0#3 ++ 5#3 ++ 0#5 ++ 91#7)
  | .vsum vd vs1 sz code => some (0#6 ++ sz ++ 0#3 ++ vs1 ++ vd ++ 6#3 ++ 0#4 ++ code ++ 91#7)
  | .vrmax vd vs1 sz code => some (1#6 ++ sz ++ 0#3 ++ vs1 ++ vd ++ 6#3 ++ 0#4 ++ code ++ 91#7)
  | .vrmin vd vs1 sz code => some (2#6 ++ sz ++ 0#3 ++ vs1 ++ vd ++ 6#3 ++ 0#4 ++ code ++ 91#7)
  | .vperm vd vs1 vs2 sz => some (3#6 ++ sz ++ vs2 ++ vs1 ++ vd ++ 6#3 ++ 0#5 ++ 91#7)
  | .vrot vd vs1 xs sz => some (4#6 ++ sz ++ 0#3 ++ vs1 ++ vd ++ 6#3 ++ xs ++ 91#7)
  | .vexp2 vd vs1 sz => some (0#6 ++ sz ++ 0#3 ++ vs1 ++ vd ++ 7#3 ++ 0#5 ++ 91#7)
  | .vrcp vd vs1 sz => some (1#6 ++ sz ++ 0#3 ++ vs1 ++ vd ++ 7#3 ++ 0#5 ++ 91#7)
  | .vrsq vd vs1 sz => some (2#6 ++ sz ++ 0#3 ++ vs1 ++ vd ++ 7#3 ++ 0#5 ++ 91#7)
  | .vlog2 vd vs1 sz => some (3#6 ++ sz ++ 0#3 ++ vs1 ++ vd ++ 7#3 ++ 0#5 ++ 91#7)
  | .vseed vs1 => some (4#6 ++ 0#5 ++ vs1 ++ 0#3 ++ 7#3 ++ 0#5 ++ 91#7)
  | .lease => some (0#5 ++ 0#12 ++ 0#3 ++ 0#5 ++ 123#7)
  | .unlease => some (1#5 ++ 0#12 ++ 0#3 ++ 0#5 ++ 123#7)
  | .ringdef xs ia => some (2#5 ++ ia ++ 0#10 ++ 0#3 ++ xs ++ 123#7)
  | .ringq ia => some (3#5 ++ ia ++ 0#10 ++ 0#3 ++ 0#5 ++ 123#7)
  | .ringadv xs ia => some (4#5 ++ ia ++ 0#10 ++ 0#3 ++ xs ++ 123#7)
  | .kmma ia ib fa fb mode => some (0#5 ++ ia ++ ib ++ fa ++ fb ++ mode ++ 1#3 ++ 0#5 ++ 123#7)
  | .kmmas ia ib fa fb mode => some (1#5 ++ ia ++ ib ++ fa ++ fb ++ mode ++ 1#3 ++ 0#5 ++ 123#7)
  | .kmmat ia ib fa fb mode => some (2#5 ++ ia ++ ib ++ fa ++ fb ++ mode ++ 1#3 ++ 0#5 ++ 123#7)
  | .kmman ia ib fa fb mode => some (3#5 ++ ia ++ ib ++ fa ++ fb ++ mode ++ 1#3 ++ 0#5 ++ 123#7)
  | .kzero => some (0#5 ++ 0#12 ++ 2#3 ++ 0#5 ++ 123#7)
  | .kld xs => some (1#5 ++ 0#12 ++ 2#3 ++ xs ++ 123#7)
  | .kst xs => some (2#5 ++ 0#12 ++ 2#3 ++ xs ++ 123#7)
  | .krow vd n => some (3#5 ++ vd ++ 0#3 ++ n ++ 2#3 ++ 0#5 ++ 123#7)
  | .kputrow vs n => some (4#5 ++ 0#3 ++ vs ++ n ++ 2#3 ++ 0#5 ++ 123#7)
  | .keep xs ia ib => some (0#5 ++ ia ++ ib ++ 0#8 ++ 3#3 ++ xs ++ 123#7)
  | .kscq mode => some (1#5 ++ 0#10 ++ mode ++ 3#3 ++ 0#5 ++ 123#7)
  | .kfac n => some (0#5 ++ 0#6 ++ n ++ 4#3 ++ 0#5 ++ 123#7)
  | .ktrsl vd vs n => some (1#5 ++ vd ++ vs ++ n ++ 4#3 ++ 0#5 ++ 123#7)
  | .ktrsu vd vs n => some (2#5 ++ vd ++ vs ++ n ++ 4#3 ++ 0#5 ++ 123#7)
  | .kmv vd vs n => some (3#5 ++ vd ++ vs ++ n ++ 4#3 ++ 0#5 ++ 123#7)
  | .kmvt vd vs n => some (4#5 ++ vd ++ vs ++ n ++ 4#3 ++ 0#5 ++ 123#7)
  | .kdiag xs n => some (5#5 ++ 0#6 ++ n ++ 4#3 ++ xs ++ 123#7)
  | .kchkq mode => some (0#5 ++ 0#10 ++ mode ++ 5#3 ++ 0#5 ++ 123#7)
  | .kflg xs mode => some (1#5 ++ 0#10 ++ mode ++ 5#3 ++ xs ++ 123#7)
  | _ => none

end Sys2Proof
end

