-- ==== Sys2Proof/Config.lean ====
section
/-! DEFINITION. What the spec leaves to an implementation or to the world: opaque constants (log entry 7). -/

namespace Sys2Proof

/-- A value of the part that the spec does not state: the attestation digest, the serial number, a random key word.
The argument tells the uses apart (`State.fresh`); nothing constrains a value. -/
opaque Config.freeByte : Nat → Byte

/-- A fixed byte of this part that the spec does not state: the firmware's SHA-512 (0 to 63), the part serial (64 to 71)
and the identity key (72 to 103) of an attestation report (R375). -/
opaque Config.fuseByte : Nat → Byte

/-- The clock rate of R10 in Hz. -/
def Config.clockHz : Nat := 1400000000

/-- The number of entries of the saggar rotation, the buckets and the device tables (R352). -/
def Config.numDevices : Nat := 64

/-- Cores of the package (R11). -/
def Config.numCores : Nat := 16384

/-- The host's endpoint identifier (R25). -/
def Config.hostEp : Nat := 0xFFFF0000

end Sys2Proof
end

