-- ==== Sys2Proof/Machine/TaskTypes.lean ====
section
/-! DEFINITION. Tasks, frames and their parts as plain data (spec chapters 02, 03, 19). -/

namespace Sys2Proof.Machine

/-- A task record (R24): its fields, the zero fields apart. -/
structure TaskRec where
  pc : Word
  a0 : Word
  a1 : Word
  a2 : Word
  a3 : Word
  origin : Nat
  oseq : Nat
  prio : Nat
  nxr : Bool
  s : Bool
  cls : Nat
  frame : Nat
  pan : Nat
  vdev : Nat
  gen : Nat
  deadline : Nat
  pseq : Nat
  /-- the storage that holds the record has a word with an uncorrectable error: reading it is a consumption (R405, R407) -/
  bad : Bool := false
deriving DecidableEq, Repr

/-- Where a ready record lies (R30, R32). -/
inductive Place where
  /-- one of the 64 ready-set slots -/
  | slot
  /-- one of the 32 receive-queue entries -/
  | recvq
  /-- the ready spill area: a reserved successor entry (R32) -/
  | spill
  /-- the spill entry of an overflow NOTE, LOSS or EVICT -/
  | spillNote
  /-- a spill entry of an overflow ADD -/
  | spillAdd
  /-- a spill entry of a page response -/
  | spillPage
  /-- the spill entry of a counter overflow -/
  | spillCount
deriving DecidableEq, Repr

/-- A ready record with its arrival stamp and arrival time (R33, R53), and what an enqueue adds (R330). -/
structure Ready where
  task : TaskRec
  stamp : Nat
  arrived : Nat
  place : Place
  pasid : Option Nat
  hseq : Nat
  /-- a counter-overflow post (R383) -/
  ovf : Bool
  /-- the handler task of a latched NOTE, LOSS or EVICT (R148) -/
  latch : Bool
deriving DecidableEq, Repr

/-- An armed deadline (R53, R222, R223). -/
structure Deadline where
  /-- the cycle at which it expires -/
  expiry : Nat
  /-- its successor, which holds a spill reservation -/
  succ : Option TaskRec
  /-- solve commands of the task completed since the DLSET (R223) -/
  solves : Nat
  /-- 2 or 3 when the expiry aborted a solve command (R223) -/
  reason : Nat
  /-- it expired while a trap frame ran over the task's frame (R235) -/
  passed : Bool := false
deriving DecidableEq, Repr

/-- What a trap frame holds for TFRD (R416). -/
structure TrapInfo where
  cause : Nat
  /-- a boundary or task-start trap -/
  boundary : Bool
  tval : Word
deriving DecidableEq, Repr

/-- Where the window of an inactive frame lies (R45). -/
inductive Win where
  | loc
  /-- lent by this cluster core number -/
  | lent (k : Nat)
  /-- in the window spill region in L2 -/
  | l2
deriving DecidableEq, Repr

/-- A frame (R37, R38, R66 to R86): what one level of a core holds. -/
structure Frame where
  level : Nat
  /-- the frame's serial number, by which replies find it (R44, R214) -/
  fid : Nat
  regs : Vector Word 32
  /-- bit i: xi is full (R67) -/
  full : BitVec 32
  /-- bit i: xi is live (R70) -/
  live : BitVec 32
  /-- bit i: xi is marked poison (R437) -/
  pois : BitVec 32
  /-- bit i: xi waits for a standard load (R201) -/
  busy : BitVec 32
  pc : Word
  /-- TSTAT.DRT, DR, PP, PFMT, NXR, S (R79) -/
  drt : Bool
  dr : Bool
  pp : Bool
  pfmt : BitVec 6
  nxr : Bool
  sup : Bool
  /-- THRESH.LEVEL (R29, R80) -/
  thr : Nat
  /-- open claims, newest first: resource and pushed level (R48) -/
  claims : List (Nat × Nat)
  deadm : BitVec 32
  /-- SUCC (R81) -/
  succ : Word
  dl : Option Deadline
  cls : Nat
  /-- FRAME and PAN of the record -/
  fsize : Nat
  pan : Nat
  hseq : Nat
  pasid : Option Nat
  /-- VDEV and GEN of the record -/
  vdev : Nat
  gen : Nat
  /-- scratchpad offset of the record copy: the stack top while the frame runs (R39) -/
  base : Nat
  trap : Option TrapInfo
  /-- the start acquire still to perform: ORIGIN and OSEQ (R154) -/
  acq : Option (Nat × Nat)
  /-- own-window offset of an armed byte counter (R248) -/
  counter : Option Nat
  /-- pending boundary traps with their TVAL (R418) -/
  pendStep : Option Word
  pendWatch : Option Word
  pendChk : Option Word
  /-- the access fault of an access that had left the core (R124) -/
  pendFault : Option Word
  /-- PC of the instruction last retired, for a boundary trap's a2 (R414) -/
  lastPc : Word
  /-- no breakpoint on the next instruction (R415) -/
  exempt : Bool
  /-- the latch of the directory overflow is freed when this task ends (R148) -/
  latch : Bool
  win : Win
deriving DecidableEq, Repr

/-- A record of a store log (R137) with its home, set and publication state (R129, R140, R218). -/
inductive RecOwner where
  /-- not yet covered by a release or post -/
  | free
  /-- in the span of a release or post that waits in `Pub.acts` -/
  | act (id : Nat)
  /-- stamped with this seq and streamed -/
  | stamped (seq : Nat)
  /-- acknowledged -/
  | acked
deriving DecidableEq, Repr

structure LogRec where
  /-- address of the 8-byte word -/
  addr : Nat
  mask : BitVec 8
  data : Word
  csel : Nat
  /-- home endpoint and set (R129, R130) -/
  home : Nat
  set : Nat
  owner : RecOwner
  /-- the record lies in the log extension (R160) -/
  spilled : Bool
  pois : Bool
deriving DecidableEq, Repr

/-- A release or post whose stamp is not settled (R141, R218), in program order. -/
inductive PubAct where
  /-- a deferred release, with the seq that its records will be stamped with once a later post has fixed it -/
  | rel (id : Nat) (seq : Option Nat)
  /-- a post: its seq, and its status once known -/
  | post (id seq : Nat) (status : Option Bool)
deriving DecidableEq, Repr

/-- The publication state of a core for one virtual device (R137 to R144, R218, R372). -/
structure Pub where
  clk : Nat
  lseq : Nat
  /-- store log and log extension, oldest first -/
  log : List LogRec
  /-- the newest record is open (R138) -/
  opened : Bool
  acts : List PubAct
  /-- seqs taken by copies and not yet acknowledged (R156) -/
  engine : List Nat
  nextAct : Nat
  /-- where the oldest record of the log extension lies in it (R139) -/
  extAt : Nat
deriving DecidableEq, Repr

/-- A carve-out (R121): SSTAT in 256-byte units, the others in 4 KiB units. -/
structure Carve where
  sstat : Nat
  spad : Nat
  log : Nat
  win : Nat
deriving DecidableEq, Repr

/-- An L1 line of global memory (R127). -/
structure L1Line where
  /-- the home endpoint that filled the line (R130) -/
  home : Nat
  /-- physical address div 512 -/
  line : Nat
  valid : BitVec 4
  data : Tbl Byte
  /-- poisoned words of the line, by word index -/
  pois : List Nat
  age : Nat
deriving DecidableEq, Repr

/-- An instruction line of a core (R159): a sector of code as its home held it when it was fetched (R127). -/
structure ILine where
  home : Nat
  /-- physical address div 128 -/
  sector : Nat
  data : List Byte
  /-- poisoned words of the sector, by word index -/
  pois : List Nat
deriving DecidableEq, Repr

/-- A buffered stale note (R146). -/
structure Note where
  writer : Nat
  seq : Nat
  /-- the home endpoint that sent it -/
  home : Nat
  addr : Nat
  mask : BitVec 8
  data : Word
  pois : Bool
deriving DecidableEq, Repr

/-- A translation of an access (R361): where the bytes are and which slice homes them. `set` is the place in the slice as
packets carry it: the set, and above its 4 bits the memory key of the page entry (R14, R130). -/
structure Xlat where
  pa : Nat
  csel : Nat
  chip : Nat
  home : Nat
  set : Nat
deriving DecidableEq, Repr

/-- A standard load on its way (R201). -/
structure Load where
  id : Nat
  rd : BitVec 5
  n : Nat
  signed : Bool
  x : Xlat
  /-- the bytes of the core's own unacknowledged records when the load was issued: later stores are not its to see -/
  own : List (Option Byte)
  /-- its data goes to `Core.got`, for an instruction that reads a record, descriptor or table (R212) -/
  buf : Bool := false
  /-- PC of the instruction that issued it (R411) -/
  pc : Word := 0
deriving DecidableEq, Repr

/-- A fill on its way to an L1 (R128): its request, the home and the sector. `barred`: the sector was invalidated here
since, so that it is not installed (R155). -/
structure FillWait where
  id : Nat
  home : Nat
  /-- physical address div 128 -/
  sector : Nat
  barred : Bool
deriving DecidableEq, Repr

/-- Bytes that the running instruction has read in another chip's core arrays or MMIO (R200, R212). -/
structure FarRead where
  /-- the endpoint that answered -/
  ep : Nat
  pa : Nat
  data : List Byte
  pois : Bool
deriving DecidableEq, Repr

/-- What a reply reservation waits for (R214). -/
inductive ReqKind where
  | ldr (n : Nat)
  | atom (n : Nat)
  /-- a post's status: the act of `Pub.acts` -/
  | post (act : Nat)
  /-- a SPAWN's status over the cluster network: it takes no reservation (R214) -/
  | spawn (act : Nat)
deriving DecidableEq, Repr

structure Req where
  id : Nat
  kind : ReqKind
  rd : BitVec 5
  fid : Nat
  level : Nat
  vdev : Nat
  gen : Nat
  x : Xlat
  succ : Option TaskRec
  /-- the bytes of the core's own unacknowledged records when an LDR was issued: later stores are not its to see -/
  own : List (Option Byte) := []
  /-- an ATOM: the records of its word that were unacknowledged when it was issued and still are (R152) -/
  olds : Nat := 0
  /-- PC of the instruction (R411) -/
  pc : Word := 0
deriving DecidableEq, Repr

/-- An acquire in progress (R150): writers with targets, and the queries still unanswered. -/
structure Acq where
  id : Nat
  /-- writer and target, known once answered -/
  got : List (Nat × Nat)
  /-- writers whose answer is awaited, with the target the query carries, if any -/
  waits : List (Nat × Option Nat)
  /-- ACQV: a refresh begun at or after this cycle must complete with VH at least this CLK (R151) -/
  horizon : Option (Nat × Nat)
  /-- its queries have left the core (R141) -/
  sent : Bool
deriving DecidableEq, Repr

/-- A query held at its writer until CH reaches the target (R150). -/
structure Query where
  src : Nat
  id : Nat
  target : Nat
  vdev : Nat
  fkey : Nat
deriving DecidableEq, Repr

/-- A pending QPOP (R234). -/
structure Pop where
  fid : Nat
  level : Nat
  q : Nat
  rd : BitVec 5
deriving DecidableEq, Repr

/-- A gang barrier entry (R228, R327, R328). -/
structure GBar where
  bid : Nat
  /-- an arrival stands -/
  opened : Bool
  n : Nat
  i : Nat
  /-- endpoints of the members notified, round 0 first -/
  peers : List Nat
  sent : Nat
  rcvd : BitVec 16
  aborted : Bool
  /-- notices received for later instances: (round, abort) -/
  held : List (Nat × Bool)
  succ : Option TaskRec
  hasSucc : Bool
  vdev : Nat
  gen : Nat
deriving DecidableEq, Repr

/-- Why the running instruction waits (R23). -/
inductive Wait where
  | reg | dispatch | q0full | lease | logSpace | reply | loads | spill | barrier | copySlot | locks
  | drain | acquire | xinv | kilnRetire | bank | remoteCsr | mmio | align | one | fill | push
deriving DecidableEq, Repr

/-- An entry of a micro translation cache or shared translation cache (R363). -/
structure TlbEntry where
  vdev : Nat
  pasid : Option Nat
  /-- first address and size of the page -/
  va : Nat
  size : Nat
  leaf : Word
  /-- physical base for an ATS result (R367), with the host's permissions in `leaf` bits [3:1] -/
  ats : Option Nat
  age : Nat
deriving DecidableEq, Repr

end Sys2Proof.Machine
end

