-- ==== Sys2Proof/Machine/FabricTypes.lean ====
section
/-! DEFINITION. Packets, copies, buckets, L2 lines, links and virtual devices as plain data (chapters 05, 06, 12 to 15, 18, 20). -/

namespace Sys2Proof.Machine

/-- The atomic operations of R242 and R243, by funct5[3:0] or by name. -/
inductive AtomOp where
  | add | and | or | xor | min | max | minu | maxu | swap | cas | addf
  /-- a host write of whole bytes (R366): the value bytes replace, under the mask carried as the second operand -/
  | put
deriving DecidableEq, Repr

/-- What a packet carries (R318). -/
inductive Body where
  /-- a published record (R140) -/
  | rcd (r : LogRec)
  /-- a record is acknowledged: its word and seq (R144) -/
  | rcdAck (addr seq : Nat)
  /-- a stale note; `lock` names the home's pending acknowledgement (R146) -/
  | note (writer seq addr : Nat) (mask : BitVec 8) (data : Word) (pois : Bool) (lock : Nat)
  /-- an invalidation of a line -/
  | inval (line lock : Nat)
  /-- a sharer on another chip has accepted a note or invalidation (R144, R146) -/
  | accept (lock : Nat)
  /-- an acquire query with its target, if fixed by the acquirer (R149) -/
  | query (id : Nat) (target : Option Nat)
  | answer (id target : Nat)
  /-- a fill request of a sector (R128); `pref` for a prefetch -/
  | fill (id pa set : Nat)
  | fillRep (id pa : Nat) (data : List Byte) (pois : List Nat)
  | atom (id pa set n : Nat) (op : AtomOp) (v w : Word) (clk : Nat) (recs : List LogRec)
  | atomRep (id pa : Nat) (old new : Word) (s : Nat) (pois : Bool)
  /-- a reduction contribution or merged packet (R158, R326): greatest stamp (seq, endpoint), count, inside the window -/
  | red (pa set n : Nat) (op : AtomOp) (v : Word) (seq ep count : Nat) (window : Bool) (clk : Nat) (recs : List LogRec)
  /-- a remote load (R232) from the home, or from a scratchpad -/
  | ldr (id pa set n : Nat) (spad : Bool)
  | ldrRep (id pa : Nat) (v : Word) (pois : Bool)
  /-- a team-window or core-array access of a load or store (R126) -/
  | spadLoad (id off n : Nat)
  | spadStore (off n : Nat) (v : Word)
  | spadRep (id : Nat) (data : List Byte) (pois : Bool)
  /-- an MMIO access of another chip's task, with its S bit (R117, R200, R202) -/
  | mmioLoad (id pa n : Nat) (sup : Bool)
  | mmioStore (pa n : Nat) (v : Word) (sup : Bool)
  /-- a copy chunk: the copy, the chunk number, destination, set, data, whether to a scratchpad (R310) -/
  | chunk (cp no pa set : Nat) (data : List Byte) (pois : List Nat) (spad : Bool)
  | chunkAck (cp no n : Nat)
  /-- the read of a chunk's source bytes on another chip, and its answer (R136, R309) -/
  | chunkRead (cp at' pa set n : Nat) (spad : Bool)
  | chunkData (cp at' : Nat) (data : List Byte) (pois : List Nat)
  /-- a stamp packet: the copy, the seq and the byte ranges (address, length) at that home (R311) -/
  | stampPkt (cp seq : Nat) (ranges : List (Nat × Nat))
  | stampAck (cp seq : Nat)
  /-- a posted record: to the receive queue or the ready set (R217) -/
  | post (id : Nat) (task : TaskRec) (recvq : Bool)
  | postRep (id : Nat) (ok : Bool)
  /-- a barrier notice of a round (R327) -/
  | bar (bid round : Nat)
  /-- an ABORT notice (R446) -/
  | abort (bid : Nat)
  /-- a negative acknowledgement with its code and the packet's kind (R436) -/
  | nack (code : Nat) (kind id sub : Nat)
  /-- a refund of flits to a sluice bucket (R447) -/
  | refund (port vdev cls flits : Nat)
  /-- a QUIET marker and its answer (R448) -/
  | quiet (port vdev : Nat)
  | quietAns (port vdev : Nat)
  /-- a skip notice for a numbered packet that will never arrive (R461) -/
  | skipNote (src dst seq : Nat)
  /-- a horizon refresh between the chips of a device (R151): the phase, and this chip's greatest CLK or least report -/
  | horizon (vdev phase value : Nat)
deriving DecidableEq, Repr

/-- A packet (R315, R316). -/
structure Pkt where
  src : Nat
  dst : Nat
  cls : Nat
  /-- taken at the first router (R461) -/
  sseq : Nat
  vdev : Nat
  gen : Nat
  fkey : Nat
  /-- payload bytes -/
  len : Nat
  redok : Bool
  body : Body
  /-- the router it stands at: package column + 64 × package row (R313) -/
  pos : Nat
  /-- it has passed the first router and taken its SSEQ (R461) -/
  numbered : Bool
  /-- PORT and FLITS of the link packet it came in (R447) -/
  link : Option (Nat × Nat)
  /-- the port of the sluice by which it came in (R382, R438) -/
  inPort : Option Nat := none
  /-- the cycle in which it was delivered (R33, R126, R320) -/
  arr : Nat := 0
  /-- the fabric key that FKEY named when it was sent (R323, R374) -/
  key : Nat := 0
deriving DecidableEq, Repr

/-- A link packet (R315, R316, R323): what a sluice sealed with AES-256-GCM, and the header in clear. The seal is kept as
its inputs, the 256-bit key, the IV's fields and the packet, for the spec lays out no payload bytes (log entry 8). -/
structure LinkPkt where
  /-- the sealed packet -/
  pkt : Pkt
  /-- the key it is sealed under -/
  key : Nat
  /-- IVC, egress port and CHIP of the IV -/
  ivc : Nat
  port : Nat
  chip : Nat
  /-- the 32 bytes of the link header as they travel -/
  header : List Byte
deriving DecidableEq, Repr

/-- A stamp of a byte: seq and endpoint of the write that won it (R143). -/
abbrev BStamp := Nat × Nat

/-- A line of an L2 slice (R129, R145). -/
structure L2Line where
  /-- the slice, by endpoint bits [15:0] -/
  slice : Nat
  set : Nat
  way : Nat
  line : Nat
  owner : Nat
  /-- the memory key that its fill named (R14) -/
  mkey : Nat
  valid : BitVec 4
  dirty : BitVec 4
  data : Tbl Byte
  /-- poisoned words by word index -/
  pois : List Nat
  sharers : List Nat
  ovf : Bool
  age : Nat
deriving DecidableEq, Repr

/-- A dirty sector in a write-back buffer (R129). -/
structure WbSector where
  slice : Nat
  /-- physical address div 128 -/
  sector : Nat
  owner : Nat
  /-- the memory key itself, as it stood when the sector left its line (R14, R374); none for a sector that no page entry's
  key has named (log entry 60) -/
  key : Option Nat
  data : Tbl Byte
  pois : List Nat
deriving DecidableEq, Repr

/-- A writer's work applied at a home and not yet acknowledged (R144): the notes and invalidations still to be
accepted, whether a handler task must end, and the acknowledgement to send. -/
structure Ackw where
  lock : Nat
  slice : Nat
  left : Nat
  handler : Bool
  reply : Pkt
deriving DecidableEq, Repr

/-- The note latch of a slice (R148). -/
structure Latch where
  slice : Nat
  /-- 1 NOTE, 2 EVICT, 3 LOSS -/
  kind : Nat
  line : Nat
  writer : Nat
  seq : Nat
  addr : Nat
  mask : BitVec 8
  data : Word
  pois : Bool
  lock : Nat
  /-- FKEY of the packet that caused it (R323) -/
  fkey : Nat
deriving DecidableEq, Repr

/-- A part of a chunk's source that lies on another chip (R136): its virtual address and bytes, and what was read. -/
structure ChunkSrc where
  va : Nat
  n : Nat
  chip : Nat
  data : Option (List Byte × List Nat)
deriving DecidableEq, Repr

/-- A chunk in flight (R308, R311): its number, its bytes, and the range it writes when a home applies it. -/
structure ChunkOut where
  no : Nat
  n : Nat
  /-- home, address -/
  at' : Option (Nat × Nat)
  /-- the endpoint it goes to -/
  dst : Nat := 0
  /-- it has landed and is not yet acknowledged (R250, R310) -/
  landed : Bool := false
deriving DecidableEq, Repr

/-- A copy in flight (R244 to R249, R308 to R311). -/
structure Copy where
  /-- serial number within the cluster -/
  id : Nat
  core : Nat
  tag : Nat
  level : Nat
  vdev : Nat
  gen : Nat
  fkey : Nat
  sup : Bool
  /-- rows still to issue: source and destination virtual address, bytes -/
  rows : List (Nat × Nat × Nat)
  /-- COPYB: the member core indices; empty otherwise -/
  members : List Nat
  /-- 0 S, 1 G, 2 R (R132) -/
  path : Nat
  pasid : Option Nat
  nextNo : Nat
  /-- chunks in flight -/
  flight : List ChunkOut
  /-- source bytes on another chip that the next chunk has asked for or holds -/
  srcs : List ChunkSrc
  /-- bytes landed (R250) -/
  landed : Nat
  /-- ranges applied at homes: home, address, length -/
  homes : List (Nat × Nat × Nat)
  /-- seq once taken, and stamp packets awaited -/
  seq : Option Nat
  stamps : Nat
  succ : Option TaskRec
  hasSucc : Bool
  counter : Option Nat
  nxr : Bool
  /-- the failing address and cause of R434 -/
  failed : Option (Nat × Nat)
  /-- contained: completes with no tag and no successor (R441) -/
  silent : Bool
  /-- its device is switched out: no chunk issues (R371) -/
  paused : Bool
deriving DecidableEq, Repr

/-- The space of a range lock (R133): a virtual range of a device, or core-array bytes. -/
inductive LockSpace where
  | virt (vdev : Nat)
  /-- core-array bytes of a chip -/
  | array (chip : Nat)
deriving DecidableEq, Repr

structure RangeLock where
  /-- the copy or matrix command that holds it -/
  owner : Nat
  /-- true: destination of a copy -/
  dst : Bool
  space : LockSpace
  lo : Nat
  len : Nat
  /-- COPYB: the offset range applies to each of these cluster core numbers -/
  cores : List Nat
deriving DecidableEq, Repr

/-- What waits at a memory-controller queue, at CXL ingress or at a queue port for its tokens (R337), or has been granted
and not yet come back for it. -/
structure Ask where
  /-- the arbiter, by its key -/
  key : Nat
  vdev : Nat
  cost : Nat
  /-- a fill: the slice, the place in it and the address of the sector; none for a message of the host -/
  fill : Option (Nat × Nat × Nat)
  /-- granted: the sector is there, or the message may pass -/
  done : Bool
deriving DecidableEq, Repr

/-- A token bucket of one device at one arbiter (R338, R345). -/
structure Bucket where
  rate : Nat
  depth : Nat
  lend : Bool
  borrow : Bool
  tok : Nat
  fr : Nat
deriving DecidableEq, Repr

/-- An arbiter (R337 to R342): buckets by device and class, lend pool, round-robin positions, busy until. -/
structure Arb where
  buckets : Tbl Bucket
  pool : Nat
  /-- the devices of the last guaranteed and of the last borrowed grant (R339) -/
  lastG : Nat
  lastB : Nat
  /-- the class last served of each device, in the class round-robin (R319) -/
  lastCls : Tbl Nat
  enforcing : Bool
  freeAt : Nat
  /-- the cycle up to which refills have been counted -/
  upTo : Nat
deriving DecidableEq, Repr

/-- A sluice (R322, R323, R439, R448). -/
structure Sluice where
  up : Bool
  /-- IVC per key identifier -/
  ivc : Tbl Nat
  queue : List Pkt
  unacked : List LinkPkt
  /-- how often each frame of the oldest packet has been resent (R439) -/
  resends : Tbl Nat
  /-- devices whose packets this sluice has sent, with the chip (R448) -/
  sentFor : List (Nat × Nat)
  stale : Nat
  /-- EVSEL and count registers (R382) -/
  evsel : Tbl Nat
  evcnt : Tbl Nat
deriving DecidableEq, Repr

/-- A virtual device (R352, R356, R444 to R448, R151). -/
structure VDev where
  gen : Nat
  launched : Bool
  /-- cycle at which a reset in progress began -/
  resetAt : Option Nat
  /-- peers whose QUIET answer a teardown awaits, once its reset has completed: port + 32 × chip -/
  teardown : Option (List Nat)
  /-- a further reset is to start when the present one has completed (R438, R441) -/
  again : Bool := false
  /-- cycle of the teardown command -/
  downAt : Nat
  vh : Nat
  /-- the horizon refresh in progress: begin cycle and P (R151) -/
  refresh : Option (Nat × Nat)
  /-- a refresh between chips whose first phase still waits for their reports: begin cycle and the greatest CLK here -/
  begun : Option (Nat × Nat)
  /-- the least report of this chip's cores, once it has gone to the other chips -/
  low : Option Nat
  /-- what other chips of the device have reported: chip, phase, value -/
  far : List (Nat × Nat × Nat)
  /-- when the last refresh began and the begin of the last completed one -/
  refreshAt : Nat
  refreshed : Option Nat
  wayMask : Nat
  /-- PASID Enable of the virtual function (R331) -/
  pasidEn : Bool
deriving DecidableEq, Repr

/-- A saggar (R358, R348, R440, R441). -/
structure Saggar where
  en : Bool
  rect : Nat
  /-- weight and credit per device -/
  weight : Tbl Nat
  credit : Tbl Nat
  running : Option Nat
  /-- where the rotation goes on (R348) -/
  turn : Nat
  sliceEnd : Nat
  /-- the cycle at which the slice began -/
  sliceStart : Nat
  /-- a world switch is under way: the cores have stopped (R371) -/
  switching : Bool
  fenced : Bool
  /-- a class-3 event awaits containment, or containment is in progress since this cycle -/
  hit : Option Nat
  /-- where its record stands in the error log's ring, into which further ones merge (R442) -/
  hitRec : Option Nat
  contained : Bool
deriving DecidableEq, Repr

/-- An accepted host record in a dispatcher's queue (R330, R335). -/
structure DispEntry where
  task : TaskRec
  vdev : Nat
  entry : Nat
  mode : Nat
  core : Nat
  pasid : Option Nat
  hseq : Nat
  /-- the chosen core, once resolved -/
  chosen : Option Nat
deriving DecidableEq, Repr

/-- A die dispatcher (R335, R336). -/
structure Dispatcher where
  queue : List DispEntry
  count : Nat
  /-- member last served, by device × 65,536 + entry -/
  last : Tbl Nat
deriving DecidableEq, Repr

/-- An outstanding page request (R367). -/
structure PageReq where
  grp : Nat
  vdev : Nat
  gen : Nat
  core : Nat
  va : Nat
deriving DecidableEq, Repr

/-- An outstanding ATS request. -/
structure AtsReq where
  id : Nat
  vdev : Nat
  core : Nat
  va : Nat
  pasid : Nat
  /-- the response failed: the next access raises the host-page fault -/
  failed : Bool
deriving DecidableEq, Repr

/-- What the part answers to the host (R331, R365, R366, R367, R410). -/
inductive HostMsg where
  | enqueued
  | busy
  | unsupported
  | data (bytes : List Byte) (pois : List Nat)
  | zeros
  | msix (vdev : Option Nat) (vector : Nat)
  | ats (id vdev va pasid : Nat)
  | pri (grp vdev va pasid : Nat)
  | invalidated (vdev va : Nat)
deriving DecidableEq, Repr

end Sys2Proof.Machine
end

