-- ==== Sys2Proof/Machine/KilnTypes.lean ====
section
/-! DEFINITION. Kiln state sets, commands and kilns as plain data (chapters 10, 11; R73 to R76, R84, R85). -/

namespace Sys2Proof.Machine

/-- A ring definition (R282). -/
structure Ring where
  base : Nat
  tiles : Nat
  tbytes : Nat
  head : Nat
  tail : Nat
deriving DecidableEq, Repr

/-- A core's shadow of a ring (R283). -/
structure Shadow where
  base : Nat
  tiles : Nat
  tbytes : Nat
  avail : Nat
deriving DecidableEq, Repr

/-- A scale frame (R294). -/
structure ScaleFrame where
  g : Int
  rho : List (BitVec 20)
  gamma : List (BitVec 20)
deriving DecidableEq, Repr

/-- A suspended KFAC, KTRSL or KTRSU: the command's sequence number and the steps finished (R300). -/
structure Susp where
  kseq : Nat
  steps : Nat
deriving DecidableEq, Repr

/-- A kiln state set with its level's queues (R73, R75). -/
structure KSet where
  v : Vector (BitVec 1024) 8
  /-- element (i, j) at key 32i + j -/
  k0 : Tbl (BitVec 32)
  rings : Vector Ring 4
  flags : BitVec 7
  ktol : BitVec 32
  kfloor : BitVec 32
  lfsr : Vector (BitVec 16) 32
  susp : Option Susp
  q0 : List Word
  q1 : List Word
  q2 : List (BitVec 32)
  q3 : List ScaleFrame
  q4 : List Nat
  cmds : Nat
  replays : Nat
  /-- registers, k0, rings and queues that hold an uncorrectable error (R405, R407), numbered as a command's reads are -/
  bad : List Nat := []
deriving DecidableEq, Repr

/-- A kiln command (R252, R275): the instruction with what it captured at the core. -/
structure KCmd where
  kseq : Nat
  level : Nat
  fid : Nat
  ins : Instr
  /-- TSTAT.NXR and the two FMT codes at entry (R95, R173) -/
  nxr : Bool
  f1 : Nat
  f2 : Nat
  /-- x[xs] at entry -/
  x : Word
  /-- scratchpad reached by a memory form: endpoint bits [15:0] and offset (R260) -/
  ep : Nat
  off : Nat
  /-- KEEP: the target core index -/
  target : Nat
  /-- cycle at which it entered the queue (R255) -/
  entered : Nat
  /-- queued before the last checkpoint of its core (R369) -/
  old : Bool
  pc : Word
  /-- the successor that a product took as it entered (R52) -/
  succ : Option TaskRec := none
  /-- the dispatch queue's storage of it holds an uncorrectable error: its issue is a consumption (R405, R407) -/
  bad : Bool := false
deriving DecidableEq, Repr

/-- What a matrix command that moves or multiplies writes at its retirement (R278): a v-register, k0, and flags. -/
structure KOut where
  v : Option (BitVec 3 × BitVec 1024)
  k0 : Option (Tbl (BitVec 32))
  flags : BitVec 7
deriving DecidableEq, Repr

/-- An issued command not yet retired (R254, R278): when it retires, and the results it will write then. -/
structure Flight where
  cmd : KCmd
  core : Nat
  due : Nat
  /-- solve commands: the step that finishes next and when (R297, R298) -/
  step : Nat
  stepAt : Nat
  /-- issue tiles as read: operand elements (R287, R290) -/
  tileA : List (BitVec 16)
  tileB : List (BitVec 16)
  frame : Option ScaleFrame
  /-- queue entry pushed at retirement: queue and value -/
  push : Option (Nat × Word)
  /-- scratchpad bytes to perform at retirement, at the scratchpad of `cmd.ep`: offset and bytes (R264, R292) -/
  writes : List (Nat × List Byte)
  replayed : Bool
  /-- a solve command that ends at its next step (R301) -/
  aborting : Bool
  /-- a solve command that suspends at its next step, its level having been covered (R37, R300) -/
  suspending : Bool := false
  /-- results written at retirement (R278) -/
  out : Option KOut := none
deriving DecidableEq, Repr

/-- The matrix lease (R279, R280). -/
structure Lease where
  core : Nat
  level : Nat
  grantedAt : Nat
  /-- the holder may issue from this cycle -/
  from' : Nat
  issued : Nat
  /-- the firing ends when the holder's issued matrix commands have retired -/
  ending : Bool
  /-- granted to a LEASE (R281) -/
  byLease : Bool
deriving DecidableEq, Repr

/-- A scale frame on its way to a q3 (R293). -/
structure FrameOut where
  /-- the virtual device whose KEEP sent it -/
  vdev : Nat
  /-- the core whose KEEP it is -/
  src : Nat
  target : Nat
  level : Nat
  frame : ScaleFrame
  at' : Nat
deriving DecidableEq, Repr

/-- The kiln of a quad (R253, R279, R376, R377). -/
structure Kiln where
  lastVec : Nat
  lastHolder : Nat
  lease : Option Lease
  nextGrant : Nat
  flight : List Flight
  /-- cycle at which the array, and the vector section's issue slot, are free -/
  arrayFree : Nat
  vecFree : Nat
  frames : List FrameOut
  /-- KEEPER per level (R85) -/
  keeper : Tbl (BitVec 64)
  vecIdleAt : Nat
  matIdleAt : Nat
  vecGated : Bool
  matGated : Bool
  /-- errors of the array in the products still to come, an environment fault (R403): for each product the elements
  (i, j) of the increment that come out wrong, and by how much: m × 2^e -/
  upset : List (List (Nat × Nat × Int × Int))
  suspect : Bool
deriving DecidableEq, Repr

end Sys2Proof.Machine
end

