-- ==== Sys2Proof/Machine/State.lean ====
section
/-! DEFINITION. The state of the part: everything the spec gives one chip, as plain data, and its reset value.
Sparse tables hold only entries that differ from their value at reset. -/

namespace Sys2Proof.Machine

/-- System registers of a core (R78 to R90, R355). -/
structure Csrs where
  holdm : Word
  /-- TEAMM.MASK (R82) -/
  team : BitVec 8
  stgEn : Bool
  stgMask : BitVec 8
  ceilsel : Nat
  sgsel : Nat
  bksel : Word
  gbsel : Nat
  gpv : Word
  traptb : Nat
  maxprio : Nat
  corenxr : Bool
  cki : Nat
  xroot : Nat
deriving DecidableEq, Repr

/-- Debug registers (R423). -/
structure Dbg where
  dba : Vector Word 4
  dbm : Vector Word 4
  dwa : Vector Word 4
  dwm : Vector Word 4
  stepc : Word
deriving DecidableEq, Repr

/-- Event counters of a core (R379 to R383). -/
structure Evs where
  sel : Vector Word 4
  cnt : Vector Word 4
  ovf : Word
  /-- an armed overflow whose record is still to be read and posted (R383) -/
  due : Bool
deriving DecidableEq, Repr

/-- A checkpoint with its journal (R368, R369). -/
structure Ckpt where
  frame : Frame
  holdm : Word
  alignN : Nat
  oneN : Nat
  /-- records appended to the log since the checkpoint (R161) -/
  logNew : Nat
  /-- journaled sectors: old bytes by sector number -/
  jour : Tbl (List Byte)
  /-- scratchpad bytes that commands queued before the checkpoint wrote after the sector was journaled, by offset -/
  kept : Tbl Byte
  /-- journaled words that were poisoned, by offset div 8 (R407) -/
  jpois : List Nat
  kset : Option KSet
  /-- the ring shadows at the checkpoint (R283) -/
  shadows : Tbl Shadow
  takenAt : Nat
  /-- the record that stayed open over an ECALL or EBREAK, as it stood (R206) -/
  openRec : Option LogRec := none
deriving DecidableEq, Repr

/-- What the context of a switched-out device holds for one core (R91, R354, R372). -/
structure Ctx where
  run : Frame
  under : List Frame
  ready : List Ready
  inj : List TaskRec
  holdm : Word
  team : BitVec 8
  stgEn : Bool
  stgMask : BitVec 8
  carve : Carve
  carveReq : Option Nat
  carveNew : Option Carve
  corenxr : Bool
  ceil : Tbl Nat
  evs : Evs
  pub : Pub
  sets : Tbl KSet
  dq : List KCmd
  parked : List KCmd
  shadows : Tbl Shadow
  alignN : Nat
  oneN : Nat
  tbarN : Nat
  spillRes : Nat
  reqs : List Req
  pops : List Pop
  acqs : List Acq
  gbars : List GBar
deriving DecidableEq, Repr

/-- A core (chapters 02, 03, 05, 06, 09, 14, 19). -/
structure Core where
  run : Frame
  under : List Frame
  ready : List Ready
  inj : List TaskRec
  stampN : Nat
  pseq : Nat
  spillRes : Nat
  csr : Csrs
  ceil : Tbl Nat
  dbg : Dbg
  evs : Evs
  vdev : Nat
  gen : Nat
  fkey : Nat
  mkey : Nat
  /-- the descriptor words of the device as the core loaded them last, by word number (R353, R355) -/
  desc : Tbl Word
  on : Bool
  /-- the core acts for a device that is switched out of it (R371, R372): never so between steps -/
  away : Bool
  carve : Carve
  carveReq : Option Nat
  carveNew : Option Carve
  pub : Pub
  l1 : List L1Line
  ilines : List ILine
  /-- the fill that an instruction fetch waits for (R128, R163), and whether it was refused -/
  fetching : Option (Nat × Xlat × Bool)
  notes : List Note
  loads : List Load
  /-- the fills on their way to the L1 -/
  fills : List FillWait
  /-- far reads of the running instruction -/
  got : List FarRead
  reqs : List Req
  pops : List Pop
  acqs : List Acq
  queries : List Query
  gbars : List GBar
  ck : Option Ckpt
  sets : Tbl KSet
  shadows : Tbl Shadow
  dq : List KCmd
  parked : List KCmd
  /-- the cycle from which the dispatch queue's next command may issue: one issues a cycle (R253, R391) -/
  dqFree : Nat
  kseq : Nat
  alignN : Nat
  oneN : Nat
  tbarN : Nat
  tag : Nat
  instret : Nat
  stalled : Option Wait
  alignAt : Option Nat
  bankAt : Vector Nat 4
  bankRet : BitVec 4
  utlb : List TlbEntry
  nextFid : Nat
  nextId : Nat
  /-- the cycle at which the core last lost a frame or a ready record, for R348's early end -/
  idleAt : Nat
  /-- mismatches the checker still has to find: an environment fault (R402) -/
  upset : Nat
  /-- the instruction is on its second execution -/
  again : Bool
  /-- records that the core had stamped for a device before its reset and that are not acknowledged: device, word, seq
  (R442) -/
  orphans : List (Nat × Nat × Nat)
  /-- saved contexts, by device -/
  saved : Tbl Ctx
deriving DecidableEq, Repr

/-- An arrival at a team barrier (R226). -/
structure Arrival where
  core : Nat
  vdev : Nat
  mask : BitVec 8
  succ : Option TaskRec
  hasSucc : Bool
deriving DecidableEq, Repr

/-- An open ONE instance of a team (R59, R175). -/
structure OneInst where
  vdev : Nat
  team : BitVec 8
  count : Nat
  elected : Option Nat
  /-- the frame of the elected member that `load` and `got` belong to -/
  fid : Nat
  result : Option (Word × Bool)
  /-- followers still to fill: core, frame, register -/
  follow : List (Nat × Nat × BitVec 5)
  passed : BitVec 8
  /-- the elected member's load under way, and what it returned: 0 data, 1 poisoned data, 2 refused (R155) -/
  load : Option Nat
  got : Option (Word × Nat)
  /-- a governed load of global memory: chip, physical address, bytes, sign extension (R155) -/
  glob : Option (Nat × Nat × Nat × Bool)
deriving DecidableEq, Repr

/-- A cluster (R11, R133, R308, R359, R363, R409). -/
structure Cluster where
  perm : List Word
  tlb : List TlbEntry
  locks : List RangeLock
  copies : List Copy
  copyRR : Nat × Nat
  nextCopy : Nat
  arr : List Arrival
  ones : List OneInst
  /-- occupancy last reported, by cluster core number (R335) -/
  occ : Tbl Nat
  band : Nat
  cstate : Nat
  derateAt : Option Nat
  /-- the cycle from which the next hourly re-plan may come (R378) -/
  replanAt : Nat
deriving DecidableEq, Repr

/-- The mailbox of the Nierman controller (R374). -/
structure Nm where
  st : Nat
  result : Nat
  gap : Nat
  /-- the cycle from which the next measurement of the draw may come (R377) -/
  gapAt : Nat
  /-- the cycle from which a stack's next scrub may come (R405), by stack -/
  scrubAt : Tbl Nat
  /-- the command written to NMCMD and not yet carried out -/
  cmd : Option Nat
deriving DecidableEq, Repr

/-- Where an SRAM array holds a word with an error (R405). -/
inductive Sram where
  /-- a word of a core's array or of an L2 slice, by physical address -/
  | word (pa : Nat)
  /-- a word of an L1 line, by its index in the line -/
  | l1 (ep line word : Nat)
  /-- a register of the frame of a level, wherever its window lies -/
  | reg (ep level : Nat) (r : BitVec 5)
  /-- a register, k0, a ring or a queue of a kiln state set, numbered as a command's reads are -/
  | kset (ep level item : Nat)
  /-- a record of a core's ready set, or of its injection queue, by its place -/
  | ready (ep i : Nat)
  | injected (ep i : Nat)
  /-- a command of a core's dispatch queue, by its place -/
  | command (ep i : Nat)
  /-- a journaled word of a core, by scratchpad offset div 8 -/
  | journal (ep word : Nat)
  /-- a record of a core's store log, by its place -/
  | log (ep i : Nat)
deriving DecidableEq, Repr

/-- One turn of the schedule (log entry 4). -/
inductive Turn where
  /-- the core of this endpoint takes the next turns -/
  | core (ep : Nat)
  /-- a hardware step, or an instruction given to the current core -/
  | ev (i : Instr)
  /-- the physical function writes or reads MMIO (R353, R365) -/
  | pfWrite (addr n : Nat) (v : Word)
  | pfRead (addr n : Nat)
  /-- a link packet arrives at a port -/
  | wire (port : Nat) (p : LinkPkt)
  /-- the peer of a port acknowledges the oldest packet sent there (R439) -/
  | linkAck (port : Nat)
  /-- the host writes PASID Enable of a virtual function (R331) -/
  | pasid (vdev : Nat) (on : Bool)
  /-- the host changes its own memory (R136) -/
  | hostMem (addr : Nat) (bytes : List Byte)
  /-- another chip tells the size of a scratchpad region of its own, by endpoint identifier (R120, log entry 21) -/
  | farSpad (ep size : Nat)
  /-- another chip tells a word of a device's tables there: mask entries 0 to 63, home entries 64 on (R130, log entry
  20) -/
  | farTab (chip vdev i : Nat) (e : Word)
  /-- an SRAM word shows an error of one bit, or of two (R405, log entry 13) -/
  | sram (at' : Sram) (double : Bool)
  /-- cycles pass -/
  | pass (cycles : Nat)
deriving DecidableEq, Repr

/-- The whole part. -/
structure State where
  cores : Tbl Core
  clusters : Tbl Cluster
  kilns : Tbl Kiln
  l2 : List L2Line
  wb : List WbSector
  latches : List Latch
  ackw : List Ackw
  /-- atomics, reductions, fills and records waiting at their home (R148, R157, R32) -/
  held : List Pkt
  /-- LSEL and LCNT of the slices (R381), by 2 × slice + register -/
  lcnt : Tbl Word
  mem : List Host.Cell
  /-- the memory key under which a sector of DRAM was written last, by physical address div 128 (R14) -/
  memKey : Tbl Nat
  /-- poisoned words of memory, by address div 8 (R406) -/
  poison : List Nat
  /-- DRAM words with an error: address div 8, correctable or not (R405), an environment fault -/
  ecc : List (Nat × Bool)
  stamps : Tbl BStamp
  /-- bytes of landed chunks of copies not yet complete: (home and address, cluster × 2^20 + copy) (R156) -/
  landing : Tbl Nat
  mmio : Tbl Word
  fkeys : Tbl Nat
  /-- what a fabric key entry held before it was written last: traffic in flight keeps it (R374) -/
  fkeysOld : Tbl Nat
  mkeys : Tbl Nat
  nm : Nm
  chip : Nat
  vdevs : Tbl VDev
  sags : Tbl Saggar
  arbs : Tbl Arb
  disps : Tbl Dispatcher
  egress : List Pkt
  net : List Pkt
  inbox : Tbl (List Pkt)
  sseqOut : Tbl Nat
  sseqIn : Tbl Nat
  skipped : List (Nat × Nat)
  sluices : Tbl Sluice
  linkOut : List LinkPkt
  linkIn : Tbl (List LinkPkt)
  hostOut : List HostMsg
  pages : List PageReq
  ats : List AtsReq
  shared : Nat
  /-- posted writes to queue ports discarded and counted (R329) -/
  dropped : Nat
  /-- fills and messages of the host that wait for their tokens, oldest first (R129, R337, R339) -/
  asks : List Ask
  nextLock : Nat
  fresh : Nat
  /-- sizes of scratchpad regions of other chips that differ from the one at reset, by endpoint identifier (R120): no
  state of this part, but what its accesses there are checked by (log entry 21) -/
  farSpads : Tbl Nat
  /-- words of the homing tables of devices on other chips, as told (R130, R361, log entry 20) -/
  farTabs : Tbl Word
  /-- the latest group of R457 that has acted, and the cycle in which it did -/
  phase : Nat
  phaseAt : Nat
  agenda : List Turn
  cur : Nat
  now : Nat
deriving DecidableEq, Repr

/-- Why the machine stops. -/
inductive Fault where
  /-- raised by `step` when the agenda names a core that does not exist: the schedule, which the spec leaves open, is
  not one of the part. Safe: the part never takes such a step. -/
  | noSuchCore (ep : Nat)
deriving DecidableEq, Repr

/-- Why an instruction has no meaning. -/
inductive Refusal where
  /-- raised by `exec` for an instruction that the model does not have yet. Safe: nothing is claimed of it. -/
  | notModelled (mnemonic : String)
deriving DecidableEq, Repr

/-- The carve-out at reset (R121). -/
def Carve.reset : Carve := { sstat := 0, spad := 19, log := 4, win := 1 }

/-- The idle frame (R28): no record, all registers 0, full and live (log entry 2). -/
def Frame.idle (base : Nat) : Frame :=
  { level := 0, fid := 0, regs := Vector.replicate 32 0, full := BitVec.allOnes 32, live := BitVec.allOnes 32,
    pois := 0, busy := 0, pc := 0, drt := false, dr := false, pp := false, pfmt := 0, nxr := false, sup := false,
    thr := 0, claims := [], deadm := 0xF00000E0#32, succ := 0, dl := none, cls := 0, fsize := 0, pan := 0, hseq := 0,
    pasid := none, vdev := 0, gen := 0, base := base, trap := none, acq := none, counter := none,
    pendStep := none, pendWatch := none, pendChk := none, pendFault := none, lastPc := 0, exempt := false,
    latch := false, win := .loc }

def Pub.reset : Pub := { clk := 0, lseq := 0, log := [], opened := false, acts := [], engine := [], nextAct := 0, extAt := 0 }

def Ring.reset : Ring := { base := 0, tiles := 0, tbytes := 0, head := 0, tail := 0 }

/-- A kiln state set at reset (R75, R84, R356). -/
def KSet.reset : KSet :=
  { v := Vector.replicate 8 0, k0 := [], rings := Vector.replicate 4 Ring.reset, flags := 0, ktol := 0x3A800000#32,
    kfloor := 0x35800000#32, lfsr := Vector.ofFn (fun i => BitVec.ofNat 16 (i.val + 1)), susp := none,
    q0 := [], q1 := [], q2 := [], q3 := [], q4 := [], cmds := 0, replays := 0 }

def Evs.reset : Evs := { sel := Vector.replicate 4 0, cnt := Vector.replicate 4 0, ovf := 0, due := false }

/-- A core at reset, by endpoint bits [15:0]: its team is its own bit until a launch sets it (log entry 2). -/
def Core.reset (ep : Nat) : Core :=
  { run := Frame.idle (19 * 4096), under := [], ready := [], inj := [], stampN := 0, pseq := 0, spillRes := 0,
    csr := { holdm := 0, team := BitVec.ofNat 8 (2 ^ (ep % 8)), stgEn := false, stgMask := 0, ceilsel := 0, sgsel := 0,
             bksel := 0, gbsel := 0, gpv := 0, traptb := 0, maxprio := 1, corenxr := false, cki := 16384, xroot := 0 },
    ceil := [], dbg := { dba := Vector.replicate 4 0, dbm := Vector.replicate 4 0, dwa := Vector.replicate 4 0,
                         dwm := Vector.replicate 4 0, stepc := 0 },
    evs := Evs.reset, vdev := 0, gen := 0, fkey := 0, mkey := 0, desc := [], on := false, away := false, carve := Carve.reset,
    carveReq := none, carveNew := none, pub := Pub.reset, l1 := [], ilines := [], fetching := none, notes := [], loads := [], fills := [],
    got := [], reqs := [], pops := [],
    acqs := [], queries := [], gbars := [], ck := none, sets := [], shadows := [], dq := [], parked := [], dqFree := 0, kseq := 0,
    alignN := 0, oneN := 0, tbarN := 0, tag := 0, instret := 0, stalled := none, alignAt := none,
    bankAt := Vector.replicate 4 0, bankRet := 0, utlb := [], nextFid := 1, nextId := 0, idleAt := 0, upset := 0, again := false,
    orphans := [], saved := [] }

def Cluster.reset : Cluster :=
  { perm := [], tlb := [], locks := [], copies := [], copyRR := (7, 65535), nextCopy := 0, arr := [], ones := [],
    occ := [], band := 0, cstate := 0, derateAt := none, replanAt := 0 }

def Kiln.reset : Kiln :=
  { lastVec := 3, lastHolder := 3, lease := none, nextGrant := 0, flight := [], arrayFree := 0, vecFree := 0,
    frames := [], keeper := [], vecIdleAt := 0, matIdleAt := 0, vecGated := false, matGated := false, upset := [],
    suspect := false }

def VDev.reset : VDev :=
  { gen := 0, launched := false, resetAt := none, teardown := none, downAt := 0, vh := 0, refresh := none,
    begun := none, low := none, far := [], refreshAt := 0, refreshed := none, wayMask := 0, pasidEn := false }

def Saggar.reset : Saggar :=
  { en := false, rect := 0, weight := [], credit := [], running := none, turn := 0, sliceEnd := 0, sliceStart := 0, switching := false,
    fenced := false, hit := none, hitRec := none, contained := false }

def Bucket.reset : Bucket := { rate := 0, depth := 0, lend := false, borrow := false, tok := 0, fr := 0 }

def Arb.reset : Arb :=
  { buckets := [], pool := 0, lastG := 63, lastB := 63, lastCls := [], enforcing := false, freeAt := 0, upTo := 0 }

def Dispatcher.reset : Dispatcher := { queue := [], count := 0, last := [] }

def Sluice.reset : Sluice :=
  { up := true, ivc := [], queue := [], unacked := [], resends := [], sentFor := [], stale := 0,
    evsel := [], evcnt := [] }

/-- The part right after part reset (R373): nothing listed, every register at the value the spec states or the
assumption log names (entries 1 and 2). -/
def State.reset : State :=
  { cores := [], clusters := [], kilns := [], l2 := [], wb := [], latches := [], ackw := [], held := [], lcnt := [],
    mem := [], memKey := [], poison := [], ecc := [], stamps := [], landing := [], mmio := [], fkeys := [], fkeysOld := [], mkeys := [],
    nm := { st := 0, result := 0, gap := 0, gapAt := 0, scrubAt := [], cmd := none }, chip := 0, vdevs := [], sags := [], arbs := [],
    disps := [], egress := [], net := [], inbox := [], sseqOut := [], sseqIn := [], skipped := [], sluices := [],
    linkOut := [], linkIn := [], hostOut := [], pages := [], ats := [], shared := 0xFFFF, dropped := 0, asks := [], nextLock := 0,
    fresh := 0, farSpads := [], farTabs := [], phase := 0, phaseAt := 0, agenda := [], cur := 0, now := 0 }

end Sys2Proof.Machine
end

