-- ==== Sys2Proof/Machine/Mem.lean ====
section
/-! DEFINITION. Named operations over cores, clusters, kilns and memory: who holds what, and one byte of memory.
Every other access is built from these. -/

namespace Sys2Proof.Machine

/-! ### Units -/

/-- The core of endpoint bits [15:0] (R17). -/
def State.core (s : State) (ep : Nat) : Core := tget s.cores ep (Core.reset ep)

def State.setCore (s : State) (ep : Nat) (c : Core) : State := { s with cores := tset s.cores ep c }

/-- Changes one core. -/
def State.onCore (s : State) (ep : Nat) (f : Core → Core) : State := s.setCore ep (f (s.core ep))

/-- The core whose turn it is. -/
def State.me (s : State) : Core := s.core s.cur

def State.onMe (s : State) (f : Core → Core) : State := s.onCore s.cur f

/-- The running frame of the current core. -/
def State.frame (s : State) : Frame := s.me.run

def State.onFrame (s : State) (f : Frame → Frame) : State := s.onMe (fun c => { c with run := f c.run })

/-- The cluster of a core: endpoint bits [15:3] (R17). -/
def clusterOf (ep : Nat) : Nat := (ep % 65536) / 8

/-- The cluster core number (R12). -/
def coreNo (ep : Nat) : Nat := ep % 8

/-- The quad of a core: endpoint bits [15:2] (R12). -/
def quadOf (ep : Nat) : Nat := (ep % 65536) / 4

def State.cluster (s : State) (k : Nat) : Cluster := tget s.clusters k Cluster.reset

def State.onCluster (s : State) (k : Nat) (f : Cluster → Cluster) : State :=
  { s with clusters := tset s.clusters k (f (s.cluster k)) }

def State.kiln (s : State) (q : Nat) : Kiln := tget s.kilns q Kiln.reset

def State.onKiln (s : State) (q : Nat) (f : Kiln → Kiln) : State :=
  { s with kilns := tset s.kilns q (f (s.kiln q)) }

def State.vdevOf (s : State) (v : Nat) : VDev := tget s.vdevs v VDev.reset

def State.onVdev (s : State) (v : Nat) (f : VDev → VDev) : State :=
  { s with vdevs := tset s.vdevs v (f (s.vdevOf v)) }

def State.sag (s : State) (k : Nat) : Saggar := tget s.sags k Saggar.reset

def State.onSag (s : State) (k : Nat) (f : Saggar → Saggar) : State :=
  { s with sags := tset s.sags k (f (s.sag k)) }

/-- The endpoint identifier of a core of this part (R17). -/
def State.epId (s : State) (ep : Nat) : Nat := s.chip * 65536 + ep % 65536

/-- An endpoint number of a core of the package: bits [13:12] zero (R17, R18). -/
def validEp (ep : Nat) : Bool := decide (ep < 65536) && decide ((ep / 4096) % 4 = 0)

/-- Package column and row of a core's cluster (R15, R17). -/
def pkgCol (ep : Nat) : Nat := 32 * ((ep / 16384) % 2) + (ep / 128) % 32
def pkgRow (ep : Nat) : Nat := 16 * ((ep / 32768) % 2) + (ep / 8) % 16

/-- The endpoint bits [15:0] of the core at a package column and row (R15, R17). -/
def epAt (col row core : Nat) : Nat :=
  ((col / 32) % 2 + 2 * ((row / 16) % 2)) * 16384 + (col % 32) * 128 + (row % 16) * 8 + core % 8

/-! ### Rectangles and saggars (R131, R358) -/

def rectCol (r : Nat) : Nat := bitsOf r 0 6
def rectRow (r : Nat) : Nat := bitsOf r 6 5
def rectWidth (r : Nat) : Nat := bitsOf r 11 7
def rectHeight (r : Nat) : Nat := bitsOf r 18 6

/-- Whether the cluster at a column and row lies in a rectangle. -/
def inRect (r col row : Nat) : Bool :=
  decide (rectCol r ≤ col) && decide (col < rectCol r + rectWidth r) &&
  decide (rectRow r ≤ row) && decide (row < rectRow r + rectHeight r)

/-- The saggar that holds a core, if any. -/
def State.sagOf (s : State) (ep : Nat) : Option Nat :=
  match s.sags.find? (fun e => e.2.en && inRect e.2.rect (pkgCol ep) (pkgRow ep)) with
  | some e => some e.1
  | none => none

/-- Whether a core stands still: it runs no device, its saggar switches devices, or it is hit by a class-3 event
(R371, R441). -/
def State.stopped (s : State) (ep : Nat) : Bool :=
  !(s.core ep).on || (match s.sagOf ep with
    | some k => (s.sag k).switching || (s.sag k).hit.isSome
    | none => true)

/-- Whether a cluster lies in a saggar of a device (R352). -/
def State.inDevice (s : State) (v col row : Nat) : Bool :=
  s.sags.any (fun e => e.2.en && inRect e.2.rect col row && !(tget e.2.weight v 0 == 0))

/-! ### Memory -/

def inDram (pa : Nat) : Bool := decide (pa < 0x008000000000)
def inArrays (pa : Nat) : Bool := decide (0x010000000000 ≤ pa) && decide (pa < 0x010200000000)
def inMmio (pa : Nat) : Bool := decide (0x020000000000 ≤ pa) && decide (pa < 0x100000000000)
def inHost (pa : Nat) : Bool := decide (0x100000000000 ≤ pa) && decide (pa < 2 ^ 48)

/-- Global cacheable memory (R117). -/
def isGlobal (pa : Nat) : Bool := inDram pa || inHost pa

/-- What a byte of memory that nothing has written reads as (log entry 1). -/
def Memory.unwritten : Byte := 0

/-- The canonical form of a memory: addresses rising, no entry equal to an unlisted byte. -/
def Memory.wf (m : List Host.Cell) : Bool := twf Memory.unwritten m

def Memory.read (m : List Host.Cell) (a : Nat) : Byte := tget m a Memory.unwritten

def Memory.write (m : List Host.Cell) (a : Nat) (b : Byte) : List Host.Cell := tput m a b Memory.unwritten

/-- The first DPA of a core's array (R120). -/
def arrayBase (ep : Nat) : Nat := 0x010000000000 + (ep % 65536) * 131072

/-- Whether the sector of an address is held by a line. -/
def L2Line.holds (l : L2Line) (pa : Nat) : Bool :=
  decide (l.line = pa / 512) && l.valid.getLsbD ((pa / 128) % 4)

/-- The slice line that holds an address's sector, if any (R130). Where software gives one line two homes, each keeps
its own copy, and the one used last stands first. -/
def State.l2Find (s : State) (pa : Nat) : Option L2Line := s.l2.find? (fun l => l.holds pa)

/-- One byte below the slices: in a write-back buffer or in memory. -/
def State.lowByte (s : State) (pa : Nat) : Byte :=
  match s.wb.find? (fun w => w.sector == pa / 128) with
  | some w => tget w.data (pa % 128) Memory.unwritten
  | none => Memory.read s.mem pa

/-- One byte of memory as an untranslated reader sees it: at the home slice, in a write-back buffer or in memory. -/
def State.readByte (s : State) (pa : Nat) : Byte :=
  match s.l2Find pa with
  | some l => tget l.data (pa % 512) Memory.unwritten
  | none => s.lowByte pa

/-- The part as a reader at one home and set sees an address: no other home's copy of its line (R130). -/
def State.atHome (s : State) (home set pa : Nat) : State :=
  { s with l2 := s.l2.filter (fun l => !(l.line == pa / 512) || (l.slice == home % 65536 && l.set == set % 16)) }

/-- Bytes of memory, lowest address first. -/
def State.readBytes (s : State) (pa : Nat) : Nat → List Byte
  | 0 => []
  | n + 1 => s.readByte pa :: State.readBytes s (pa + 1) n

/-- A little-endian number of n bytes (R4). -/
def State.readNat (s : State) (pa n : Nat) : Nat := leNat (s.readBytes pa n)

/-- One byte written where it lies: in a held sector, in a write-back buffer, else in memory. -/
def State.writeByte (s : State) (pa : Nat) (b : Byte) : State :=
  if s.l2.any (fun l => l.holds pa) then
    { s with l2 := mapFirst (fun l => l.holds pa) (fun l =>
        { l with data := tput l.data (pa % 512) b Memory.unwritten,
                 dirty := l.dirty ||| BitVec.ofNat 4 (2 ^ ((pa / 128) % 4)) }) s.l2 }
  else if s.wb.any (fun w => w.sector == pa / 128) then
    { s with wb := s.wb.map (fun w =>
        if w.sector == pa / 128 then { w with data := tput w.data (pa % 128) b Memory.unwritten } else w) }
  else { s with mem := Memory.write s.mem pa b }

def State.writeBytes (s : State) (pa : Nat) : List Byte → State
  | [] => s
  | b :: l => State.writeBytes (s.writeByte pa b) (pa + 1) l

/-- Whether an 8-byte word is marked poison (R406): in memory or in a slice. -/
def State.isPoison (s : State) (pa : Nat) : Bool :=
  match s.l2Find pa with
  | some l => l.pois.contains ((pa % 512) / 8)
  | none => s.poison.contains (pa / 8)

/-- Marks or clears the poison of an 8-byte word. -/
def State.setPoison (s : State) (pa : Nat) (p : Bool) : State :=
  let s1 := { s with
    l2 := mapFirst (fun l => l.holds pa) (fun l =>
      { l with pois := (l.pois.filter (fun w => !(w == (pa % 512) / 8))) ++ (if p then [(pa % 512) / 8] else []) }) s.l2,
    poison := s.poison.filter (fun w => !(w == pa / 8)) }
  if p && !(s.l2.any (fun l => l.holds pa)) then { s1 with poison := pa / 8 :: s1.poison } else s1

/-- Whether any of n bytes lies in a poisoned word. -/
def State.anyPoison (s : State) (pa n : Nat) : Bool :=
  (List.range ((pa + n + 7) / 8 - pa / 8)).any (fun i => s.isPoison (8 * (pa / 8 + i)))

/-- The address of the first poisoned word among n bytes (R407). -/
def State.poisonAt (s : State) (pa n : Nat) : Nat :=
  (((List.range ((pa + n + 7) / 8 - pa / 8)).map (fun i => 8 * (pa / 8 + i))).find? (fun a => s.isPoison a)).getD pa

/-- Bytes of a scratchpad (R120): the scratchpad region of a core is its array address range. -/
def State.spadBytes (s : State) (ep off n : Nat) : List Byte := s.readBytes (arrayBase ep + off) n

/-- Size of a core's scratchpad region in bytes (R121). -/
def Carve.spadSize (c : Carve) : Nat := 4096 * c.spad

/-- A write clears the poison of the 8-byte words it covers whole (R406). -/
def State.clearWhole (s : State) (pa n : Nat) : State :=
  (List.range (n / 8 + 1)).foldl (fun t i =>
    let w := 8 * ((pa + 7) / 8 + i)
    if decide (w + 8 ≤ pa + n) then t.setPoison w false else t) s

/-- Writes a scratchpad: bytes first, then poison of the words written whole. -/
def State.spadWrite (s : State) (ep off : Nat) (bs : List Byte) : State :=
  (s.writeBytes (arrayBase ep + off) bs).clearWhole (arrayBase ep + off) bs.length

/-! ### Carve-outs (R121) -/

/-- The carve-out of a word, when it is valid. -/
def Carve.ofNat (w : Nat) : Option Carve :=
  let c : Carve := { sstat := bitsOf w 16 10, spad := bitsOf w 10 6, log := bitsOf w 5 5, win := bitsOf w 0 5 }
  if decide (w < 2 ^ 26) && decide (1 ≤ c.log) && decide (1 ≤ c.spad) &&
     decide (c.win + c.log + c.spad + 1 ≤ 32) && decide (c.sstat * 256 + 64 ≤ c.spad * 4096)
  then some c else none

def Carve.toNat (c : Carve) : Nat := c.sstat * 65536 + c.spad * 1024 + c.log * 32 + c.win

/-- Units of the L1 (R121). -/
def Carve.l1 (c : Carve) : Nat := 32 - c.win - c.log - c.spad

/-! ### Device descriptors (R353) -/

/-- A doubleword of MMIO as held. -/
def State.mmioWord (s : State) (a : Nat) : Nat := (tget s.mmio (a / 8) 0#64).toNat

/-- Descriptor word i of a device. -/
def State.descWord (s : State) (v i : Nat) : Nat := s.mmioWord (0x022200000000 + 64 * v + 8 * i)

/-- Descriptor word i of a device as a core sees it: the copy that it loaded while it runs the device, else the word
itself (R355). -/
def State.desc (s : State) (ep v i : Nat) : Nat :=
  let c := s.core ep
  if c.on && c.vdev == v then (tget c.desc i 0#64).toNat else s.descWord v i

/-- The descriptor words of a device as a core loads them (R355). -/
def State.descCopy (s : State) (v : Nat) : Tbl Word :=
  (List.range 8).foldl (fun t i => tput t i (BitVec.ofNat 64 (s.descWord v i)) 0) []

def State.descTabb (s : State) (ep v : Nat) : Nat := s.desc ep v 1
def State.descCtx (s : State) (ep v : Nat) : Nat := s.desc ep v 2
def State.descLogx (s : State) (ep v : Nat) : Nat := s.desc ep v 3
def State.descSpill (s : State) (ep v : Nat) : Nat := s.desc ep v 4
def State.descMkey (s : State) (ep v : Nat) : Nat := bitsOf (s.desc ep v 7) 0 10
def State.descMkn (s : State) (ep v : Nat) : Nat := bitsOf (s.desc ep v 7) 10 6
def State.descFkey (s : State) (v : Nat) : Nat := bitsOf (s.descWord v 7) 16 10
def State.descSva (s : State) (ep v : Nat) : Bool := bitOf (s.desc ep v 7) 55

/-! ### Memory keys (R14, R354, R357) -/

/-- The place of an access that names no memory key (log entry 60). -/
def noKey : Nat := 1024

/-- The memory key of an identifier as it stands (R374). -/
def State.keyOf (s : State) (k : Nat) : Option Nat := if k = noKey then none else some (tget s.mkeys k 0)

/-- Whether a sector of DRAM lies in memory under another key than a reader's (R14). -/
def State.otherKey (s : State) (key sector : Nat) : Bool :=
  inDram (128 * sector) && !s.wb.any (fun w => w.sector == sector) &&
  (match s.keyOf key, tfind s.memKey sector with
   | some k, some m => !(k == m)
   | _, _ => false)

/-- Whether a byte lies in memory under another key than an untranslated reader's. -/
def State.hidden (s : State) (key pa : Nat) : Bool := !s.l2.any (fun l => l.holds pa) && s.otherKey key (pa / 128)

/-- Bytes that the part reads untranslated under a memory key (R354, R357): what lies under another key reads as open
values, from the i0-th on (log entry 60). -/
def State.readKeyedFrom (s : State) (i0 key pa n : Nat) : List Byte :=
  (List.range n).map (fun i => if s.hidden key (pa + i) then Config.freeByte (s.fresh + i0 + i) else s.readByte (pa + i))

def State.readKeyed (s : State) (key pa n : Nat) : List Byte := s.readKeyedFrom 0 key pa n

/-- The poisoned words of a range of memory, by address (R406). -/
def State.poisonWords (s : State) (lo n : Nat) : List Nat :=
  ((s.poison.map (fun w => 8 * w)).filter (fun a => !s.l2.any (fun l => l.holds a)) ++
    s.l2.flatMap (fun l => (l.pois.map (fun w => 512 * l.line + 8 * w)).filter (fun a => l.holds a))).filter (fun a =>
      decide (lo ≤ a) && decide (a < lo + n))

/-- The poison of a range goes with its words to another (R406). -/
def State.movePoison (s : State) (lo dst n : Nat) : State :=
  (s.poisonWords lo n).foldl (fun t a => t.setPoison (dst + (a - lo)) true) s

/-- A sector that is about to be written untranslated under a memory key: what lies there under another key becomes open
values (R14, R354). -/
def State.rekey (s : State) (key sector : Nat) : State :=
  if s.l2.any (fun l => l.holds (128 * sector)) || s.wb.any (fun w => w.sector == sector) || !inDram (128 * sector) then s
  else
    let s1 : State := if s.otherKey key sector then
        { s with fresh := s.fresh + 128,
                 mem := (List.range 128).foldl (fun m i => Memory.write m (128 * sector + i) (Config.freeByte (s.fresh + i))) s.mem }
      else s
    match s.keyOf key with
    | some k => { s1 with memKey := tset s1.memKey sector k }
    | none => s1

/-- Bytes that the part writes untranslated under a memory key (R354). -/
def State.writeKeyed (s : State) (key pa : Nat) (bs : List Byte) : State :=
  ((List.range ((pa + bs.length + 127) / 128 - pa / 128)).foldl (fun t i => State.rekey t key (pa / 128 + i)) s).writeBytes pa bs

/-- The clusters of a device in slot order: saggars rising, then package row, then column (R354). -/
def State.slots (s : State) (v : Nat) : List (Nat × Nat) :=
  (s.sags.filter (fun e => e.2.en && !(tget e.2.weight v 0 == 0))).flatMap (fun e =>
    (List.range (rectHeight e.2.rect)).flatMap (fun r =>
      (List.range (rectWidth e.2.rect)).map (fun c => (rectCol e.2.rect + c, rectRow e.2.rect + r))))

/-- The slot of a core's cluster in a device (R354). -/
def State.slotOf (s : State) (v ep : Nat) : Nat := (s.slots v).idxOf (pkgCol ep, pkgRow ep)

/-- Index of a core's context block, log extension and spill block (R354). -/
def State.regionNo (s : State) (v ep : Nat) : Nat := 8 * s.slotOf v ep + coreNo ep

/-- Address of a core's spill block (R354). -/
def State.spillBlock (s : State) (v ep : Nat) : Nat := s.descSpill ep v + s.regionNo v ep * 0x8000

/-- Address of a core's context block (R354). -/
def State.ctxBlock (s : State) (v ep : Nat) : Nat := s.descCtx ep v + s.regionNo v ep * 0x30000

/-- Address of a core's log extension (R139, R354). -/
def State.logBlock (s : State) (v ep : Nat) : Nat := s.descLogx ep v + s.regionNo v ep * 0x100000

/-- A time in the own cycles of a core's cluster (R408): a derated cluster skips one cycle in eight. -/
def State.own (s : State) (ep t : Nat) : Nat :=
  match (s.cluster (clusterOf ep)).derateAt with
  | some d => t - (t - d) / 8
  | none => t

/-- The mesh time at which n own cycles of a core's cluster have passed since a time (R408). -/
def State.ownAfter (s : State) (ep t n : Nat) : Nat :=
  match (s.cluster (clusterOf ep)).derateAt with
  | some d => if n = 0 then t else t + n + ((t - d) % 8 + n - 1) / 7
  | none => t + n

/-- The time n own cycles of a core's cluster from now: the timings of instructions and commands (R408). -/
def State.after (s : State) (ep n : Nat) : Nat := s.ownAfter ep s.now n

/-- Whether n own cycles have passed since a time. -/
def State.passed (s : State) (ep since n : Nat) : Bool := decide (s.own ep since + n ≤ s.own ep s.now)

/-- Advances the one clock (R3, log entry 5). -/
def State.tick (s : State) (n : Nat) : State := { s with now := s.now + n }

end Sys2Proof.Machine
end

