-- ==== Sys2Proof/Machine/Translate.lean ====
section
/-! DEFINITION. Translation of virtual addresses and the class of an access (R116 to R120, R130, R131, R359 to R363). -/

namespace Sys2Proof.Machine

/-- Where an access goes (R117, R118, R199), or why it cannot. -/
inductive Target where
  /-- a scratchpad of this chip: endpoint bits [15:0] and offset -/
  | spad (ep off : Nat)
  /-- a core array of another chip -/
  | spadFar (chip ep off : Nat)
  /-- the queue window at an offset -/
  | queue (off : Nat)
  /-- global memory -/
  | glob (x : Xlat)
  | mmio (pa : Nat)
  /-- MMIO of another chip (R117) -/
  | mmioFar (chip pa : Nat)
  /-- a trap: cause 8, 16 or 17 -/
  | bad (cause : Nat)
  /-- a poisoned page-table entry at this address is consumed (R407) -/
  | poison (pa : Nat)
  /-- an ATS translation (R367), or an entry that the walk reads (R361), is awaited -/
  | ats
deriving DecidableEq, Repr

/-- What an access asks: a read, a write, a fetch, or both read and write. -/
inductive Perm where
  | r | w | x | rw
deriving DecidableEq, Repr

def Perm.writes : Perm → Bool
  | .w => true
  | .rw => true
  | _ => false

/-- Bits R, W, X of a leaf that the access needs. -/
def Perm.granted (p : Perm) (leaf : Nat) : Bool :=
  match p with
  | .r => bitOf leaf 1
  | .w => bitOf leaf 2
  | .x => bitOf leaf 3
  | .rw => bitOf leaf 1 && bitOf leaf 2

/-- R116: bits [63:48] all equal to bit 47. -/
def canonical (va : Nat) : Bool := decide (va < 2 ^ 47) || decide (2 ^ 64 - 2 ^ 47 ≤ va)

/-- The cluster core numbers of a mask, rising. -/
def maskCores (m : Nat) : List Nat := (List.range 8).filter (fun i => bitOf m i)

/-- The core of the team member with a core index (R54), as endpoint bits [15:0]. -/
def State.teamMember (s : State) (ep i : Nat) : Option Nat :=
  match (maskCores (s.core ep).csr.team.toNat)[i]? with
  | some k => some (8 * clusterOf ep + k)
  | none => none

/-- The core index of another core in the team of a core (R54). -/
def State.teamIndexOf (s : State) (ep member : Nat) : Nat :=
  ((maskCores (s.core ep).csr.team.toNat).filter (fun k => decide (k < coreNo member))).length

/-- h16 of R130. -/
def homeHash (pa : Nat) : Nat :=
  let h := pa / 512
  (bitsOf h 0 16) ^^^ (bitsOf h 16 16) ^^^ (bitsOf h 32 7)

/-- Members of the core group of a table entry (R131): its rectangle's cores, by row, column and core number. -/
def groupSize (e : Nat) : Nat := rectWidth e * rectHeight e * (maskCores (bitsOf e 24 8)).length

def groupMember (e m : Nat) : Nat :=
  let cs := maskCores (bitsOf e 24 8)
  let k := cs.length
  let cl := m / k
  epAt (rectCol e + cl % rectWidth e) (rectRow e + cl / rectWidth e) (cs.getD (m % k) 0)

/-- Whether a mask entry names a core group inside the package (R131). -/
def groupUsed (e : Nat) : Bool :=
  !(rectHeight e == 0) && !(rectWidth e == 0) && !(bitsOf e 24 8 == 0) &&
  decide (rectCol e + rectWidth e ≤ 64) && decide (rectRow e + rectHeight e ≤ 32)

/-- Whether a mask entry may be used: used, with cores, inside the package and the device's saggars (R131). -/
def State.groupOk (s : State) (v e : Nat) : Bool :=
  groupUsed e &&
  (List.range (rectHeight e)).all (fun r =>
    (List.range (rectWidth e)).all (fun c => s.inDevice v (rectCol e + c) (rectRow e + r)))

/-- Home and set of an address under a mask entry (R130). -/
def hashedHome (e pa : Nat) : Nat × Nat :=
  let n := groupSize e
  (groupMember e (homeHash pa % n), (homeHash pa / n) % 16)

/-- A word of the homing tables of a device on another chip, as that chip has told it (log entry 20): mask entries 0 to
63, then home entries. -/
def State.farTab (s : State) (chip v i : Nat) : Nat := (tget s.farTabs ((chip * 64 + v) * 512 + i) 0).toNat

/-- Home and set that a leaf gives an address of a chip (R130), or none for a fault: by this chip's tables, or by that
chip's. -/
def State.leafHome (s : State) (ep v chip leaf pa : Nat) : Option (Nat × Nat) :=
  let idx := bitsOf leaf 48 8
  let own := chip == s.chip
  if bitOf leaf 4 then
    let e := if own then s.readNat (s.descTabb ep v + 8 * (idx % 64)) 8 else s.farTab chip v (idx % 64)
    if (if own then s.groupOk v e else groupUsed e) then some (hashedHome e pa) else none
  else
    let e := if own then s.readNat (s.descTabb ep v + 0x540 + 4 * idx) 4 else s.farTab chip v (64 + idx)
    some (bitsOf e 0 16, (pa / 512) % 16)

/-- The chip that a CSEL names (R359); none where the table entry is unused. -/
def State.chipOf (s : State) (ep v csel : Nat) : Option Nat :=
  if csel = 0 then some s.chip
  else
    let c := s.readNat (s.descTabb ep v + 0x340 + 2 * csel) 2
    if c = 0xFFFF then none else some c

/-- The replica a read uses (R362): the first listed one on this chip, else the first listed. -/
def State.replica (s : State) (ep v idx : Nat) : Option Nat :=
  let bs := (s.readBytes (s.descTabb ep v + 0x280 + 4 * idx) 4).map BitVec.toNat
  let used := bs.filter (fun b => !(b == 0xFF))
  match used.find? (fun b => s.chipOf ep v b == some s.chip) with
  | some b => some b
  | none => used.head?

/-- The well-formedness of a leaf at a level (R360). -/
def leafOk (leaf lvl : Nat) : Bool :=
  (if bitOf leaf 5 then bitsOf leaf 60 4 == 0 else true) &&
  (if bitOf leaf 4 then bitsOf leaf 54 2 == 0 else true) &&
  (match lvl with
   | 1 => bitsOf leaf 16 14 == 0
   | 2 => bitsOf leaf 16 5 == 0
   | 3 => true
   | _ => false)

/-- The well-formedness of a pointer at a level (R360). -/
def pointerOk (e lvl : Nat) : Bool :=
  bitsOf e 48 16 == 0 && bitsOf e 1 7 == 0 &&
  (match lvl with
   | 0 => bitsOf e 8 4 == 0
   | 1 => bitsOf e 8 4 == 0
   | 2 => true
   | _ => false)

def pageSize (lvl : Nat) : Nat := if lvl = 1 then 2 ^ 30 else if lvl = 2 then 2 ^ 21 else 2 ^ 16

def levelIndex (va lvl : Nat) : Nat :=
  match lvl with
  | 0 => bitsOf va 39 9
  | 1 => bitsOf va 30 9
  | 2 => bitsOf va 21 9
  | _ => bitsOf va 16 5

inductive Walked where
  | leaf (e lvl : Nat)
  /-- the level-0 entry is invalid (R367) -/
  | noRoot
  | fault
  | poison (pa : Nat)
deriving DecidableEq, Repr

/-- The walk of R360, from a level with its table; `fuel` levels remain. -/
def State.walk (s : State) (va : Nat) : Nat → Nat → Nat → Walked
  | 0, _, _ => .fault
  | fuel + 1, lvl, tbl =>
    let a := tbl + 8 * levelIndex va lvl
    if s.isPoison a then .poison a
    else
      let e := s.readNat a 8
      if !bitOf e 0 then (if lvl = 0 then .noRoot else .fault)
      else if bitsOf e 1 3 = 0 then
        if pointerOk e lvl then State.walk s va fuel (lvl + 1) (256 * bitsOf e 8 40) else .fault
      else if leafOk e lvl then .leaf e lvl else .fault

/-- Who asks for a translation. -/
structure Asker where
  ep : Nat
  vdev : Nat
  pasid : Option Nat
deriving DecidableEq, Repr

def State.asker (s : State) : Asker := { ep := s.cur, vdev := s.me.vdev, pasid := s.frame.pasid }

/-- Whether a cached entry covers an address for an asker (R363). -/
def TlbEntry.hit (t : TlbEntry) (k : Asker) (va : Nat) : Bool :=
  t.vdev == k.vdev && decide (t.va ≤ va) && decide (va < t.va + t.size) &&
  (match t.pasid with
   | none => true
   | some p => k.pasid == some p)

/-- The target of a physical address on a chip (R117, R120): n bytes. The size of a region on another chip is the one
that chip has told (log entry 21). -/
def State.classify (s : State) (x : Xlat) (n : Nat) : Target :=
  if isGlobal x.pa then .glob x
  else if inArrays x.pa then
    let e := (x.pa - 0x010000000000) / 131072
    let off := x.pa % 131072
    if !validEp e then .bad 8
    else if x.chip = s.chip then
      (if decide (off + n ≤ (s.core e).carve.spadSize) then .spad e off else .bad 8)
    else if decide (off + n ≤ tget s.farSpads (x.chip * 65536 + e) Carve.reset.spadSize) then .spadFar x.chip e off
    else .bad 8
  else if inMmio x.pa then (if x.chip = s.chip then .mmio x.pa else .mmioFar x.chip x.pa)
  else .bad 8

/-- The target of an access through a leaf (R361, R362): cached or just walked. -/
def State.throughLeaf (s : State) (k : Asker) (t : TlbEntry) (va n : Nat) (p : Perm) : Target :=
  let leaf := t.leaf.toNat
  match t.ats with
  | some base =>
    if p.granted leaf then
      s.classify { pa := base + va % t.size, csel := 0, chip := s.chip, home := s.chip * 65536,
                   set := ((base + va % t.size) / 512) % 16 } n
    else .bad 8
  | none =>
    let mk := bitsOf leaf 6 10
    if !(decide (s.descMkey k.ep k.vdev ≤ mk) && decide (mk ≤ s.descMkey k.ep k.vdev + s.descMkn k.ep k.vdev)) then .bad 8
    else
      let rdup := bitOf leaf 5
      if rdup && p.writes then .bad 16
      else if !p.granted leaf then .bad 8
      else
        let sel := if rdup then s.replica k.ep k.vdev (bitsOf leaf 56 4) else some (bitsOf leaf 56 8)
        match sel with
        | none => .bad 8
        | some c =>
          match s.chipOf k.ep k.vdev c with
          | none => .bad 8
          | some chip =>
            let pa := 65536 * bitsOf leaf 16 32 + va % t.size
            match s.leafHome k.ep k.vdev chip leaf pa with
            | none => .bad 8
            | some (home, set) =>
              s.classify { pa := pa, csel := c, chip := chip, home := chip * 65536 + home, set := set + 16 * mk } n

/-- Keeps the newest entries of a cache: an entry added drops the oldest beyond the capacity (R363). -/
def cacheAdd (l : List TlbEntry) (t : TlbEntry) (cap : Nat) : List TlbEntry := (t :: l).take cap

/-- The set of an entry in the shared cache: 64 sets by page (log entry 32). -/
def TlbEntry.setNo (t : TlbEntry) : Nat := (t.va / t.size) % 64

/-- The shared cache of 512 entries in 8 ways: a ninth entry of a set drops the set's oldest (R363, log entry 32). -/
def sharedAdd (l : List TlbEntry) (t : TlbEntry) : List TlbEntry :=
  let old := ((l.filter (fun q => q.setNo == t.setNo)).take 7)
  t :: l.filter (fun q => !(q.setNo == t.setNo) || old.contains q)

/-- Puts a leaf into the caches of R363. -/
def State.cache (s : State) (ep : Nat) (t : TlbEntry) : State :=
  (s.onCore ep (fun c => { c with utlb := cacheAdd c.utlb t 16 })).onCluster (clusterOf ep)
    (fun c => { c with tlb := sharedAdd c.tlb t })

/-- Access to a local window (R118): offset checks are made for n bytes. -/
def State.window (s : State) (ep va n : Nat) : Target :=
  if va < 0x7E0000020000 then
    let off := va - 0x7E0000000000
    if off + n ≤ (s.core ep).carve.spadSize then .spad ep off else .bad 8
  else if 0x7E1000000000 ≤ va ∧ va < 0x7E1000100000 then
    match s.teamMember ep ((va - 0x7E1000000000) / 131072) with
    | some m =>
      let off := va % 131072
      if off + n ≤ (s.core m).carve.spadSize then .spad m off else .bad 8
    | none => .bad 8
  else if 0x7E2000000000 ≤ va ∧ va + n ≤ 0x7E2000001008 then .queue (va - 0x7E2000000000)
  else .bad 8

/-- The translation of R116, R118 and R361 for n bytes where the slices hold what a walk reads, with the caches as they stand
afterwards. -/
def State.lookup (s : State) (k : Asker) (va n : Nat) (p : Perm) : Target × State :=
  if !canonical va then (.bad 8, s)
  else if decide (0x7E0000000000 ≤ va) && decide (va < 0x7F0000000000) then
    match s.window k.ep va n with
    | .queue off => if p.writes then (.bad 8, s) else (.queue off, s)
    | t => (t, s)
  else
    match (s.core k.ep).utlb.find? (fun t => t.hit k va) with
    | some t => (s.throughLeaf k t va n p, s)
    | none =>
      match (s.cluster (clusterOf k.ep)).tlb.find? (fun t => t.hit k va) with
      | some t => (s.throughLeaf k t va n p, s.onCore k.ep (fun c => { c with utlb := cacheAdd c.utlb t 16 }))
      | none =>
        match s.walk va 4 0 (s.core k.ep).csr.xroot with
        | .leaf e lvl =>
          let sz := pageSize lvl
          let t : TlbEntry := { vdev := k.vdev, pasid := none, va := va - va % sz, size := sz,
                                leaf := BitVec.ofNat 64 e, ats := none, age := s.now }
          (s.throughLeaf k t va n p, s.cache k.ep t)
        | .noRoot =>
          match k.pasid with
          | some pid =>
            if s.descSva k.ep k.vdev then
              match s.ats.find? (fun r => r.core == k.ep && r.vdev == k.vdev && r.va / 4096 == va / 4096 && r.pasid == pid) with
              | some r =>
                if r.failed then
                  (.bad 17, { s with ats := s.ats.filter (fun q => !(q.id == r.id)) })
                else (.ats, s)
              | none =>
                (.ats, { s with
                  ats := s.ats ++ [{ id := s.fresh, vdev := k.vdev, core := k.ep, va := va, pasid := pid,
                                     failed := false }],
                  hostOut := s.hostOut ++ [.ats s.fresh k.vdev (va - va % 4096) pid],
                  fresh := s.fresh + 1 })
            else (.bad 8, s)
          | none => (.bad 8, s)
        | .fault => (.bad 8, s)
        | .poison a => (.poison a, s)

end Sys2Proof.Machine
end

