-- ==== Sys2Proof/Machine/Base.lean ====
section
/-! DEFINITION. The operations under all others: registers, task records, the error log, ready sets, hardware posts and
event counters. -/

namespace Sys2Proof.Machine

/-! ### Registers (R66 to R70) -/

/-- The value of xi: x0 and dead registers read as 0 (R66, R70). -/
def Frame.x (f : Frame) (r : XReg) : Word :=
  if r = 0 then 0 else if f.live.getLsbD r.toNat then f.regs[r.toNat] else 0

/-- The bit of a register in a 32-bit mask. -/
def regBit (r : XReg) : BitVec 32 := BitVec.ofNat 32 (2 ^ r.toNat)

/-- A write of xi: full, live and clean; a write of x0 is discarded (R66, R70). -/
def Frame.setX (f : Frame) (r : XReg) (v : Word) : Frame :=
  if r = 0 then f
  else { f with regs := f.regs.set r.toNat v, full := f.full ||| regBit r, live := f.live ||| regBit r,
                pois := f.pois &&& ~~~regBit r, busy := f.busy &&& ~~~regBit r }

/-- Marks xi empty; x0 never is (R67). -/
def Frame.setEmpty (f : Frame) (r : XReg) : Frame :=
  if r = 0 then f
  else { f with full := f.full &&& ~~~regBit r, live := f.live ||| regBit r, pois := f.pois &&& ~~~regBit r }

/-- Marks xi as waiting for a standard load (R201). -/
def Frame.setBusy (f : Frame) (r : XReg) : Frame :=
  if r = 0 then f else { f with busy := f.busy ||| regBit r, live := f.live ||| regBit r }

/-- A fill of xi by a reply, marked poison if the value is (R44, R437). -/
def Frame.fillX (f : Frame) (r : XReg) (v : Word) (p : Bool) : Frame :=
  if r = 0 then f
  else
    let g := f.setX r v
    if p then { g with pois := g.pois ||| regBit r } else g

def Frame.isFull (f : Frame) (r : XReg) : Bool := r == 0 || f.full.getLsbD r.toNat
def Frame.isLive (f : Frame) (r : XReg) : Bool := r == 0 || f.live.getLsbD r.toNat
def Frame.isBusy (f : Frame) (r : XReg) : Bool := !(r == 0) && f.busy.getLsbD r.toNat
def Frame.isPois (f : Frame) (r : XReg) : Bool := !(r == 0) && f.pois.getLsbD r.toNat

/-- Marks the registers of DEADM dead; an empty register, or one that waits for its load, is not marked (R70). -/
def Frame.markDead (f : Frame) : Frame :=
  { f with live := f.live &&& ~~~(f.deadm &&& f.full &&& ~~~f.busy) }

/-- TSTAT (R79). -/
def Frame.tstat (f : Frame) : Word :=
  BitVec.ofNat 64 (f.level + 8 * f.sup.toNat + 16 * f.nxr.toNat + 32 * f.pp.toNat + 64 * f.pfmt.toNat +
    4096 * f.dr.toNat + 8192 * f.drt.toNat)

/-- THRESH (R80). -/
def Frame.thresh (f : Frame) : Word := BitVec.ofNat 64 (f.thr + 8 * f.claims.length)

/-- A fill of a register in the frame that issued the request, wherever its window lies (R44); the checkpoint keeps the
fill of a register that was empty then (R369, R370). -/
def Core.fill (c : Core) (fid : Nat) (rd : XReg) (v : Word) (p : Bool) : Core :=
  let g := fun (f : Frame) => if f.fid = fid then f.fillX rd v p else f
  { c with run := g c.run, under := c.under.map g,
           ck := match c.ck with
             | some k => some (if k.frame.isFull rd then k else { k with frame := g k.frame })
             | none => none }

/-- The data of a standard load of the running frame; a checkpoint taken while it was under way keeps it too (R369). -/
def Core.fillLoad (c : Core) (rd : XReg) (v : Word) (p : Bool) : Core :=
  { c with run := c.run.fillX rd v p,
           ck := match c.ck with
             | some k => some (if k.frame.fid = c.run.fid ∧ k.frame.isBusy rd then { k with frame := k.frame.fillX rd v p }
                               else k)
             | none => none }

/-! ### Task records (R24, R26) -/

def TaskRec.bytes (r : TaskRec) : List Byte :=
  leBytes 8 r.pc.toNat ++ leBytes 8 r.a0.toNat ++ leBytes 8 r.a1.toNat ++ leBytes 8 r.a2.toNat ++
  leBytes 8 r.a3.toNat ++ leBytes 4 r.origin ++ leBytes 6 r.oseq ++
  leBytes 1 (r.prio % 8 + 8 * r.nxr.toNat + 16 * r.s.toNat) ++ leBytes 1 (r.cls % 64) ++ leBytes 1 r.frame ++
  leBytes 1 r.pan ++ leBytes 2 (r.vdev % 64 + 64 * (r.gen % 1024)) ++ leBytes 4 r.deadline ++ leBytes 4 r.pseq

/-- Bytes [lo, lo + n) of a list as a number. -/
def natAt (bs : List Byte) (lo n : Nat) : Nat := leNat ((bs.drop lo).take n)

def wordAt (bs : List Byte) (lo : Nat) : Word := BitVec.ofNat 64 (natAt bs lo 8)

def TaskRec.ofBytes (bs : List Byte) : TaskRec :=
  { pc := wordAt bs 0, a0 := wordAt bs 8, a1 := wordAt bs 16, a2 := wordAt bs 24, a3 := wordAt bs 32,
    origin := natAt bs 40 4, oseq := natAt bs 44 6, prio := natAt bs 50 1 % 8, nxr := bitOf (natAt bs 50 1) 3,
    s := bitOf (natAt bs 50 1) 4, cls := natAt bs 51 1 % 64, frame := natAt bs 52 1, pan := natAt bs 53 1,
    vdev := natAt bs 54 2 % 64, gen := natAt bs 54 2 / 64, deadline := natAt bs 56 4, pseq := natAt bs 60 4 }

/-- R26: whether a record of these bytes may be posted by a poster with supervisor right `sup`. -/
def recordOk (bs : List Byte) (sup : Bool) : Bool :=
  let r := TaskRec.ofBytes bs
  decide (r.pc.toNat % 4 = 0) && !(r.prio == 0) && (sup || !r.s) &&
  decide (natAt bs 50 1 < 32) && decide (natAt bs 51 1 < 64)

/-- The priority cap of R26 and R217. -/
def TaskRec.cap (r : TaskRec) (maxprio : Nat) : TaskRec :=
  if !r.s && decide (maxprio < r.prio) then { r with prio := maxprio } else r

/-! ### The error log (R410, R411) -/

/-- What a record reports. -/
structure ErrRec where
  cls : Nat
  src : Nat
  code : Nat
  unit : Nat
  addr : Nat
  owner : Nat
  hseq : Nat
  pc : Nat
  detail : Nat
deriving DecidableEq, Repr

def errBase : Nat := 0x025000000000

def ErrRec.bytes (e : ErrRec) (time count : Nat) : List Byte :=
  leBytes 1 e.cls ++ leBytes 1 e.src ++ leBytes 2 e.code ++ leBytes 4 e.unit ++ leBytes 8 e.addr ++ leBytes 8 time ++
  leBytes 2 e.owner ++ leBytes 2 count ++ leBytes 4 0 ++ leBytes 8 e.hseq ++ leBytes 8 e.pc ++ leBytes 8 e.detail ++
  leBytes 8 0

/-- Replaces a field of an MMIO doubleword. -/
def setField (v lo w x : Nat) : Nat := v - (bitsOf v lo w) * 2 ^ lo + (x % 2 ^ w) * 2 ^ lo

def State.setMmio (s : State) (a v : Nat) : State := { s with mmio := tput s.mmio (a / 8) (BitVec.ofNat 64 v) 0 }

/-- Where the next record goes in the error log's ring (R410): nowhere while the log is off or full. -/
def State.logSlot (s : State) : Option Nat :=
  let ctl := s.mmioWord errBase
  let ptr := s.mmioWord (errBase + 8)
  let n := 2 ^ (bitsOf ctl 1 4 + 6)
  if bitOf ctl 0 && !((bitsOf ptr 32 22 + 1) % n == bitsOf ptr 0 22 % n) then
    some (4096 * bitsOf ctl 12 36 + 64 * bitsOf ptr 32 22)
  else none

/-- Writes a record to the error log (R410); class 2 or higher raises MSI-X vector 0 of the physical function. -/
def State.report (s : State) (e : ErrRec) : State :=
  let ctl := s.mmioWord errBase
  let ptr := s.mmioWord (errBase + 8)
  let n := 2 ^ (bitsOf ctl 1 4 + 6)
  let head := bitsOf ptr 32 22
  let tail := bitsOf ptr 0 22
  let ring := 4096 * bitsOf ctl 12 36
  let lastA := ring + 64 * ((head + n - 1) % n)
  let s1 : State :=
    if !bitOf ctl 0 then s.setMmio (errBase + 8) (setField ptr 56 8 (min 255 (bitsOf ptr 56 8 + 1)))
    else if e.cls = 0 ∧ head ≠ tail ∧ s.readNat lastA 1 = 0 ∧ s.readNat (lastA + 1) 1 = e.src ∧
            s.readNat (lastA + 4) 4 = e.unit ∧ s.readNat (lastA + 2) 2 = e.code ∧ s.readNat (lastA + 8) 8 = e.addr then
      s.writeBytes (lastA + 26) (leBytes 2 (min 0xFFFF (s.readNat (lastA + 26) 2 + 1)))
    else if (head + 1) % n = tail % n then
      s.setMmio (errBase + 8) (setField ptr 56 8 (min 255 (bitsOf ptr 56 8 + 1)))
    else (s.writeBytes (ring + 64 * head) (e.bytes s.now 1)).setMmio (errBase + 8) (setField ptr 32 22 ((head + 1) % n))
  if 2 ≤ e.cls then { s1 with hostOut := s1.hostOut ++ [.msix none 0] } else s1

/-- OWNER of a record for a core (R411). -/
def Core.owner (c : Core) : Nat := if c.on then c.vdev + 64 * c.gen else 0xFFFF

/-- A second class-3 event of a saggar counts in the first one's record, while that stands unread in the ring (R411, R442). -/
def State.mergeHit (s : State) (k : Nat) : State :=
  match (s.sag k).hitRec with
  | none => s
  | some a =>
    let ptr := s.mmioWord (errBase + 8)
    let n := 2 ^ (bitsOf (s.mmioWord errBase) 1 4 + 6)
    let i := (a - 4096 * bitsOf (s.mmioWord errBase) 12 36) / 64
    if (i + n - bitsOf ptr 0 22 % n) % n < (bitsOf ptr 32 22 + n - bitsOf ptr 0 22 % n) % n then
      s.writeBytes (a + 26) (leBytes 2 (min 0xFFFF (s.readNat (a + 26) 2 + 1)))
    else s

/-- A class-3 event of a core (R401, R407, R414): its record is written and its saggar awaits containment (R441); a
second event of a saggar already hit merges into the first (R442). Nothing of the instruction commits. -/
def State.machineCheck (s : State) (ep src code addr detail pc : Nat) : State :=
  let c := s.core ep
  let e : ErrRec := { cls := 3, src := src, code := code, unit := s.epId (if src = 1 then 4 * quadOf ep else ep), addr := addr, owner := c.owner,
                      hseq := c.run.hseq, pc := pc, detail := detail }
  match s.sagOf ep with
  | none => s.report e
  | some k =>
    match (s.sag k).hit with
    | some _ => s.mergeHit k
    | none => (s.report e).onSag k (fun g => { g with hit := some s.now, hitRec := s.logSlot })

/-! ### Ready sets (R30 to R33) -/

/-- Records in one kind of place. -/
def countIn (l : List Ready) (p : Place) : Nat := (l.filter (fun r => r.place == p)).length

/-- Whether a ready-set slot, or a receive-queue entry, is free (R30). -/
def slotFree (l : List Ready) : Bool := decide (countIn l .slot < 64)
def recvFree (l : List Ready) : Bool := decide (countIn l .recvq < 32)

/-- Whether a spill entry can be reserved (R32). -/
def Core.spillFree (c : Core) : Bool := decide (c.spillRes + countIn c.ready .spill < 248)

/-- The range of MAXPRIO (R90). -/
def maxprioOf (n : Nat) : Nat := if n = 0 then 1 else if n = 7 then 6 else n

/-- TRAPTB and XROOT as a CSR write stores them (R90, R355). -/
def traptbOf (n : Nat) : Nat := 16 * bitsOf n 4 44
def xrootOf (n : Nat) : Nat := 4096 * bitsOf n 12 36

/-- The highest PRIO that a tenant record of a device keeps at a core (R26, R90): the core's own copy while it runs the
device. -/
def State.maxprioAt (s : State) (ep vdev : Nat) : Nat :=
  let c := s.core ep
  if c.on && c.vdev == vdev && !c.away then c.csr.maxprio else maxprioOf (bitsOf (s.descWord vdev 7) 51 3)

/-- A ready record for a task, arriving now. -/
def mkReady (r : TaskRec) (stamp now : Nat) (p : Place) : Ready :=
  { task := r, stamp := stamp, arrived := now, place := p, pasid := none, hseq := 0, ovf := false, latch := false }

/-- The order of records that arrive at one core in one cycle: ascending PSEQ, then ORIGIN (R33). -/
def TaskRec.before (a b : TaskRec) : Bool := decide (a.pseq < b.pseq) || (a.pseq == b.pseq && decide (a.origin < b.origin))

/-- Adds a record to ready records: it takes the next arrival stamp, and the records that arrived after its cycle, with those
of its cycle that R33 puts behind it, move up by one. -/
def arrive (l : List Ready) (r : Ready) : List Ready :=
  let later := (l.filter (fun q => decide (r.arrived < q.arrived) ||
    (q.arrived == r.arrived && r.task.before q.task))).map (fun q => q.stamp)
  let up := fun (n : Nat) => (later.filter (fun m => decide (n < m))).foldl min r.stamp
  l.map (fun q => if later.contains q.stamp then { q with stamp := up q.stamp } else q) ++
    [{ r with stamp := later.foldl min r.stamp }]

/-- Adds a record that arrived in a cycle to the core's ready pool with its arrival stamp (R33). -/
def State.addReadyAt (s : State) (ep : Nat) (r : TaskRec) (p : Place) (at' : Nat) : State :=
  s.onCore ep (fun c => { c with ready := arrive c.ready (mkReady r c.stampN at' p), stampN := c.stampN + 1 })

/-- Adds a record that arrives now. -/
def State.addReady (s : State) (ep : Nat) (r : TaskRec) (p : Place) : State := s.addReadyAt ep r p s.now

/-- Tasks of the ready records at one kind of place, and of those that lie in the spill area. -/
def tasksIn (l : List Ready) (p : Place) : List TaskRec := (l.filter (fun r => r.place == p)).map (fun r => r.task)

def spilledTasks (l : List Ready) : List TaskRec :=
  (l.filter (fun r => !(r.place == .slot) && !(r.place == .recvq))).map (fun r => r.task)

/-- Records one after another, at most `cap`. -/
def recordBytes (l : List TaskRec) (cap : Nat) : List Byte := (l.take cap).flatMap TaskRec.bytes

/-- Writes the records of a switched-out device's spill area, ready set, receive queue and injection queue to their
images (R354, R371). -/
def State.saveReady (s : State) (v ep : Nat) (l : List Ready) (inj : List TaskRec) : State :=
  let p := s.spillBlock v ep
  let put := fun (t : State) (a : Nat) (bs : List Byte) => t.writeKeyed (t.descMkey ep v) a bs
  put (put (put (put s p (recordBytes (spilledTasks l) 256)) (p + 0x5000) (recordBytes (tasksIn l .slot) 64))
    (p + 0x6000) (recordBytes (tasksIn l .recvq) 32)) (p + 0x6800) (recordBytes inj 16)

/-- Puts a context of a device that is switched out of a core, with the images of its records. -/
def State.putSaved (s : State) (ep v : Nat) (x : Ctx) : State :=
  (s.onCore ep (fun c => { c with saved := tset c.saved v x })).saveReady v ep x.ready x.inj

/-- A hardware post (R30, R32): to a free slot, else to its spill entry, under the PSEQ that the core's count gives it
(R25, log entry 53). The record goes to the core while the device runs there, and to the device's saved context's spill
area otherwise (R371); a record of an old generation is dropped (R445). -/
def State.hwPost (s : State) (ep : Nat) (r0 : TaskRec) (p : Place) (ovf latch : Bool) : State :=
  let c := s.core ep
  let r := { r0 with pseq := c.pseq }
  let c1 := { c with stampN := c.stampN + 1, pseq := (c.pseq + 1) % 2 ^ 32 }
  if (s.vdevOf r.vdev).gen ≠ r.gen then s
  else if c.on ∧ c.vdev = r.vdev then
    let pl := if slotFree c.ready && !c.away then Place.slot else p
    s.setCore ep { c1 with ready := arrive c.ready { mkReady r c.stampN s.now pl with ovf := ovf, latch := latch } }
  else
    match tfind c.saved r.vdev with
    | some x =>
      (s.setCore ep c1).putSaved ep r.vdev
        { x with ready := arrive x.ready { mkReady r c.stampN s.now p with ovf := ovf, latch := latch } }
    | none => s

/-- Whether a hardware post finds its device at a core, running there or switched out. -/
def State.takesPost (s : State) (ep : Nat) (r : TaskRec) : Bool :=
  let c := s.core ep
  (s.vdevOf r.vdev).gen == r.gen && ((c.on && c.vdev == r.vdev) || (tfind c.saved r.vdev).isSome)

/-- Frees one spill reservation of a device's core (R32): of the core, or of its saved context. -/
def State.freeSpill (s : State) (ep vdev : Nat) : State :=
  s.onCore ep (fun c =>
    if c.on ∧ c.vdev = vdev then { c with spillRes := c.spillRes - 1 }
    else match tfind c.saved vdev with
      | some x => { c with saved := tset c.saved vdev { x with spillRes := x.spillRes - 1 } }
      | none => c)

/-- Removes a record and refills its slot with the oldest spilled record (R32). -/
def takeReady (l : List Ready) (stamp : Nat) : List Ready :=
  let l' := l.filter (fun r => !(r.stamp == stamp))
  let spilled := l'.filter (fun r => !(r.place == .slot) && !(r.place == .recvq))
  if slotFree l' then
    match spilled with
    | [] => l'
    | o :: rest =>
      let low := rest.foldl (fun m r => if r.stamp < m.stamp then r else m) o
      l'.map (fun r => if r.stamp == low.stamp then { r with place := .slot } else r)
  else l'

/-! ### Event counters (R379, R380, R383) -/

/-- The chip a record's CSEL names for its device. -/
def LogRec.chip (s : State) (ep vdev : Nat) (r : LogRec) : Nat := (s.chipOf ep vdev r.csel).getD 0xFFFF

/-- The byte of a core's newest unacknowledged record of an address (R153). -/
def State.ownByte (s : State) (ep chip pa : Nat) : Option Byte :=
  let c := s.core ep
  c.pub.log.foldl (fun acc r =>
    if decide (r.addr = pa - pa % 8) && r.mask.getLsbD (pa % 8) && !(r.owner == .acked) &&
       (r.chip s ep c.vdev == chip)
    then some (BitVec.ofNat 8 (bitsOf r.data.toNat (8 * (pa % 8)) 8)) else acc) none

/-- Own unacknowledged records of a core applied to one byte (R128, R153). -/
def State.overlay (s : State) (ep chip pa : Nat) (b : Byte) : Byte := (s.ownByte ep chip pa).getD b

/-- The L1 line of an address filled from a home, with its sector valid. -/
def Core.l1Find (c : Core) (home pa : Nat) : Option L1Line :=
  c.l1.find? (fun l => l.home == home && l.line == pa / 512 && l.valid.getLsbD ((pa / 128) % 4))

/-- An armed overflow (R383): it merges into a counter-overflow post that is still pending, or makes one due, which the core
reads and posts at its next boundary (log entry 63). A core that runs no device posts nothing. -/
def State.overflowPost (s : State) (ep : Nat) : State :=
  let c := s.core ep
  let ovf := bitsOf c.evs.ovf.toNat 56 8
  if !c.on then s
  else if c.ready.any (fun r => r.ovf) then
    s.setCore ep { c with ready := c.ready.map (fun r =>
      if r.ovf then { r with task := { r.task with a0 := r.task.a0 ||| BitVec.ofNat 64 ovf } } else r) }
  else s.setCore ep { c with evs := { c.evs with due := true } }

/-- Counts n events of a source for a frame of a level at a core (R379, R380): each counter that selects them advances, and
an overflow sets OVF and posts when ARM is 1 (R383). -/
def State.countAt (s : State) (ep lvl ev n : Nat) : State :=
  let c := s.core ep
  let hit := fun (i : Fin 4) =>
    decide (bitsOf c.evs.sel[i].toNat 0 8 = ev) && !(ev == 0) && bitOf c.evs.sel[i].toNat (8 + lvl)
  if !(hit 0 || hit 1 || hit 2 || hit 3) then s
  else
    let bump := fun (i : Fin 4) => if hit i then c.evs.cnt[i].toNat + n else c.evs.cnt[i].toNat
    let wrap := fun (i : Fin 4) => decide (2 ^ 48 ≤ bump i)
    let ovfBits := (wrap 0).toNat + 2 * (wrap 1).toNat + 4 * (wrap 2).toNat + 8 * (wrap 3).toNat
    let evs : Evs :=
      { sel := c.evs.sel, cnt := Vector.ofFn (fun i => BitVec.ofNat 64 (bump i % 2 ^ 48)),
        ovf := c.evs.ovf ||| BitVec.ofNat 64 (ovfBits * 2 ^ 56), due := c.evs.due }
    let s1 := s.setCore ep { c with evs := evs }
    if ovfBits = 0 then s1 else if bitOf evs.ovf.toNat 0 then s1.overflowPost ep else s1

/-- Counts n events for the running frame. -/
def State.count (s : State) (ep ev n : Nat) : State := s.countAt ep (s.core ep).run.level ev n

/-- Cycles that a core itself spends: own cycles of its cluster (R408), which its counters of cycles count (R380). -/
def State.spend (s : State) (ep n : Nat) : State := ({ s with now := s.after ep n } : State).count ep 1 n

end Sys2Proof.Machine
end

