-- ==== Sys2Proof/Machine/Slice.lean ====
section
/-! DEFINITION. The L2 slices and what feeds them (R14, R129, R136, R145, R337 to R342, R347, R405): packets, arbiters,
lines and their eviction, fills and write-backs, and the translation whose walk reads its tables through them (R361). -/

namespace Sys2Proof.Machine

/-! ### Packets -/

/-- The router of an endpoint's cluster (R15, R313). -/
def routerOf (ep : Nat) : Nat := pkgCol ep + 64 * pkgRow ep

/-- Puts a packet into its source's egress queue (R313, R461): it has no sequence number yet, and keeps the fabric key as it
stands now (R374). -/
def State.send (s : State) (p : Pkt) : State :=
  { s with egress := s.egress ++ [{ p with
    pos := routerOf p.src, numbered := false, link := none, key := tget s.fkeys p.fkey 0 }] }

/-- A packet from a core of this part for its running device (R316, R323). -/
def State.pktFrom (s : State) (ep dst cls len : Nat) (b : Body) : Pkt :=
  let c := s.core ep
  { src := s.epId ep, dst := dst, cls := cls, sseq := 0, vdev := c.vdev, gen := c.gen, fkey := c.fkey, len := len,
    redok := false, body := b, pos := routerOf ep, numbered := false, link := none }

/-- A packet that answers another: its device, generation and key (R323). -/
def Pkt.answer (p : Pkt) (src cls len : Nat) (b : Body) : Pkt :=
  { p with src := src, dst := p.src, cls := cls, sseq := 0, len := len, redok := false, body := b }

/-! ### Buckets (R337 to R342) -/

/-- Key of an arbiter: its kind and unit (R344). -/
def arbKey (kind unit : Nat) : Nat := kind * 2 ^ 24 + unit % 2 ^ 24

/-- Largest cost M and packet time P of a kind (R337). -/
def arbMax (kind : Nat) : Nat := if kind = 0 ∨ kind = 2 then 9 else if kind = 3 then 8 else 1
def arbTime (kind : Nat) : Nat :=
  if kind = 0 then 9 else if kind = 1 then 1 else if kind = 2 then 16 else if kind = 3 then 3 else 4

/-- One bucket after n cycles of refill, with the excess (R338). -/
def Bucket.refill (b : Bucket) (n : Nat) : Bucket × Nat :=
  let f := b.fr + n * b.rate
  let t := b.tok + f / 1024
  ({ b with fr := f % 1024, tok := min b.depth t }, if b.lend then t - b.depth else 0)

/-- An arbiter with its buckets refilled up to a cycle (R338). -/
def Arb.refill (a : Arb) (now : Nat) : Arb :=
  let n := now - a.upTo
  { a with buckets := a.buckets.map (fun e => (e.1, (e.2.refill n).1)),
           pool := min 4096 (a.buckets.foldl (fun p e => p + (e.2.refill n).2) a.pool),
           upTo := now }

def State.arb (s : State) (kind unit : Nat) : Arb := (tget s.arbs (arbKey kind unit) Arb.reset).refill s.now

def State.setArb (s : State) (kind unit : Nat) (a : Arb) : State := { s with arbs := tset s.arbs (arbKey kind unit) a }

/-- Bucket key of a device and class: the class counts at a sluice only (R337). -/
def bucketKey (kind vdev cls : Nat) : Nat := 8 * vdev + (if kind = 2 then cls else 0)

/-- A request at an arbiter: device, class and cost. -/
structure ArbReq where
  vdev : Nat
  cls : Nat
  cost : Nat
deriving DecidableEq, Repr

/-- Distance in a round-robin order after the last one served. -/
def after (last n i : Nat) : Nat := (i + n - last % n - 1) % n

/-- The first of a list under an order. -/
def firstBy {α : Type} (lt : α → α → Bool) : List α → Option α
  | [] => none
  | a :: l => some (l.foldl (fun m b => if lt b m then b else m) a)

/-- Which of two requests is served first: devices in turn after the last one served (R339), and of one device its classes
in turn after the class of it that was served last (R319, log entry 55). -/
def ArbReq.before (lastCls : Tbl Nat) (last : Nat) (a b : ArbReq) : Bool :=
  let c := fun (r : ArbReq) => after (tget lastCls r.vdev 7) 8 r.cls
  decide (after last 64 a.vdev < after last 64 b.vdev) || (a.vdev == b.vdev && decide (c a < c b))

/-- Cycles for which a grant holds the output busy (R337). -/
def busyTime (kind cost : Nat) : Nat := (cost * arbTime kind + arbMax kind - 1) / arbMax kind

/-- The bucket of a request. -/
def Arb.bucket (a : Arb) (kind : Nat) (r : ArbReq) : Bucket := tget a.buckets (bucketKey kind r.vdev r.cls) Bucket.reset

/-- An arbiter after a grant: the class served, and the output busy. -/
def Arb.took (a : Arb) (kind now : Nat) (r : ArbReq) : Arb :=
  { a with lastCls := tset a.lastCls r.vdev r.cls, freeAt := now + busyTime kind r.cost }

/-- The head request of each device and class: the first in the list. -/
def headsOf : List ArbReq → List ArbReq → List ArbReq
  | [], acc => acc
  | r :: l, acc => headsOf l (if acc.any (fun q => q.vdev == r.vdev && q.cls == r.cls) then acc else acc ++ [r])

/-- The requests that stand for their devices (R319, R339): where one bucket serves all classes of a device, the class next
in turn stands for it, whatever its cost, so that a dear packet waits for tokens and is not passed over; at a sluice each
class has its own bucket. Management packets take no tokens and stand beside (log entry 55). -/
def Arb.heads (a : Arb) (kind : Nat) (reqs : List ArbReq) : List ArbReq :=
  let turn := fun (r : ArbReq) => after (tget a.lastCls r.vdev 7) 8 r.cls
  reqs.filter (fun r => kind == 2 || r.cls == 6 ||
    !reqs.any (fun q => q.vdev == r.vdev && !(q.cls == 6) && decide (turn q < turn r)))

/-- The request of R339 item 1 among those that wait: management packets take no tokens, and before enforcement every
request counts (R337, R342). -/
def Arb.guaranteed (a : Arb) (kind : Nat) (reqs : List ArbReq) : Option ArbReq :=
  firstBy (ArbReq.before a.lastCls a.lastG)
    ((a.heads kind reqs).filter (fun r => !a.enforcing || r.cls == 6 || decide (r.cost ≤ (a.bucket kind r).tok)))

/-- The request of R339 item 2. -/
def Arb.borrowed (a : Arb) (kind : Nat) (reqs : List ArbReq) : Option ArbReq :=
  firstBy (ArbReq.before a.lastCls a.lastB)
    ((a.heads kind reqs).filter (fun r => (a.bucket kind r).borrow && decide (r.cost ≤ a.pool)))

/-- R339: the request an arbiter grants, with its state afterwards. -/
def Arb.grant (a : Arb) (kind now : Nat) (reqs : List ArbReq) : Option (ArbReq × Arb) :=
  if now < a.freeAt then none
  else match a.guaranteed kind reqs with
    | some r =>
      let b := a.bucket kind r
      some (r, { a.took kind now r with
        lastG := r.vdev,
        buckets := if r.cls = 6 ∨ !a.enforcing then a.buckets
                   else tset a.buckets (bucketKey kind r.vdev r.cls) { b with tok := b.tok - r.cost } })
    | none =>
      (a.borrowed kind reqs).map (fun r => (r, { a.took kind now r with lastB := r.vdev, pool := a.pool - r.cost }))

/-- Whether a grant comes from the lend pool. -/
def Arb.borrows (a : Arb) (kind : Nat) (r : ArbReq) : Bool :=
  a.enforcing && decide ((tget a.buckets (bucketKey kind r.vdev r.cls) Bucket.reset).tok < r.cost)

/-! ### Acknowledgements of applied writes, and the note latch (R144, R148) -/

/-- Sends the acknowledgements of applied work whose notes are accepted and whose handler task has ended (R144). -/
def State.finishAckw (s : State) : State :=
  { s with ackw := s.ackw.filter (fun a => !(a.left == 0 && !a.handler)),
           egress := s.egress ++ ((s.ackw.filter (fun a => a.left == 0 && !a.handler)).map (fun a =>
             { a.reply with pos := routerOf a.reply.src, numbered := false, link := none, key := tget s.fkeys a.reply.fkey 0 })) }

/-- One note or invalidation of an applied write is accepted (R144, R146). -/
def State.accepted (s : State) (lock : Nat) : State :=
  ({ s with ackw := s.ackw.map (fun a => if a.lock == lock then { a with left := a.left - 1 } else a) } :
    State).finishAckw

/-- Frees the note latch of a slice as its handler task ends (R148). -/
def State.freeLatch (s : State) (ep : Nat) : State :=
  ({ s with latches := s.latches.filter (fun l => !(l.slice == ep)),
            ackw := s.ackw.map (fun a => if a.slice == ep then { a with handler := false } else a) } : State).finishAckw

/-! ### Slice counters (R381) -/

/-- Counts a slice event on a line of a device, when that device runs on the slice's core; an overflow sets the
slice's OVF bit in EVOVF and posts when armed (R383). -/
def State.lcount (s : State) (slice owner ev : Nat) : State :=
  let c := s.core slice
  if !(c.on && c.vdev == owner) then s
  else
    (List.range 4).foldl (fun (t : State) i =>
      let k := 8 * (slice % 65536) + i
      if bitsOf (tget t.lcnt k 0).toNat 0 8 = ev then
        let n := (tget t.lcnt (k + 4) 0).toNat + 1
        let t1 := { t with lcnt := tput t.lcnt (k + 4) (BitVec.ofNat 64 (n % 2 ^ 48)) 0 }
        if 2 ^ 48 ≤ n then
          let t2 := t1.onCore slice (fun d => { d with evs := { d.evs with ovf := d.evs.ovf ||| BitVec.ofNat 64 (2 ^ (60 + i)) } })
          if bitOf (t2.core slice).evs.ovf.toNat 0 then t2.overflowPost slice else t2
        else t1
      else t) s

/-! ### Errors of memory (R405) -/

/-- An ECC syndrome, whose code the spec does not give: an open value (R411, log entry 7). -/
def State.freeSyndrome (s : State) : Nat := leNat ((List.range 8).map (fun i => Config.freeByte (s.fresh + i)))

/-- Applies the errors that a read of a DRAM sector meets: corrected with a record, or marked poison. -/
def State.readEcc (s : State) (sector owner : Nat) : State :=
  let hit := s.ecc.filter (fun e => e.1 / 16 == sector)
  hit.foldl (fun (t : State) e =>
    let r : ErrRec := { cls := if e.2 then 0 else 1, src := 4, code := if e.2 then 0x30 else 0x31, unit := e.1 * 8 / 2 ^ 36,
                        addr := e.1 * 8, owner := owner, hseq := 0, pc := 0, detail := t.freeSyndrome }
    let t1 := { t with ecc := t.ecc.erase e, fresh := t.fresh + 8 }
    if e.2 then t1.report r else { t1.report r with poison := e.1 :: t1.poison }) s

/-- Applies the errors that an untranslated read of a range of DRAM meets (R405). -/
def State.scanEcc (s : State) (lo n owner : Nat) : State :=
  (s.ecc.filter (fun e => decide (lo ≤ 8 * e.1 + 7) && decide (8 * e.1 < lo + n) && !s.l2.any (fun l => l.holds (8 * e.1)) &&
    !s.wb.any (fun w => w.sector == e.1 / 16))).foldl (fun (t : State) e => t.readEcc (e.1 / 16) owner) s

/-! ### Lines (R129, R347) -/

/-- Ways a device may fill (R347). -/
def State.ways (s : State) (v : Nat) : List Nat :=
  let m := (s.vdevOf v).wayMask ||| s.shared
  match (List.range 16).filter (fun i => bitOf m i) with
  | [] => [15]
  | l => l

/-- The directory-overflow handler's entry: number 32 of the trap table (R147, R413). -/
def State.ovfEntry (s : State) (slice v : Nat) : Nat :=
  (if (s.core slice).on then (s.core slice).csr.traptb else traptbOf (s.descWord v 5)) + 16 * 32

/-- The directory-overflow handler record (R147): entry 32 of the trap table, level 7, S = 1. R147 names no device: the
model takes the one that the home core runs, whoever owns the line, and where it runs none the line's owner `v` (log
entry 62). -/
def State.ovfRecord (s : State) (slice v a0 a1 a2 a3 : Nat) : TaskRec :=
  let c := s.core slice
  let d := if c.on then c.vdev else v
  let e := s.ovfEntry slice v
  { pc := wordAt (s.readBytes e 16) 0 &&& ~~~3#64, a0 := BitVec.ofNat 64 a0, a1 := BitVec.ofNat 64 a1, a2 := BitVec.ofNat 64 a2,
    a3 := BitVec.ofNat 64 a3, origin := Config.hostEp, oseq := 0, prio := 7, nxr := c.csr.corenxr, s := true, cls := 0,
    frame := (s.readByte (e + 8)).toNat, pan := 0, vdev := d, gen := if c.on then c.gen else (s.vdevOf d).gen,
    deadline := 0, pseq := 0 }

/-- Sends a message of a slice to each endpoint, in answer to a packet. What a host's write causes serves the device that
the sharer runs (R366, log entry 59). -/
def State.tell (s : State) (slice : Nat) (cause : Pkt) (eps : List Nat) (b : Body) : State :=
  eps.foldl (fun t e =>
    let p := { cause.answer (t.epId slice) 3 40 b with dst := e }
    t.send (if cause.src = Config.hostEp ∧ e / 65536 = t.chip then
      { p with vdev := (t.core (e % 65536)).vdev, gen := (t.core (e % 65536)).gen, fkey := (t.core (e % 65536)).fkey }
      else p)) s

/-- A packet that stands for a line's owner where no packet caused a message (an eviction). -/
def State.ownerPkt (s : State) (slice v : Nat) : Pkt :=
  { src := s.epId slice, dst := s.epId slice, cls := 3, sseq := 0, vdev := v, gen := (s.vdevOf v).gen, fkey := s.descFkey v,
    len := 40, redok := false, body := .quiet 0 0, pos := 0, numbered := false, link := none }

/-- The part reads an entry of a core's trap table for a task that it posts: the read meets the errors of DRAM, and a poisoned
word is consumed (R405, R407). -/
def State.readEntry (s : State) (ep e : Nat) : State :=
  let t := s.scanEcc e 16 (s.core ep).owner
  if t.anyPoison e 16 then t.machineCheck ep 2 0x40 (t.poisonAt e 16) 0 0 else t

/-- Loads the note latch of a slice and posts its handler task for a line of device `v` (R148). Where no device can take
the task there is nobody to send the note, and the latch is free at once (log entry 62). -/
def State.latchPost (s0 : State) (l : Latch) (v a0 a1 a2 a3 : Nat) : State :=
  let s := s0.readEntry l.slice (s0.ovfEntry l.slice v)
  let r := s.ovfRecord l.slice v a0 a1 a2 a3
  if s.takesPost l.slice r then
    ({ s with latches := s.latches ++ [l] } : State).hwPost l.slice r .spillNote false true
  else s.freeLatch l.slice

def State.latched (s : State) (slice : Nat) : Bool := s.latches.any (fun l => l.slice == slice)

/-- The dirty sectors of a line. -/
def L2Line.dirtySectors (l : L2Line) : List Nat := (List.range 4).filter (fun i => l.dirty.getLsbD i && l.valid.getLsbD i)

/-- Whether a line can be evicted: its dirty sectors fit the write-back buffer, and the latch is free for its EVICT (R129,
R148). -/
def State.canEvict (s : State) (l : L2Line) : Bool :=
  decide ((s.wb.filter (fun w => w.slice == l.slice)).length + l.dirtySectors.length ≤ 32) && !(l.ovf && s.latched l.slice)

/-- A sector of a line as it goes to the write-back buffer. -/
def State.wbSector (s : State) (l : L2Line) (i : Nat) : WbSector :=
  { slice := l.slice, sector := l.line * 4 + i, owner := l.owner, key := s.keyOf l.mkey,
    data := (l.data.filter (fun e => e.1 / 128 == i)).map (fun e => (e.1 - 128 * i, e.2)),
    pois := (l.pois.filter (fun w => w / 16 == i)).map (fun w => w - 16 * i) }

/-- Whether an ask is one for a sector of a line. -/
def Ask.ofLine (a : Ask) (l : L2Line) : Bool :=
  match a.fill with
  | some (slice, place, pa) => slice == l.slice && place % 16 == l.set && pa / 512 == l.line
  | none => false

/-- Evicts a line that can be evicted: invalidations to its sharers, an EVICT task for an overflow line, dirty sectors to
the write-back buffer (R129, R145, R148). A fill of it whose requester has not come back is asked for anew. -/
def State.evict (s : State) (l : L2Line) : State :=
  let s1 := { s with l2 := s.l2.erase l, wb := s.wb ++ l.dirtySectors.map (s.wbSector l),
                     asks := s.asks.filter (fun a => !(a.done && a.ofLine l)) }
  let s2 := s1.tell l.slice (s1.ownerPkt l.slice l.owner) l.sharers (.inval l.line 0)
  let la : Latch :=
    { slice := l.slice, kind := 2, line := l.line, writer := 0, seq := 0, addr := l.line * 512, mask := 0, data := 0,
      pois := false, lock := 0, fkey := s.descFkey l.owner }
  if l.ovf then s2.latchPost la l.owner (l.line * 512) 0 0 2 else s2

/-- Bytes of a sector as memory or a write-back buffer holds them, as a line's table, for a reader under a memory key: a
sector of DRAM that was written under another key, or before its key was changed, reads as open values (R14, log entry
60). -/
def State.sectorData (s : State) (mkey pa : Nat) : Tbl Byte :=
  let other := s.otherKey mkey (pa / 128)
  (List.range 128).foldl (fun t i => tput t ((pa - pa % 128 + i) % 512)
    (if other then Config.freeByte (s.fresh + i) else s.lowByte (pa - pa % 128 + i)) Memory.unwritten) []

/-- Merges two tables of a line's bytes. -/
def mergeTbl (a b : Tbl Byte) : Tbl Byte := b.foldl (fun t e => tset t e.1 e.2) a

/-- Poisoned words of a sector below the slice, as word indices in the line. -/
def State.sectorPois (s : State) (pa : Nat) : List Nat :=
  (List.range 16).filterMap (fun i =>
    let w := (pa - pa % 128) / 8 + i
    let inWb := match s.wb.find? (fun b => b.sector == pa / 128) with
      | some b => b.pois.contains i
      | none => s.poison.contains w
    if inWb then some (w % 64) else none)

/-- The memory-controller queue of an address: 8 stacks of 16 queues (R337, log entry 5). -/
def memQueue (pa : Nat) : Nat := (pa / 2 ^ 36) % 8 * 16 + (pa / 128) % 16

/-- The arbiter that a fill passes and its cost (R136, R337): a sector of DRAM its memory-controller queue, the 128 bytes of
host memory CXL ingress. -/
def fillArb (pa : Nat) : Nat × Nat × Nat := if inDram pa then (1, memQueue pa, 1) else (3, 0, 2)

/-- Whether a slice holds the sector of an address in the set that a translation names. -/
def State.hasSector (s : State) (slice place pa : Nat) : Bool :=
  s.l2.any (fun l => l.slice == slice && l.set == place % 16 && l.holds pa)

/-- The line of an address in a slice and set, whichever sectors it holds. -/
def State.lineAt (s : State) (slice place pa : Nat) : Option L2Line :=
  s.l2.find? (fun l => l.line == pa / 512 && l.slice == slice && l.set == place % 16)

/-- The way that a new line of a device takes in a set (R129, R347): a free one, or that of the least recently used line,
which is evicted. Lines stand in the order of their last use. -/
def State.wayFor (s : State) (slice set v : Nat) : Option Nat × Option L2Line :=
  let here := s.l2.filter (fun l => l.slice == slice && l.set == set)
  let ws := s.ways v
  (ws.find? (fun w => !(here.any (fun l => l.way == w))), (here.filter (fun l => ws.contains l.way)).getLast?)

/-- Whether a sector can be placed now: its line is there, a way is free, or the line that it displaces can go. -/
def State.canPlace (s : State) (slice place v pa : Nat) : Bool :=
  (s.lineAt slice place pa).isSome ||
  (match s.wayFor slice (place % 16) v with
   | (some _, _) => true
   | (none, some l) => s.canEvict l
   | (none, none) => false)

/-- A line as an access under a memory key finds it: a key that no page entry has named yet is that of the first that does
(log entry 60). -/
def L2Line.under (l : L2Line) (key : Nat) : L2Line := if l.mkey = noKey then { l with mkey := key } else l

/-- A line that a sector joins (R14, R129): its bytes as a reader under the key finds them below, dirty where they come back
from the write-back buffer (log entry 61). -/
def State.joined (s : State) (l : L2Line) (key pa : Nat) : L2Line :=
  let bit : BitVec 4 := BitVec.ofNat 4 (2 ^ ((pa / 128) % 4))
  { l.under key with
    valid := l.valid ||| bit, data := mergeTbl l.data (s.sectorData key pa), pois := l.pois ++ s.sectorPois pa, age := s.now,
    dirty := if s.wb.any (fun w => w.sector == pa / 128) then l.dirty ||| bit else l.dirty }

/-- Poisoned words of host memory that a fill brings in are recorded as they arrive (R406). -/
def State.hostPoison (s : State) (slice pa owner : Nat) : State :=
  if inHost pa then
    (s.sectorPois pa).foldl (fun t w => t.report { cls := 1, src := 5, code := 0x41, unit := t.epId slice, addr := pa / 512 * 512 + 8 * w,
                                                   owner := owner, hseq := 0, pc := 0, detail := 0 }) s
  else s

/-- Places the sector of an address that can be placed, in the set that the access's translation names, under its memory
key (R14, R129, R130): the line then stands first, and the lookup counts as a miss (R381). A write of the whole sector
(`whole`) and a sector that comes back from the write-back buffer read no memory. -/
def State.putSector (s : State) (slice place v pa : Nat) (whole : Bool) : State :=
  let key := place / 16
  let who := v + 64 * (s.vdevOf v).gen
  let s0 := if whole || s.wb.any (fun w => w.sector == pa / 128) then s
            else (s.readEcc (pa / 128) who).hostPoison slice pa who
  let r : L2Line × State := match s0.lineAt slice place pa with
    | some l => (l, { s0 with l2 := s0.l2.erase l })
    | none =>
      let new := fun (way : Nat) => ({
        slice := slice, set := place % 16, way := way, line := pa / 512, owner := v, mkey := key, valid := 0, dirty := 0,
        data := [], pois := [], sharers := [], ovf := false, age := s.now } : L2Line)
      match s0.wayFor slice (place % 16) v with
      | (some w, _) => (new w, s0)
      | (none, some l) => (new l.way, s0.evict l)
      | (none, none) => (new 15, s0)
  ({ r.2 with
    l2 := r.2.joined r.1 key pa :: r.2.l2, wb := r.2.wb.filter (fun w => !(w.sector == pa / 128)),
    fresh := r.2.fresh + 128 } : State).lcount slice r.1.owner 2

/-- Writes an evicted sector to memory (R129), under its memory key (R14). -/
def State.writeBack (s : State) (w : WbSector) : State :=
  let s1 : State := { s with
    wb := s.wb.erase w,
    memKey := match w.key with
      | some k => tset s.memKey w.sector k
      | none => tdel s.memKey w.sector }
  let s2 : State := { s1 with
    mem := (List.range 128).foldl (fun m i =>
      Memory.write m (128 * w.sector + i) (tget w.data i Memory.unwritten)) s1.mem,
    poison := (s1.poison.filter (fun x => !(x / 16 == w.sector))) ++ w.pois.map (fun i => 16 * w.sector + i) }
  s2.lcount w.slice w.owner 3

/-- Whether something that waits could use a grant: a fill whose sector is still missing and can be placed, or a message. -/
def State.askReady (s : State) (a : Ask) : Bool :=
  !a.done && (match a.fill with
    | some (slice, place, pa) => !s.hasSector slice place pa && s.canPlace slice place a.vdev pa
    | none => true)

/-- What waits at an arbiter and could use a grant, oldest first. -/
def State.asksAt (s : State) (kind unit : Nat) : List Ask :=
  s.asks.filter (fun a => a.key == arbKey kind unit && s.askReady a)

/-- The evicted sectors that ask for a memory-controller queue (R129). A sector of host memory, for which R337 maps no queue,
asks at the one its address would name (log entry 5). -/
def State.writeBacks (s : State) (kind unit : Nat) : List WbSector :=
  if kind = 1 then s.wb.filter (fun w => memQueue (128 * w.sector) == unit) else []

/-- The requests at an arbiter, one for each device: what waits there in its order, and behind it the device's
write-backs. -/
def State.arbReqs (s : State) (kind unit : Nat) : List ArbReq :=
  headsOf ((s.asksAt kind unit).map (fun a => { vdev := a.vdev, cls := 0, cost := a.cost }) ++
    (s.writeBacks kind unit).map (fun w => { vdev := w.owner, cls := 0, cost := 1 })) []

/-- What a grant does for a fill: its sector is placed, and at a queue that enforces buckets it counts on its line as slice
event 5 or 6 (R381). -/
def State.makeFill (s : State) (a : Ask) (ev : Option Nat) : State :=
  match a.fill with
  | none => s
  | some (slice, place, pa) =>
    let t := s.putSector slice place a.vdev pa false
    match ev with
    | some e => t.lcount slice ((t.lineAt slice place pa).elim a.vdev (fun l => l.owner)) e
    | none => t

/-- One grant of a memory-controller queue, of CXL ingress or of a queue port among all that waits there (R337, R339): a
fill is made, a message may pass, a sector is written back. -/
def State.arbGrant (s : State) (kind unit : Nat) : State :=
  let b := s.arb kind unit
  match b.grant kind s.now (s.arbReqs kind unit) with
  | none => s
  | some (r, b') =>
    let s1 := s.setArb kind unit b'
    match (s.asksAt kind unit).find? (fun a => a.vdev == r.vdev) with
    | some a =>
      ({ s1 with asks := mapFirst (fun q => q == a) (fun q => { q with done := true }) s1.asks } : State).makeFill a
        (if kind = 1 && b.enforcing then some (if b.borrows kind r then 6 else 5) else none)
    | none =>
      match (s.writeBacks kind unit).find? (fun w => w.owner == r.vdev) with
      | some w => s1.writeBack w
      | none => s1

/-- Puts what waits behind the others at its arbiter, unless the same waits there already. -/
def State.ask (s : State) (a : Ask) : State := if s.asks.contains a then s else { s with asks := s.asks ++ [a] }

/-- The fill of a sector as it waits. -/
def fillAsk (slice place v pa : Nat) : Ask :=
  let f := fillArb pa
  { key := arbKey f.1 f.2.1, vdev := v, cost := f.2.2, fill := some (slice, place, pa - pa % 128), done := false }

/-- The line of a held sector becomes the one used last (R129). -/
def State.touch (s : State) (slice place pa : Nat) : State :=
  match s.l2.find? (fun l => l.slice == slice && l.set == place % 16 && l.holds pa) with
  | some l => { s with l2 := { l.under (place / 16) with age := s.now } :: s.l2.erase l }
  | none => s

/-- A slice looks up the sector of an address for a device (R129, R381). A sector that it lacks is asked for at its arbiter,
which then makes one grant; the caller goes on where the slice holds the sector, and else waits. A write of the whole sector
(`whole`) needs no fill, and a sector that still waits in a write-back buffer is taken back from there: it passes no arbiter,
and its write-back is not made (log entry 61). -/
def State.bring (s : State) (slice place v pa : Nat) (whole : Bool) : State :=
  let want := fillAsk slice place v pa
  let got := { want with done := true }
  if s.hasSector slice place pa then
    let t := ({ s with asks := (s.asks.erase want).erase got } : State).touch slice place pa
    if s.asks.contains got then t
    else t.lcount slice ((s.lineAt slice place pa).elim v (fun l => l.owner)) 1
  else if whole || s.wb.any (fun w => w.sector == pa / 128) then
    if s.canPlace slice place v pa then s.putSector slice place v pa whole else s
  else
    let f := fillArb pa
    let t := (s.ask want).arbGrant f.1 f.2.1
    if t.hasSector slice place pa then ({ t with asks := t.asks.erase got } : State).touch slice place pa else t

/-! ### Untranslated reads and translation (R354, R357, R360, R361, R462) -/

/-- The home that the host homing table gives an address of DRAM, with the device that a host access there is charged to
(R462): endpoint bits, place, device. No page entry names a memory key for such an access (log entry 60). -/
def State.hostHome (s : State) (pa : Nat) : Nat × Nat × Nat :=
  let w := s.mmioWord (0x022400000000 + 8 * bitsOf pa 30 9)
  let v := bitsOf w 16 6
  let set := (pa / 512) % 16 + 16 * noKey
  if bitOf w 40 then
    let e := s.readNat (s.descWord v 1 + 8 * bitsOf w 32 6) 8
    if (s.vdevOf v).launched && !(rectHeight e == 0) then ((hashedHome e pa).1, (hashedHome e pa).2 + 16 * noKey, v)
    else (0, set, v)
  else (bitsOf w 0 16, set, v)

/-- The slice and place at which an untranslated read finds an address: where its line is held, else as the host homing
table says (R361, R462, log entry 65). -/
def State.lowHome (s : State) (pa : Nat) : Nat × Nat :=
  match s.l2.find? (fun l => l.line == pa / 512) with
  | some l => (l.slice, l.set + 16 * noKey)
  | none => ((s.hostHome pa).1, (s.hostHome pa).2.1)

/-- Looks up the sector of an address for an untranslated read of a device; says whether the slice holds it now. -/
def State.reach (s : State) (v pa : Nat) : Bool × State :=
  if isGlobal pa then
    let h := s.lowHome pa
    let t := s.bring h.1 h.2 v pa false
    (t.hasSector h.1 h.2 pa, t)
  else (true, s)

/-- The sectors of the entries that a walk reads, level by level from a table, each at its home slice (R360, R361); says
whether the slices hold them all. -/
def State.reachWalk (s : State) (v va : Nat) : Nat → Nat → Nat → Bool × State
  | 0, _, _ => (true, s)
  | fuel + 1, lvl, tbl =>
    let a := tbl + 8 * levelIndex va lvl
    let r := s.reach v a
    let e := r.2.readNat a 8
    if r.1 && bitOf e 0 && decide (bitsOf e 1 3 = 0) && pointerOk e lvl && !r.2.isPoison a then
      State.reachWalk r.2 v va fuel (lvl + 1) (256 * bitsOf e 8 40)
    else r

/-- Whether a translation needs no walk: no address, a window, or an entry in a cache (R116, R118, R363). -/
def State.noWalk (s : State) (k : Asker) (va : Nat) : Bool :=
  !canonical va || (decide (0x7E0000000000 ≤ va) && decide (va < 0x7F0000000000)) ||
  (s.core k.ep).utlb.any (fun t => t.hit k va) || (s.cluster (clusterOf k.ep)).tlb.any (fun t => t.hit k va)

/-- The translation of R116, R118 and R361 for n bytes, with the caches as they stand afterwards; a walk waits while a slice
brings in an entry that it reads. -/
def State.translate (s : State) (k : Asker) (va n : Nat) (p : Perm) : Target × State :=
  if s.noWalk k va then s.lookup k va n p
  else
    let r := s.reachWalk k.vdev va 4 0 (s.core k.ep).csr.xroot
    if r.1 then r.2.lookup k va n p else (.ats, r.2)

end Sys2Proof.Machine
end

