-- ==== Sys2Proof/Machine/Ops.lean ====
section
/-! DEFINITION. The named operations every meaning is built from: checkpoints, frames and their windows, taking a trap and
returning from one, retirement and stalls. -/

namespace Sys2Proof.Machine

/-! ### Checkpoints (R368) -/

/-- Takes a checkpoint: the running frame, the log tail and an empty journal (R368); kiln commands queued or issued
before it belong to the interval before it. -/
def State.checkpoint (s : State) (ep : Nat) : State :=
  (s.onKiln (quadOf ep) (fun k => { k with flight := k.flight.map (fun f =>
    if f.core == ep then { f with cmd := { f.cmd with old := true } } else f) })).onCore ep (fun c =>
    { c with ck := some { frame := c.run, holdm := c.csr.holdm, alignN := c.alignN, oneN := c.oneN,
                          logNew := 0, jour := [], kept := [], jpois := [], kset := none, shadows := c.shadows, takenAt := s.now },
             pub := { c.pub with opened := false },
             dq := c.dq.map (fun k => { k with old := true }),
             parked := c.parked.map (fun k => { k with old := true }) })

/-- A checkpoint with its cycle (R368). -/
def State.ckCycle (s : State) (ep : Nat) : State := (s.checkpoint ep).spend ep 1

/-- The 128-byte sectors of a scratchpad range. -/
def sectorsOf (off n : Nat) : List Nat :=
  if n = 0 then [] else (List.range ((off + n + 127) / 128 - off / 128)).map (fun i => off / 128 + i)

/-- Whether a core's journal has no room for the sectors of these own-scratchpad ranges (R369). -/
def Core.journalFull (c : Core) (ws : List (Nat × Nat)) : Bool :=
  match c.ck with
  | none => false
  | some k =>
    decide (32 < k.jour.length + ((ws.flatMap (fun w => sectorsOf w.1 w.2)).eraseDups.filter (fun q =>
      (tfind k.jour q).isNone)).length)

/-- Records the sectors of an own-scratchpad range in the journal before it is written (R369). -/
def State.journal (s : State) (ep off n : Nat) : State :=
  s.onCore ep (fun c =>
    match c.ck with
    | none => c
    | some k =>
      let new := (sectorsOf off n).filter (fun q => (tfind k.jour q).isNone)
      { c with ck := some { k with
          jour := new.foldl (fun t q => tset t q (s.spadBytes ep (128 * q) 128)) k.jour,
          jpois := k.jpois ++ new.flatMap (fun q => ((List.range 16).map (fun i => 16 * q + i)).filter (fun w =>
            s.isPoison (arrayBase ep + 8 * w))) } })

/-! ### Windows and frames (R37 to R46) -/

/-- Windows a core holds for others: frames of its cluster whose window it lent (R45). -/
def State.lentBy (s : State) (ep : Nat) : Nat :=
  ((List.range 8).filter (fun k => !(k == coreNo ep))).foldl (fun n k =>
    n + ((s.core (8 * clusterOf ep + k)).under.filter (fun f => f.win == .lent (coreNo ep))).length) 0

/-- Free windows of a core's register-stack region (R45). -/
def State.freeWindows (s : State) (ep : Nat) : Nat :=
  16 * (s.core ep).carve.win - ((s.core ep).under.filter (fun f => f.win == .loc)).length - s.lentBy ep

/-- The neighbour that lends a window: the first core after this one with at least two of its own left free (R45). -/
def State.lender (s : State) (ep : Nat) : Option Nat :=
  ((List.range 7).map (fun k => (coreNo ep + k + 1) % 8)).find? (fun k => decide (3 ≤ s.freeWindows (8 * clusterOf ep + k)))

/-- Image of a frame's registers: dead registers as zero (R71, R91). -/
def Frame.image (f : Frame) : List Byte :=
  (List.range 32).flatMap (fun i => leBytes 8 (f.x (BitVec.ofNat 5 i)).toNat)

/-- Where the window of a level lies in the device's window spill region (R45, R354). -/
def State.windowAt (s : State) (ep level : Nat) : Nat := s.spillBlock (s.core ep).vdev ep + 0x4000 + 256 * level

/-- Writes a window to the device's window spill region (R45, R354). -/
def State.spillWindow (s : State) (ep : Nat) (f : Frame) : State :=
  s.writeKeyed (s.descMkey ep (s.core ep).vdev) (s.windowAt ep f.level) f.image

/-- Moves the last frame of a list whose window is local to a new place. -/
def moveOldest (l : List Frame) (w : Win) : List Frame :=
  match takeFirst (fun (p : Frame × Nat) => p.1.win == .loc) ((l.zip (List.range l.length)).reverse) with
  | some (p, _) => setAt l p.2 { p.1 with win := w }
  | none => l

/-- Revokes one window lent to a neighbour: it moves to the spill region (R45). Which of several it is, the spec leaves open:
the model takes it from the first borrower after this core, and of that core's the frame pushed last (log entry 67). -/
def State.revokeOne (s : State) (ep : Nat) : State :=
  match ((List.range 7).map (fun k => (coreNo ep + k + 1) % 8)).find? (fun k =>
      (s.core (8 * clusterOf ep + k)).under.any (fun f => f.win == .lent (coreNo ep))) with
  | some k =>
    let e := 8 * clusterOf ep + k
    match (s.core e).under.find? (fun f => f.win == .lent (coreNo ep)) with
    | some f =>
      (s.spillWindow e f).onCore e (fun c =>
        { c with under := c.under.map (fun g => if g.level == f.level then { g with win := .l2 } else g) })
    | none => s
  | none => s

/-- Cycles of an uncontended L2 access of the own cluster (R126), taken for the moves of R46 without a figure
(log entry 5). -/
def l2Cycles : Nat := 14

/-- Covers the running frame: it moves to a free window, which may spill or revoke another (R37 step 4, R45, R46). -/
def State.cover (s : State) (ep : Nat) : State :=
  let free := s.freeWindows ep
  let lent := s.lentBy ep
  let pushed := fun (t : State) => t.onCore ep (fun c => { c with under := { c.run with win := .loc } :: c.under })
  if 1 ≤ free then (pushed s).spend ep 6
  else if 1 ≤ lent then (pushed (s.revokeOne ep)).spend ep (6 + l2Cycles)
  else
    match s.lender ep with
    | some k =>
      ((pushed s).onCore ep (fun c => { c with under := moveOldest c.under (.lent k) })).spend ep (6 + 36)
    | none =>
      let t := pushed s
      let t1 := match (t.core ep).under.reverse.find? (fun f => f.win == .loc) with
        | some f => t.spillWindow ep f
        | none => t
      (t1.onCore ep (fun c => { c with under := moveOldest c.under .l2 })).spend ep (6 + l2Cycles)

/-- Fits(n) of R39: 64 + 256 n bytes between the stack top and the static limit. -/
def Core.fits (c : Core) (n : Nat) : Bool := decide (c.carve.sstat * 256 + 64 + 256 * n ≤ c.run.base)

/-- The frame that a record starts (R38), its record copy at the stack top. -/
def Core.startFrame (c : Core) (r : TaskRec) (nxr : Bool) : Frame :=
  let base := c.run.base - 64
  let sp : Word := BitVec.ofNat 64 (0x7E0000000000 + base)
  let f0 := { Frame.idle (base - 256 * r.frame) with
    level := r.prio, fid := c.nextFid, pc := r.pc, nxr := nxr, sup := r.s, thr := r.prio, cls := r.cls,
    fsize := r.frame, pan := r.pan, vdev := r.vdev, gen := r.gen }
  ((((((f0.setX 10 r.a0).setX 11 r.a1).setX 12 r.a2).setX 13 r.a3).setX 4 sp).setX 2 sp).setX 3 c.csr.gpv

/-- Puts a started frame on the stack, writes its record copy and takes the checkpoint of R368, which closes the open record
(R138), that of a trapped frame too (log entry 64). -/
def State.putFrame (s : State) (ep : Nat) (r : TaskRec) (f : Frame) : State :=
  let off := f.base + 256 * f.fsize
  let s1 := s.cover ep
  let s2 := s1.onCore ep (fun c => { c with
    run := f, nextFid := c.nextFid + 1, stalled := none, alignAt := none, again := false, got := [] })
  ((s2.spadWrite ep off r.bytes).checkpoint ep).count ep 9 1

/-- A fill of a register in the frame that issued the request, wherever its window lies: in the spill region too (R44, R354). -/
def State.fillReg (s : State) (ep fid : Nat) (rd : XReg) (v : Word) (p : Bool) : State :=
  let s1 := s.onCore ep (fun c => c.fill fid rd v p)
  match (s.core ep).under.find? (fun f => f.fid == fid && f.win == .l2) with
  | some f =>
    let a := s.windowAt ep f.level + 8 * rd.toNat
    if rd = 0 then s1 else (s1.writeKeyed (s.descMkey ep (s.core ep).vdev) a (leBytes 8 v.toNat)).setPoison a p
  | none => s1

/-! ### Kiln queue and frames (R37, R300) -/

/-- A level's commands from its first matrix command or LEASE on, or from the first that is tied to a solve command `ss`
about to suspend: the part of the queue that is parked (R37, R300, log entry 66). -/
def parkSplit (lvl : Nat) (ss : List Instr) : List KCmd → Bool → List KCmd × List KCmd
  | [], _ => ([], [])
  | k :: l, hit =>
    if k.level = lvl then
      let h := hit || isMatrix k.ins || isLease k.ins || ss.any (fun f => tied f k.ins)
      let r := parkSplit lvl ss l h
      if h then (r.1, k :: r.2) else (k :: r.1, r.2)
    else
      let r := parkSplit lvl ss l hit
      (k :: r.1, r.2)

/-- Commands that take several steps (R37). -/
def isStepped : Instr → Bool
  | .kfac .. | .ktrsl .. | .ktrsu .. => true
  | _ => false

/-- Steps 1 to 3 of R37 at the kiln for a level that a task's frame is about to cover: its executing solve command will
suspend at the end of its step, whether or not the level runs again by then. -/
def State.preempt (s : State) (ep lvl : Nat) : State :=
  let fl := (s.kiln (quadOf ep)).flight.filter (fun f => f.core == ep && f.cmd.level == lvl)
  let p := parkSplit lvl ((fl.map (fun f => f.cmd.ins)).filter isStepped) (s.core ep).dq false
  let s1 := s.onCore ep (fun c => { c with dq := p.1, parked := c.parked ++ p.2 })
  s1.onKiln (quadOf ep) (fun k => { k with
    flight := k.flight.map (fun f => if f.core == ep && f.cmd.level == lvl then { f with suspending := true } else f),
    lease := k.lease.map (fun l => if l.core = ep % 4 ∧ l.level = lvl then { l with ending := true } else l) })

/-- Puts commands behind the last command of a level, or in front where the queue holds none (R254). -/
def behindLevel (lvl : Nat) (ps : List KCmd) : List KCmd → List KCmd
  | [] => ps
  | k :: l => if (k :: l).any (fun d => d.level == lvl) then k :: behindLevel lvl ps l else ps ++ k :: l

/-- The parked commands of a level go back to the queue when its frame runs again, behind those of the level that stayed in
it (R254, R300). -/
def Core.unpark (c : Core) (lvl : Nat) : Core :=
  { c with dq := behindLevel lvl (c.parked.filter (fun k => k.level == lvl)) c.dq,
           parked := c.parked.filter (fun k => !(k.level == lvl)) }

/-! ### Traps (R41, R42, R412 to R420) -/

/-- Whether the handler of a cause runs as supervisor whatever its entry says (R412). -/
def supervisorCause (c : Nat) : Bool := c == 15 || c == 16 || c == 17 || c == 24 || c == 25

/-- Stalls the running instruction for a cycle (R23, R36): nothing of it happens, and the boundary stays open. -/
def State.stall (s : State) (w : Wait) : State :=
  let s2 := (s.onMe (fun c => { c with stalled := some w })).spend s.cur 1
  match w with
  | .reg => s2.count s.cur 3 1
  | .dispatch => s2.count s.cur 4 1
  | .lease => s2.count s.cur 5 1
  | .logSpace => s2.count s.cur 6 1
  | _ => s2

/-- Whether a trap of a core can be taken now: its standard loads have returned (R201), and the home slice of the handler's
entry holds it (log entry 65). -/
def State.trapReady (s : State) (ep cause : Nat) : Bool × State :=
  let c := s.core ep
  if c.run.level = 7 then (true, s)
  else if !c.loads.isEmpty then (false, s)
  else s.reach c.vdev (c.csr.traptb + 16 * cause)

/-- A cycle in which a trap waits to be taken. -/
def State.trapWait (s : State) (ep : Nat) : State :=
  (s.onCore ep (fun d => { d with stalled := some (if d.loads.isEmpty then .fill else .loads) })).spend ep 1

/-- Takes a trap on a core (R42, R412 to R416): in a level-7 frame, with an invalid entry, or with no room for the
frame it is a machine check; otherwise the frame of the handler is pushed at level 7. `pc` is the PC of the
instruction that raised the cause. -/
def State.enterTrap (s : State) (ep cause : Nat) (tval pc : Word) (boundary : Bool) : State :=
  let c := s.core ep
  let e := c.csr.traptb + 16 * cause
  if c.run.level = 7 then s.machineCheck ep 0 0x03 0 0 pc.toNat
  else if s.anyPoison e 16 then s.machineCheck ep 2 0x40 (s.poisonAt e 16) 0 pc.toNat
  else
    let bs := s.readBytes e 16
    let fl := natAt bs 9 1
    let frame := natAt bs 8 1
    if !bitOf fl 0 then s.machineCheck ep 0 0x05 0 0 pc.toNat
    else if !c.fits frame then s.machineCheck ep 0 0x04 0 0 pc.toNat
    else
      let sup := bitOf fl 1 || supervisorCause cause
      let r : TaskRec :=
        { pc := wordAt bs 0 &&& ~~~3#64, a0 := BitVec.ofNat 64 (cause + 256 * boundary.toNat), a1 := tval, a2 := pc, a3 := c.run.tstat,
          origin := s.epId ep, oseq := 0, prio := 7, nxr := false, s := sup, cls := 0, frame := frame, pan := 0,
          vdev := 0, gen := 0, deadline := 0, pseq := 0 }
      let f := { c.startFrame r c.csr.corenxr with
                 vdev := c.run.vdev, gen := c.run.gen, hseq := c.run.hseq,
                 trap := some { cause := cause, boundary := boundary, tval := tval } }
      s.putFrame ep r f

/-- Takes a trap on a core once it can be taken. -/
def State.takeTrap (s : State) (ep cause : Nat) (tval pc : Word) (boundary : Bool) : State :=
  let r := s.trapReady ep cause
  if r.1 then r.2.enterTrap ep cause tval pc boundary else r.2.trapWait ep

/-- A precise trap of the running instruction: its PC, with no effect of the instruction (R8, R412). -/
def State.trap (s : State) (cause : Nat) (tval : Word) : State :=
  s.takeTrap s.cur cause tval s.frame.pc (decide (cause = 5) || decide (cause = 15))

/-- Whether the window of an uncovered frame comes back from the spill region with a poisoned word: its restore is a
consumption (R45, R407). -/
def State.winBad (s : State) (ep : Nat) (f : Frame) : Bool := f.win == .l2 && s.anyPoison (s.windowAt ep f.level) 256

/-- The frame whose window comes back: from the spill region with the bytes that stand there (R45, R354). -/
def State.windowBack (s : State) (ep : Nat) (f : Frame) : Frame :=
  match f.win with
  | .l2 =>
    let bs := s.readKeyed (s.descMkey ep (s.core ep).vdev) (s.windowAt ep f.level) 256
    { f with win := .loc, regs := Vector.ofFn (fun (i : Fin 32) => if i.val = 0 then 0 else wordAt bs (8 * i.val)) }
  | _ => { f with win := .loc }

/-- Uncovers the frame beneath the running one (R40, R74): the frame's deadline reservation, its queues and its pending
QPOPs go, the uncovered frame is restored from its window with its parked commands, and a checkpoint is taken. -/
def State.uncover (s : State) (ep : Nat) : State :=
  let c := s.core ep
  match c.under with
  | [] => s
  | f :: rest =>
    if s.winBad ep f then s.machineCheck ep 2 0x40 (s.poisonAt (s.windowAt ep f.level) 256) 0 c.run.pc.toNat
    else
    let old := c.run
    let cost := match f.win with
      | .loc => 6
      | .lent _ => 42
      | .l2 => 6 + l2Cycles
    let freed := match old.dl with
      | some d => if d.succ.isSome then 1 else 0
      | none => 0
    let ks := tget c.sets old.level KSet.reset
    let c1 : Core := { c with
      run := s.windowBack ep f, under := rest, spillRes := c.spillRes - freed,
      sets := tset c.sets old.level { ks with q0 := [], q1 := [], q2 := [], q4 := [], bad := ks.bad.filter (fun i => i < 13 || i == 14) },
      pops := c.pops.filter (fun p => !(p.fid == old.fid)), stalled := none, alignAt := none, again := false, got := [],
      idleAt := s.now }
    let s1 := s.setCore ep (c1.unpark f.level)
    let s2 := if old.latch then s1.freeLatch ep else s1
    (s2.spend ep cost).checkpoint ep

/-- Pops the frame of a task that ends (R40, R74): a firing of its level ends too (R280 event 3). -/
def State.popFrame (s : State) (ep : Nat) : State :=
  let lvl := (s.core ep).run.level
  if (s.core ep).under.isEmpty then s
  else (s.onKiln (quadOf ep) (fun k => { k with
    lease := k.lease.map (fun l => if l.core = ep % 4 ∧ l.level = lvl then { l with ending := true } else l) })).uncover ep

/-- Whether a KEEP of a core's level still waits with its frame (R293): it has not retired. -/
def State.keepWaits (s : State) (ep lvl : Nat) : Bool :=
  (s.kiln (quadOf ep)).frames.any (fun f => f.src == ep % 65536 && f.level == lvl && f.vdev == (s.core ep).vdev)

/-- Whether any command of a level is queued, parked, in flight or waiting with its frame (R74, R293). -/
def State.kilnBusy (s : State) (ep lvl : Nat) : Bool :=
  (s.core ep).dq.any (fun k => k.level == lvl) || (s.core ep).parked.any (fun k => k.level == lvl) ||
  (s.kiln (quadOf ep)).flight.any (fun f => f.core == ep && f.cmd.level == lvl) || s.keepWaits ep lvl

/-- TRET's return (R235): pops the trap frame, without an end of its firing, for R280 names no return (event 3); the resumed
frame's next instruction is exempt from breakpoints (R415), and a deadline of its task that has passed by then ends the task
with reason 1. The pop empties q0 to q2 and q4 of level 7 as every other pop does: R74 names TEND, deadlines and TKILL, and that
a return is one more is the model's choice (log entry 17). -/
def State.trapReturn (s : State) (ep : Nat) : State :=
  let s1 := s.uncover ep
  (s1.onCore ep (fun c => { c with run := { c.run with
    exempt := true,
    dl := c.run.dl.map (fun d => { d with passed := d.passed || decide (d.expiry ≤ s1.now) }) } })).checkpoint ep

/-! ### Retirement -/

/-- Whether a frame matches a match control (R423); level-7 frames never take debug traps (R419). -/
def Frame.matches (f : Frame) (vdev : Nat) (m : Word) : Bool :=
  let n := m.toNat
  bitOf n 22 && decide (bitsOf n 16 6 = vdev) && decide (1 ≤ f.level) && decide (f.level ≤ 6) &&
  bitOf n (7 + f.level) && (!bitOf n 7 || decide (bitsOf n 0 6 = f.cls))

/-- The first of an already pending boundary trap and a new one (R418). -/
def merge (o : Option Word) (v : Word) : Option Word :=
  match o with
  | some w => some w
  | none => some v

/-- The own cycles that an instruction of fixed time n takes: twice that when it executes again (R210, R402). -/
def Core.time (c : Core) (n : Nat) : Nat := if c.again then 2 * n else n

/-- Retires the running instruction under a step control: the next PC, its cycles, the counters and a pending step trap
(R87, R210, R427). -/
def State.retireUnder (s : State) (stepc next : Word) (cost : Nat) : State :=
  let c := s.me
  let f := c.run
  let f' := { f with pc := next, lastPc := f.pc, exempt := false,
                     pendStep := if f.matches c.vdev stepc then merge f.pendStep f.pc else f.pendStep }
  let s1 := s.setCore s.cur { c with run := f', instret := c.instret + 1, stalled := none, alignAt := none,
                                     again := false, got := [] }
  (s1.spend s.cur (c.time cost)).count s.cur 2 1

/-- Retires the running instruction at another PC. -/
def State.retireTo (s : State) (next : Word) (cost : Nat) : State := s.retireUnder s.me.dbg.stepc next cost

/-- Retires at the following instruction. -/
def State.retire (s : State) (cost : Nat) : State := s.retireTo (s.frame.pc + 4) cost

end Sys2Proof.Machine
end

