-- ==== Sys2Proof/Machine/Publish.lean ====
section
/-! DEFINITION. The store log and publication (R137 to R144, R149, R150, R154, R160, R218): appending records, releases,
posts' stamps and their settlement, the compacted horizon, and starting an acquire. -/

namespace Sys2Proof.Machine

/-- Whether a packet is an access to a scratchpad or to MMIO by a core (R126, R203). -/
def Pkt.isAccess (p : Pkt) : Bool :=
  match p.body with
  | .spadLoad .. | .spadStore .. | .mmioLoad .. | .mmioStore .. => true
  | .ldr _ _ _ _ spad => spad
  | _ => false

/-- The order in which packets from different sources delivered in one cycle are taken: accesses to a scratchpad from the
cluster's cores before those from outside, each in ascending source (R126, R457); others in ascending SSEQ, then source
(R320). -/
def Pkt.before (dst : Nat) (a b : Pkt) : Bool :=
  if a.isAccess && b.isAccess then
    let out := fun (p : Pkt) => !(p.src / 8 == dst / 8)
    decide ((out a).toNat < (out b).toNat) || (out a == out b && decide (a.src < b.src))
  else decide (a.sseq < b.sseq) || (a.sseq == b.sseq && decide (a.src < b.src))

/-- Puts a packet among those delivered: behind earlier cycles and behind its source's own. -/
def insertPkt (dst : Nat) (p : Pkt) : List Pkt → List Pkt
  | [] => [p]
  | q :: l =>
    if q.arr == p.arr && p.before dst q && !((q :: l).any (fun r => r.src == p.src)) then p :: q :: l
    else q :: insertPkt dst p l

/-- Delivers a packet to an endpoint of this part, by its bits [15:0]. -/
def State.deliver (s : State) (ep : Nat) (p : Pkt) : State :=
  { s with inbox := tset s.inbox ep (insertPkt (s.epId ep) { p with arr := s.now } (tget s.inbox ep [])) }

/-- The record that 16 bytes of a log hold (R137): its home and set are kept beside them (R129). -/
def LogRec.ofBytes (r : LogRec) (bs : List Byte) : LogRec :=
  { r with data := wordAt bs 0, addr := natAt bs 8 6, mask := BitVec.ofNat 8 (natAt bs 14 1), csel := natAt bs 15 1 }

/-- The log with those of the wanted records that lie in the extension read back from it (R139, R160, R354): the first of
the extension lies at index `i`. -/
def State.readExt (s : State) (v ep : Nat) (want : LogRec → Bool) : Nat → List LogRec → List LogRec
  | _, [] => []
  | i, r :: l =>
    if r.spilled then
      let a := s.logBlock v ep + 16 * (i % 65536)
      (if want r then
        { r.ofBytes (s.readKeyed (s.descMkey ep v) a 16) with pois := r.pois || s.anyPoison a 16 }
      else r) :: State.readExt s v ep want (i + 1) l
    else r :: State.readExt s v ep want i l

/-- Streams records that have just been stamped to their homes on the publish class (R140). -/
def State.stream (s : State) (ep : Nat) (rs : List LogRec) : State :=
  rs.foldl (fun t r => t.send (t.pktFrom ep r.home 3 24 (.rcd r))) s

/-- Stamps the records of an owner with a seq and streams them, those of the extension from there (R160). -/
def State.stampOwner (s : State) (ep : Nat) (o : RecOwner) (seq : Nat) : State :=
  let log := s.readExt (s.core ep).vdev ep (fun r => r.owner == o) (s.core ep).pub.extAt (s.core ep).pub.log
  let mine := log.filter (fun r => r.owner == o)
  let s1 := s.onCore ep (fun c => { c with pub := { c.pub with
    log := log.map (fun r => if r.owner == o then { r with owner := .stamped seq } else r) } })
  s1.stream ep (mine.map (fun r => { r with owner := .stamped seq }))

/-- The seq that the next stamp takes (R140). -/
def Pub.nextSeq (p : Pub) : Nat := max p.lseq p.clk + 1

/-- R142: a release whose seq would pass this limit is not stamped. -/
def seqLimit : Nat := 2 ^ 48 - 2 ^ 32

/-- Whether a release now raises the sequence-exhaustion trap (R142, R432): it has a span and its seq is too great. -/
def Pub.exhausted (p : Pub) : Bool :=
  p.log.any (fun r => r.owner == .free) && decide (seqLimit < p.nextSeq)

/-- Hands the records not yet covered by a release or post to a new owner. -/
def Pub.claim (p : Pub) (o : RecOwner) : Pub :=
  { p with log := p.log.map (fun r => if r.owner == .free then { r with owner := o } else r) }

def PubAct.isRel : PubAct → Bool
  | .rel .. => true
  | .post .. => false

/-- A release (R140, R141): stamps and streams the open span. Behind a pending post it waits, though it has no records of
its own: those of a refused post are stamped with it (R218; log entry 46). -/
def State.release (s : State) (ep : Nat) : State :=
  let p := (s.core ep).pub
  let q := p.nextSeq
  let s0 := s.onCore ep (fun c => { c with pub := { c.pub with opened := false } })
  let new := p.log.any (fun r => r.owner == .free)
  if !p.acts.isEmpty then
    -- two releases with nothing between them are one
    (if !new && (p.acts.getLast?.elim false PubAct.isRel) then s0
     else s0.onCore ep (fun c => { c with pub := { c.pub.claim (.act p.nextAct) with
       acts := p.acts ++ [.rel p.nextAct none], nextAct := p.nextAct + 1 } }))
  else if new then
    (s0.onCore ep (fun c => { c with pub := { c.pub with lseq := q, clk := q } })).stampOwner ep .free q
  else s0

/-- The identifier of an act, and its seq once it has one. -/
def PubAct.id : PubAct → Nat
  | .rel i _ => i
  | .post i _ _ => i

def PubAct.seq? : PubAct → Option Nat
  | .rel _ q => q
  | .post _ q _ => some q

/-- Whether a record waits for one of these acts. -/
def Pub.waitFor (p : Pub) (l : List PubAct) : Bool := l.any (fun a => p.log.any (fun r => r.owner == .act a.id))

/-- The deferred releases that may have records to stamp take their seqs, in program order, before a post that must cover
them takes its own (R154, R218; log entry 46). -/
def Pub.fixRels (p : Pub) : List PubAct → List PubAct → Pub
  | done, [] => { p with acts := done }
  | done, .rel i none :: l =>
    if p.waitFor (done ++ [.rel i none]) then
      Pub.fixRels { p with clk := p.nextSeq } (done ++ [.rel i (some p.nextSeq)]) l
    else Pub.fixRels p (done ++ [.rel i none]) l
  | done, a :: l => Pub.fixRels p (done ++ [a]) l

/-- StampPost (R218): the OSEQ of a post, its place among the pending acts, and the state. -/
def State.stampPost (s : State) (ep : Nat) : Nat × Nat × State :=
  let p := (s.core ep).pub.fixRels [] (s.core ep).pub.acts
  let id := p.nextAct
  if p.log.any (fun r => r.owner == .free) then
    let q := p.nextSeq
    (q, id, s.onCore ep (fun c => { c with pub := { p.claim (.act id) with
      opened := false, clk := q, nextAct := id + 1, acts := p.acts ++ [.post id q none] } }))
  else
    let q := ((p.acts.filterMap PubAct.seq?).getLast?).getD p.lseq
    (q, id, s.onCore ep (fun c => { c with pub := { p with
      opened := false, nextAct := id + 1, acts := p.acts ++ [.post id q none] } }))

/-- Settles the acts at the front, in program order (R141, R218); one act for each unit of fuel. The records of a refused
post go to the next act, or, with none, to the next span. -/
def State.settleActs (s : State) (ep : Nat) : Nat → State
  | 0 => s
  | fuel + 1 =>
    let p := (s.core ep).pub
    let stamp := fun (i q : Nat) (rest : List PubAct) =>
      (s.onCore ep (fun c => { c with pub := { c.pub with
        acts := rest, lseq := max c.pub.lseq q, clk := max c.pub.clk q } })).stampOwner ep (.act i) q
    match p.acts with
    | [] => s
    | .post _ _ none :: _ => s
    | .rel i q :: rest =>
      -- an empty span stamps nothing (R140)
      State.settleActs (if p.waitFor [.rel i q] then stamp i (q.getD p.nextSeq) rest
        else s.onCore ep (fun c => { c with pub := { c.pub with acts := rest } })) ep fuel
    | .post i q (some true) :: rest => State.settleActs (stamp i q rest) ep fuel
    | .post i _ (some false) :: rest =>
      let o : RecOwner := match rest with
        | [] => .free
        | a :: _ => .act a.id
      let s1 := s.onCore ep (fun c => { c with pub := { c.pub with
        acts := rest, log := c.pub.log.map (fun r => if r.owner == .act i then { r with owner := o } else r) } })
      State.settleActs s1 ep fuel

/-- Sends the queries of an acquire (R149, R150). The core's own query is held at itself; every other leaves as a request. -/
def State.sendQueries (s : State) (ep : Nat) (a : Acq) : State :=
  let me := s.epId ep
  let s1 := s.onCore ep (fun c => { c with
    acqs := c.acqs.map (fun b => if b.id = a.id then { b with sent := true } else b),
    queries := c.queries ++ (a.waits.filter (fun w => w.1 == me)).map (fun w =>
      { src := me, id := a.id, target := w.2.getD c.pub.lseq, vdev := c.vdev, fkey := c.fkey }) })
  (a.waits.filter (fun w => !(w.1 == me))).foldl (fun t w => t.send (t.pktFrom ep w.1 0 8 (.query a.id w.2))) s1

/-- The acquires that waited for an earlier release send their queries once every earlier release is stamped (R141). -/
def State.queriesLeave (s : State) (ep : Nat) : State :=
  if (s.core ep).pub.acts.isEmpty then
    ((s.core ep).acqs.filter (fun a => !a.sent)).foldl (fun t a => t.sendQueries ep a) s
  else s

/-- A post's status is known (R218): it is settled once every earlier act is. -/
def State.settle (s : State) (ep id : Nat) (st : Bool) : State :=
  let s1 := s.onCore ep (fun c => { c with pub := { c.pub with
    acts := c.pub.acts.map (fun a => match a with
      | .post i q w => if i = id then .post i q (some st) else .post i q w
      | .rel i q => .rel i q) } })
  (s1.settleActs ep ((s1.core ep).pub.acts.length + 1)).queriesLeave ep

/-- Seqs that are stamped, or given to records whose post or release is not yet settled, and not yet acknowledged
(R144). -/
def Pub.outstanding (p : Pub) : List Nat :=
  p.log.filterMap (fun r => match r.owner with
    | .stamped q => some q
    | _ => none) ++
  (p.acts.filter (fun a => p.waitFor [a])).filterMap PubAct.seq? ++ p.engine

/-- Whether the compacted horizon CH reaches a target (R144): unbounded when nothing is outstanding. -/
def Pub.chMeets (p : Pub) (t : Nat) : Bool := p.outstanding.all (fun q => decide (t < q))

/-- CH as a number, 2^48 − 1 standing for unbounded. -/
def Pub.ch (p : Pub) : Nat := p.outstanding.foldl (fun m q => min m (q - 1)) (2 ^ 48 - 1)

/-- The head of the log, and that of its extension, moves past acknowledged records (R139). -/
def Pub.trim (p : Pub) : Pub :=
  { p with log := p.log.dropWhile (fun r => r.owner == .acked),
           extAt := (p.extAt + ((p.log.takeWhile (fun r => r.owner == .acked)).filter (fun r => r.spilled)).length) % 65536 }

/-- A record is acknowledged (R144). -/
def Pub.ack (p : Pub) (addr seq : Nat) : Pub :=
  match takeFirst (fun (e : LogRec × Nat) => e.1.addr == addr && e.1.owner == .stamped seq)
      (p.log.zip (List.range p.log.length)) with
  | some (e, _) => ({ p with log := setAt p.log e.2 { e.1 with owner := .acked } } : Pub).trim
  | none => p

/-- Records the region of the log holds (R139, R160). -/
def Pub.inRegion (p : Pub) : Nat := (p.log.filter (fun r => !r.spilled)).length

/-- Records the log extension holds. -/
def Pub.inExt (p : Pub) : Nat := (p.log.filter (fun r => r.spilled)).length

/-- Marks the oldest n records of the region as spilled (R160). -/
def spillOldest : List LogRec → Nat → List LogRec
  | [], _ => []
  | r :: l, n => match n with
    | 0 => r :: l
    | n + 1 => if r.spilled then r :: spillOldest l (n + 1) else { r with spilled := true } :: spillOldest l n

/-- The 16 bytes of a log record (R137). -/
def LogRec.bytes (r : LogRec) : List Byte :=
  leBytes 8 r.data.toNat ++ leBytes 6 r.addr ++ leBytes 1 r.mask.toNat ++ leBytes 1 r.csel

/-- Writes records at the tail of a log extension, the first at its index `i` (R139, R160, R354). -/
def State.writeExt (s : State) (v ep i : Nat) : List LogRec → State
  | [] => s
  | r :: l =>
    State.writeExt (s.writeKeyed (s.descMkey ep v) (s.logBlock v ep + 16 * (i % 65536)) r.bytes) v ep (i + 1) l

/-- The oldest n records of the region move to the extension (R160). -/
def State.spillLog (s : State) (ep n : Nat) : State :=
  let c := s.core ep
  (s.onCore ep (fun d => { d with pub := { d.pub with log := spillOldest d.pub.log n } })).writeExt c.vdev ep
    (c.pub.extAt + c.pub.inExt) ((c.pub.log.filter (fun r => !r.spilled)).take n)

/-- What a store that needs a new record meets (R160): room, a stall, or the log-exhaustion trap. -/
inductive LogRoom where
  | ok
  | spill
  | stall
  | exhausted
deriving DecidableEq, Repr

def Core.logRoom (c : Core) (x : Xlat) : LogRoom :=
  let p := c.pub
  let cap := 256 * c.carve.log
  let merges := p.opened && (match p.log.getLast? with
    | some r => r.addr == x.pa - x.pa % 8 && r.csel == x.csel && r.home == x.home
    | none => false)
  if merges then .ok
  else if p.inRegion < cap then .ok
  else if p.log.all (fun r => r.spilled || r.owner == .free || (match r.owner with
      | .act _ => true
      | _ => false)) then
    (if p.inExt + 64 + cap ≤ 65536 then .spill else .exhausted)
  else .stall

/-- Replaces bytes of a little-endian word under a byte mask. -/
def patchWord (old new : Nat) (mask : BitVec 8) : Nat :=
  (List.range 8).foldl (fun a i => a + (if mask.getLsbD i then bitsOf new (8 * i) 8 else bitsOf old (8 * i) 8) * 2 ^ (8 * i)) 0

/-- Patches bytes of the L1 line of an address filled from a home (R137, R150). A patch, by an own store or a replayed
note, is no use of the line for the replacement of R127: the model's choice (log entry 52). -/
def patchL1 (ls : List L1Line) (home addr : Nat) (mask : BitVec 8) (data : Nat) (pois : Bool) : List L1Line :=
  ls.map (fun l =>
    if l.home == home && l.line == addr / 512 && l.valid.getLsbD ((addr / 128) % 4) then
      { l with
        data := (List.range 8).foldl (fun d i =>
          if mask.getLsbD i then tput d ((addr - addr % 8) % 512 + i) (BitVec.ofNat 8 (bitsOf data (8 * i) 8)) 0 else d) l.data,
        pois := if pois then ((addr % 512) / 8) :: l.pois
                else if mask = BitVec.allOnes 8 then l.pois.filter (fun w => !(w == (addr % 512) / 8)) else l.pois }
    else l)

/-- A global store's log record (R137, R138): merged into the open record of its word, or appended as the new open
record, for which the oldest may spill (R160); the L1 line is patched if it is held. -/
def State.logStore (s : State) (ep : Nat) (x : Xlat) (n : Nat) (v : Word) : State :=
  let t := match (s.core ep).logRoom x with
    | .spill => s.spillLog ep 64
    | _ => s
  t.onCore ep (fun c =>
    let a := x.pa - x.pa % 8
    let m : BitVec 8 := BitVec.ofNat 8 ((2 ^ n - 1) * 2 ^ (x.pa % 8))
    let d := (v.toNat % 2 ^ (8 * n)) * 2 ^ (8 * (x.pa % 8))
    let log0 := c.pub.log
    let fresh : LogRec := { addr := a, mask := m, data := BitVec.ofNat 64 d, csel := x.csel, home := x.home, set := x.set,
                            owner := .free, spilled := false, pois := false }
    let log1 := match log0.getLast? with
      | some r =>
        if c.pub.opened ∧ r.addr = a ∧ r.csel = x.csel ∧ r.home = x.home then
          log0.dropLast ++ [{ r with mask := r.mask ||| m, data := BitVec.ofNat 64 (patchWord r.data.toNat d m) }]
        else log0 ++ [fresh]
      | none => [fresh]
    let added := log1.length - log0.length
    { c with pub := { c.pub with log := log1, opened := true },
             ck := c.ck.map (fun (k : Ckpt) => { k with logNew := k.logNew + added }),
             l1 := patchL1 c.l1 x.home x.pa m d false })

/-! ### Which write is newer (R143, R152) -/

/-- Rank of an endpoint among writers of one seq: the host lowest (R143). -/
def epRank (e : Nat) : Nat := if e = Config.hostEp then 0 else e + 1

/-- Whether a write with a stamp wins a byte held with another; at an equal stamp the later record index wins. -/
def stampWins (new old : BStamp) : Bool :=
  decide (old.1 < new.1) || (old.1 == new.1 && decide (epRank old.2 ≤ epRank new.2))

/-- The part of a buffered note that a write of greater stamp to the same word leaves of it (R152). -/
def Note.beneath (n : Note) (home addr : Nat) (mask : BitVec 8) (st : BStamp) : Note :=
  if n.home == home && n.addr / 8 == addr / 8 && !stampWins (n.seq, n.writer) st then
    { n with mask := n.mask &&& ~~~mask }
  else n

/-- Buffered notes after the core has taken a write of a word into its view: a byte that the write supersedes is not
patched by an older note later (R150, R152; log entry 47). -/
def trimNotes (l : List Note) (home addr : Nat) (mask : BitVec 8) (st : BStamp) : List Note :=
  (l.map (fun n => n.beneath home addr mask st)).filter (fun n => !(n.mask == 0))

/-! ### Acquires (R149, R150) -/

/-- Starts an acquire of writers with targets (none: the writer's LSEQ when the query reaches it). Its queries leave once
every earlier release of the core has been stamped (R141). -/
def State.startAcquire (s : State) (ep id : Nat) (ws : List (Nat × Option Nat)) (hz : Option (Nat × Nat)) : State :=
  (s.onCore ep (fun c => { c with
    acqs := c.acqs ++ [{ id := id, got := [], waits := ws, horizon := hz, sent := false }] })).queriesLeave ep

/-- Identifier of the acquire of a frame's start (R154). -/
def startAcqId (fid : Nat) : Nat := 2 ^ 40 + fid

end Sys2Proof.Machine
end

