-- ==== Sys2Proof/Machine/Operands.lean ====
section
/-! DEFINITION. What comes before every instruction's own effect, in the order of R417: the task's start acquire, the
checker, breakpoints, the FMT prefix, EMPTY, waits on empty registers, dead reads and poison. -/

namespace Sys2Proof.Machine

/-- The instruction may go on in a state, or its turn is over with one. -/
inductive Start where
  | go (s : State)
  | done (s : State)
deriving DecidableEq

/-- The word of an instruction, 0 where it has none. -/
def wordOf (i : Instr) : Word :=
  match encode i with
  | some w => w.setWidth 64
  | none => 0

/-- A V-format instruction with sz 0b11, which an FMT prefix must govern (R173). -/
def isPrefixed : Instr → Bool
  | .vspl _ _ sz | .vsplq _ sz | .voutq _ _ sz | .vlane _ _ _ sz | .vlds _ _ _ sz | .vadd _ _ _ sz | .vsub _ _ _ sz
  | .vmul _ _ _ sz | .vfma _ _ _ sz | .vmax _ _ _ sz | .vmin _ _ _ sz | .vabs _ _ sz | .vneg _ _ sz
  | .vcmpeq _ _ _ sz _ | .vcmplt _ _ _ sz _ | .vcmple _ _ _ sz _ | .vsum _ _ sz _ | .vrmax _ _ sz _
  | .vrmin _ _ sz _ | .vperm _ _ _ sz | .vrot _ _ _ sz | .vexp2 _ _ sz | .vrcp _ _ sz | .vrsq _ _ sz
  | .vlog2 _ _ sz => sz == 3
  | .vcvt .. | .vcvti .. => true
  | _ => false

/-- The register bank of xi (R72). -/
def bankOf (r : XReg) : Nat := r.toNat / 8

/-- Registers of a bank. -/
def bankRegs (b : Nat) : List Nat := (List.range 32).filter (fun i => i / 8 == b && !(i == 0))

/-- Whether a bank is gated (R72): it sleeps and all its registers are dead. When a bank that may be gated becomes so is
the model's choice: as it enters retention (log entry 45). -/
def Core.gated (c : Core) (b : Nat) : Bool :=
  c.bankRet.getLsbD b && !(bankRegs b).any (fun i => c.run.live.getLsbD i)

/-- The banks that an instruction accesses: of the registers it reads, but for a gated bank, whose read does not wake it,
and of the register it writes (R72). -/
def Core.banks (c : Core) (srcs : List XReg) (dst : XReg) : List Nat :=
  (srcs.filter (fun r => !(r == 0) && !c.gated (bankOf r))).map bankOf ++ (if dst == 0 then [] else [bankOf dst])

/-- Whether an instruction must wait for a bank: one in retention, or one that is still waking (R72). -/
def Core.bankWaits (c : Core) (srcs : List XReg) (dst : XReg) (now : Nat) : Bool :=
  (c.banks srcs dst).any (fun b => c.bankRet.getLsbD b || decide (now < (c.bankAt.toArray.getD b 0)))

/-- Begins to wake the banks of an instruction that are in retention: 3 cycles (R72). -/
def State.rouse (s : State) (srcs : List XReg) (dst : XReg) : State :=
  let c := s.me
  let bs := (c.banks srcs dst).filter (fun b => c.bankRet.getLsbD b)
  s.setCore s.cur { c with
    bankRet := bs.foldl (fun (m : BitVec 4) b => m &&& ~~~(BitVec.ofNat 4 (2 ^ b))) c.bankRet,
    bankAt := Vector.ofFn (fun (i : Fin 4) => if bs.contains i.val then s.after s.cur 3 else c.bankAt[i]) }

/-- Marks the banks that an instruction accesses as used now (R72). Of the other accesses to a register, the moves of
frames and the fills by replies, none counts here (log entry 45). -/
def State.wake (s : State) (srcs : List XReg) (dst : XReg) : State :=
  let c := s.me
  let bs := c.banks srcs dst
  s.setCore s.cur { c with bankAt := Vector.ofFn (fun (i : Fin 4) => if bs.contains i.val then s.now else c.bankAt[i]) }

/-- An instruction's registers are readable: it goes on once its banks are awake, and else stalls with its boundary open
(R23, R36, R72). -/
def State.bankGate (s : State) (srcs : List XReg) (dst : XReg) : Start :=
  if s.me.bankWaits srcs dst s.now then .done ((s.rouse srcs dst).stall .bank) else .go (s.wake srcs dst)

/-- Whether a breakpoint matches the fetch at the running frame's PC (R425). -/
def Core.breaks (c : Core) : Bool :=
  !c.run.exempt &&
  (List.range 4).any (fun i =>
    c.run.matches c.vdev (c.dbg.dbm.getD i 0) &&
    decide (bitsOf c.run.pc.toNat 2 46 = bitsOf (c.dbg.dba.getD i 0).toNat 2 46))

/-- The checker (R402): a first mismatch makes the instruction execute again with a class-0 record, a second one is a
machine check. -/
def State.checker (s : State) : Start :=
  let c := s.me
  if c.upset = 0 then .go s
  else if c.again then
    .done ((s.onMe (fun d => { d with upset := d.upset - 1, again := false })).machineCheck s.cur 0 0x02 0 0 c.run.pc.toNat)
  else
    .done (((s.onMe (fun d => { d with upset := d.upset - 1, again := true })).report
      { cls := 0, src := 0, code := 0x01, unit := s.epId s.cur, addr := 0, owner := c.owner, hseq := c.run.hseq,
        pc := c.run.pc.toNat, detail := 0 }).spend s.cur 4)

/-- The start acquire of R154: begun before the first instruction, which waits for it. -/
def State.startGate (s : State) : Start :=
  let f := s.frame
  match f.acq with
  | none => .go s
  | some (o, q) =>
    if o = Config.hostEp then .go (s.onFrame (fun g => { g with acq := none }))
    else if s.me.acqs.any (fun a => a.id == startAcqId f.fid) then .done (s.stall .acquire)
    else .done ((s.startAcquire s.cur (startAcqId f.fid) [(o, some q)] none).stall .acquire)

/-- Consumption of a poisoned register (R407, R437): class 3; the mark of a refused reply shows its code. -/
def State.consumeReg (s : State) (r : XReg) : State :=
  let v := (s.frame.x r).toNat
  s.machineCheck s.cur 2 0x40 0
    (if decide (2 ^ 64 - 256 ≤ v) && decide (v < 2 ^ 64 - 256 + 5) then 0x100 + (v - (2 ^ 64 - 256)) else 0)
    s.frame.pc.toNat

/-- Checks 5 and 6 of R417 and the waits of R68 and R201 on an instruction's registers. `es` are the sources whose e
bit is 1, in order; `srcs` all sources in field order. -/
def State.regGate (s : State) (srcs es : List XReg) (dst : XReg) : Start :=
  let f := s.frame
  match es.find? (fun r => !f.isFull r) with
  | some r => .done (s.trap 3 (r.setWidth 64))
  | none =>
    if (dst :: srcs).any (fun r => !f.isFull r) then .done (s.stall .reg)
    else if (dst :: srcs).any (fun r => f.isBusy r) then .done (s.stall .loads)
    else
      match srcs.find? (fun r => !f.isLive r) with
      | some r =>
        if f.drt then .done (s.trap 4 (r.setWidth 64))
        else
          match srcs.find? (fun r => f.isLive r && f.isPois r) with
          | some r => .done (s.consumeReg r)
          | none => s.bankGate srcs dst
      | none =>
        match srcs.find? (fun r => f.isPois r) with
        | some r => .done (s.consumeReg r)
        | none => s.bankGate srcs dst

/-- The debug breakpoint and the FMT prefix (R173, R417 items 1 and 4). -/
def State.fetchGate (s : State) (i : Instr) : Start :=
  if s.me.breaks then .done (s.trap 21 s.frame.pc)
  else if s.frame.pp != isPrefixed i then .done (s.trap 2 (wordOf i))
  else .go s

/-- Everything before an instruction's own checks (R417 items 1 to 6). -/
def State.begin (s : State) (i : Instr) (srcs es : List XReg) (dst : XReg) : Start :=
  match s.startGate with
  | .done t => .done t
  | .go s1 =>
    match s1.checker with
    | .done t => .done t
    | .go s2 =>
      match s2.fetchGate i with
      | .done t => .done t
      | .go s3 => s3.regGate srcs es dst

/-- The outcome every meaning answers with: a next state. -/
abbrev Out := Host.Outcome State Fault Refusal

/-- Sets TSTAT.DR when an instruction that read a dead register has retired (R70): a trap or a stall leaves it. A
checkpoint taken as the instruction retired holds it too (R213, R369). -/
def State.afterDead (before after : State) : State :=
  if after.me.instret = before.me.instret then after
  else after.onMe (fun c => { c with
    run := { c.run with dr := true },
    ck := c.ck.map (fun (k : Ckpt) => if k.frame = c.run then { k with frame := { k.frame with dr := true } } else k) })

/-- Runs an instruction's own part after everything before it. -/
def State.run (s : State) (i : Instr) (srcs es : List XReg) (dst : XReg) (k : State → State) : Out :=
  match s.begin i srcs es dst with
  | .done t => .next t
  | .go t => .next (if srcs.any (fun r => !t.frame.isLive r) then t.afterDead (k t) else k t)

/-- The sources of an E-format instruction whose e bit is 1 (R68). -/
def eSrc (r : XReg) (e : BitVec 1) : List XReg := if e = 1 then [r] else []

/-- Reads xi of the running frame. -/
def State.x (s : State) (r : XReg) : Word := s.frame.x r

/-- Writes xi of the running frame. -/
def State.setX (s : State) (r : XReg) (v : Word) : State := s.onFrame (fun f => f.setX r v)

end Sys2Proof.Machine
end

