-- ==== Sys2Proof/Machine/Alu.lean ====
section
/-! DEFINITION. Upper immediates, OP-IMM, OP, their .W forms and M (R191, R193, R194, R196, R210). -/

namespace Sys2Proof.Machine

/-- A 12-bit immediate, sign-extended. -/
def immI (imm : BitVec 12) : Word := imm.signExtend 64

/-- A 20-bit upper immediate, shifted and sign-extended (R191). -/
def immU (imm : BitVec 20) : Word := (imm ++ (0 : BitVec 12)).signExtend 64

/-- The low word. -/
def lo32 (a : Word) : BitVec 32 := a.setWidth 32

/-- The result of a .W form: sign-extended from bit 31. -/
def sext32 (a : BitVec 32) : Word := a.signExtend 64

def boolWord (b : Bool) : Word := if b then 1 else 0

/-- Signed quotient of R196: truncated toward zero; -1 for a zero divisor; the dividend where it would overflow. -/
def divS {w : Nat} (a b : BitVec w) : BitVec w := if b = 0 then BitVec.allOnes w else a.sdiv b

/-- Unsigned quotient of R196: all ones for a zero divisor. -/
def divU {w : Nat} (a b : BitVec w) : BitVec w := if b = 0 then BitVec.allOnes w else a / b

/-- Signed remainder of R196, with the sign of the dividend: the dividend for a zero divisor. -/
def remS {w : Nat} (a b : BitVec w) : BitVec w := if b = 0 then a else a.srem b

/-- Unsigned remainder of R196: the dividend for a zero divisor. -/
def remU {w : Nat} (a b : BitVec w) : BitVec w := if b = 0 then a else a % b

/-- High 64 bits of a product of two integers. -/
def mulHigh (a b : Int) : Word := BitVec.ofInt 64 (a * b / 2 ^ 64)

/-- An instruction that writes rd from no register. -/
def aluU (i : Instr) (rd : XReg) (f : State → Word) (s : State) : Out :=
  s.run i [] [] rd (fun t => (t.setX rd (f t)).retire 1)

/-- An instruction that writes rd from rs1. -/
def aluI (i : Instr) (rd rs1 : XReg) (f : Word → Word) (s : State) : Out :=
  s.run i [rs1] [] rd (fun t => (t.setX rd (f (t.x rs1))).retire 1)

/-- An instruction that writes rd from rs1 and rs2 in a fixed time. -/
def aluR (i : Instr) (rd rs1 rs2 : XReg) (cost : Nat) (f : Word → Word → Word) (s : State) : Out :=
  s.run i [rs1, rs2] [] rd (fun t => (t.setX rd (f (t.x rs1) (t.x rs2))).retire cost)

/-- LUI (R191). -/
def execLui (rd : XReg) (imm : BitVec 20) (s : State) : Out := aluU (.lui rd imm) rd (fun _ => immU imm) s

/-- AUIPC (R191). -/
def execAuipc (rd : XReg) (imm : BitVec 20) (s : State) : Out :=
  aluU (.auipc rd imm) rd (fun t => t.frame.pc + immU imm) s

/-- ADDI (R193): sum with the immediate. -/
def execAddi (rd rs1 : XReg) (imm : BitVec 12) (s : State) : Out :=
  aluI (.addi rd rs1 imm) rd rs1 (fun a => a + immI imm) s

/-- SLTI (R193): signed comparison with the immediate. -/
def execSlti (rd rs1 : XReg) (imm : BitVec 12) (s : State) : Out :=
  aluI (.slti rd rs1 imm) rd rs1 (fun a => boolWord (a.slt (immI imm))) s

/-- SLTIU (R193): unsigned comparison with the immediate. -/
def execSltiu (rd rs1 : XReg) (imm : BitVec 12) (s : State) : Out :=
  aluI (.sltiu rd rs1 imm) rd rs1 (fun a => boolWord (a.ult (immI imm))) s

/-- XORI (R193): exclusive or with the immediate. -/
def execXori (rd rs1 : XReg) (imm : BitVec 12) (s : State) : Out :=
  aluI (.xori rd rs1 imm) rd rs1 (fun a => a ^^^ immI imm) s

/-- ORI (R193): or with the immediate. -/
def execOri (rd rs1 : XReg) (imm : BitVec 12) (s : State) : Out :=
  aluI (.ori rd rs1 imm) rd rs1 (fun a => a ||| immI imm) s

/-- ANDI (R193): and with the immediate. -/
def execAndi (rd rs1 : XReg) (imm : BitVec 12) (s : State) : Out :=
  aluI (.andi rd rs1 imm) rd rs1 (fun a => a &&& immI imm) s

/-- ADDIW (R193): word sum with the immediate. -/
def execAddiw (rd rs1 : XReg) (imm : BitVec 12) (s : State) : Out :=
  aluI (.addiw rd rs1 imm) rd rs1 (fun a => sext32 (lo32 (a + immI imm))) s

/-- SLLI (R193). -/
def execSlli (rd rs1 : XReg) (sh : BitVec 6) (s : State) : Out :=
  aluI (.slli rd rs1 sh) rd rs1 (fun a => a <<< sh.toNat) s

/-- SRLI (R193). -/
def execSrli (rd rs1 : XReg) (sh : BitVec 6) (s : State) : Out :=
  aluI (.srli rd rs1 sh) rd rs1 (fun a => a >>> sh.toNat) s

/-- SRAI (R193). -/
def execSrai (rd rs1 : XReg) (sh : BitVec 6) (s : State) : Out :=
  aluI (.srai rd rs1 sh) rd rs1 (fun a => a.sshiftRight sh.toNat) s

/-- SLLIW (R193). -/
def execSlliw (rd rs1 : XReg) (sh : BitVec 5) (s : State) : Out :=
  aluI (.slliw rd rs1 sh) rd rs1 (fun a => sext32 (lo32 a <<< sh.toNat)) s

/-- SRLIW (R193). -/
def execSrliw (rd rs1 : XReg) (sh : BitVec 5) (s : State) : Out :=
  aluI (.srliw rd rs1 sh) rd rs1 (fun a => sext32 (lo32 a >>> sh.toNat)) s

/-- SRAIW (R193). -/
def execSraiw (rd rs1 : XReg) (sh : BitVec 5) (s : State) : Out :=
  aluI (.sraiw rd rs1 sh) rd rs1 (fun a => sext32 ((lo32 a).sshiftRight sh.toNat)) s

/-- ADD (R194). -/
def execAdd (rd rs1 rs2 : XReg) (s : State) : Out :=
  aluR (.add rd rs1 rs2) rd rs1 rs2 1 (fun a b => a + b) s

/-- SUB (R194). -/
def execSub (rd rs1 rs2 : XReg) (s : State) : Out :=
  aluR (.sub rd rs1 rs2) rd rs1 rs2 1 (fun a b => a - b) s

/-- SLL (R194). -/
def execSll (rd rs1 rs2 : XReg) (s : State) : Out :=
  aluR (.sll rd rs1 rs2) rd rs1 rs2 1 (fun a b => a <<< (b.toNat % 64)) s

/-- SLT (R194). -/
def execSlt (rd rs1 rs2 : XReg) (s : State) : Out :=
  aluR (.slt rd rs1 rs2) rd rs1 rs2 1 (fun a b => boolWord (a.slt b)) s

/-- SLTU (R194). -/
def execSltu (rd rs1 rs2 : XReg) (s : State) : Out :=
  aluR (.sltu rd rs1 rs2) rd rs1 rs2 1 (fun a b => boolWord (a.ult b)) s

/-- XOR (R194). -/
def execXor (rd rs1 rs2 : XReg) (s : State) : Out :=
  aluR (.xor rd rs1 rs2) rd rs1 rs2 1 (fun a b => a ^^^ b) s

/-- SRL (R194). -/
def execSrl (rd rs1 rs2 : XReg) (s : State) : Out :=
  aluR (.srl rd rs1 rs2) rd rs1 rs2 1 (fun a b => a >>> (b.toNat % 64)) s

/-- SRA (R194). -/
def execSra (rd rs1 rs2 : XReg) (s : State) : Out :=
  aluR (.sra rd rs1 rs2) rd rs1 rs2 1 (fun a b => a.sshiftRight (b.toNat % 64)) s

/-- OR (R194). -/
def execOr (rd rs1 rs2 : XReg) (s : State) : Out :=
  aluR (.or rd rs1 rs2) rd rs1 rs2 1 (fun a b => a ||| b) s

/-- AND (R194). -/
def execAnd (rd rs1 rs2 : XReg) (s : State) : Out :=
  aluR (.and rd rs1 rs2) rd rs1 rs2 1 (fun a b => a &&& b) s

/-- MUL (R194). -/
def execMul (rd rs1 rs2 : XReg) (s : State) : Out :=
  aluR (.mul rd rs1 rs2) rd rs1 rs2 1 (fun a b => a * b) s

/-- MULH (R194). -/
def execMulh (rd rs1 rs2 : XReg) (s : State) : Out :=
  aluR (.mulh rd rs1 rs2) rd rs1 rs2 1 (fun a b => mulHigh a.toInt b.toInt) s

/-- MULHSU (R194). -/
def execMulhsu (rd rs1 rs2 : XReg) (s : State) : Out :=
  aluR (.mulhsu rd rs1 rs2) rd rs1 rs2 1 (fun a b => mulHigh a.toInt b.toNat) s

/-- MULHU (R194). -/
def execMulhu (rd rs1 rs2 : XReg) (s : State) : Out :=
  aluR (.mulhu rd rs1 rs2) rd rs1 rs2 1 (fun a b => mulHigh a.toNat b.toNat) s

/-- DIV (R196). -/
def execDiv (rd rs1 rs2 : XReg) (s : State) : Out :=
  aluR (.div rd rs1 rs2) rd rs1 rs2 66 (fun a b => divS a b) s

/-- DIVU (R196). -/
def execDivu (rd rs1 rs2 : XReg) (s : State) : Out :=
  aluR (.divu rd rs1 rs2) rd rs1 rs2 66 (fun a b => divU a b) s

/-- REM (R196). -/
def execRem (rd rs1 rs2 : XReg) (s : State) : Out :=
  aluR (.rem rd rs1 rs2) rd rs1 rs2 66 (fun a b => remS a b) s

/-- REMU (R196). -/
def execRemu (rd rs1 rs2 : XReg) (s : State) : Out :=
  aluR (.remu rd rs1 rs2) rd rs1 rs2 66 (fun a b => remU a b) s

/-- ADDW (R194). -/
def execAddw (rd rs1 rs2 : XReg) (s : State) : Out :=
  aluR (.addw rd rs1 rs2) rd rs1 rs2 1 (fun a b => sext32 (lo32 a + lo32 b)) s

/-- SUBW (R194). -/
def execSubw (rd rs1 rs2 : XReg) (s : State) : Out :=
  aluR (.subw rd rs1 rs2) rd rs1 rs2 1 (fun a b => sext32 (lo32 a - lo32 b)) s

/-- SLLW (R194). -/
def execSllw (rd rs1 rs2 : XReg) (s : State) : Out :=
  aluR (.sllw rd rs1 rs2) rd rs1 rs2 1 (fun a b => sext32 (lo32 a <<< (b.toNat % 32))) s

/-- SRLW (R194). -/
def execSrlw (rd rs1 rs2 : XReg) (s : State) : Out :=
  aluR (.srlw rd rs1 rs2) rd rs1 rs2 1 (fun a b => sext32 (lo32 a >>> (b.toNat % 32))) s

/-- SRAW (R194). -/
def execSraw (rd rs1 rs2 : XReg) (s : State) : Out :=
  aluR (.sraw rd rs1 rs2) rd rs1 rs2 1 (fun a b => sext32 ((lo32 a).sshiftRight (b.toNat % 32))) s

/-- MULW (R194). -/
def execMulw (rd rs1 rs2 : XReg) (s : State) : Out :=
  aluR (.mulw rd rs1 rs2) rd rs1 rs2 1 (fun a b => sext32 (lo32 a * lo32 b)) s

/-- DIVW (R196). -/
def execDivw (rd rs1 rs2 : XReg) (s : State) : Out :=
  aluR (.divw rd rs1 rs2) rd rs1 rs2 34 (fun a b => sext32 (divS (lo32 a) (lo32 b))) s

/-- DIVUW (R196). -/
def execDivuw (rd rs1 rs2 : XReg) (s : State) : Out :=
  aluR (.divuw rd rs1 rs2) rd rs1 rs2 34 (fun a b => sext32 (divU (lo32 a) (lo32 b))) s

/-- REMW (R196). -/
def execRemw (rd rs1 rs2 : XReg) (s : State) : Out :=
  aluR (.remw rd rs1 rs2) rd rs1 rs2 34 (fun a b => sext32 (remS (lo32 a) (lo32 b))) s

/-- REMUW (R196). -/
def execRemuw (rd rs1 rs2 : XReg) (s : State) : Out :=
  aluR (.remuw rd rs1 rs2) rd rs1 rs2 34 (fun a b => sext32 (remU (lo32 a) (lo32 b))) s

end Sys2Proof.Machine
end

