-- ==== Sys2Proof/Machine/Mmio.lean ====
section
/-! DEFINITION. The MMIO registers of the part (R117, R148, R314, R325, R333, R334, R353, R357, R374, R381, R382, R409,
R410, R462): which addresses are assigned, who may access them, and what a read or write does. -/

namespace Sys2Proof.Machine

/-- The writable bits of a plain doubleword, by its address, where one is assigned: the tables that only the part
reads. Access needs S = 1 (R314, R333, R353). -/
def plainMask (a : Nat) : Option Nat :=
  if 0x021000000000 ≤ a ∧ a < 0x021000008000 then some (2 ^ 25 - 1)
  else if 0x021000010000 ≤ a ∧ a < 0x021000010200 then some (2 ^ 64 - 2 ^ 21)
  else if 0x022000000000 ≤ a ∧ a < 0x022000080000 then some (2 ^ 63 + 0xFF * 2 ^ 32 + 2047)
  else if 0x022100000000 ≤ a ∧ a < 0x022100000200 then some (2 ^ 33 - 1)
  else if 0x022200000000 ≤ a ∧ a < 0x022200001000 then
    (if (a / 8) % 8 = 7 then some (0xFFFFFF * 2 ^ 32 + 2 ^ 26 - 1) else some (2 ^ 64 - 1))
  else if 0x022300000000 ≤ a ∧ a < 0x022300000400 then some (2 ^ 64 - 1)
  else if 0x022400000000 ≤ a ∧ a < 0x022400001000 then some (2 ^ 40 + 0x3F * 2 ^ 32 + 2 ^ 22 - 1)
  else none

def inNm (a : Nat) : Bool := decide (0x024000000000 ≤ a) && decide (a < 0x024000001000)
def inErr (a : Nat) : Bool := decide (errBase ≤ a) && decide (a < errBase + 16)
def inClusterState (a : Nat) : Bool := decide (0x025100000000 ≤ a) && decide (a < 0x025100004000)
def inDirPort (a : Nat) : Bool :=
  decide (0x030000000000 ≤ a) && decide (a < 0x030010000000) && validEp ((a - 0x030000000000) / 4096)
def inSliceCnt (a : Nat) : Bool :=
  decide (0x030100000000 ≤ a) && decide (a < 0x030110000000) && validEp ((a - 0x030100000000) / 4096)
def inSluiceCnt (a : Nat) : Bool := decide (0x030200000000 ≤ a) && decide (a < 0x030200018000)

/-- Whether some chapter assigns an MMIO address to a register or a page (R117). -/
def mmioAssigned (a : Nat) : Bool :=
  (plainMask a).isSome || inNm a || inErr a || inClusterState a || inDirPort a || inSliceCnt a || inSluiceCnt a

/-- Whether an access needs S = 1 and raises the access fault without it. -/
def mmioSupervisor (a : Nat) : Bool := !(inSliceCnt a || inSluiceCnt a)

/-- The cluster that a doubleword of the cluster-state page shows (R409). -/
def stateCluster (a : Nat) : Nat :=
  let i := (a - 0x025100000000) / 8
  clusterOf (epAt (i % 64) (i / 64) 0)

/-- The doubleword at an 8-byte aligned MMIO address. -/
def State.mmioDword (s : State) (sup : Bool) (a : Nat) : Nat :=
  if inNm a then
    let o := a - 0x024000000000
    if o = 8 then s.nm.st + 4 * s.nm.gap + 256 * s.nm.result
    else if 0x40 ≤ o ∧ o < 0x240 then s.mmioWord a
    else 0
  else if inClusterState a then
    let k := stateCluster a
    let c := s.cluster k
    c.cstate + 4 * c.band + 4096 * (s.kiln (2 * k)).suspect.toNat + 8192 * (s.kiln (2 * k + 1)).suspect.toNat
  else if inDirPort a then 0
  else if inSliceCnt a then
    let o := a % 4096
    if o < 64 then (tget s.lcnt (8 * ((a - 0x030100000000) / 4096) + o / 8) 0).toNat else 0
  else if inSluiceCnt a then
    let u := tget s.sluices ((a - 0x030200000000) / 4096) Sluice.reset
    let o := a % 4096
    if !sup then 0
    else if o < 32 then tget u.evsel (o / 8) 0
    else if o < 64 then tget u.evcnt (o / 8 - 4) 0
    else 0
  else s.mmioWord a

/-- Reads n bytes, 4 or 8, of an assigned MMIO address. -/
def State.mmioRead (s : State) (sup : Bool) (a n : Nat) : Nat :=
  let d := s.mmioDword sup (a - a % 8)
  if n = 4 then bitsOf d (8 * (a % 8)) 32 else d

/-- Sends the latched note, or an invalidation of the latched line, to an endpoint (R148): the directory port's one
register. It is protected as the packet that caused it (R323). An empty latch ignores it. -/
def State.dirPort (s : State) (slice target : Nat) (inv : Bool) : State :=
  match s.latches.find? (fun l => l.slice == slice) with
  | none => s
  | some l =>
    let b : Body :=
      if inv || !(l.kind == 1) then .inval l.line l.lock
      else .note l.writer l.seq l.addr l.mask l.data l.pois l.lock
    let s1 := { s with ackw := s.ackw.map (fun (w : Ackw) => if w.lock == l.lock then { w with left := w.left + 1 } else w) }
    s1.send { s1.pktFrom slice target 3 40 b with fkey := l.fkey }

/-- A write of ERRCTL (R410): BASE, SIZE and EN; writing EN 1 sets HEAD, TAIL and LOST to 0. A write of the upper half
alone does not write EN. -/
def State.errctl (s : State) (v : Nat) (low : Bool) : State :=
  let kept := (bitsOf v 12 36) * 4096 + (bitsOf v 0 5)
  let s1 := s.setMmio errBase kept
  if low && bitOf v 0 then s1.setMmio (errBase + 8) 0 else s1

/-- A write of NMCMD (R374): recorded for the controller unless a command is in progress; an OP that is no command gives
RESULT 2. -/
def State.nmcmd (s : State) (op : Nat) : State :=
  match s.nm.cmd with
  | some _ => s
  | none =>
    if 1 ≤ op ∧ op ≤ 5 then { s with nm := { s.nm with cmd := some op } }
    else { s with nm := { s.nm with result := 2 } }

/-- Writes n bytes, 4 or 8, at an assigned MMIO address by a task or by the physical function. -/
def State.mmioWrite (s : State) (sup : Bool) (a n : Nat) (v : Nat) : State :=
  let a8 := a - a % 8
  let old := s.mmioDword true a8
  let new := if n = 4 then setField old (8 * (a % 8)) 32 v else v % 2 ^ 64
  match plainMask a8 with
  | some m => s.setMmio a8 (new &&& m)
  | none =>
    if inNm a then
      let o := a8 - 0x024000000000
      if o = 0 then (if a % 8 = 0 then s.nmcmd (v % 256) else s)
      else if 0x40 ≤ o ∧ o < 0x240 then s.setMmio a8 new
      else s
    else if inErr a then
      if a8 = errBase then s.errctl new (a % 8 == 0)
      else s.setMmio (errBase + 8) (setField (s.mmioWord (errBase + 8)) 0 22 new)
    else if inClusterState a then
      let k := stateCluster a8
      let w := if n = 4 then (if a % 8 = 0 then v else 0) else v
      let s1 := if bitOf w 12 then s.onKiln (2 * k) (fun q => { q with suspect := false }) else s
      if bitOf w 13 then s1.onKiln (2 * k + 1) (fun q => { q with suspect := false }) else s1
    else if inDirPort a then
      let w := if n = 4 then (if a % 8 = 0 then v else v * 2 ^ 32) else v
      if a % 4096 < 8 then s.dirPort ((a - 0x030000000000) / 4096) (bitsOf w 0 32) (bitOf w 32) else s
    else if inSliceCnt a then
      let o := a8 % 4096
      let key := 8 * ((a - 0x030100000000) / 4096) + o / 8
      if o < 32 then { s with lcnt := tput s.lcnt key (BitVec.ofNat 64 (new % 2 ^ 16)) 0 }
      else if o < 64 then { s with lcnt := tput s.lcnt key (BitVec.ofNat 64 (new % 2 ^ 48)) 0 }
      else s
    else if inSluiceCnt a then
      let p := (a - 0x030200000000) / 4096
      let u := tget s.sluices p Sluice.reset
      let o := a8 % 4096
      if !sup then s
      else if o < 32 then { s with sluices := tset s.sluices p { u with evsel := tput u.evsel (o / 8) (new % 2 ^ 16) 0 } }
      else if o < 64 then
        { s with sluices := tset s.sluices p { u with evcnt := tput u.evcnt (o / 8 - 4) (new % 2 ^ 48) 0 } }
      else s
    else s

/-- Whether the physical function may access an MMIO address (R353, R365): the route table, the reduction windows, the
placement store and windows, the host homing table and the error log's registers are for tasks with S = 1 alone (R314, R325,
R333, R334, R410, R462). -/
def pfAllowed (a : Nat) : Bool :=
  mmioAssigned a && !inErr a && !(decide (0x021000000000 ≤ a) && decide (a < 0x022200000000)) &&
  !(decide (0x022400000000 ≤ a) && decide (a < 0x022400001000))

/-- Whether an MMIO access of n bytes by a task may be made: assigned, 4 or 8 bytes, and S where it is needed (R199). -/
def mmioAllowed (sup : Bool) (a n : Nat) : Bool :=
  mmioAssigned a && (n == 4 || n == 8) && (sup || !mmioSupervisor a)

end Sys2Proof.Machine
end

