-- ==== Sys2Proof/Machine/Access.lean ====
section
/-! DEFINITION. The steps shared by every memory access of a core (R119, R134, R199 to R203, R212, R426): range locks,
the queue window, L1 reads and fill requests, records and tables, watchpoints, scratchpad writes. -/

namespace Sys2Proof.Machine

/-! ### Range locks (R133, R134) -/

/-- Whether a lock covers any byte of an access in its space. -/
def RangeLock.touches (l : RangeLock) (sp : LockSpace) (core lo n : Nat) : Bool :=
  l.space == sp && decide (lo < l.lo + l.len) && decide (l.lo < lo + n) &&
  (l.cores.isEmpty || l.cores.contains core)

/-- The range locks of the device that runs: a copy of a device that is switched out keeps its entries with its saved
progress (R91, R371). -/
def Cluster.liveLocks (c : Cluster) : List RangeLock :=
  c.locks.filter (fun l => !c.copies.any (fun k => k.paused && l.owner == 2 * k.id))

/-- CheckLock of R134 for a load or store of a core: true when the access meets a lock. -/
def State.locked (s : State) (ep : Nat) (t : Target) (va n : Nat) (store : Bool) : Bool :=
  let ls := (s.cluster (clusterOf ep)).liveLocks.filter (fun l => store || l.dst)
  match t with
  | .spad e off =>
    ls.any (fun l =>
      if l.cores.isEmpty then l.touches (.array s.chip) 0 (arrayBase e + off) n
      else clusterOf e == clusterOf ep && l.touches (.array s.chip) (coreNo e) off n)
  | .spadFar chip e off => ls.any (fun l => l.cores.isEmpty && l.touches (.array chip) 0 (arrayBase e + off) n)
  | .glob _ => ls.any (fun l => l.touches (.virt (s.core ep).vdev) 0 va n)
  | _ => false

/-! ### The queue window (R119) -/

/-- Bytes of the queue window. -/
def Core.queueWindow (c : Core) : List Byte :=
  let recs := fun (l : List TaskRec) (n : Nat) =>
    (l.take n).flatMap TaskRec.bytes ++ List.replicate (64 * (n - min n l.length)) (0 : Byte)
  let rq := (c.ready.filter (fun r => r.place == .recvq)).map (fun r => r.task)
  recs c.inj 16 ++ List.replicate 1024 (0 : Byte) ++ recs rq 32 ++
    leBytes 8 (min 16 c.inj.length + 256 * min 32 rq.length)

/-! ### L1 (R127, R128) -/

/-- Whether the L1 holds the sector of an address. -/
def Core.l1Hit (c : Core) (home pa : Nat) : Bool := (c.l1Find home pa).isSome

/-- Bytes of a held line. -/
def L1Line.bytes (l : L1Line) (off : Nat) : Nat → List Byte
  | 0 => []
  | n + 1 => tget l.data off 0 :: L1Line.bytes l (off + 1) n

/-- Marks a line as last used (R127): lines stand in the order of their last use, the last one at the end. -/
def State.l1Touch (s : State) (ep home line : Nat) : State :=
  let mine := fun (l : L1Line) => l.home == home && l.line == line
  s.onCore ep (fun c => { c with
    l1 := c.l1.filter (fun l => !mine l) ++ (c.l1.filter mine).map (fun l => { l with age := s.now }) })

/-- Sends a fill request for a sector to its home (R128, R145). -/
def State.askFill (s : State) (ep id : Nat) (x : Xlat) : State :=
  (s.onCore ep (fun c => { c with
    fills := c.fills ++ [{ id := id, home := x.home, sector := x.pa / 128, barred := false }] })).send (s.pktFrom ep x.home 0 16 (.fill id (x.pa - x.pa % 128) x.set))

/-! ### Loads as a core makes them -/

/-- A load's data now, a trap, a consumed poison, or a wait. -/
inductive Got where
  | data (bs : List Byte)
  | trap (cause : Nat)
  | poison (pa : Nat)
  | wait (w : Wait)
deriving DecidableEq, Repr

/-- Whether this core has an access to a scratchpad still under way, so that a later one must follow it (R126). -/
def State.spadPending (s : State) (ep dst : Nat) : Bool :=
  let mine := fun (p : Pkt) => p.src == s.epId ep && p.dst == s.epId dst && p.isAccess
  s.egress.any mine || s.net.any mine || (tget s.inbox dst []).any mine

/-- Whether this core has an access to a scratchpad or MMIO under way at another endpoint than `dst`: a core-array or
MMIO access follows it in program order (R203). -/
def State.arrayBusy (s : State) (ep dst : Nat) : Bool :=
  let mine := fun (p : Pkt) => p.src == s.epId ep && !(p.dst == dst) && p.isAccess
  s.egress.any mine || s.net.any mine || s.inbox.any (fun e => e.2.any mine) ||
  s.sluices.any (fun e => e.2.queue.any mine) ||
  (s.core ep).loads.any (fun d => !isGlobal d.x.pa && !(d.x.home == dst))

/-- An identifier that no endpoint has: where an MMIO access of this chip goes. -/
def noEp : Nat := 2 ^ 32

/-- An MMIO access of this chip is made: the instruction has stalled for it (R23), and the core's earlier core-array and
MMIO accesses are done (R200, R202, R203). -/
def State.mmioReady (s : State) : Bool := s.me.stalled == some .mmio && !s.arrayBusy s.cur noEp

/-- Whether an address lies in a team-window slot (R118). -/
def inTeamWindow (va : Nat) : Bool := decide (0x7E1000000000 ≤ va) && decide (va < 0x7E1000100000)

/-- Whether an address reaches a scratchpad by a page entry, so that R203 orders the access. -/
def byArray (va : Nat) : Bool := !(decide (0x7E0000000000 ≤ va) && decide (va < 0x7F0000000000))

/-- Whether only the idle frame is on the stack. -/
def Core.idle (c : Core) : Bool := c.run.level == 0 && c.under.isEmpty

/-- Whether a core applies a new carve-out: from the first moment over its idle frame to the split (R124). -/
def Core.carving (c : Core) : Bool := c.carveNew.isSome && c.idle

/-- Whether a team-window access must wait for its member's new carve-out (R124). -/
def State.carveHolds (s : State) (va : Nat) : Bool :=
  inTeamWindow va && (match s.teamMember s.cur ((va - 0x7E1000000000) / 131072) with
    | some m => !(m == s.cur) && (s.core m).carving
    | none => false)

/-- Bytes of global memory through the L1: on a miss the fill is requested and the access waits (R128). -/
def State.globGet (s : State) (ep : Nat) (x : Xlat) (n : Nat) : Got × State :=
  let c := s.core ep
  if !c.acqs.isEmpty then (.wait .acquire, s)
  else
    match c.l1Find x.home x.pa with
    | some l =>
      (match (List.range ((n + 7) / 8)).find? (fun i => l.pois.contains ((x.pa % 512) / 8 + i)) with
       | some i => (.poison (x.pa + 8 * i), s)
       | none => (.data (l.bytes (x.pa % 512) n), s.l1Touch ep x.home l.line))
    | none =>
      if c.loads.any (fun d => d.x.home == x.home && d.x.pa / 128 == x.pa / 128) then (.wait .fill, s)
      else if 4 ≤ c.loads.length then (.wait .loads, s)
      else
        let d : Load := { id := c.nextId, rd := 0, n := 8, signed := false, x := { x with pa := x.pa - x.pa % 8 }, own := [],
                          pc := c.run.pc }
        (.wait .fill, (s.onCore ep (fun c => { c with loads := c.loads ++ [d], nextId := c.nextId + 1 })).askFill ep
          c.nextId x)

/-- Scratchpad bytes of this chip; another core's scratchpad waits for this core's earlier accesses to it. -/
def State.spadGet (s : State) (ep e off n : Nat) : Got :=
  if !(e == ep) && s.spadPending ep e then .wait .mmio
  else if s.anyPoison (arrayBase e + off) n then .poison (s.poisonAt (arrayBase e + off) n)
  else .data (s.spadBytes e off n)

/-- Bytes read in another chip's core arrays or MMIO by the running instruction: on the way, or already here. -/
def State.farGet (s : State) (chip dst pa n : Nat) (b : Nat → Body) : Got × State :=
  let c := s.me
  match c.got.find? (fun g => g.ep == dst && g.pa == pa && g.data.length == n) with
  | some g => (if g.pois then .poison pa else .data g.data, s)
  | none =>
    if c.loads.any (fun d => d.buf && d.x.home == dst && d.x.pa == pa) then (.wait .fill, s)
    else if s.arrayBusy s.cur dst then (.wait .mmio, s)
    else if 4 ≤ c.loads.length then (.wait .loads, s)
    else
      let d : Load := { id := c.nextId, rd := 0, n := n, signed := false,
                        x := { pa := pa, csel := 0, chip := chip, home := dst, set := 0 }, own := [], buf := true, pc := c.run.pc }
      (.wait .fill, (s.onMe (fun c => { c with loads := c.loads ++ [d], nextId := c.nextId + 1 })).send
        (s.pktFrom s.cur dst 0 16 (b c.nextId)))

/-- A load after an acquire in program order waits for it before its translation walks, for the walk's entries are global
memory too (R150, R361, R452). -/
def State.walkWaits (s : State) (k : Asker) (va : Nat) : Bool := !s.me.acqs.isEmpty && !s.noWalk k va

/-- A read of n bytes at a virtual address for an asker as a load makes it: checks 2 to 4 of R199, then the data. `wide`
allows the queue window and MMIO, as a plain load does. -/
def State.fetchFor (s : State) (k : Asker) (va n : Nat) (wide : Bool) : Got × State :=
  if s.carveHolds va then (.wait .mmio, s)
  else if s.walkWaits k va then (.wait .acquire, s)
  else
  let r := s.translate k va n .r
  let t := r.2
  match r.1 with
  | .bad c => (.trap c, t)
  | .poison pa => (.poison pa, t)
  | .ats => (.wait .fill, t)
  | tg =>
    if t.locked s.cur tg va n false then (.trap 9, t)
    else
      match tg with
      | .glob x => t.globGet s.cur x n
      | .spad e off =>
        (if byArray va && t.arrayBusy s.cur (s.epId e) then .wait .mmio else t.spadGet s.cur e off n, t)
      | .queue off => if wide then (.data ((t.me.queueWindow.drop off).take n), t) else (.trap 8, t)
      | .mmio pa =>
        if wide && mmioAllowed t.frame.sup pa n then
          (if t.mmioReady then .data (leBytes n (t.mmioRead t.frame.sup pa n)) else .wait .mmio, t)
        else (.trap 8, t)
      | .mmioFar chip pa =>
        if wide && mmioAllowed t.frame.sup pa n then
          t.farGet chip (chip * 65536) pa n (fun id => .mmioLoad id pa n t.frame.sup)
        else (.trap 8, t)
      | .spadFar chip e off =>
        t.farGet chip (chip * 65536 + e) (arrayBase e + off) n (fun id => .spadLoad id off n)
      | _ => (.trap 8, t)

/-- The same for the running instruction: records, descriptors and tables (R212, R233). -/
def State.fetchData (s : State) (va n : Nat) (wide : Bool) : Got × State := s.fetchFor s.asker va n wide

/-- RecordAt of R212: aligned to 64 bytes, global or scratchpad. -/
def State.recordAt (s : State) (va : Nat) : Got × State :=
  if va % 64 = 0 then s.fetchData va 64 false else (.trap 6, s)

/-- Consumption of a poisoned memory word by the core (R407). -/
def State.consume (s : State) (pa : Nat) : State := s.machineCheck s.cur 2 0x40 (pa - pa % 8) 0 s.frame.pc.toNat

/-- The record of a counter overflow that is due is read as RecordAt reads it for a task of the core's device, and posted
(R383): one that cannot be read, or that R26 rejects, is not. A read that waits is tried again at the next boundary; no frame
is touched. -/
def State.overflowRead (s : State) : State :=
  let c := s.me
  let ovf := bitsOf c.evs.ovf.toNat 56 8
  let a47 := 64 * bitsOf c.evs.ovf.toNat 6 42
  let va := if 2 ^ 47 ≤ a47 then a47 + (2 ^ 64 - 2 ^ 48) else a47
  let r := s.fetchFor { ep := s.cur, vdev := c.vdev, pasid := none } va 64 false
  let done := r.2.onMe (fun d => { d with evs := { d.evs with due := false } })
  match r.1 with
  | .wait _ => r.2
  | .trap _ => done
  | .poison pa => done.consume pa
  | .data l =>
    if recordOk l false then
      done.hwPost s.cur (({ TaskRec.ofBytes l with
        a0 := BitVec.ofNat 64 ovf, a1 := BitVec.ofNat 64 (s.own s.cur s.now), origin := s.epId s.cur, oseq := c.pub.lseq,
        vdev := c.vdev, gen := c.gen, nxr := c.csr.corenxr, pseq := 0 } : TaskRec).cap c.csr.maxprio) .spillCount true false
    else done

/-- A range-lock trap, counted as it is taken (R134, R380). -/
def State.lockTrap (s : State) (va : Word) : State :=
  let r := s.trapReady s.cur 9
  if r.1 then (r.2.count s.cur 13 1).enterTrap s.cur 9 va s.frame.pc false else r.2.trapWait s.cur

/-- Goes on with data, or ends the turn with the trap, consumption or stall of a read at `va`. -/
def State.withData (s : State) (va : Word) (g : Got × State) (k : List Byte → State → State) : State :=
  match g.1 with
  | .data bs => k bs g.2
  | .trap c => if c = 9 then g.2.lockTrap va else g.2.trap c va
  | .poison pa => g.2.consume pa
  | .wait w => g.2.stall w

/-! ### Watchpoints (R426) -/

/-- Whether a watched access matches: `kind` 1 load, 2 store, 3 both. -/
def Core.watched (c : Core) (va n kind : Nat) : Bool :=
  (List.range 4).any (fun i =>
    let m := c.dbg.dwm.getD i 0
    let sz := bitsOf m.toNat 28 4
    let lo := (bitsOf (c.dbg.dwa.getD i 0).toNat 0 48 / 2 ^ sz) * 2 ^ sz
    let a := va % 2 ^ 48
    c.run.matches c.vdev m && !((bitsOf m.toNat 26 2) &&& kind == 0) &&
    decide (a < lo + 2 ^ sz) && decide (lo < a + n))

/-- Makes the watchpoint trap pending after a watched access (R418, R426). -/
def State.watch (s : State) (va : Word) (n kind : Nat) : State :=
  if s.me.watched va.toNat n kind then s.onFrame (fun f => { f with pendWatch := merge f.pendWatch va }) else s

/-! ### Performing an access -/

/-- A 64-bit value of loaded bytes, extended as the instruction says (R192). -/
def extend (bs : List Byte) (signed : Bool) : Word :=
  let n := bs.length
  let v := leNat bs
  if signed && decide (2 ^ (8 * n - 1) ≤ v) then BitVec.ofNat 64 (v + (2 ^ 64 - 2 ^ (8 * n))) else BitVec.ofNat 64 v

/-- A packet from this core to a scratchpad: over the cluster network, or through the mesh (R126). -/
def State.sendSpad (s : State) (ep dst : Nat) (b : Body) : State :=
  let p := s.pktFrom ep (s.epId dst) 0 16 b
  if clusterOf ep = clusterOf dst then s.deliver dst p
  else s.send p

/-- Starts a standard load at `va` whose data returns later (R201): a fifth waits. It is watched as it is made (R426). -/
def State.startLoad (s : State) (va : Word) (rd : XReg) (n : Nat) (signed : Bool) (x : Xlat) (ask : Nat → State → State) :
    State :=
  let c := s.me
  if 4 ≤ c.loads.length then s.stall .loads
  else
    let d : Load := { id := c.nextId, rd := rd, n := n, signed := signed, x := x,
                      own := (List.range n).map (fun i => s.ownByte s.cur x.chip (x.pa + i)), pc := c.run.pc }
    let s1 := s.onMe (fun e => { e with loads := e.loads ++ [d], nextId := e.nextId + 1, run := e.run.setBusy rd })
    ((ask c.nextId s1).watch va n 1).retire 1

/-- The place of a core-array or MMIO access, as an outstanding load keeps it. -/
def arrayXlat (chip dst pa : Nat) : Xlat := { pa := pa, csel := 0, chip := chip, home := dst, set := 0 }

/-- A load of n bytes (R199 to R201). -/
def State.load (s : State) (rd : XReg) (a : Word) (n : Nat) (signed : Bool) : State :=
  if a.toNat % n ≠ 0 then s.trap 6 a
  else if s.carveHolds a.toNat then s.stall .mmio
  else if s.walkWaits s.asker a.toNat then s.stall .acquire
  else
    let r := s.translate s.asker a.toNat n .r
    let t := r.2
    match r.1 with
    | .bad c => t.trap c a
    | .poison pa => t.consume pa
    | .ats => t.stall .fill
    | .mmio pa =>
      if !mmioAllowed t.frame.sup pa n then t.trap 8 a
      else if !t.mmioReady then t.stall .mmio
      else ((t.setX rd (extend (leBytes n (t.mmioRead t.frame.sup pa n)) signed)).watch a n 1).retire 1
    | .mmioFar chip pa =>
      if !mmioAllowed t.frame.sup pa n then t.trap 8 a
      else if t.arrayBusy s.cur (chip * 65536) then t.stall .mmio
      else t.startLoad a rd n signed (arrayXlat chip (chip * 65536) pa) (fun id u =>
        u.send (u.pktFrom s.cur (chip * 65536) 0 16 (.mmioLoad id pa n t.frame.sup)))
    | .queue off => ((t.setX rd (extend ((t.me.queueWindow.drop off).take n) signed)).watch a n 1).retire 1
    | .spad e off =>
      if t.locked s.cur (.spad e off) a.toNat n false then t.lockTrap a
      else if byArray a.toNat && t.arrayBusy s.cur (s.epId e) then t.stall .mmio
      else if e = s.cur then
        (if t.anyPoison (arrayBase e + off) n then t.consume (arrayBase e + off)
         else ((t.setX rd (extend (t.spadBytes e off n) signed)).watch a n 1).retire 1)
      else
        t.startLoad a rd n signed (arrayXlat s.chip (s.epId e) (arrayBase e + off))
          (fun id u => u.sendSpad s.cur e (.spadLoad id off n))
    | .spadFar chip e off =>
      if t.locked s.cur (.spadFar chip e off) a.toNat n false then t.lockTrap a
      else if t.arrayBusy s.cur (chip * 65536 + e) then t.stall .mmio
      else
        t.startLoad a rd n signed (arrayXlat chip (chip * 65536 + e) (arrayBase e + off))
          (fun id u => u.send (u.pktFrom s.cur (chip * 65536 + e) 0 16 (.spadLoad id off n)))
    | .glob x =>
      if t.locked s.cur (.glob x) a.toNat n false then t.lockTrap a
      else if !t.me.acqs.isEmpty then t.stall .acquire
      else
        match t.me.l1Find x.home x.pa with
        | some l =>
          if l.pois.contains ((x.pa % 512) / 8) then t.consume x.pa
          else (((t.l1Touch s.cur x.home l.line).setX rd (extend (l.bytes (x.pa % 512) n) signed)).watch a n 1).retire 1
        | none => t.startLoad a rd n signed x (fun id u => u.askFill s.cur id x)

/-- A write of the own scratchpad: journaled, a full journal first taking a checkpoint and its cycle (R368), then
performed in place (R202, R369). -/
def State.ownSpadStore (s : State) (off : Nat) (bs : List Byte) : State :=
  let t := if s.me.journalFull [(off, bs.length)] then s.ckCycle s.cur else s
  (t.journal s.cur off bs.length).spadWrite s.cur off bs

/-- A store of the n low bytes of a value (R199, R202). -/
def State.store (s : State) (a v : Word) (n : Nat) : State :=
  if a.toNat % n ≠ 0 then s.trap 6 a
  else if s.carveHolds a.toNat then s.stall .mmio
  else
    let r := s.translate s.asker a.toNat n .w
    let t := r.2
    match r.1 with
    | .bad c => t.trap c a
    | .poison pa => t.consume pa
    | .ats => t.stall .fill
    | .queue _ => t.trap 8 a
    | .mmio pa =>
      if !mmioAllowed t.frame.sup pa n then t.trap 8 a
      else if !t.mmioReady then t.stall .mmio
      else ((t.mmioWrite t.frame.sup pa n (v.toNat % 2 ^ (8 * n))).watch a n 2).retire 1
    | .mmioFar chip pa =>
      if !mmioAllowed t.frame.sup pa n then t.trap 8 a
      else if t.arrayBusy s.cur (chip * 65536) then t.stall .mmio
      else ((t.send (t.pktFrom s.cur (chip * 65536) 0 24 (.mmioStore pa n v t.frame.sup))).watch a n 2).retire 1
    | .spad e off =>
      if t.locked s.cur (.spad e off) a.toNat n true then t.lockTrap a
      else if byArray a.toNat && t.arrayBusy s.cur (s.epId e) then t.stall .mmio
      else if e = s.cur then ((t.ownSpadStore off (leBytes n v.toNat)).watch a n 2).retire 1
      else
        let u := ((t.sendSpad s.cur e (.spadStore off n v)).watch a n 2).retire 1
        if inTeamWindow a.toNat then u.ckCycle s.cur else u
    | .spadFar chip e off =>
      if t.locked s.cur (.spadFar chip e off) a.toNat n true then t.lockTrap a
      else if t.arrayBusy s.cur (chip * 65536 + e) then t.stall .mmio
      else ((t.send (t.pktFrom s.cur (chip * 65536 + e) 0 24 (.spadStore off n v))).watch a n 2).retire 1
    | .glob x =>
      if t.locked s.cur (.glob x) a.toNat n true then t.lockTrap a
      else
        match t.me.logRoom x with
        | .exhausted => t.trap 25 a
        | .stall => t.stall .logSpace
        | _ => ((t.logStore s.cur x n v).watch a n 2).retire 1

/-! ### ONE instances (R59, R155, R175, R349) -/

/-- Whether an instance has been passed by all members; one with only its idle frame counts as having passed
(R59, R349). -/
def State.onePassed (s : State) (k : Nat) (o : OneInst) : Bool :=
  (maskCores o.team.toNat).all (fun i => o.passed.getLsbD i || (s.core (8 * k + i)).run.level == 0)

/-- The elected value as a member receives it: a global load's bytes with its own unacknowledged bytes over them
(R155). -/
def State.oneValue (s : State) (ep : Nat) (o : OneInst) (v : Word) : Word :=
  match o.glob with
  | none => v
  | some (chip, pa, n, sg) =>
    extend ((List.range n).map (fun i => s.overlay ep chip (pa + i) (BitVec.ofNat 8 (bitsOf v.toNat (8 * i) 8)))) sg

/-- Fills one follower's destination with the result (R59). -/
def State.fillOne (s : State) (o : OneInst) (e : Nat × Nat × BitVec 5) : State :=
  match o.result with
  | none => s
  | some (v, p) => s.fillReg e.1 e.2.1 e.2.2 (s.oneValue e.1 o v) p

/-- The elected member's load has faulted: the instance stays open with no elected member (R175). -/
def State.oneLost (s : State) (ep id : Nat) : State :=
  s.onCluster (clusterOf ep) (fun k => { k with ones := k.ones.map (fun o =>
    if o.load == some id && o.elected == some ep then { o with elected := none, load := none, glob := none } else o) })

/-- What the elected member's load returned (R155). -/
def State.oneGot (s : State) (ep id : Nat) (v : Word) (how : Nat) : State :=
  s.onCluster (clusterOf ep) (fun k => { k with ones := k.ones.map (fun o =>
    if o.load == some id && o.elected == some ep then { o with load := none, got := some (v, how) } else o) })

end Sys2Proof.Machine
end

