-- ==== Sys2Proof/Machine/Control.lean ====
section
/-! DEFINITION. Jumps and branches, ECALL and EBREAK (R191, R198, R204, R206). -/

namespace Sys2Proof.Machine

/-- A 12-bit branch field: a signed multiple of 2 (R191). -/
def offB (imm : BitVec 12) : Word := (imm ++ (0 : BitVec 1)).signExtend 64

/-- A 20-bit jump field: a signed multiple of 2 (R191). -/
def offJ (imm : BitVec 20) : Word := (imm ++ (0 : BitVec 1)).signExtend 64

/-- Whether a target may be jumped to (R204). -/
def aligned4 (t : Word) : Bool := t.toNat % 4 == 0

/-- A conditional branch: a taken one to a misaligned target traps (R191, R204). -/
def branch (i : Instr) (rs1 rs2 : XReg) (imm : BitVec 12) (c : Word → Word → Bool) (s : State) : Out :=
  s.run i [rs1, rs2] [] 0 (fun t =>
    if c (t.x rs1) (t.x rs2) then
      (if aligned4 (t.frame.pc + offB imm) then t.retireTo (t.frame.pc + offB imm) 2
       else t.trap 7 (t.frame.pc + offB imm))
    else t.retire 1)

/-- JAL (R191, R198): a call, with rd = ra, marks DEADM dead before it writes ra. -/
def execJal (rd : XReg) (imm : BitVec 20) (s : State) : Out :=
  s.run (.jal rd imm) [] [] rd (fun t =>
    let pc := t.frame.pc
    if aligned4 (pc + offJ imm) then
      let t1 := if rd = 1 then t.onFrame Frame.markDead else t
      (t1.setX rd (pc + 4)).retireTo (pc + offJ imm) 2
    else t.trap 7 (pc + offJ imm))

/-- The target of JALR: bit 0 cleared (R191). -/
def jalrTarget (a : Word) (imm : BitVec 12) : Word := (a + immI imm) &&& ~~~1#64

/-- JALR (R191, R198): a call with rd = ra, a return with rd = x0, rs1 = ra and offset 0. -/
def execJalr (rd rs1 : XReg) (imm : BitVec 12) (s : State) : Out :=
  s.run (.jalr rd rs1 imm) [rs1] [] rd (fun t =>
    let pc := t.frame.pc
    let tgt := jalrTarget (t.x rs1) imm
    if aligned4 tgt then
      let t1 := if rd = 1 ∨ (rd = 0 ∧ rs1 = 1 ∧ imm = 0) then t.onFrame Frame.markDead else t
      (t1.setX rd (pc + 4)).retireTo tgt 3
    else t.trap 7 tgt)

/-- BEQ (R191). -/
def execBeq (rs1 rs2 : XReg) (imm : BitVec 12) (s : State) : Out :=
  branch (.beq rs1 rs2 imm) rs1 rs2 imm (fun a b => a == b) s

/-- BNE (R191). -/
def execBne (rs1 rs2 : XReg) (imm : BitVec 12) (s : State) : Out :=
  branch (.bne rs1 rs2 imm) rs1 rs2 imm (fun a b => a != b) s

/-- BLT (R191). -/
def execBlt (rs1 rs2 : XReg) (imm : BitVec 12) (s : State) : Out :=
  branch (.blt rs1 rs2 imm) rs1 rs2 imm (fun a b => a.slt b) s

/-- BGE (R191). -/
def execBge (rs1 rs2 : XReg) (imm : BitVec 12) (s : State) : Out :=
  branch (.bge rs1 rs2 imm) rs1 rs2 imm (fun a b => !a.slt b) s

/-- BLTU (R191). -/
def execBltu (rs1 rs2 : XReg) (imm : BitVec 12) (s : State) : Out :=
  branch (.bltu rs1 rs2 imm) rs1 rs2 imm (fun a b => a.ult b) s

/-- BGEU (R191). -/
def execBgeu (rs1 rs2 : XReg) (imm : BitVec 12) (s : State) : Out :=
  branch (.bgeu rs1 rs2 imm) rs1 rs2 imm (fun a b => !a.ult b) s

/-- The trap of an ECALL or EBREAK (R206): the open record stays open, over the checkpoint of the handler's frame too, which
keeps it as it stands for a rollback (log entry 64). -/
def State.callTrap (s : State) (cause : Nat) : State :=
  let t := s.trap cause 0
  if t.frame.fid = s.frame.fid || !s.me.pub.opened then t
  else t.onMe (fun c => { c with pub := { c.pub with opened := true },
                                 ck := c.ck.map (fun k => { k with openRec := c.pub.log.getLast? }) })

/-- ECALL (R206): the environment-call trap. -/
def execEcall (s : State) : Out := s.run .ecall [] [] 0 (fun t => t.callTrap 18)

/-- EBREAK (R206): the breakpoint trap. -/
def execEbreak (s : State) : Out := s.run .ebreak [] [] 0 (fun t => t.callTrap 19)

/-- ILLEGAL_INSTRUCTION_WORD (R172): the illegal-instruction trap; a debug breakpoint comes first (R417), and a
pending prefix stays (R173). -/
def execIllegalInstructionWord (w : BitVec 32) (s : State) : Out :=
  match s.startGate with
  | .done t => .next t
  | .go s1 =>
    match s1.checker with
    | .done t => .next t
    | .go s2 => .next (if s2.me.breaks then s2.trap 21 s2.frame.pc else s2.trap 1 (w.setWidth 64))

/-- INSTRUCTION_FETCH_FAULT (R163): the access fault with the PC at the fetched word, after a debug breakpoint. -/
def execInstructionFetchFault (addr : BitVec 64) (s : State) : Out :=
  match s.startGate with
  | .done t => .next t
  | .go s1 =>
    match s1.checker with
    | .done t => .next t
    | .go s2 => .next (if s2.me.breaks then s2.trap 21 s2.frame.pc else s2.trap 8 addr)

end Sys2Proof.Machine
end

