-- ==== Sys2Proof/Machine/LoadStore.lean ====
section
/-! DEFINITION. The loads and stores of R192. -/

namespace Sys2Proof.Machine

/-- A load instruction: the address is x[rs1] plus the signed offset (R192). -/
def loadI (i : Instr) (rd rs1 : XReg) (imm : BitVec 12) (n : Nat) (signed : Bool) (s : State) : Out :=
  s.run i [rs1] [] rd (fun t => t.load rd (t.x rs1 + immI imm) n signed)

/-- A store instruction: the low n bytes of x[rs2] at x[rs1] plus the signed offset (R192). -/
def storeI (i : Instr) (rs1 rs2 : XReg) (imm : BitVec 12) (n : Nat) (s : State) : Out :=
  s.run i [rs1, rs2] [] 0 (fun t => t.store (t.x rs1 + immI imm) (t.x rs2) n)

/-- LB (R192, R200). -/
def execLb (rd rs1 : XReg) (imm : BitVec 12) (s : State) : Out :=
  loadI (.lb rd rs1 imm) rd rs1 imm 1 true s

/-- LH (R192, R200). -/
def execLh (rd rs1 : XReg) (imm : BitVec 12) (s : State) : Out :=
  loadI (.lh rd rs1 imm) rd rs1 imm 2 true s

/-- LW (R192, R200). -/
def execLw (rd rs1 : XReg) (imm : BitVec 12) (s : State) : Out :=
  loadI (.lw rd rs1 imm) rd rs1 imm 4 true s

/-- LD (R192, R200). -/
def execLd (rd rs1 : XReg) (imm : BitVec 12) (s : State) : Out :=
  loadI (.ld rd rs1 imm) rd rs1 imm 8 false s

/-- LBU (R192, R200). -/
def execLbu (rd rs1 : XReg) (imm : BitVec 12) (s : State) : Out :=
  loadI (.lbu rd rs1 imm) rd rs1 imm 1 false s

/-- LHU (R192, R200). -/
def execLhu (rd rs1 : XReg) (imm : BitVec 12) (s : State) : Out :=
  loadI (.lhu rd rs1 imm) rd rs1 imm 2 false s

/-- LWU (R192, R200). -/
def execLwu (rd rs1 : XReg) (imm : BitVec 12) (s : State) : Out :=
  loadI (.lwu rd rs1 imm) rd rs1 imm 4 false s

/-- SB (R192, R202). -/
def execSb (rs1 rs2 : XReg) (imm : BitVec 12) (s : State) : Out :=
  storeI (.sb rs1 rs2 imm) rs1 rs2 imm 1 s

/-- SH (R192, R202). -/
def execSh (rs1 rs2 : XReg) (imm : BitVec 12) (s : State) : Out :=
  storeI (.sh rs1 rs2 imm) rs1 rs2 imm 2 s

/-- SW (R192, R202). -/
def execSw (rs1 rs2 : XReg) (imm : BitVec 12) (s : State) : Out :=
  storeI (.sw rs1 rs2 imm) rs1 rs2 imm 4 s

/-- SD (R192, R202). -/
def execSd (rs1 rs2 : XReg) (imm : BitVec 12) (s : State) : Out :=
  storeI (.sd rs1 rs2 imm) rs1 rs2 imm 8 s

end Sys2Proof.Machine
end

