-- ==== Sys2Proof/Machine/Tasks.lean ====
section
/-! DEFINITION. Ending, posting and successors; claims and holds; the trap-handler and system instructions
(R215 to R225, R235 to R238). -/

namespace Sys2Proof.Machine

/-- Retires and takes the checkpoint of R213. -/
def State.retireCk (s : State) (cost : Nat) : State := (s.retire cost).ckCycle s.cur

/-- The illegal-instruction trap, TVAL the word (R412). -/
def State.illegal (s : State) (i : Instr) : State := s.trap 1 (wordOf i)

/-! ### Ending -/

/-- TEND's effect (R40, R74, R201, R216): it waits for the level's kiln commands and for the frame's standard loads, then
pops; in a trap frame it is TRET. -/
def State.endTask (s : State) : State :=
  if s.frame.level = 0 then s.retire 1
  else if s.kilnBusy s.cur s.frame.level then s.stall .kilnRetire
  else if !s.me.loads.isEmpty then s.stall .loads
  else if s.frame.trap.isSome then (s.retire 0).trapReturn s.cur
  else (s.retire 1).popFrame s.cur

/-- TEND (R216). -/
def execTend (s : State) : Out := s.run .tend [] [] 0 (fun t => t.endTask)

/-- TRET (R235): illegal outside a trap frame. -/
def execTret (s : State) : Out :=
  s.run .tret [] [] 0 (fun t =>
    if t.frame.trap.isNone then t.illegal .tret
    else if t.kilnBusy t.cur t.frame.level then t.stall .kilnRetire
    else if !t.me.loads.isEmpty then t.stall .loads
    else (t.retire 0).trapReturn t.cur)

/-- TKILL (R235): pops the trap frame and ends the trapped task; no deadline successor is posted. -/
def execTkill (s : State) : Out :=
  s.run .tkill [] [] 0 (fun t =>
    if t.frame.trap.isNone then t.illegal .tkill
    else
      let lvl := match t.me.under with
        | f :: _ => f.level
        | [] => 0
      if t.kilnBusy t.cur t.frame.level || t.kilnBusy t.cur lvl then t.stall .kilnRetire
      else if !t.me.loads.isEmpty then t.stall .loads
      else
        let u := (t.retire 0).popFrame t.cur
        if u.frame.level = 0 then u else u.popFrame t.cur)

/-- The frame directly beneath the running one. -/
def Core.trapped (c : Core) : Option Frame := c.under.head?

/-- TFRD's value of an item of the trapped frame (R236). -/
def Frame.item (f g : Frame) (sel : Nat) : Word :=
  if sel < 32 then
    (let r : XReg := BitVec.ofNat 5 sel
     if f.isFull r && !f.isBusy r then f.x r else 0)
  else match sel with
    | 32 => f.pc
    | 33 => f.tstat
    | 34 => f.deadm.setWidth 64
    | 35 => f.thresh
    | 36 => match g.trap with
      | some t => BitVec.ofNat 64 (t.cause + 256 * t.boundary.toNat)
      | none => 0
    | 37 => match g.trap with
      | some t => t.tval
      | none => 0
    | 38 => (f.full ||| 1).setWidth 64
    | 39 => (f.live ||| 1).setWidth 64
    | _ => 0

/-- TFRD (R236). -/
def execTfrd (rd rs1 : XReg) (e1 : BitVec 1) (s : State) : Out :=
  s.run (.tfrd rd rs1 e1) [rs1] (eSrc rs1 e1) rd (fun t =>
    match t.frame.trap, t.me.trapped with
    | some _, some f =>
      if 63 < (t.x rs1).toNat then t.illegal (.tfrd rd rs1 e1)
      else (t.setX rd (f.item t.frame (t.x rs1).toNat)).retire 1
    | _, _ => t.illegal (.tfrd rd rs1 e1))

/-- Writable bits of DEADM (R80). -/
def deadmOf (v : Word) : BitVec 32 := v.setWidth 32 &&& 0xFFFFFFFE#32

/-- A CSR-like write of TSTAT: DRT and NXR written, DR cleared by a 1 (R79). -/
def Frame.writeTstat (f : Frame) (v : Word) : Frame :=
  { f with drt := v.getLsbD 13, nxr := v.getLsbD 4, dr := f.dr && !v.getLsbD 12 }

/-- TFWR's effect on the trapped frame (R236). -/
def Frame.setItem (f : Frame) (sel : Nat) (v : Word) : Frame :=
  if sel < 32 then f.setX (BitVec.ofNat 5 sel) v
  else match sel with
    | 32 => { f with pc := v &&& ~~~3#64 }
    | 33 => f.writeTstat v
    | 34 => { f with deadm := deadmOf v }
    | _ => f

/-- TFWR (R236): a write of a register whose fill is pending waits. -/
def execTfwr (rs1 rs2 : XReg) (e1 e2 : BitVec 1) (s : State) : Out :=
  s.run (.tfwr rs1 rs2 e1 e2) [rs1, rs2] (eSrc rs1 e1 ++ eSrc rs2 e2) 0 (fun t =>
    match t.frame.trap, t.me.under with
    | some _, f :: rest =>
      let sel := (t.x rs1).toNat
      if 63 < sel then t.illegal (.tfwr rs1 rs2 e1 e2)
      else if sel < 32 ∧ !f.isFull (BitVec.ofNat 5 sel) then t.stall .reg
      else (t.onMe (fun c => { c with under := f.setItem sel (t.x rs2) :: rest })).retire 1
    | _, _ => t.illegal (.tfwr rs1 rs2 e1 e2))

/-- CKPT (R238). -/
def execCkpt (s : State) : Out := s.run .ckpt [] [] 0 (fun t => (t.retire 4).checkpoint t.cur)

/-- Whether XINV drops a cached translation (R237). -/
def xinvDrops (t : TlbEntry) (v : Nat) (all : Bool) (va : Nat) : Bool :=
  t.vdev == v && (all || (decide (t.va ≤ va) && decide (va < t.va + t.size)))

/-- Drops translations from every cache of the part (R237, R363). -/
def State.dropXlat (s : State) (v : Nat) (all : Bool) (va : Nat) : State :=
  { s with
    cores := s.cores.map (fun e => (e.1, { e.2 with utlb := e.2.utlb.filter (fun t => !xinvDrops t v all va) })),
    clusters := s.clusters.map (fun e => (e.1, { e.2 with tlb := e.2.tlb.filter (fun t => !xinvDrops t v all va) })) }

/-- The physical address that a translation gave a request (R117). -/
def Pkt.pa? (p : Pkt) : Option Nat :=
  match p.body with
  | .rcd r => some r.addr
  | .fill _ pa _ => some pa
  | .atom _ pa .. => some pa
  | .red pa .. => some pa
  | .ldr _ pa _ _ spad => some (if spad then arrayBase p.dst + pa else pa)
  | .spadLoad _ off _ => some (arrayBase p.dst + off)
  | .spadStore off .. => some (arrayBase p.dst + off)
  | .mmioLoad _ pa .. => some pa
  | .mmioStore pa .. => some pa
  | .chunk _ _ pa _ _ _ spad => some (if spad then arrayBase p.dst + pa else pa)
  | .chunkRead _ _ pa _ _ spad => some (if spad then arrayBase p.dst + pa else pa)
  | _ => none

/-- The first physical address of a cached entry's page. -/
def TlbEntry.base (t : TlbEntry) : Nat := t.ats.getD (65536 * bitsOf t.leaf.toNat 16 32)

/-- The entries of every translation cache of the part. -/
def State.cached (s : State) : List TlbEntry := s.cores.flatMap (fun e => e.2.utlb) ++ s.clusters.flatMap (fun e => e.2.tlb)

/-- Whether a request that one of these entries translated has not been accepted by its first router yet (R237). -/
def State.translatedWaits (s : State) (drops : TlbEntry → Bool) : Bool :=
  s.egress.any (fun p => !p.numbered && (match p.pa? with
    | some pa => s.cached.any (fun t => drops t && t.vdev == p.vdev && decide (t.base ≤ pa) && decide (pa < t.base + t.size))
    | none => false))

/-- XINV (R237): legal with S = 1; it waits until the requests that the dropped entries translated have passed their first
routers. -/
def execXinv (rs1 rs2 : XReg) (e1 e2 : BitVec 1) (s : State) : Out :=
  s.run (.xinv rs1 rs2 e1 e2) [rs1, rs2] (eSrc rs1 e1 ++ eSrc rs2 e2) 0 (fun t =>
    let w := (t.x rs2).toNat
    if !t.frame.sup || decide (512 ≤ w) || !(bitsOf w 6 2 == 0) then t.illegal (.xinv rs1 rs2 e1 e2)
    else if t.translatedWaits (fun e => xinvDrops e (bitsOf w 0 6) (bitOf w 8) (t.x rs1).toNat) then t.stall .xinv
    else (t.dropXlat (bitsOf w 0 6) (bitOf w 8) (t.x rs1).toNat).retire 1)

/-! ### Posting (R215, R217 to R219) -/

/-- Whether a target endpoint's cluster passes the permission table (R215, R359). -/
def State.permits (s : State) (ep target : Nat) : Bool :=
  let chip := target / 65536
  (chip == s.chip && clusterOf target == clusterOf ep) ||
  (s.cluster (clusterOf ep)).perm.any (fun w =>
    let e := w.toNat
    let ec := bitsOf e 48 16
    !(rectHeight e == 0) && chip == (if ec = 0xFFFF then s.chip else ec) &&
    inRect e (pkgCol target) (pkgRow target))

/-- Reply reservations taken (R214, R321): those of the devices that are switched out hold entries of the core's reply
buffer too. -/
def Core.reserved (c : Core) : Nat :=
  ((c.reqs ++ c.saved.flatMap (fun e => e.2.reqs)).filter (fun r => match r.kind with
    | .spawn _ => false
    | _ => true)).length

/-- The part's fields of a posted record (R25, R217), its priority capped. -/
def State.posted (s : State) (r : TaskRec) (oseq : Nat) : TaskRec :=
  let c := s.me
  ({ r with origin := s.epId s.cur, oseq := oseq, vdev := c.vdev, gen := c.gen, nxr := c.run.nxr,
            pseq := c.pseq } : TaskRec).cap c.csr.maxprio

/-- A post to the core's own queue (R217): status at once. -/
def State.postOwn (s : State) (r : TaskRec) (recvq : Bool) (act : Nat) (rd : XReg) : State :=
  let ok := if recvq then recvFree s.me.ready else slotFree s.me.ready
  let s1 := if ok then s.addReady s.cur r (if recvq then .recvq else .slot) else s.count s.cur 12 1
  (s1.setX rd (boolWord ok)).settle s.cur act ok

/-- A post to another core: rd empty, the record on its way (R217, R219). -/
def State.postFar (s : State) (r : TaskRec) (target : Nat) (recvq near : Bool) (act : Nat) (rd : XReg) : State :=
  let c := s.me
  let q : Req := { id := c.nextId, kind := if near then .spawn act else .post act, rd := rd, fid := c.run.fid,
                   level := c.run.level, vdev := c.vdev, gen := c.gen,
                   x := { pa := 0, csel := 0, chip := target / 65536, home := target, set := 0 }, succ := none }
  let s1 := s.onMe (fun d => { d with reqs := d.reqs ++ [q], nextId := d.nextId + 1, run := d.run.setEmpty rd,
                                      inj := if near then d.inj else d.inj ++ [r] })
  let p := s1.pktFrom s.cur target 2 64 (.post c.nextId r recvq)
  if near then s1.deliver (target % 65536) p else s1.send p

/-- Posts a record whose software fields are read and checked (R217, R218), and takes the checkpoint. -/
def State.postRec (s : State) (r : TaskRec) (target : Nat) (recvq near : Bool) (rd : XReg) (cost : Nat) : State :=
  let own := target == s.epId s.cur
  if s.me.pub.exhausted then s.trap 24 (BitVec.ofNat 64 s.me.pub.lseq)
  else if !own && !near && decide (16 ≤ s.me.reserved) then s.stall .reply
  else
    let st := s.stampPost s.cur
    let r' := s.posted r st.1
    let s1 := st.2.2.onMe (fun c => { c with pseq := (c.pseq + 1) % 2 ^ 32 })
    let s2 := if own then s1.postOwn r' recvq st.2.1 rd else s1.postFar r' target recvq near st.2.1 rd
    s2.retireCk cost

/-- The record at x[rs1], read and checked (R212), then posted to a target that passes R215. -/
def State.postFrom (s : State) (a : Word) (target : Option Word) (recvq : Bool) (rd : XReg) (cost : Nat) : State :=
  s.withData a (s.recordAt a.toNat) (fun bs t =>
    if !recordOk bs t.frame.sup then t.trap 13 a
    else
      let tg := match target with
        | none => t.epId t.cur
        | some w => w.toNat % 2 ^ 32
      if tg != t.epId t.cur && !t.permits t.cur tg then t.trap 11 (BitVec.ofNat 64 tg)
      else t.postRec (TaskRec.ofBytes bs) tg recvq false rd cost)

/-- POST (R217). -/
def execPost (rd rs1 : XReg) (e1 : BitVec 1) (s : State) : Out :=
  s.run (.post rd rs1 e1) [rs1] (eSrc rs1 e1) rd (fun t => t.postFrom (t.x rs1) none false rd 3)

/-- POSTE (R217). -/
def execPoste (rd rs1 rs2 : XReg) (e1 e2 : BitVec 1) (s : State) : Out :=
  s.run (.poste rd rs1 rs2 e1 e2) [rs1, rs2] (eSrc rs1 e1 ++ eSrc rs2 e2) rd (fun t =>
    t.postFrom (t.x rs1) (some (t.x rs2)) false rd 2)

/-- SEND (R217). -/
def execSend (rd rs1 rs2 : XReg) (e1 e2 : BitVec 1) (s : State) : Out :=
  s.run (.send rd rs1 rs2 e1 e2) [rs1, rs2] (eSrc rs1 e1 ++ eSrc rs2 e2) rd (fun t =>
    t.postFrom (t.x rs1) (some (t.x rs2)) true rd 2)

/-- SPAWN (R56, R219): builds a record for a team member. -/
def execSpawn (rd rs1 rs2 : XReg) (e1 e2 : BitVec 1) (s : State) : Out :=
  s.run (.spawn rd rs1 rs2 e1 e2) [rs1, rs2, 10, 11, 12, 13] (eSrc rs1 e1 ++ eSrc rs2 e2) rd (fun t =>
    let i := (t.x rs2).toNat
    match (if i < 8 then t.teamMember t.cur i else none) with
    | none => t.trap 13 (t.x rs2)
    | some m =>
      if (t.x rs1).toNat % 4 ≠ 0 then t.trap 13 (t.x rs2)
      else
        let f := t.frame
        let r : TaskRec :=
          { pc := t.x rs1, a0 := t.x 10, a1 := t.x 11, a2 := t.x 12, a3 := t.x 13, origin := 0, oseq := 0,
            prio := f.level, nxr := f.nxr, s := f.sup, cls := f.cls, frame := f.fsize, pan := f.pan, vdev := 0,
            gen := 0, deadline := 0, pseq := 0 }
        t.postRec r (t.epId m) false (m != t.cur) rd 2)

/-! ### Successors and deadlines (R220 to R223) -/

/-- SUCC's effect: ADDR and ARM (R81, R220). -/
def succWord (a : Word) : Word := (a &&& ~~~63#64) ||| 1

/-- SUCC (R220): misaligned addresses trap; rs1 = x0 disarms. -/
def execSucc (rs1 : XReg) (e1 : BitVec 1) (s : State) : Out :=
  s.run (.succ rs1 e1) [rs1] (eSrc rs1 e1) 0 (fun t =>
    if rs1 = 0 then (t.onFrame (fun f => { f with succ := f.succ &&& ~~~1#64 })).retire 1
    else if (t.x rs1).toNat % 64 ≠ 0 then t.trap 6 (t.x rs1)
    else (t.onFrame (fun f => { f with succ := succWord (t.x rs1) })).retire 1)

/-- A successor as captured at issue: the record's own fields, and the issuing frame's device and NXR (R221). The other
part fields and the cap are set at completion. -/
def State.capture (s : State) (bs : List Byte) : TaskRec :=
  { TaskRec.ofBytes bs with vdev := s.me.vdev, gen := s.me.gen, nxr := s.frame.nxr }

/-- A captured successor as it is posted at completion (R221): ORIGIN, OSEQ and the cap of R217 by the MAXPRIO of that
moment (R90). -/
def State.succRec (s : State) (ep : Nat) (r : TaskRec) (oseq : Nat) : TaskRec :=
  ({ r with origin := s.epId ep, oseq := oseq } : TaskRec).cap (s.maxprioAt ep r.vdev)

/-- Takes an armed successor for an engine command (R220): reads, checks and reserves, then goes on with it. -/
def State.withSucc (s : State) (k : Option TaskRec → State → State) : State :=
  if s.frame.succ.getLsbD 0 then
    let a := s.frame.succ &&& ~~~63#64
    s.withData a (s.recordAt a.toNat) (fun bs t =>
      if !recordOk bs t.frame.sup then t.trap 13 a
      else if !t.me.spillFree then t.stall .spill
      else k (some (t.capture bs))
        (t.onMe (fun c => { c with spillRes := c.spillRes + 1, run := { c.run with succ := c.run.succ &&& ~~~1#64 } })))
  else k none s

/-- Posts a captured successor at completion (R221) and frees its reservation. -/
def State.postSucc (s : State) (ep : Nat) (r : TaskRec) (oseq : Nat) : State :=
  (s.freeSpill ep r.vdev).hwPost ep (s.succRec ep r oseq) .spill false false

/-- Disarms the running task's deadline (R222). -/
def Core.disarm (c : Core) : Core :=
  match c.run.dl with
  | some d => { c with spillRes := if d.succ.isSome then c.spillRes - 1 else c.spillRes, run := { c.run with dl := none } }
  | none => c

/-- Arms a deadline, counted from retirement after one cycle (R222). -/
def State.arm (s : State) (n : Nat) (succ : Option TaskRec) : State :=
  s.onMe (fun c =>
    let d := c.disarm
    { d with spillRes := if succ.isSome then d.spillRes + 1 else d.spillRes,
             run := { d.run with dl := some { expiry := s.after s.cur 1 + min n (2 ^ 32 - 1), succ := succ, solves := 0,
                                              reason := 1 } } })

/-- DLSET (R222): a count of 0 has the effect of DLCLR, whatever x[rs2] names (R421). -/
def execDlset (rs1 rs2 : XReg) (e1 e2 : BitVec 1) (s : State) : Out :=
  s.run (.dlset rs1 rs2 e1 e2) [rs1, rs2] (eSrc rs1 e1 ++ eSrc rs2 e2) 0 (fun t =>
    let n := (t.x rs1).toNat
    if n = 0 then (t.onMe Core.disarm).retire 1
    else if rs2 = 0 then (t.arm n none).retire 1
    else
      t.withData (t.x rs2) (t.recordAt (t.x rs2).toNat) (fun bs u =>
        if !recordOk bs u.frame.sup then u.trap 13 (t.x rs2)
        else if !u.me.disarm.spillFree then u.stall .spill
        else (u.arm n (some (u.capture bs))).retire 1))

/-- DLCLR (R222). -/
def execDlclr (s : State) : Out := s.run .dlclr [] [] 0 (fun t => (t.onMe Core.disarm).retire 1)

/-! ### Claims and holds (R48, R224, R225) -/

/-- CLAIM (R224). -/
def execClaim (rs1 : XReg) (e1 : BitVec 1) (s : State) : Out :=
  s.run (.claim rs1 e1) [rs1] (eSrc rs1 e1) 0 (fun t =>
    let r := (t.x rs1).toNat
    let c := tget t.me.ceil r 0
    if 63 < r ∨ c = 0 ∨ 8 ≤ t.frame.claims.length then t.trap 10 (t.x rs1)
    else (t.onFrame (fun f => { f with claims := (r, f.thr) :: f.claims, thr := max f.thr c })).retire 1)

/-- UNCLAIM (R224). -/
def execUnclaim (rs1 : XReg) (e1 : BitVec 1) (s : State) : Out :=
  s.run (.unclaim rs1 e1) [rs1] (eSrc rs1 e1) 0 (fun t =>
    match t.frame.claims with
    | [] => t.trap 10 (t.x rs1)
    | (r, l) :: rest =>
      if r ≠ (t.x rs1).toNat then t.trap 10 (t.x rs1)
      else (t.onFrame (fun f => { f with claims := rest, thr := l })).retire 1)

/-- Bits of HOLDM that can be written: all but bit 0 (R50, R80). -/
def holdBits : Word := ~~~1#64

def State.setHold (s : State) (m : Word) : State :=
  s.onMe (fun c => { c with csr := { c.csr with holdm := c.csr.holdm ||| (m &&& holdBits) } })

def State.clearHold (s : State) (m : Word) : State :=
  s.onMe (fun c => { c with csr := { c.csr with holdm := c.csr.holdm &&& ~~~(m &&& holdBits) } })

/-- HOLD (R225). -/
def execHold (rs1 : XReg) (e1 : BitVec 1) (s : State) : Out :=
  s.run (.hold rs1 e1) [rs1] (eSrc rs1 e1) 0 (fun t =>
    if 63 < (t.x rs1).toNat then t.illegal (.hold rs1 e1)
    else (t.setHold (1#64 <<< (t.x rs1).toNat)).retire 1)

/-- UNHOLD (R225). -/
def execUnhold (rs1 : XReg) (e1 : BitVec 1) (s : State) : Out :=
  s.run (.unhold rs1 e1) [rs1] (eSrc rs1 e1) 0 (fun t =>
    if 63 < (t.x rs1).toNat then t.illegal (.unhold rs1 e1)
    else (t.clearHold (1#64 <<< (t.x rs1).toNat)).retire 1)

/-- HOLDM (R225). -/
def execHoldm (rs1 : XReg) (e1 : BitVec 1) (s : State) : Out :=
  s.run (.holdm rs1 e1) [rs1] (eSrc rs1 e1) 0 (fun t => (t.setHold (t.x rs1)).retire 1)

/-- UNHOLDM (R225). -/
def execUnholdm (rs1 : XReg) (e1 : BitVec 1) (s : State) : Out :=
  s.run (.unholdm rs1 e1) [rs1] (eSrc rs1 e1) 0 (fun t => (t.clearHold (t.x rs1)).retire 1)

/-! ### FMT and the queues (R173, R233, R234) -/

/-- FMT (R173): sets TSTAT.PFMT and PP. -/
def execFmt (f1 f2 : BitVec 3) (s : State) : Out :=
  s.run (.fmt f1 f2) [] [] 0 (fun t => (t.onFrame (fun f => { f with pp := true, pfmt := f2 ++ f1 })).retire 1)

/-- The state set of the running level. -/
def State.kset (s : State) : KSet := tget s.me.sets s.frame.level KSet.reset

def State.onKset (s : State) (f : KSet → KSet) : State :=
  s.onMe (fun c => { c with sets := tset c.sets c.run.level (f (tget c.sets c.run.level KSet.reset)) })

/-- QPUSH (R234): appends to q0, waiting while it is full. -/
def execQpush (rs1 : XReg) (e1 : BitVec 1) (q : BitVec 5) (s : State) : Out :=
  s.run (.qpush rs1 e1 q) [rs1] (eSrc rs1 e1) 0 (fun t =>
    if q ≠ 0 then t.illegal (.qpush rs1 e1 q)
    else if 8 ≤ t.kset.q0.length then t.stall .q0full
    else (t.onKset (fun k => { k with q0 := k.q0 ++ [t.x rs1] })).retire 1)

/-- Removes the oldest entry of q1, q2 or q4 (R234). -/
def KSet.pop (k : KSet) (q : Nat) : Option (Word × KSet) :=
  match q with
  | 1 => match k.q1 with
    | v :: l => some (v, { k with q1 := l })
    | [] => none
  | 2 => match k.q2 with
    | v :: l => some (v.setWidth 64, { k with q2 := l })
    | [] => none
  | 4 => match k.q4 with
    | v :: l => some (BitVec.ofNat 64 v, { k with q4 := l })
    | [] => none
  | _ => none

/-- The storage of a queue among the items of a state set that can hold an error (R405): q1 is 13, q0 15, q2 16, q4 17. -/
def queueItem (q : Nat) : Nat := if q = 1 then 13 else if q = 0 then 15 else if q = 2 then 16 else 17

/-- QPOP (R234): on an empty queue rd becomes empty and the next arrival fills it. An entry that holds an uncorrectable error
is consumed (R407). -/
def execQpop (rd : XReg) (q : BitVec 5) (s : State) : Out :=
  s.run (.qpop rd q) [] [] rd (fun t =>
    if q ≠ 1 ∧ q ≠ 2 ∧ q ≠ 4 then t.illegal (.qpop rd q)
    else
      match t.kset.pop q.toNat with
      | some (v, k) =>
        if t.kset.bad.contains (queueItem q.toNat) then t.machineCheck t.cur 2 0x40 0 0 t.frame.pc.toNat
        else ((t.onKset (fun _ => k)).setX rd v).retire 1
      | none =>
        (t.onMe (fun c => { c with
          pops := c.pops ++ [{ fid := c.run.fid, level := c.run.level, q := q.toNat, rd := rd }],
          run := c.run.setEmpty rd })).retire 1)

/-- Entries of a queue that no pending QPOP is promised (R234). -/
def KSet.len (k : KSet) (q : Nat) : Nat :=
  match q with
  | 0 => k.q0.length
  | 1 => k.q1.length
  | 2 => k.q2.length
  | 3 => k.q3.length
  | _ => k.q4.length

/-- QLEN (R234). -/
def execQlen (rd : XReg) (q : BitVec 5) (s : State) : Out :=
  s.run (.qlen rd q) [] [] rd (fun t =>
    if 4 < q.toNat then t.illegal (.qlen rd q)
    else (t.setX rd (BitVec.ofNat 64 (t.kset.len q.toNat))).retire 1)

/-- Whether a pending QPOP of a level waits for a queue's next entry (R234). -/
def Core.popWaits (c : Core) (lvl q : Nat) : Bool := c.pops.any (fun p => p.level == lvl && p.q == q)

/-- A queue of a state set with an entry appended; a full q4 drops its oldest (R73, R249). -/
def KSet.push (k : KSet) (q : Nat) (v : Word) : KSet :=
  match q with
  | 1 => { k with q1 := k.q1 ++ [v] }
  | 2 => { k with q2 := k.q2 ++ [v.setWidth 32] }
  | _ => { k with q4 := (if 16 ≤ k.q4.length then k.q4.drop 1 else k.q4) ++ [v.toNat % 65536] }

/-- An entry arrives for a queue of (core, level): the oldest pending QPOP takes it, else it is appended (R73, R74,
R234). -/
def State.pushQ (s : State) (ep lvl q : Nat) (v : Word) : State :=
  match takeFirst (fun (p : Pop) => p.level == lvl && p.q == q) (s.core ep).pops with
  | some (p, rest) => (s.onCore ep (fun c => { c with pops := rest })).fillReg ep p.fid p.rd v false
  | none => s.onCore ep (fun c => { c with sets := tset c.sets lvl ((tget c.sets lvl KSet.reset).push q v) })

/-- The same for an entry that a rollback does not withdraw: what stays in the queue stands in the checkpoint's snapshot
too (R369, R370). -/
def State.pushKept (s : State) (ep lvl q : Nat) (v : Word) : State :=
  let t := s.pushQ ep lvl q v
  if (s.core ep).popWaits lvl q then t
  else t.onCore ep (fun c => { c with ck := c.ck.map (fun (k : Ckpt) =>
    if k.frame.level = lvl then { k with kset := k.kset.map (fun u => u.push q v) } else k) })

/-- TJMP (R233): through a table of relative words, its length checked. -/
def execTjmp (rs1 rs2 : XReg) (e1 e2 : BitVec 1) (s : State) : Out :=
  s.run (.tjmp rs1 rs2 e1 e2) [rs1, rs2] (eSrc rs1 e1 ++ eSrc rs2 e2) 0 (fun t =>
    let i := (t.x rs1).toNat
    let b := t.x rs2
    if b.toNat % 8 ≠ 0 then t.trap 6 b
    else
      t.withData b (t.fetchData b.toNat 8 true) (fun l u =>
        if leNat l ≤ i then u.retire 3
        else
          let a := b + 8 + BitVec.ofNat 64 (4 * i)
          u.withData a (u.fetchData a.toNat 4 true) (fun d w =>
            let tgt := b + extend d true
            if aligned4 tgt then w.retireTo tgt 3 else w.trap 7 tgt)))

end Sys2Proof.Machine
end

