-- ==== Sys2Proof/Machine/Barrier.lean ====
section
/-! DEFINITION. Team barriers, gang barriers, carve-out requests, ALIGN and the remote loads
(R58, R121 to R124, R226 to R232, R327, R328). -/

namespace Sys2Proof.Machine

/-! ### Team barriers -/

/-- The code of R123 for a set of members: 0 no request, 1 one word, 2 otherwise; and the word. -/
def carveCode (reqs : List Nat) : Nat × Option Carve :=
  match reqs with
  | [] => (0, none)
  | r :: l => if l.all (fun q => q == r) then (1, Carve.ofNat r) else (2, none)

/-- One member's part of a completed team barrier: the new carve-out and team, the instance counts and the successor
(R226). -/
def State.tbarMember (s : State) (a : Arrival) (code : Nat) (cv : Option Carve) : State :=
  let s1 := s.onCore a.core (fun c => { c with
    carveReq := none,
    carveNew := match cv with
      | some w => some w
      | none => c.carveNew,
    csr := if c.csr.stgEn then { c.csr with team := c.csr.stgMask, stgEn := false } else c.csr,
    alignN := 0, oneN := 0, tbarN := (c.tbarN + 1) % 2 ^ 32 })
  match a.succ with
  | some r =>
    s1.postSucc a.core { r with a0 := BitVec.ofNat 64 (s1.core a.core).tbarN, a1 := BitVec.ofNat 64 code }
      (s1.core a.core).pub.lseq
  | none => s1

/-- Completes the barrier of a mask when every core of it has arrived under it (R226). -/
def State.tbarTry (s : State) (k v : Nat) (mask : BitVec 8) : State :=
  let arr := (s.cluster k).arr
  let mine := arr.filter (fun a => a.mask == mask && a.vdev == v)
  if (maskCores mask.toNat).all (fun i => mine.any (fun a => a.core == 8 * k + i)) then
    let cc := carveCode (mine.filterMap (fun a => (s.core a.core).carveReq))
    let s0 := (s.cluster k).ones.foldl (fun (t : State) o =>
      if o.team == mask && o.vdev == v then o.follow.foldl (fun (u : State) e => u.fillOne o e) t else t) s
    let s1 := s0.onCluster k (fun c =>
      { c with arr := arr.filter (fun a => !(a.mask == mask && a.vdev == v)),
               ones := c.ones.filter (fun o => !(o.team == mask && o.vdev == v)) })
    mine.foldl (fun t a => t.tbarMember a cc.1 cc.2) s1
  else s

/-- TBAR (R226): a release, the successor, the arrival; it may complete the barrier. -/
def execTbar (s : State) : Out :=
  s.run .tbar [] [] 0 (fun t =>
    if t.me.pub.exhausted then t.trap 24 (BitVec.ofNat 64 t.me.pub.lseq)
    else
      t.withSucc (fun r u =>
        let k := clusterOf u.cur
        if (u.cluster k).arr.any (fun a => a.core == u.cur && a.vdev == u.me.vdev) then t.trap 12 0
        else
          let a : Arrival := { core := u.cur, vdev := u.me.vdev, mask := u.me.csr.team, succ := r, hasSucc := r.isSome }
          let v := (u.release u.cur).onCluster k (fun c => { c with arr := c.arr ++ [a] })
          (v.retireCk 2).tbarTry k a.vdev a.mask))

/-- The arrivals under a mask, by cluster core number. -/
def Cluster.arrived (c : Cluster) (v : Nat) (mask : BitVec 8) : Nat :=
  (c.arr.filter (fun a => a.mask == mask && a.vdev == v)).foldl (fun n a => n + 2 ^ coreNo a.core) 0

/-- TBARQ (R227). -/
def execTbarq (rd : XReg) (s : State) : Out :=
  s.run (.tbarq rd) [] [] rd (fun t =>
    let c := t.cluster (clusterOf t.cur)
    let m := t.me.csr.team
    let own := (c.arr.any (fun a => a.core == t.cur && a.vdev == t.me.vdev)).toNat
    (t.setX rd (BitVec.ofNat 64 (c.arrived t.me.vdev m + 256 * m.toNat + 65536 * own))).retire 1)

/-- CARVE (R229): records a valid word as this core's request. -/
def execCarve (rs1 : XReg) (e1 : BitVec 1) (s : State) : Out :=
  s.run (.carve rs1 e1) [rs1] (eSrc rs1 e1) 0 (fun t =>
    match Carve.ofNat (t.x rs1).toNat with
    | none => t.illegal (.carve rs1 e1)
    | some _ => (t.onMe (fun c => { c with carveReq := some (t.x rs1).toNat })).retire 1)

/-! ### ALIGN (R58) -/

/-- The ALIGN instance a core has reached. -/
def Core.aligned (c : Core) : Nat := c.alignN + c.alignAt.isSome.toNat

/-- ALIGN (R58, R230): waits until every member has reached this instance, or gives up: the wait and its own cycle are 256
at most. -/
def execAlign (s : State) : Out :=
  s.run .align [] [] 0 (fun t =>
    let inst := t.me.alignN + 1
    let since := t.me.alignAt.getD t.now
    let team := (maskCores t.me.csr.team.toNat).map (fun i => 8 * clusterOf t.cur + i)
    if team.all (fun e => e == t.cur || decide (inst ≤ (t.core e).aligned)) || t.passed t.cur since 255 then
      (t.onMe (fun c => { c with alignN := inst })).retire 1
    else (t.onMe (fun c => { c with alignAt := some since })).stall .align)

/-! ### Gang barriers (R228, R327, R328) -/

/-- Rounds of a barrier of n members: the least R with 2^R ≥ n. -/
def rounds (n : Nat) : Nat := ((List.range 17).find? (fun r => decide (n ≤ 2 ^ r))).getD 16

/-- Sends a barrier notice of a round, or ABORT, to a member (R327, R446). -/
def State.sendNotice (s : State) (ep vdev gen dst : Nat) (b : Body) : State :=
  s.send { s.pktFrom ep dst 5 16 b with vdev := vdev, gen := gen }

/-- Sends the rounds that may be sent (R327), one for each unit of fuel. -/
def State.gbarAdvance (s : State) (ep bid : Nat) : Nat → State
  | 0 => s
  | fuel + 1 =>
    match (s.core ep).gbars.find? (fun g => g.bid == bid && g.opened) with
    | none => s
    | some g =>
      if decide (g.sent < rounds g.n) && (g.sent == 0 || g.rcvd.getLsbD (g.sent - 1)) then
        let s1 := s.sendNotice ep g.vdev g.gen (g.peers.getD g.sent 0) (.bar bid g.sent)
        State.gbarAdvance (s1.onCore ep (fun c => { c with gbars := c.gbars.map (fun h =>
          if h.bid == bid then { h with sent := h.sent + 1 } else h) })) ep bid fuel
      else s

/-- Completes an arrival that has sent and received every round, or was aborted: its successor is posted with a0 and
a1 (R228), the entry is freed unless it holds notices for later arrivals (R328). -/
def State.gbarTry (s : State) (ep bid : Nat) : State :=
  match (s.core ep).gbars.find? (fun g => g.bid == bid && g.opened) with
  | none => s
  | some g =>
    let R := rounds g.n
    let done := g.sent == R && (List.range R).all (fun k => g.rcvd.getLsbD k)
    if done || g.aborted then
      let s1 := s.onCore ep (fun c => { c with
        gbars := if g.held.isEmpty then c.gbars.filter (fun h => !(h.bid == bid))
                 else c.gbars.map (fun h => if h.bid == bid then { h with opened := false, rcvd := 0, sent := 0,
                                                                          aborted := false, succ := none } else h) })
      match g.succ with
      | some r => s1.postSucc ep { r with a0 := BitVec.ofNat 64 g.aborted.toNat, a1 := BitVec.ofNat 64 bid }
                    (s1.core ep).pub.lseq
      | none => s1
    else s

/-- An aborted arrival forwards ABORT to every member it notifies (R446). -/
def State.gbarAbort (s : State) (ep : Nat) (g : GBar) : State :=
  g.peers.foldl (fun t d => t.sendNotice ep g.vdev g.gen d (.abort g.bid)) s

/-- Reads the endpoint-table entries of the members notified, in round order, as 4-byte loads (R199, R228). -/
def gbarPeers (s : State) (ept : Word) (n i : Nat) : List Nat → List Nat → (List Nat → State → State) → State
  | [], acc, k => k acc s
  | r :: rs, acc, k =>
    let a := ept + BitVec.ofNat 64 (4 * ((i + 2 ^ r) % n))
    if a.toNat % 4 ≠ 0 then s.trap 6 a
    else s.withData a (s.fetchData a.toNat 4 true) (fun bs t =>
      gbarPeers t ept n i rs (acc ++ [leNat bs]) k)

/-- Opens an arrival, applying held notices (R328). -/
def openGbar (g : GBar) : GBar :=
  (List.range (rounds g.n)).foldl (fun h k =>
    match takeFirst (fun (e : Nat × Bool) => e.1 == k && !e.2) h.held with
    | some (_, rest) => { h with rcvd := h.rcvd ||| BitVec.ofNat 16 (2 ^ k), held := rest }
    | none => h)
    (match takeFirst (fun (e : Nat × Bool) => e.2) g.held with
     | some (_, rest) => { g with aborted := true, held := rest }
     | none => g)

/-- GBAR's arrival once its descriptor is read and its checks are made (R228). -/
def State.gbarArrive (s : State) (n i bid : Nat) (peers : List Nat) (r : Option TaskRec) : State :=
  let g0 : GBar := match s.me.gbars.find? (fun g => g.bid == bid) with
    | some g => g
    | none => { bid := bid, opened := false, n := n, i := i, peers := peers, sent := 0, rcvd := 0, aborted := false,
                held := [], succ := none, hasSucc := false, vdev := 0, gen := 0 }
  let g := openGbar { g0 with opened := true, n := n, i := i, peers := peers, sent := 0, rcvd := 0, aborted := false,
                              succ := r, hasSucc := r.isSome, vdev := s.me.vdev, gen := s.me.gen }
  let s1 := (s.release s.cur).onMe (fun c => { c with gbars := c.gbars.filter (fun h => !(h.bid == bid)) ++ [g] })
  let s2 := s1.retireCk 4
  let s3 := s2.gbarAdvance s.cur bid 17
  (if g.aborted then s3.gbarAbort s.cur g else s3).gbarTry s.cur bid

/-- Barrier state entries that a core holds, those of its switched-out devices among them (R328). -/
def Core.gbarCount (c : Core) : Nat := c.gbars.length + (c.saved.flatMap (fun e => e.2.gbars)).length

/-- GBAR (R228): the table is read whole before its entries are checked under R215 (R421). -/
def execGbar (rs1 : XReg) (e1 : BitVec 1) (s : State) : Out :=
  s.run (.gbar rs1 e1) [rs1] (eSrc rs1 e1) 0 (fun t =>
    t.withData (t.x rs1) (t.recordAt (t.x rs1).toNat) (fun bs u =>
      let n := natAt bs 0 2
      let i := natAt bs 2 2
      let bid := natAt bs 4 4
      if n = 0 ∨ n ≤ i ∨ (bs.drop 16).any (fun b => !(b == 0)) ∨ u.me.gbars.any (fun g => g.bid == bid && g.opened) then
        u.trap 12 (BitVec.ofNat 64 bid)
      else
        gbarPeers u (wordAt bs 8) n i (List.range (rounds n)) [] (fun peers v =>
          match peers.find? (fun d => !v.permits v.cur d) with
          | some d => v.trap 11 (BitVec.ofNat 64 d)
          | none =>
          if v.me.pub.exhausted then v.trap 24 (BitVec.ofNat 64 v.me.pub.lseq)
          else if decide (64 ≤ v.me.gbarCount) && !v.me.gbars.any (fun g => g.bid == bid) then v.stall .barrier
          else v.withSucc (fun r w => w.gbarArrive n i bid peers r))))

/-! ### Remote loads (R232) -/

/-- LDR and LDRW: checks, a reservation, the successor, rd empty, the request (R214, R220, R232). -/
def State.ldr (s : State) (rd : XReg) (a : Word) (n : Nat) : State :=
  if a.toNat % n ≠ 0 then s.trap 6 a
  else if s.carveHolds a.toNat then s.stall .mmio
  else if s.walkWaits s.asker a.toNat then s.stall .acquire
  else
    let r := s.translate s.asker a.toNat n .r
    let t := r.2
    let go := fun (x : Xlat) (dst : Nat) (spad : Bool) =>
      if !t.me.acqs.isEmpty then t.stall .acquire
      else if 16 ≤ t.me.reserved then t.stall .reply
      else t.withSucc (fun sr u =>
        let c := u.me
        let q : Req := { id := c.nextId, kind := .ldr n, rd := rd, fid := c.run.fid, level := c.run.level,
                         vdev := c.vdev, gen := c.gen, x := x, succ := sr,
                         own := if spad then [] else (List.range n).map (fun i => u.ownByte u.cur x.chip (x.pa + i)),
                         pc := c.run.pc }
        let v := u.onMe (fun d => { d with reqs := d.reqs ++ [q], nextId := d.nextId + 1, run := d.run.setEmpty rd })
        let off := x.pa % 131072
        let pkt := v.pktFrom v.cur dst 0 16 (.ldr c.nextId (if spad then off else x.pa) x.set n spad)
        let w :=
          if spad && dst == v.epId v.cur then
            -- the own scratchpad is read in program order (R126); the reply is split-phase as any
            v.deliver v.cur (pkt.answer dst 1 24 (.ldrRep c.nextId off (BitVec.ofNat 64 (leNat (v.spadBytes v.cur off n)))
              (v.anyPoison x.pa n)))
          else if spad && clusterOf dst == clusterOf v.cur && dst / 65536 == v.chip then v.deliver (dst % 65536) pkt
          else v.send pkt
        (w.watch a n 1).retireCk 1)
    match r.1 with
    | .bad c => t.trap c a
    | .poison pa => t.consume pa
    | .ats => t.stall .fill
    | .spad e off =>
      if t.locked s.cur (.spad e off) a.toNat n false then t.lockTrap a
      else if byArray a.toNat && t.arrayBusy s.cur (s.epId e) then t.stall .mmio
      else go (arrayXlat s.chip (s.epId e) (arrayBase e + off)) (s.epId e) true
    | .spadFar chip e off =>
      if t.locked s.cur (.spadFar chip e off) a.toNat n false then t.lockTrap a
      else if t.arrayBusy s.cur (chip * 65536 + e) then t.stall .mmio
      else go (arrayXlat chip (chip * 65536 + e) (arrayBase e + off)) (chip * 65536 + e) true
    | .glob x =>
      if t.locked s.cur (.glob x) a.toNat n false then t.lockTrap a else go x x.home false
    | _ => t.trap 8 a

/-- LDR (R232). -/
def execLdr (rd rs1 : XReg) (e1 : BitVec 1) (s : State) : Out :=
  s.run (.ldr rd rs1 e1) [rs1] (eSrc rs1 e1) rd (fun t => t.ldr rd (t.x rs1) 8)

/-- LDRW (R232). -/
def execLdrw (rd rs1 : XReg) (e1 : BitVec 1) (s : State) : Out :=
  s.run (.ldrw rd rs1 e1) [rs1] (eSrc rs1 e1) rd (fun t => t.ldr rd (t.x rs1) 4)

end Sys2Proof.Machine
end

