-- ==== Sys2Proof/Machine/Sync.lean ====
section
/-! DEFINITION. Publication and acquire, fences and drains, home atomics and fabric reductions
(R132, R157 to R159, R205, R239 to R243). -/

namespace Sys2Proof.Machine

/-- The sequence-exhaustion trap of a release (R142, R432), or the rest. -/
def State.releasing (s : State) (k : State → State) : State :=
  if s.me.pub.exhausted then s.trap 24 (BitVec.ofNat 64 s.me.pub.lseq) else k s

/-- The release of an instruction that may wait after it, and be executed again: a checkpoint follows it at once, so that
no rollback reaches back past its stamp (R161). With an empty span it is not made twice. -/
def State.releaseOnce (s : State) : State :=
  if s.me.pub.log.any (fun r => r.owner == .free) then (s.release s.cur).ckCycle s.cur else s.release s.cur

/-- REL (R239). -/
def execRel (s : State) : Out :=
  s.run .rel [] [] 0 (fun t => t.releasing (fun u => (u.release u.cur).retireCk 1))

/-! ### Acquires -/

/-- Issues an acquire of writers and retires, once its queries may leave: after every earlier release is stamped (R141,
R240). -/
def State.acquire (s : State) (ws : List (Nat × Option Nat)) (hz : Option (Nat × Nat)) : State :=
  let id := s.me.nextId
  if !s.me.pub.acts.isEmpty then s.stall .acquire
  else
  ((s.onMe (fun c => { c with nextId := c.nextId + 1 })).startAcquire s.cur id ws hz).retire 1

/-- ACQ (R240). -/
def execAcq (rs1 : XReg) (e1 : BitVec 1) (s : State) : Out :=
  s.run (.acq rs1 e1) [rs1] (eSrc rs1 e1) 0 (fun t =>
    let e := (t.x rs1).toNat % 2 ^ 32
    if t.permits t.cur e then t.acquire [(e, none)] none else t.trap 11 (BitVec.ofNat 64 e))

/-- ACQM (R149, R240): the members named by a mask; bits that name no member are ignored. -/
def execAcqm (rs1 : XReg) (e1 : BitVec 1) (s : State) : Out :=
  s.run (.acqm rs1 e1) [rs1] (eSrc rs1 e1) 0 (fun t =>
    let m := (t.x rs1).toNat
    if 256 ≤ m then t.illegal (.acqm rs1 e1)
    else t.acquire (((maskCores m).filterMap (fun i => t.teamMember t.cur i)).map (fun e => (t.epId e, none))) none)

/-- ACQG (R149, R240): the endpoints of a log-group entry; an unused entry names no writer. -/
def execAcqg (rs1 : XReg) (e1 : BitVec 1) (s : State) : Out :=
  s.run (.acqg rs1 e1) [rs1] (eSrc rs1 e1) 0 (fun t =>
    let g := (t.x rs1).toNat
    if 15 < g then t.illegal (.acqg rs1 e1)
    else
      let e := t.readNat (t.descTabb t.cur t.me.vdev + 0x200 + 8 * g) 8
      t.acquire (if rectHeight e = 0 then []
                 else (List.range (groupSize e)).map (fun m => (t.epId (groupMember e m), none))) none)

/-- ACQV (R151, R240). -/
def execAcqv (s : State) : Out :=
  s.run .acqv [] [] 0 (fun t => t.acquire [] (some (t.now, t.me.pub.clk)))

/-! ### Drains and fences -/

/-- Whether the core has an earlier copy on a path under way (R132). -/
def State.copyPending (s : State) (ep path : Nat) : Bool :=
  (s.cluster (clusterOf ep)).copies.any (fun c => c.core == ep && c.path == path)

/-- Kiln writes to scratchpad (R132 path K). -/
def isKilnStore : Instr → Bool
  | .vst .. | .vsct .. | .kst .. => true
  | _ => false

/-- Whether the core has an earlier kiln write to scratchpad queued or in flight. -/
def State.kilnStorePending (s : State) (ep : Nat) : Bool :=
  (s.core ep).dq.any (fun k => isKilnStore k.ins) ||
  (s.kiln (quadOf ep)).flight.any (fun f => f.core == ep && isKilnStore f.cmd.ins)

/-- A drain retires when its path is quiet (R241). -/
def drain (i : Instr) (busy : State → Bool) (s : State) : Out :=
  s.run i [] [] 0 (fun t => if busy t then t.stall .drain else t.retire 1)

/-- DRAIN.S (R241). -/
def execDrainS (s : State) : Out := drain .drainS (fun t => t.copyPending t.cur 0) s

/-- DRAIN.G (R241). -/
def execDrainG (s : State) : Out := drain .drainG (fun t => t.copyPending t.cur 1) s

/-- DRAIN.R (R241). -/
def execDrainR (s : State) : Out := drain .drainR (fun t => t.copyPending t.cur 2) s

/-- DRAIN.K (R241). -/
def execDrainK (s : State) : Out := drain .drainK (fun t => t.kilnStorePending t.cur) s

/-- FENCE (R159, R205): a release and the four drains, whatever pred, succ and fm. A release that waits for an earlier
post's status keeps it waiting too, so that later MMIO accesses follow the stamp. -/
def execFence (fm : BitVec 1) (p q : BitVec 4) (s : State) : Out :=
  s.run (.fence fm p q) [] [] 0 (fun t =>
    t.releasing (fun u =>
      let v := u.releaseOnce
      if !v.me.pub.acts.isEmpty || v.copyPending v.cur 0 || v.copyPending v.cur 1 || v.copyPending v.cur 2 || v.kilnStorePending v.cur
      then v.stall .drain else v.retireCk 1))

/-- FENCE.I (R159, R205): a release, then its acknowledgement; then the core's instruction lines are invalid. -/
def execFenceI (s : State) : Out :=
  s.run .fenceI [] [] 0 (fun t =>
    t.releasing (fun u =>
      let v := u.releaseOnce
      if !v.me.pub.acts.isEmpty || !v.me.pub.chMeets v.me.pub.lseq then v.stall .drain
      else (v.onMe (fun c => { c with ilines := [] })).retireCk 8))

/-! ### Home atomics (R157, R242) -/

/-- The unpublished records of a word, which an atomic carries and which leave the log (R157). -/
def isCarried (x : Xlat) (r : LogRec) : Bool :=
  r.addr == x.pa - x.pa % 8 && r.csel == x.csel && (match r.owner with
    | .free => true
    | .act _ => true
    | _ => false)

/-- The records of a word that are stamped and not yet acknowledged: they stay in the log behind an atomic (R153, R157). -/
def isLeft (x : Xlat) (r : LogRec) : Bool :=
  r.addr == x.pa - x.pa % 8 && r.csel == x.csel && !(r.owner == .acked) && !isCarried x r

/-- Takes the carried records out of the log, those of the extension from there; the place that one of them leaves in the
extension is passed as an acknowledged record's is (R139, R157, R160). -/
def State.takeCarried (s : State) (ep : Nat) (x : Xlat) : List LogRec × State :=
  let c := s.core ep
  ((s.readExt c.vdev ep (isCarried x) c.pub.extAt c.pub.log).filter (isCarried x),
   s.onCore ep (fun c => { c with pub := ({ c.pub with
     opened := false,
     log := (c.pub.log.filter (fun r => !isCarried x r || r.spilled)).map (fun r =>
       if isCarried x r then { r with owner := .acked } else r) } : Pub).trim }))

/-- The address checks of ATOM and RED (R242, R243), then the rest with the translation. -/
def State.atomAddr (s : State) (a : Word) (n : Nat) (k : Xlat → State → State) : State :=
  if a.toNat % n ≠ 0 then s.trap 6 a
  else
    let r := s.translate s.asker a.toNat n .rw
    let t := r.2
    match r.1 with
    | .bad c => t.trap c a
    | .poison pa => t.consume pa
    | .ats => t.stall .fill
    | .glob x => if t.locked s.cur (.glob x) a.toNat n true then t.lockTrap a else k x t
    | _ => t.trap 8 a

/-- An ATOM: a reservation, rd empty, the request with the carried records (R242). -/
def State.atom (s : State) (rd : XReg) (a v w : Word) (n : Nat) (op : AtomOp) : State :=
  if decide (a.toNat % n = 0) && s.walkWaits s.asker a.toNat then s.stall .acquire
  else
  s.atomAddr a n (fun x t =>
    if !t.me.acqs.isEmpty then t.stall .acquire
    else if 16 ≤ t.me.reserved then t.stall .reply
    else
      let cr := t.takeCarried t.cur x
      let c := cr.2.me
      let q : Req := { id := c.nextId, kind := .atom n, rd := rd, fid := c.run.fid, level := c.run.level,
                       vdev := c.vdev, gen := c.gen, x := x, succ := none, pc := c.run.pc,
                       olds := (c.pub.log.filter (isLeft x)).length }
      let u := cr.2.onMe (fun d => { d with reqs := d.reqs ++ [q], nextId := d.nextId + 1, run := d.run.setEmpty rd })
      ((u.send (u.pktFrom u.cur x.home 0 40 (.atom c.nextId x.pa x.set n op v w c.pub.clk cr.1))).watch a n 3).retireCk 1)

/-- An ATOM.op in E format. -/
def atomI (i : Instr) (rd rs1 rs2 : XReg) (e1 e2 : BitVec 1) (n : Nat) (op : AtomOp) (s : State) : Out :=
  s.run i [rs1, rs2] (eSrc rs1 e1 ++ eSrc rs2 e2) rd (fun t => t.atom rd (t.x rs1) (t.x rs2) 0 n op)

/-- ATOM.ADD (R242). -/
def execAtomAdd (rd rs1 rs2 : XReg) (e1 e2 : BitVec 1) (s : State) : Out :=
  atomI (.atomAdd rd rs1 rs2 e1 e2) rd rs1 rs2 e1 e2 8 .add s

/-- ATOM.AND (R242). -/
def execAtomAnd (rd rs1 rs2 : XReg) (e1 e2 : BitVec 1) (s : State) : Out :=
  atomI (.atomAnd rd rs1 rs2 e1 e2) rd rs1 rs2 e1 e2 8 .and s

/-- ATOM.OR (R242). -/
def execAtomOr (rd rs1 rs2 : XReg) (e1 e2 : BitVec 1) (s : State) : Out :=
  atomI (.atomOr rd rs1 rs2 e1 e2) rd rs1 rs2 e1 e2 8 .or s

/-- ATOM.XOR (R242). -/
def execAtomXor (rd rs1 rs2 : XReg) (e1 e2 : BitVec 1) (s : State) : Out :=
  atomI (.atomXor rd rs1 rs2 e1 e2) rd rs1 rs2 e1 e2 8 .xor s

/-- ATOM.MIN (R242). -/
def execAtomMin (rd rs1 rs2 : XReg) (e1 e2 : BitVec 1) (s : State) : Out :=
  atomI (.atomMin rd rs1 rs2 e1 e2) rd rs1 rs2 e1 e2 8 .min s

/-- ATOM.MAX (R242). -/
def execAtomMax (rd rs1 rs2 : XReg) (e1 e2 : BitVec 1) (s : State) : Out :=
  atomI (.atomMax rd rs1 rs2 e1 e2) rd rs1 rs2 e1 e2 8 .max s

/-- ATOM.MINU (R242). -/
def execAtomMinu (rd rs1 rs2 : XReg) (e1 e2 : BitVec 1) (s : State) : Out :=
  atomI (.atomMinu rd rs1 rs2 e1 e2) rd rs1 rs2 e1 e2 8 .minu s

/-- ATOM.MAXU (R242). -/
def execAtomMaxu (rd rs1 rs2 : XReg) (e1 e2 : BitVec 1) (s : State) : Out :=
  atomI (.atomMaxu rd rs1 rs2 e1 e2) rd rs1 rs2 e1 e2 8 .maxu s

/-- ATOM.SWAP (R242). -/
def execAtomSwap (rd rs1 rs2 : XReg) (e1 e2 : BitVec 1) (s : State) : Out :=
  atomI (.atomSwap rd rs1 rs2 e1 e2) rd rs1 rs2 e1 e2 8 .swap s

/-- ATOM.ADD.W (R242). -/
def execAtomAddW (rd rs1 rs2 : XReg) (e1 e2 : BitVec 1) (s : State) : Out :=
  atomI (.atomAddW rd rs1 rs2 e1 e2) rd rs1 rs2 e1 e2 4 .add s

/-- ATOM.AND.W (R242). -/
def execAtomAndW (rd rs1 rs2 : XReg) (e1 e2 : BitVec 1) (s : State) : Out :=
  atomI (.atomAndW rd rs1 rs2 e1 e2) rd rs1 rs2 e1 e2 4 .and s

/-- ATOM.OR.W (R242). -/
def execAtomOrW (rd rs1 rs2 : XReg) (e1 e2 : BitVec 1) (s : State) : Out :=
  atomI (.atomOrW rd rs1 rs2 e1 e2) rd rs1 rs2 e1 e2 4 .or s

/-- ATOM.XOR.W (R242). -/
def execAtomXorW (rd rs1 rs2 : XReg) (e1 e2 : BitVec 1) (s : State) : Out :=
  atomI (.atomXorW rd rs1 rs2 e1 e2) rd rs1 rs2 e1 e2 4 .xor s

/-- ATOM.MIN.W (R242). -/
def execAtomMinW (rd rs1 rs2 : XReg) (e1 e2 : BitVec 1) (s : State) : Out :=
  atomI (.atomMinW rd rs1 rs2 e1 e2) rd rs1 rs2 e1 e2 4 .min s

/-- ATOM.MAX.W (R242). -/
def execAtomMaxW (rd rs1 rs2 : XReg) (e1 e2 : BitVec 1) (s : State) : Out :=
  atomI (.atomMaxW rd rs1 rs2 e1 e2) rd rs1 rs2 e1 e2 4 .max s

/-- ATOM.MINU.W (R242). -/
def execAtomMinuW (rd rs1 rs2 : XReg) (e1 e2 : BitVec 1) (s : State) : Out :=
  atomI (.atomMinuW rd rs1 rs2 e1 e2) rd rs1 rs2 e1 e2 4 .minu s

/-- ATOM.MAXU.W (R242). -/
def execAtomMaxuW (rd rs1 rs2 : XReg) (e1 e2 : BitVec 1) (s : State) : Out :=
  atomI (.atomMaxuW rd rs1 rs2 e1 e2) rd rs1 rs2 e1 e2 4 .maxu s

/-- ATOM.SWAP.W (R242). -/
def execAtomSwapW (rd rs1 rs2 : XReg) (e1 e2 : BitVec 1) (s : State) : Out :=
  atomI (.atomSwapW rd rs1 rs2 e1 e2) rd rs1 rs2 e1 e2 4 .swap s

/-- ATOM.CAS (R242): expected in rs2, new in rs3. -/
def execAtomCas (rd rs1 rs2 rs3 : XReg) (s : State) : Out :=
  s.run (.atomCas rd rs1 rs2 rs3) [rs1, rs2, rs3] [] rd (fun t => t.atom rd (t.x rs1) (t.x rs2) (t.x rs3) 8 .cas)

/-- ATOM.CAS.W (R242). -/
def execAtomCasW (rd rs1 rs2 rs3 : XReg) (s : State) : Out :=
  s.run (.atomCasW rd rs1 rs2 rs3) [rs1, rs2, rs3] [] rd (fun t => t.atom rd (t.x rs1) (t.x rs2) (t.x rs3) 4 .cas)

/-! ### Reductions (R158, R243, R325) -/

/-- Whether an address lies in the device's reduction window on its home chip (R325). -/
def State.inWindow (s : State) (v : Nat) (x : Xlat) : Bool :=
  let w := s.mmioWord (0x021000010000 + 8 * v)
  let base := 2 ^ 21 * bitsOf w 21 27
  bitOf w 63 && decide (base ≤ x.pa) && decide (x.pa < base + 2 ^ 21 * bitsOf w 48 14)

/-- A RED contribution (R158): stamped and sent on the reduction class inside the window, else executed at the home. -/
def State.red (s : State) (a v : Word) (n : Nat) (op : AtomOp) : State :=
  s.atomAddr a n (fun x t =>
    let me := t.epId t.cur
    let t0 := t.onMe (fun c => { c with pub := { c.pub with opened := false } })
    let u :=
      if t.inWindow t.me.vdev x then
        let q := t.me.pub.nextSeq
        let t1 := t0.onMe (fun c => { c with pub := { c.pub with clk := q } })
        let enr := bitOf (t.mmioWord (0x021000010000 + 8 * t.me.vdev)) 62
        t1.send { t1.pktFrom t1.cur x.home 4 40 (.red x.pa x.set n op v q me 1 true q []) with redok := enr }
      else
        let cr := t0.takeCarried t0.cur x
        cr.2.send (cr.2.pktFrom t0.cur x.home 0 40 (.red x.pa x.set n op v 0 me 1 false cr.2.me.pub.clk cr.1))
    (u.watch a n 2).retireCk 1)

/-- A RED in E format. -/
def redI (i : Instr) (rs1 rs2 : XReg) (e1 e2 : BitVec 1) (n : Nat) (op : AtomOp) (s : State) : Out :=
  s.run i [rs1, rs2] (eSrc rs1 e1 ++ eSrc rs2 e2) 0 (fun t => t.red (t.x rs1) (t.x rs2) n op)

/-- RED.ADD (R243). -/
def execRedAdd (rs1 rs2 : XReg) (e1 e2 : BitVec 1) (s : State) : Out :=
  redI (.redAdd rs1 rs2 e1 e2) rs1 rs2 e1 e2 8 .add s

/-- RED.ADDF (R243). -/
def execRedAddf (rs1 rs2 : XReg) (e1 e2 : BitVec 1) (s : State) : Out :=
  redI (.redAddf rs1 rs2 e1 e2) rs1 rs2 e1 e2 8 .addf s

/-- RED.MIN (R243). -/
def execRedMin (rs1 rs2 : XReg) (e1 e2 : BitVec 1) (s : State) : Out :=
  redI (.redMin rs1 rs2 e1 e2) rs1 rs2 e1 e2 8 .min s

/-- RED.MAX (R243). -/
def execRedMax (rs1 rs2 : XReg) (e1 e2 : BitVec 1) (s : State) : Out :=
  redI (.redMax rs1 rs2 e1 e2) rs1 rs2 e1 e2 8 .max s

/-- RED.ADD.W (R243). -/
def execRedAddW (rs1 rs2 : XReg) (e1 e2 : BitVec 1) (s : State) : Out :=
  redI (.redAddW rs1 rs2 e1 e2) rs1 rs2 e1 e2 4 .add s

/-- RED.ADDF.W (R243). -/
def execRedAddfW (rs1 rs2 : XReg) (e1 e2 : BitVec 1) (s : State) : Out :=
  redI (.redAddfW rs1 rs2 e1 e2) rs1 rs2 e1 e2 4 .addf s

/-- RED.MIN.W (R243). -/
def execRedMinW (rs1 rs2 : XReg) (e1 e2 : BitVec 1) (s : State) : Out :=
  redI (.redMinW rs1 rs2 e1 e2) rs1 rs2 e1 e2 4 .min s

/-- RED.MAX.W (R243). -/
def execRedMaxW (rs1 rs2 : XReg) (e1 e2 : BitVec 1) (s : State) : Out :=
  redI (.redMaxW rs1 rs2 e1 e2) rs1 rs2 e1 e2 4 .max s

end Sys2Proof.Machine
end

