-- ==== Sys2Proof/Machine/CopyIssue.lean ====
section
/-! DEFINITION. Issuing copies, the byte counter, COPYQ and PREF (R133, R244 to R251). -/

namespace Sys2Proof.Machine

/-- A translation's fault (R244). -/
def Target.fault : Target → Option Nat
  | .bad c => some c
  | _ => none

/-- Whether a copy's end may lie there: global memory, a scratchpad or the host's, not MMIO or the queue window (R244). -/
def Target.copyable : Target → Bool
  | .glob _ => true
  | .spad _ _ => true
  | .spadFar _ _ _ => true
  | _ => false

/-- The access path of a destination (R132). -/
def State.pathOf (s : State) : Target → Nat
  | .glob x => if x.chip = s.chip then 1 else 2
  | _ => 0

/-- The range lock of a range whose first byte has a target (R133): a scratchpad of any chip by its core-array range. -/
def lockOf (owner : Nat) (dst : Bool) (vdev chip : Nat) (t : Target) (va lo len : Nat) : RangeLock :=
  match t with
  | .spad e off =>
    { owner := owner, dst := dst, space := .array chip, lo := arrayBase e + off + lo - va, len := len, cores := [] }
  | .spadFar far e off =>
    { owner := owner, dst := dst, space := .array far, lo := arrayBase e + off + lo - va, len := len, cores := [] }
  | _ => { owner := owner, dst := dst, space := .virt vdev, lo := lo, len := len, cores := [] }

/-- What a copy's issue has checked and read. -/
structure CopyPlan where
  rd : XReg
  rows : List (Nat × Nat × Nat)
  members : List Nat
  path : Nat
  /-- with owner 0: the issue puts the copy's own -/
  locks : List RangeLock
  empty : Bool

/-- Issues a copy whose operands are checked (R244): slot and lock entries, successor, counter, tag. A copy of no bytes
waits for no slot either, as it takes none: the model's choice (log entry 69). -/
def State.issueCopy (s : State) (p : CopyPlan) : State :=
  let k := clusterOf s.cur
  if !p.empty && decide (8 ≤ ((s.cluster k).copies.filter (fun c => c.core == s.cur && !c.paused)).length) then s.stall .copySlot
  else if !p.empty && decide (32 < (s.cluster k).liveLocks.length + p.locks.length) then s.stall .locks
  else
    s.withSucc (fun r t =>
      let c := t.me
      let id := (t.cluster k).nextCopy
      let t1 := (t.onMe (fun d => { d with tag := (d.tag + 1) % 65536, run := { d.run with counter := none } })).setX p.rd
        (BitVec.ofNat 64 c.tag)
      if p.empty then
        let t2 := t1.pushQ t1.cur c.run.level 4 (BitVec.ofNat 64 c.tag)
        (match r with
         | some q => t2.postSucc t2.cur q t2.me.pub.lseq
         | none => t2).retireCk 2
      else
        let cp : Copy :=
          { id := id, core := t.cur, tag := c.tag, level := c.run.level, vdev := c.vdev, gen := c.gen, fkey := c.fkey,
            sup := c.run.sup, rows := p.rows, members := p.members, path := p.path, pasid := c.run.pasid, nextNo := 0,
            flight := [], srcs := [], landed := 0, homes := [], seq := none, stamps := 0, succ := r, hasSucc := r.isSome,
            counter := c.run.counter, nxr := c.run.nxr, failed := none, silent := false, paused := false }
        (t1.onCluster k (fun d => { d with
          copies := d.copies ++ [cp], locks := d.locks ++ p.locks.map (fun l => { l with owner := 2 * id }),
          nextCopy := id + 1 })).retireCk 2)

/-- The two translations of R244, then its class checks, then the rest with both targets; a fault names the address that
faulted. -/
def State.copyEnds (s : State) (src dst : Word) (k : Target → Target → State → State) : State :=
  let r := s.translate s.asker src.toNat 1 .r
  match r.1, r.1.fault with
  | .poison pa, _ => r.2.consume pa
  | .ats, _ => r.2.stall .fill
  | _, some c => r.2.trap c src
  | ts, none =>
    let q := r.2.translate s.asker dst.toNat 1 .w
    match q.1, q.1.fault with
    | .poison pa, _ => q.2.consume pa
    | .ats, _ => q.2.stall .fill
    | _, some c => q.2.trap c dst
    | td, none =>
      if !ts.copyable then q.2.trap 8 src
      else if !td.copyable then q.2.trap 8 dst
      else k ts td q.2

/-- COPY (R245). -/
def execCopy (rd rs1 rs2 rs3 : XReg) (s : State) : Out :=
  s.run (.copy rd rs1 rs2 rs3) [rs1, rs2, rs3] [] rd (fun t =>
    let n := (t.x rs3).toNat
    if 2 ^ 32 ≤ n then t.illegal (.copy rd rs1 rs2 rs3)
    else
      t.copyEnds (t.x rs1) (t.x rs2) (fun ts td u =>
        let a := (t.x rs1).toNat
        let b := (t.x rs2).toNat
        let v := u.me.vdev
        u.issueCopy { rd := rd, rows := [(a, b, n)], members := [], path := u.pathOf td,
                      locks := [lockOf 0 false v u.chip ts a a n, lockOf 0 true v u.chip td b b n], empty := n == 0 }))

/-- Bytes [0, 32) of a COPY2D descriptor as four 8-byte loads (R246). -/
def desc2d (s : State) (a : Word) (k : List Byte → State → State) : State :=
  s.withData a (s.fetchData a.toNat 8 true) (fun b0 t0 =>
    t0.withData (a + 8) (t0.fetchData (a + 8).toNat 8 true) (fun b1 t1 =>
      t1.withData (a + 16) (t1.fetchData (a + 16).toNat 8 true) (fun b2 t2 =>
        t2.withData (a + 24) (t2.fetchData (a + 24).toNat 8 true) (fun b3 t3 => k (b0 ++ b1 ++ b2 ++ b3) t3))))

/-- Row addresses of a two-dimensional copy: base, and signed stride (R246). -/
def rowAddr (base : Word) (stride : Word) (j : Nat) : Nat := (base + BitVec.ofNat 64 j * stride).toNat

/-- The smallest byte range that holds all rows (R133): its first address and its length. -/
def rowSpan (base stride : Word) (rows bytes : Nat) : Nat × Nat :=
  let a := rowAddr base stride 0
  let b := rowAddr base stride (rows - 1)
  (min a b, max a b - min a b + bytes)

/-- COPY2D (R246). More than 65,535 rows, which no trap of the rule names, raise the illegal-instruction trap: the model's
choice (log entry 68). -/
def execCopy2d (rd rs1 rs2 rs3 : XReg) (s : State) : Out :=
  s.run (.copy2d rd rs1 rs2 rs3) [rs1, rs2, rs3] [] rd (fun t =>
    if (t.x rs3).toNat % 8 ≠ 0 then t.trap 6 (t.x rs3)
    else
      desc2d t (t.x rs3) (fun d u0 =>
        let rb := natAt d 0 4
        let n := natAt d 4 4
        if rb = 0 ∨ n = 0 ∨ 65535 < n ∨ 2 ^ 32 ≤ rb * n ∨ natAt d 24 8 ≠ 0 then u0.illegal (.copy2d rd rs1 rs2 rs3)
        else
          u0.copyEnds (t.x rs1) (t.x rs2) (fun ts td u =>
            let a := t.x rs1
            let b := t.x rs2
            let ss := wordAt d 8
            let ds := wordAt d 16
            let v := u.me.vdev
            let sp := rowSpan a ss n rb
            let dp := rowSpan b ds n rb
            u.issueCopy { rd := rd, rows := (List.range n).map (fun j => (rowAddr a ss j, rowAddr b ds j, rb)),
                          members := [], path := u.pathOf td,
                          locks := [lockOf 0 false v u.chip ts a.toNat sp.1 sp.2, lockOf 0 true v u.chip td b.toNat dp.1 dp.2],
                          empty := false })))

/-- COPYB (R247): into the scratchpads of the members named. -/
def execCopyb (rd rs1 rs2 rs3 : XReg) (s : State) : Out :=
  s.run (.copyb rd rs1 rs2 rs3) [rs1, rs2, rs3] [] rd (fun t =>
    let w := (t.x rs3).toNat
    let n := bitsOf w 0 32
    let m := bitsOf w 32 8
    if 2 ^ 40 ≤ w ∨ m = 0 then t.illegal (.copyb rd rs1 rs2 rs3)
    else
      let off := (t.x rs2).toNat
      let eps := (maskCores m).map (fun i => t.teamMember t.cur i)
      let ok := decide (off < 0x20000) && eps.all (fun e => match e with
        | some e => decide (off + n ≤ (t.core e).carve.spadSize)
        | none => false)
      if !ok then t.trap 8 (t.x rs2)
      else
        let r := t.translate t.asker (t.x rs1).toNat 1 .r
        match r.1, r.1.fault with
        | .poison pa, _ => r.2.consume pa
        | .ats, _ => r.2.stall .fill
        | _, some c => r.2.trap c (t.x rs1)
        | ts, none =>
          if !ts.copyable then r.2.trap 8 (t.x rs1)
          else
            let a := (t.x rs1).toNat
            let v := r.2.me.vdev
            r.2.issueCopy { rd := rd, rows := [(a, off, n)], members := eps.filterMap (fun e => e), path := 0,
                            locks := [lockOf 0 false v s.chip ts a a n,
                              { owner := 0, dst := true, space := .array s.chip, lo := off, len := n,
                                cores := (eps.filterMap (fun e => e)).map coreNo }],
                            empty := n == 0 })

/-- CPCNT (R248): arms the byte counter, or disarms it with rs1 = x0. -/
def execCpcnt (rs1 : XReg) (e1 : BitVec 1) (s : State) : Out :=
  s.run (.cpcnt rs1 e1) [rs1] (eSrc rs1 e1) 0 (fun t =>
    let a := t.x rs1
    if rs1 = 0 then (t.onFrame (fun f => { f with counter := none })).retire 1
    else if a.toNat % 4 ≠ 0 then t.trap 6 a
    else if 0x7E0000000000 ≤ a.toNat ∧ a.toNat + 4 ≤ 0x7E0000000000 + t.me.carve.spadSize then
      (t.onFrame (fun f => { f with counter := some (a.toNat - 0x7E0000000000) })).retire 1
    else t.trap 8 a)

/-- COPYQ (R250): bytes landed of the core's copy with a tag, all ones when none is in flight. -/
def execCopyq (rd rs1 : XReg) (e1 : BitVec 1) (s : State) : Out :=
  s.run (.copyq rd rs1 e1) [rs1] (eSrc rs1 e1) rd (fun t =>
    let v := match (t.cluster (clusterOf t.cur)).copies.find? (fun c =>
        c.core == t.cur && c.tag == (t.x rs1).toNat % 65536) with
      | some c => BitVec.ofNat 64 (c.landed + c.flight.foldl (fun m f => if f.landed then m + f.n else m) 0)
      | none => BitVec.allOnes 64
    (t.setX rd v).retire 3)

/-- PREF (R251): requests the fill of a sector, held or not; it never traps. While its translation is awaited it waits as
any access does (R361, R367). Which bytes it takes for aligned and range-locked the spec leaves open: 8 for the first, and
the one at x[rs1] against destination ranges for the second (log entry 22). -/
def execPref (rs1 : XReg) (e1 : BitVec 1) (s : State) : Out :=
  s.run (.pref rs1 e1) [rs1] (eSrc rs1 e1) 0 (fun t =>
    let a := (t.x rs1).toNat
    let r := t.translate t.asker a 1 .r
    if r.1 == .ats then r.2.stall .fill
    else
    (match r.1 with
     | .glob x =>
       if a % 8 = 0 ∧ !r.2.locked t.cur (.glob x) a 1 false then
         (r.2.onMe (fun d => { d with nextId := d.nextId + 1 })).askFill t.cur r.2.me.nextId x
       else r.2
     | _ => r.2).retire 1)

end Sys2Proof.Machine
end

