-- ==== Sys2Proof/Machine/Flags.lean ====
section
/-! DEFINITION. The sticky flags of KFLAGS (R76, R108, R109) and the formats of R92 with their decoding, exact
arithmetic, rounding, encoding and flags (R92 to R107, R114). -/

namespace Sys2Proof.Machine

/-! ### Flags -/

def flOF : BitVec 7 := 1
def flSAT : BitVec 7 := 2
def flINV : BitVec 7 := 4
def flUF : BitVec 7 := 8
def flREG : BitVec 7 := 16
def flCHK : BitVec 7 := 32
def flPART : BitVec 7 := 64

/-- ORs flags into a state set (R109). -/
def KSet.flag (k : KSet) (f : BitVec 7) : KSet := { k with flags := k.flags ||| f }

/-! ### Formats (R92, R94, R166) -/

inductive Fmt where
  | fp32 | bf16 | fp16 | e4m3 | e5m2 | ps8 | int8 | int32
deriving DecidableEq, Repr

def Fmt.ofCode (c : Nat) : Fmt :=
  match c with
  | 0 => .fp32
  | 1 => .bf16
  | 2 => .fp16
  | 3 => .e4m3
  | 4 => .e5m2
  | 5 => .ps8
  | 6 => .int8
  | _ => .int32

/-- Element width in bits (R103). -/
def Fmt.width : Fmt → Nat
  | .fp32 => 32
  | .int32 => 32
  | .bf16 => 16
  | .fp16 => 16
  | _ => 8

/-- Fraction bits of a floating format. -/
def Fmt.frac : Fmt → Nat
  | .fp32 => 23
  | .bf16 => 7
  | .fp16 => 10
  | .e4m3 => 3
  | .e5m2 => 2
  | _ => 0

/-- Exponent bits of a floating format. -/
def Fmt.ebits : Fmt → Nat
  | .fp32 => 8
  | .bf16 => 8
  | .fp16 => 5
  | .e4m3 => 4
  | .e5m2 => 5
  | _ => 0

def Fmt.bias : Fmt → Int
  | .fp32 => 127
  | .bf16 => 127
  | .fp16 => 15
  | .e4m3 => 7
  | .e5m2 => 15
  | _ => 0

/-- Exponent of the smallest normal. -/
def Fmt.emin (f : Fmt) : Int := 1 - f.bias

def Fmt.isInt : Fmt → Bool
  | .int8 => true
  | .int32 => true
  | _ => false

/-- Whether a floating target has an infinity, or NaNs, under an NXR (R93, R94). -/
def Fmt.hasInf (f : Fmt) (nxr : Bool) : Bool :=
  match f with
  | .fp32 => true
  | .bf16 => true
  | .fp16 => true
  | .e5m2 => !nxr
  | _ => false

def Fmt.hasNan (f : Fmt) (nxr : Bool) : Bool := f.hasInf nxr || (f == .e4m3 && !nxr)

/-- The largest finite value: significand and exponent (R92, R94). -/
def Fmt.largest (f : Fmt) (nxr : Bool) : Nat × Int :=
  match f with
  | .fp32 => (2 ^ 24 - 1, 104)
  | .bf16 => (255, 120)
  | .fp16 => (2047, 5)
  | .e4m3 => if nxr then (15, 5) else (7, 6)
  | .e5m2 => if nxr then (7, 14) else (7, 13)
  | _ => (0, 0)

/-- The bits of the largest finite value, without sign. -/
def Fmt.largestBits (f : Fmt) (nxr : Bool) : Nat :=
  match f with
  | .fp32 => 0x7F7FFFFF
  | .bf16 => 0x7F7F
  | .fp16 => 0x7BFF
  | .e4m3 => if nxr then 0x7F else 0x7E
  | .e5m2 => if nxr then 0x7F else 0x7B
  | _ => 0

/-- The canonical NaN (R97). -/
def Fmt.nanBits (f : Fmt) : Nat :=
  match f with
  | .fp32 => 0x7FC00000
  | .bf16 => 0x7FC0
  | .fp16 => 0x7E00
  | .e4m3 => 0x7F
  | .e5m2 => 0x7E
  | _ => 0

/-- The bits of +infinity. -/
def Fmt.infBits (f : Fmt) : Nat :=
  match f with
  | .fp32 => 0x7F800000
  | .bf16 => 0x7F80
  | .fp16 => 0x7C00
  | .e5m2 => 0x7C
  | _ => 0

/-! ### Exact values -/

/-- A value: NaN, an infinity, or ± m × 2^e exactly; a zero keeps its sign. -/
inductive Fp where
  | nan
  | inf (neg : Bool)
  | fin (neg : Bool) (m : Nat) (e : Int)
deriving DecidableEq, Repr

def Fp.zero : Fp := .fin false 0 0

/-- Two to a non-negative integer power. -/
def pow2 (e : Int) : Nat := 2 ^ e.toNat

/-- The signed significand of a finite value at exponent e0, which is at most its own. -/
def scaled (neg : Bool) (m : Nat) (e e0 : Int) : Int :=
  let v : Int := m * pow2 (e - e0)
  if neg then -v else v

/-- x + y, exactly; an exact zero sum is +0 unless both are −0 (R96). -/
def Fp.add (x y : Fp) : Fp :=
  match x, y with
  | .nan, _ => .nan
  | _, .nan => .nan
  | .inf a, .inf b => if a = b then .inf a else .nan
  | .inf a, _ => .inf a
  | _, .inf b => .inf b
  | .fin a m e, .fin b n f =>
    let e0 := min e f
    let s := scaled a m e e0 + scaled b n f e0
    if s = 0 then .fin (a && b) 0 0 else .fin (decide (s < 0)) s.natAbs e0

def Fp.neg : Fp → Fp
  | .nan => .nan
  | .inf a => .inf (!a)
  | .fin a m e => .fin (!a) m e

/-- x × y, exactly; 0 × ∞ is NaN. -/
def Fp.mul (x y : Fp) : Fp :=
  match x, y with
  | .nan, _ => .nan
  | _, .nan => .nan
  | .inf a, .inf b => .inf (a != b)
  | .inf a, .fin b n _ => if n = 0 then .nan else .inf (a != b)
  | .fin a m _, .inf b => if m = 0 then .nan else .inf (a != b)
  | .fin a m e, .fin b n f => if m = 0 ∨ n = 0 then .fin (a != b) 0 0 else .fin (a != b) (m * n) (e + f)

/-- Number of bits of a significand. -/
def bitLen (m : Nat) : Nat := if m = 0 then 0 else Nat.log2 m + 1

/-- x ÷ y with at least 80 significant bits and a sticky last bit: enough for one rounding to any format. -/
def Fp.div (x y : Fp) : Fp :=
  match x, y with
  | .nan, _ => .nan
  | _, .nan => .nan
  | .inf _, .inf _ => .nan
  | .inf a, .fin b _ _ => .inf (a != b)
  | .fin a _ _, .inf b => .fin (a != b) 0 0
  | .fin a m e, .fin b n f =>
    if n = 0 then (if m = 0 then .nan else .inf (a != b))
    else if m = 0 then .fin (a != b) 0 0
    else
      let k := bitLen n + 80
      let q := (m * 2 ^ k) / n
      .fin (a != b) (2 * q + (if (m * 2 ^ k) % n = 0 then 0 else 1)) (e - f - (k : Int) - 1)

/-- The integer square root, by bits from the top: `b` bits remain, `r` is the root so far. -/
def isqrtGo (n : Nat) : Nat → Nat → Nat
  | 0, r => r
  | b + 1, r =>
    let t := r + 2 ^ b
    isqrtGo n b (if t * t ≤ n then t else r)

def isqrt (n : Nat) : Nat := isqrtGo n (bitLen n / 2 + 1) 0

/-- √x of a non-negative finite value, with a sticky last bit. -/
def Fp.sqrt (x : Fp) : Fp :=
  match x with
  | .nan => .nan
  | .inf a => if a then .nan else .inf false
  | .fin a m e =>
    if m = 0 then .fin a 0 0
    else if a then .nan
    else
      let k : Nat := 160
      let odd := e % 2 ≠ 0
      let n := (if odd then 2 * m else m) * 2 ^ (2 * k)
      let e' := if odd then e - 1 else e
      let r := isqrt n
      .fin false (2 * r + (if r * r = n then 0 else 1)) (e' / 2 - (k : Int) - 1)

/-- x < y, x = y on numbers; −0 equals +0. Both false when either is a NaN. -/
def Fp.lt (x y : Fp) : Bool :=
  match x, y with
  | .nan, _ => false
  | _, .nan => false
  | .inf a, .inf b => a && !b
  | .inf a, _ => a
  | _, .inf b => !b
  | .fin a m e, .fin b n f => decide (scaled a m e (min e f) < scaled b n f (min e f))

def Fp.eq (x y : Fp) : Bool :=
  match x, y with
  | .nan, _ => false
  | _, .nan => false
  | .inf a, .inf b => a == b
  | .inf _, _ => false
  | _, .inf _ => false
  | .fin a m e, .fin b n f => decide (scaled a m e (min e f) = scaled b n f (min e f))

def Fp.isNan : Fp → Bool
  | .nan => true
  | _ => false

def Fp.isNeg : Fp → Bool
  | .nan => false
  | .inf a => a
  | .fin a _ _ => a

/-! ### Decoding (R92 to R96, R98) -/

/-- A term of a PS8 byte (R98). -/
def ps8Term (s c : Nat) : Fp := if c = 7 then Fp.zero else .fin (s == 1) 1 (-(c : Int))

/-- The value of an element's bits in a format under an NXR; BF16 subnormals read as zero (R96). -/
def Fmt.dec (f : Fmt) (nxr : Bool) (b : Nat) : Fp :=
  match f with
  | .int8 => let v := b % 256; if v < 128 then .fin false v 0 else .fin true (256 - v) 0
  | .int32 => let v := b % 2 ^ 32; if v < 2 ^ 31 then .fin false v 0 else .fin true (2 ^ 32 - v) 0
  | .ps8 =>
    let v := (ps8Term (bitsOf b 7 1) (bitsOf b 4 3)).add (ps8Term (bitsOf b 3 1) (bitsOf b 0 3))
    match v with
    | .fin _ 0 _ => Fp.zero
    | w => w
  | _ =>
    let m := bitsOf b 0 f.frac
    let e := bitsOf b f.frac f.ebits
    let s := bitOf b (f.frac + f.ebits)
    let top := e == 2 ^ f.ebits - 1
    if top && f.hasInf nxr then (if m = 0 then .inf s else .nan)
    else if top && f == .e4m3 && !nxr && m == 7 then .nan
    else if e = 0 then
      (if f = .bf16 then .fin s 0 0 else .fin s m (f.emin - (f.frac : Int)))
    else .fin s (2 ^ f.frac + m) ((e : Int) - f.bias - (f.frac : Int))

/-! ### Rounding (R104, R105) -/

inductive Mode where
  | ne | tz
  /-- stochastic, with the LFSR's new value u -/
  | sr (u : Nat)
deriving DecidableEq, Repr

/-- m × 2^e rounded to a multiple of 2^q: the multiple. -/
def roundAt (mode : Mode) (m : Nat) (e q : Int) : Nat :=
  if q ≤ e then m * pow2 (e - q)
  else
    let d := pow2 (q - e)
    let hi := m / d
    let rem := m % d
    match mode with
    | .ne => if 2 * rem > d ∨ (2 * rem = d ∧ hi % 2 = 1) then hi + 1 else hi
    | .tz => hi
    | .sr u => if rem = 0 then hi else if u ≤ rem * 65536 / d then hi + 1 else hi

/-- The quantum of the grid R104 chooses for m × 2^e in a floating format. -/
def Fmt.quantum (f : Fmt) (m : Nat) (e : Int) : Int :=
  let top := e + (bitLen m : Int) - 1
  if f ≠ .bf16 ∧ top < f.emin then f.emin - (f.frac : Int) else top - (f.frac : Int)

/-- a × 2^p > b × 2^q. -/
def dyGt (a : Nat) (p : Int) (b : Nat) (q : Int) : Bool :=
  decide (b * pow2 (q - min p q) < a * pow2 (p - min p q))

/-- Assembles the bits of a rounded finite magnitude M × 2^q that is in range. -/
def Fmt.pack (f : Fmt) (M : Nat) (q : Int) : Nat :=
  let top := q + (bitLen M : Int) - 1
  if top < f.emin then M * pow2 (q - (f.emin - (f.frac : Int)))
  else
    let M' := if bitLen M ≤ f.frac + 1 then M * 2 ^ (f.frac + 1 - bitLen M) else M / 2 ^ (bitLen M - (f.frac + 1))
    (top + f.bias).toNat * 2 ^ f.frac + (M' - 2 ^ f.frac)

def Fmt.signBit (f : Fmt) (s : Bool) : Nat := if s then 2 ^ (f.width - 1) else 0

/-- Conversion to a floating format (R104, R107, R96): bits and flags. -/
def Fmt.encFloat (f : Fmt) (nxr : Bool) (mode : Mode) (sat : Bool) (x : Fp) : Nat × BitVec 7 :=
  let saturates := sat || !f.hasInf nxr
  match x with
  | .nan => if f.hasNan nxr then (f.nanBits, flINV) else (0, flINV)
  | .inf s => if saturates then (f.signBit s + f.largestBits nxr, flSAT) else (f.signBit s + f.infBits, 0)
  | .fin s m e =>
    if m = 0 then (f.signBit s, 0)
    else
      let q := f.quantum m e
      let M := roundAt mode m e q
      let lf := f.largest nxr
      if M = 0 then (f.signBit s, flUF)
      else if dyGt M q lf.1 lf.2 then
        (if saturates then (f.signBit s + f.largestBits nxr, flOF ||| flSAT)
         else match mode with
           | .tz => (f.signBit s + f.largestBits nxr, flOF ||| flSAT)
           | _ => (f.signBit s + f.infBits, flOF))
      else if f = .bf16 ∧ q + (bitLen M : Int) - 1 < f.emin then (f.signBit s, flUF)
      else (f.signBit s + f.pack M q, 0)

/-- Conversion to an integer format (R107): the nearest bound outside the range, with SAT; NaN gives 0 with INV. -/
def Fmt.encInt (f : Fmt) (mode : Mode) (x : Fp) : Nat × BitVec 7 :=
  let w := f.width
  let hi := 2 ^ (w - 1) - 1
  match x with
  | .nan => (0, flINV)
  | .inf s => (if s then 2 ^ (w - 1) else hi, flSAT)
  | .fin s m e =>
    let M := roundAt mode m e 0
    if s then (if 2 ^ (w - 1) < M then (2 ^ (w - 1), flSAT) else ((2 ^ w - M) % 2 ^ w, 0))
    else (if hi < M then (hi, flSAT) else (M, 0))

/-- Conversion of R107 to any target. -/
def Fmt.enc (f : Fmt) (nxr : Bool) (mode : Mode) (sat : Bool) (x : Fp) : Nat × BitVec 7 :=
  if f.isInt then f.encInt mode x else f.encFloat nxr mode sat x

/-- The result of an arithmetic operation: one rounding to nearest even (R114). -/
def Fmt.result (f : Fmt) (x : Fp) : Nat × BitVec 7 := f.encFloat false .ne false x

/-! ### VMAX, VMIN (R265) and the special functions (R273) -/

/-- The greater of two values: −0 below +0; one NaN gives the other operand. -/
def Fp.max (x y : Fp) : Fp :=
  match x, y with
  | .nan, _ => y
  | _, .nan => x
  | _, _ => if x.lt y then y else if y.lt x then x else if x.isNeg then y else x

def Fp.min (x y : Fp) : Fp :=
  match x, y with
  | .nan, _ => y
  | _, .nan => x
  | _, _ => if x.lt y then x else if y.lt x then y else if x.isNeg then x else y

def Fp.abs : Fp → Fp
  | .nan => .nan
  | .inf _ => .inf false
  | .fin _ m e => .fin false m e

/-- 1/x: of a zero an infinity of its sign, of an infinity a zero of its sign. -/
def Fp.rcp (x : Fp) : Fp := (Fp.fin false 1 0).div x

/-- 1/√x of R273. -/
def Fp.rsqrt (x : Fp) : Fp :=
  match x with
  | .nan => .nan
  | .inf a => if a then .nan else Fp.zero
  | .fin a m e =>
    if m = 0 then .inf a
    else if a then .nan
    else
      let odd := e % 2 ≠ 0
      let n := if odd then 2 * m else m
      let e' := if odd then e - 1 else e
      let k : Nat := bitLen n + 160
      let r := isqrt (2 ^ (2 * k) / n)
      .fin false (2 * r + (if r * r * n = 2 ^ (2 * k) then 0 else 1)) (-(e' / 2) - (k : Int) - 1)

/-- Fixed-point precision of VEXP2 and VLOG2 (log entry 9). -/
def specialBits : Nat := 320

/-- Product of the constants 2^(2^-i) for the set bits of a fraction, from bit i on; `c` is the constant of bit i. -/
def exp2Frac (frac k : Nat) : Nat → Nat → Nat → Nat
  | 0, _, acc => acc
  | n + 1, c, acc =>
    let i := k - n
    let acc' := if bitOf frac (k - i) then acc * c / 2 ^ specialBits else acc
    exp2Frac frac k n (isqrt (c * 2 ^ specialBits)) acc'

/-- 2^x (R273): exact for an integer x. -/
def Fp.exp2 (x : Fp) : Fp :=
  match x with
  | .nan => .nan
  | .inf a => if a then Fp.zero else .inf false
  | .fin a m e =>
    if m = 0 then .fin false 1 0
    else if decide (0 ≤ e) || decide (8 < e + (bitLen m : Int)) then
      -- an integer, or of magnitude at least 256: beyond every format's range
      let v : Int := if 0 ≤ e ∧ e + (bitLen m : Int) ≤ 12 then m * pow2 e else 4096
      .fin false 1 (if a then -v else v)
    else
      let k := (-e).toNat
      let s : Int := if a then -(m : Int) else m
      let n := s / 2 ^ k
      let fr := (s % 2 ^ k).toNat
      if fr = 0 then .fin false 1 n
      else
        let c1 := isqrt (2 * 2 ^ specialBits * 2 ^ specialBits)
        let p := exp2Frac fr k k c1 (2 ^ specialBits)
        .fin false (2 * p + 1) (n - (specialBits : Int) - 1)

/-- Binary digits of log2 y for y in [1, 2), by squaring a fixed-point y of 640 bits. -/
def log2Digits : Nat → Nat → Nat → Nat
  | 0, _, acc => acc
  | n + 1, y, acc =>
    let y2 := y * y / 2 ^ 640
    if 2 ^ 641 ≤ y2 then log2Digits n (y2 / 2) (2 * acc + 1) else log2Digits n y2 (2 * acc)

/-- log2 x (R273): exact for a power of two. -/
def Fp.log2 (x : Fp) : Fp :=
  match x with
  | .nan => .nan
  | .inf a => if a then .nan else .inf false
  | .fin a m e =>
    if m = 0 then .inf true
    else if a then .nan
    else
      let n : Int := e + (bitLen m : Int) - 1
      let y := m * 2 ^ 640 / 2 ^ (bitLen m - 1)
      if m = 2 ^ (bitLen m - 1) then (if n = 0 then Fp.zero else .fin (decide (n < 0)) n.natAbs 0)
      else
        let fr := log2Digits specialBits y 0
        let v : Int := n * 2 ^ specialBits + fr
        if 0 ≤ v then .fin false (2 * v.natAbs + 1) (-(specialBits : Int) - 1)
        else .fin true (2 * (v.natAbs - 1) + 1) (-(specialBits : Int) - 1)

/-! ### LFSRs (R106) -/

/-- One step of a lane's LFSR. -/
def lfsrStep (s : BitVec 16) : BitVec 16 :=
  let fb := (s ^^^ (s >>> 2) ^^^ (s >>> 3) ^^^ (s >>> 5)) &&& 1
  (s >>> 1) ||| (fb <<< 15)

end Sys2Proof.Machine
end

