-- ==== Sys2Proof/Machine/KilnVec.lean ====
section
/-! DEFINITION. Custom-2 at the core and in the vector section (R252 to R274): how a kiln command enters the dispatch
queue, the checks made there, and what each vector command computes. -/

namespace Sys2Proof.Machine

/-! ### Into the dispatch queue (R252, R275) -/

/-- Steps 1 and 2 of R252 around an instruction's own checks: the gates of R417, the wait for a full queue, then the
registers. -/
def State.runKiln (s : State) (i : Instr) (srcs : List XReg) (k : State → State) : Out :=
  match s.startGate with
  | .done t => .next t
  | .go s1 =>
    match s1.checker with
    | .done t => .next t
    | .go s2 =>
      match s2.fetchGate i with
      | .done t => .next t
      | .go s3 =>
        if 8 ≤ s3.me.dq.length then .next (s3.stall .dispatch)
        else
          match s3.regGate srcs [] 0 with
          | .done t => .next t
          | .go t => .next (if srcs.any (fun r => !t.frame.isLive r) then t.afterDead (k t) else k t)

/-- The pending format codes (R79, R173): bits [2:0] and [5:3] of PFMT. -/
def Frame.code1 (f : Frame) : Nat := bitsOf f.pfmt.toNat 0 3
def Frame.code2 (f : Frame) : Nat := bitsOf f.pfmt.toNat 3 3

/-- The command enters the queue, with the successor it took, and the instruction retires (R252): the pending codes are
taken, PP is cleared. It enters as the instruction retires, one cycle on (R255, R399). -/
def State.enterWith (s : State) (succ : Option TaskRec) (i : Instr) (x : Word) (ep off target : Nat) : State :=
  let s1 := s.onMe (fun c =>
    { c with kseq := c.kseq + 1,
             dq := c.dq ++ [{ kseq := c.kseq, level := c.run.level, fid := c.run.fid, ins := i, nxr := c.run.nxr,
                              f1 := c.run.code1, f2 := c.run.code2, x := x, ep := ep, off := off, target := target,
                              entered := s.after s.cur (c.time 1), old := false, pc := c.run.pc, succ := succ }] })
  let s2 := if isPrefixed i then s1.onFrame (fun f => { f with pp := false, pfmt := 0 }) else s1
  s2.retire 1

/-- The command of an instruction that takes no successor enters the queue (R52, R252). -/
def State.enterKiln (s : State) (i : Instr) (x : Word) (ep off target : Nat) : State := s.enterWith none i x ep off target

/-- The format code of an instruction's elements (R257): sz, or the first pending code. -/
def elemCode (sz : BitVec 2) (f1 : Nat) : Nat := if sz = 3 then f1 else sz.toNat

/-- Queued or issued commands of a level that satisfy a property (R256). -/
def State.queued (s : State) (ep lvl : Nat) (p : KCmd → Bool) : Nat :=
  (((s.core ep).dq ++ (s.core ep).parked).filter (fun k => k.level == lvl && p k)).length

def State.inFlight (s : State) (ep lvl : Nat) (p : KCmd → Bool) : Nat :=
  ((s.kiln (quadOf ep)).flight.filter (fun f => f.core == ep && f.cmd.level == lvl && p f.cmd)).length

/-- The queue a command pushes: q1, q2 or none (R256, R277). -/
def pushesQ (k : KCmd) : Nat :=
  match k.ins with
  | .voutq .. => 1
  | .ringq _ => 1
  | .kscq m => if m = 0 then 1 else 0
  | .kchkq _ => 1
  | .kflg .. => 1
  | .vbq _ => 2
  | _ => 0

def isVsplq (k : KCmd) : Bool :=
  match k.ins with
  | .vsplq .. => true
  | _ => false

/-- Whether q1 or q2 has no room for one more entry (R256, R277). -/
def State.pushFull (s : State) (q : Nat) : Bool :=
  let c := s.me
  let lvl := c.run.level
  let set := s.kset
  let p := fun (k : KCmd) => pushesQ k == q
  let have' := (if q = 1 then set.q1.length else set.q2.length) + s.queued s.cur lvl p + s.inFlight s.cur lvl p
  decide (8 + (c.pops.filter (fun r => r.q == q && r.level == lvl)).length ≤ have')

/-- The scratchpad that n bytes at an address of the own or team window lie in (R118, R260). -/
def State.kilnWindow (s : State) (a : Word) (n : Nat) : Option (Nat × Nat) :=
  if a.toNat < 0x7E0000000000 then none
  else match s.window s.cur a.toNat n with
    | .spad e off => some (e, off)
    | _ => none

/-- The base check of a memory form (R260, R292): alignment, then the window; then the command enters. A form that
writes another member's scratchpad takes a checkpoint (R368). -/
def State.enterMem (s : State) (i : Instr) (a : Word) (al n : Nat) (writes : Bool) : State :=
  if a.toNat % al ≠ 0 then s.trap 6 a
  else match s.kilnWindow a n with
    | none => s.trap 8 a
    | some (e, off) =>
      let t := s.enterKiln i a e off 0
      if writes && !(e == s.cur) then t.ckCycle s.cur else t

/-! ### Vector registers (R103, R258) -/

/-- Bits of element e of a register with elements of w bits. -/
def elOf (v : BitVec 1024) (w e : Nat) : Nat := bitsOf v.toNat (w * e) w

/-- A register from its elements. -/
def ofEls (w : Nat) (l : List Nat) : BitVec 1024 := BitVec.ofNat 1024 (l.foldr (fun b a => b % 2 ^ w + 2 ^ w * a) 0)

def numEls (w : Nat) : Nat := 1024 / w

/-- Register i of a state set. -/
def KSet.vr (k : KSet) (i : BitVec 3) : BitVec 1024 := k.v[i.toNat]

def KSet.setVr (k : KSet) (i : BitVec 3) (v : BitVec 1024) : KSet := { k with v := k.v.set i.toNat v }

/-- Elements of a register. -/
def els (v : BitVec 1024) (w : Nat) : List Nat := (List.range (numEls w)).map (fun e => elOf v w e)

/-- ORs the flags of element results. -/
def orFlags (l : List (Nat × BitVec 7)) : BitVec 7 := l.foldl (fun a r => a ||| r.2) 0

/-- Writes all elements with the flags of each. -/
def KSet.setEls (k : KSet) (vd : BitVec 3) (w : Nat) (l : List (Nat × BitVec 7)) : KSet :=
  (k.setVr vd (ofEls w (l.map (fun r => r.1)))).flag (orFlags l)

/-! ### Element-wise operations -/

/-- A numeric two-source operation on every element (R265). -/
def KSet.arith2 (k : KSet) (c : Nat) (vd vs1 vs2 : BitVec 3) (f : Fp → Fp → Fp) : KSet :=
  let m := Fmt.ofCode c
  let w := m.width
  k.setEls vd w ((List.range (numEls w)).map (fun e =>
    m.result (f (m.dec false (elOf (k.vr vs1) w e)) (m.dec false (elOf (k.vr vs2) w e)))))

/-- A numeric one-source operation on every element (R265, R273). -/
def KSet.arith1 (k : KSet) (c : Nat) (vd vs1 : BitVec 3) (f : Fp → Fp) : KSet :=
  let m := Fmt.ofCode c
  let w := m.width
  k.setEls vd w ((List.range (numEls w)).map (fun e => m.result (f (m.dec false (elOf (k.vr vs1) w e)))))

/-- VFMA (R265): z + x × y with one rounding. -/
def KSet.fma (k : KSet) (c : Nat) (vd vs1 vs2 : BitVec 3) : KSet :=
  let m := Fmt.ofCode c
  let w := m.width
  k.setEls vd w ((List.range (numEls w)).map (fun e =>
    m.result ((m.dec false (elOf (k.vr vd) w e)).add
      ((m.dec false (elOf (k.vr vs1) w e)).mul (m.dec false (elOf (k.vr vs2) w e))))))

/-- A lane-wise integer operation with its flags (R266). -/
def KSet.int2 (k : KSet) (vd vs1 vs2 : BitVec 3) (f : BitVec 32 → BitVec 32 → BitVec 32 × BitVec 7) : KSet :=
  k.setEls vd 32 ((List.range 32).map (fun e =>
    let r := f (BitVec.ofNat 32 (elOf (k.vr vs1) 32 e)) (BitVec.ofNat 32 (elOf (k.vr vs2) 32 e))
    (r.1.toNat, r.2)))

/-- VIADDS of one lane (R100, R266). -/
def addSat (a b : BitVec 32) : BitVec 32 × BitVec 7 :=
  let v := a.toInt + b.toInt
  if v < -(2 ^ 31) then (0x80000000#32, flSAT)
  else if 2 ^ 31 ≤ v then (0x7FFFFFFF#32, flSAT)
  else (BitVec.ofInt 32 v, 0)

/-- A compare (R269): `flagNan` for VCMPLT and VCMPLE. -/
def KSet.compare (k : KSet) (sz : BitVec 2) (c : Nat) (code : BitVec 1) (vd vs1 vs2 : BitVec 3)
    (fi : Int → Int → Bool) (ff : Fp → Fp → Bool) (flagNan : Bool) : KSet :=
  if sz = 0 ∧ code = 1 then
    k.setEls vd 32 ((List.range 32).map (fun e =>
      (if fi (BitVec.ofNat 32 (elOf (k.vr vs1) 32 e)).toInt (BitVec.ofNat 32 (elOf (k.vr vs2) 32 e)).toInt
       then 2 ^ 32 - 1 else 0, 0)))
  else
    let m := Fmt.ofCode c
    let w := m.width
    k.setEls vd w ((List.range (numEls w)).map (fun e =>
      let x := m.dec false (elOf (k.vr vs1) w e)
      let y := m.dec false (elOf (k.vr vs2) w e)
      (if ff x y then 2 ^ w - 1 else 0, if flagNan && (x.isNan || y.isNan) then flINV else 0)))

/-! ### Conversions (R267, R268) -/

/-- Delivers the elements of a conversion one after another, each source element read in its turn (R268): SR steps the
LFSR of the lane that holds the target element (R105, R106). -/
def KSet.convertGo (k : KSet) (nxr : Bool) (S T : Fmt) (vs1 : BitVec 3) (sat : Bool) (mode : BitVec 2)
    (vd : BitVec 3) (si ti : Nat) : List Nat → KSet
  | [] => k
  | j :: rest =>
    let x := S.dec nxr (elOf (k.vr vs1) S.width (si + j))
    let lane := ((ti + j) * T.width / 32) % 32
    let u := lfsrStep (k.lfsr[lane]'(Nat.mod_lt _ (by decide)))
    let md : Mode := if mode = 2 then .sr u.toNat else if mode = 1 then .tz else .ne
    let k1 := if mode = 2 then { k with lfsr := k.lfsr.set lane u (Nat.mod_lt _ (by decide)) } else k
    let r := T.enc nxr md sat x
    let old := els (k1.vr vd) T.width
    KSet.convertGo ((k1.setVr vd (ofEls T.width (setAt old (ti + j) r.1))).flag r.2) nxr S T vs1 sat mode vd si ti rest

/-- VCVT and VCVTI (R268). -/
def KSet.convert (k : KSet) (cmd : KCmd) (vd vs1 part : BitVec 3) (sato : BitVec 1) (mode : BitVec 2) : KSet :=
  let S := Fmt.ofCode cmd.f1
  let T := Fmt.ofCode cmd.f2
  let cs := numEls S.width
  let cd := numEls T.width
  let n := min cs cd
  let si := if cd < cs then part.toNat * n else 0
  let ti := if cs < cd then part.toNat * n else 0
  k.convertGo cmd.nxr S T vs1 (sato == 1) mode vd si ti (List.range n)

/-- The check of R267 on the pending codes, and of R268 on the part. -/
def cvtOk (f1 f2 : Nat) (part : BitVec 3) (int : Bool) : Bool :=
  let cs := numEls (Fmt.ofCode f1).width
  let cd := numEls (Fmt.ofCode f2).width
  (if int then !(f1 == 5) && !(f2 == 5) && (decide (6 ≤ f1) || decide (6 ≤ f2)) else decide (f1 ≤ 4) && decide (f2 ≤ 4)) &&
  decide (part.toNat < max cs cd / min cs cd)

/-! ### Reductions (R115, R271) -/

/-- One level of the tree: combines elements 2m and 2m + 1. -/
def pairUp {α : Type} (f : α → α → α) : List α → List α
  | a :: b :: l => f a b :: pairUp f l
  | l => l

/-- The tree, `n` levels. -/
def treeUp {α : Type} (f : α → α → α) : Nat → List α → List α
  | 0, l => l
  | n + 1, l => treeUp f n (pairUp f l)

/-- Levels of the tree for N elements. -/
def treeLevels (N : Nat) : Nat := if N = 32 then 5 else if N = 64 then 6 else 7

/-- A reduction: the result in element 0, zero elsewhere. -/
def KSet.reduce (k : KSet) (sz : BitVec 2) (c : Nat) (code : BitVec 1) (vd vs1 : BitVec 3)
    (fi : BitVec 32 → BitVec 32 → BitVec 32) (ff : Fp → Fp → Fp) : KSet :=
  if sz = 0 ∧ code = 1 then
    let r := treeUp fi 5 ((els (k.vr vs1) 32).map (fun b => BitVec.ofNat 32 b))
    k.setVr vd (BitVec.ofNat 1024 (r.headD 0).toNat)
  else
    let m := Fmt.ofCode c
    let w := m.width
    let comb := fun (a b : Nat × BitVec 7) =>
      let r := m.result (ff (m.dec false a.1) (m.dec false b.1))
      (r.1, a.2 ||| b.2 ||| r.2)
    let r := (treeUp comb (treeLevels (numEls w)) ((els (k.vr vs1) w).map (fun b => (b, (0 : BitVec 7))))).headD (0, 0)
    (k.setVr vd (BitVec.ofNat 1024 r.1)).flag r.2

def maxInt (a b : BitVec 32) : BitVec 32 := if a.toInt < b.toInt then b else a
def minInt (a b : BitVec 32) : BitVec 32 := if b.toInt < a.toInt then b else a

/-! ### What a vector command does to its state set at issue -/

/-- Whether a code is FP32, BF16 or FP16. -/
def floatCode (c : Nat) : Bool := decide (c ≤ 2)

/-- The state set after a vector command that reaches no memory, and the queue entry it pushes (R263 to R274). -/
def KSet.vector (k : KSet) (cmd : KCmd) : KSet × Option (Nat × Word) :=
  let code := fun (sz : BitVec 2) => elemCode sz cmd.f1
  let wd := fun (sz : BitVec 2) => (Fmt.ofCode (elemCode sz cmd.f1)).width
  match cmd.ins with
  | .vspl vd _ sz => (k.setVr vd (ofEls (wd sz) (List.replicate (numEls (wd sz)) cmd.x.toNat)), none)
  | .vsplq vd sz =>
    match k.q0 with
    | b :: l => ({ k with q0 := l }.setVr vd (ofEls (wd sz) (List.replicate (numEls (wd sz)) b.toNat)), none)
    | [] => (k, none)
  | .voutq vs1 _ sz => (k, some (1, BitVec.ofNat 64 (elOf (k.vr vs1) (wd sz) (cmd.x.toNat % numEls (wd sz)))))
  | .vmv vd vs1 => (k.setVr vd (k.vr vs1), none)
  | .vlane vd vs1 _ sz =>
    (k.setVr vd (ofEls (wd sz) (List.replicate (numEls (wd sz)) (elOf (k.vr vs1) (wd sz) (cmd.x.toNat % numEls (wd sz))))),
     none)
  | .vadd vd vs1 vs2 sz => (k.arith2 (code sz) vd vs1 vs2 Fp.add, none)
  | .vsub vd vs1 vs2 sz => (k.arith2 (code sz) vd vs1 vs2 (fun x y => x.add y.neg), none)
  | .vmul vd vs1 vs2 sz => (k.arith2 (code sz) vd vs1 vs2 Fp.mul, none)
  | .vfma vd vs1 vs2 sz => (k.fma (code sz) vd vs1 vs2, none)
  | .vmax vd vs1 vs2 sz => (k.arith2 (code sz) vd vs1 vs2 Fp.max, none)
  | .vmin vd vs1 vs2 sz => (k.arith2 (code sz) vd vs1 vs2 Fp.min, none)
  | .vabs vd vs1 sz => (k.arith1 (code sz) vd vs1 Fp.abs, none)
  | .vneg vd vs1 sz => (k.arith1 (code sz) vd vs1 Fp.neg, none)
  | .viadd vd vs1 vs2 => (k.int2 vd vs1 vs2 (fun a b => (a + b, 0)), none)
  | .visub vd vs1 vs2 => (k.int2 vd vs1 vs2 (fun a b => (a - b, 0)), none)
  | .vimul vd vs1 vs2 => (k.int2 vd vs1 vs2 (fun a b => (a * b, 0)), none)
  | .vand vd vs1 vs2 => (k.int2 vd vs1 vs2 (fun a b => (a &&& b, 0)), none)
  | .vor vd vs1 vs2 => (k.int2 vd vs1 vs2 (fun a b => (a ||| b, 0)), none)
  | .vxor vd vs1 vs2 => (k.int2 vd vs1 vs2 (fun a b => (a ^^^ b, 0)), none)
  | .vshl vd vs1 vs2 => (k.int2 vd vs1 vs2 (fun a b => (a <<< (b.toNat % 32), 0)), none)
  | .vshr vd vs1 vs2 => (k.int2 vd vs1 vs2 (fun a b => (a >>> (b.toNat % 32), 0)), none)
  | .vsra vd vs1 vs2 => (k.int2 vd vs1 vs2 (fun a b => (a.sshiftRight (b.toNat % 32), 0)), none)
  | .viadds vd vs1 vs2 => (k.int2 vd vs1 vs2 addSat, none)
  | .vcvt vd vs1 part sato mode => (k.convert cmd vd vs1 part sato mode, none)
  | .vcvti vd vs1 part sato mode => (k.convert cmd vd vs1 part sato mode, none)
  | .vcmpeq vd vs1 vs2 sz c =>
    (k.compare sz (code sz) c vd vs1 vs2 (fun a b => decide (a = b)) Fp.eq false, none)
  | .vcmplt vd vs1 vs2 sz c =>
    (k.compare sz (code sz) c vd vs1 vs2 (fun a b => decide (a < b)) Fp.lt true, none)
  | .vcmple vd vs1 vs2 sz c =>
    (k.compare sz (code sz) c vd vs1 vs2 (fun a b => decide (a ≤ b)) (fun x y => x.lt y || x.eq y) true, none)
  | .vsel vd vs1 vs2 => (k.setVr vd ((k.vr vd &&& k.vr vs1) ||| (~~~(k.vr vd) &&& k.vr vs2)), none)
  | .vbq vs1 =>
    (k, some (2, BitVec.ofNat 64 ((List.range 32).foldl (fun a l =>
      if elOf (k.vr vs1) 32 l = 0 then a else a + 2 ^ l) 0)))
  | .vsum vd vs1 sz c => (k.reduce sz (code sz) c vd vs1 (fun a b => a + b) Fp.add, none)
  | .vrmax vd vs1 sz c => (k.reduce sz (code sz) c vd vs1 maxInt Fp.max, none)
  | .vrmin vd vs1 sz c => (k.reduce sz (code sz) c vd vs1 minInt Fp.min, none)
  | .vperm vd vs1 vs2 sz =>
    (k.setVr vd (ofEls (wd sz) ((els (k.vr vs2) (wd sz)).map (fun i => elOf (k.vr vs1) (wd sz) (i % numEls (wd sz))))),
     none)
  | .vrot vd vs1 _ sz =>
    (k.setVr vd (ofEls (wd sz) ((List.range (numEls (wd sz))).map (fun e =>
      elOf (k.vr vs1) (wd sz) ((e + cmd.x.toNat) % numEls (wd sz))))), none)
  | .vexp2 vd vs1 sz => (k.arith1 (code sz) vd vs1 Fp.exp2, none)
  | .vrcp vd vs1 sz => (k.arith1 (code sz) vd vs1 Fp.rcp, none)
  | .vrsq vd vs1 sz => (k.arith1 (code sz) vd vs1 Fp.rsqrt, none)
  | .vlog2 vd vs1 sz => (k.arith1 (code sz) vd vs1 Fp.log2, none)
  | .vseed vs1 =>
    ({ k with lfsr := Vector.ofFn (fun (l : Fin 32) =>
        let v := BitVec.ofNat 16 (elOf (k.vr vs1) 32 l.val)
        if v = 0 then 1 else v) }, none)
  | _ => (k, none)

/-! ### Scratchpad access of a command (R260, R261) -/

/-- Bytes of the core's issued and not yet performed writes laid above a scratchpad byte, in issue order. -/
def pendByte (ws : List (Nat × Nat × List Byte)) (ep off : Nat) (b : Byte) : Byte :=
  ws.foldl (fun a w => if decide (w.1 = ep) && decide (w.2.1 ≤ off) && decide (off < w.2.1 + w.2.2.length)
    then w.2.2.getD (off - w.2.1) a else a) b

/-- A scratchpad store of a core that waits at a member of its cluster. -/
def Pkt.spadWrite (p : Pkt) (src e : Nat) : Option (Nat × Nat × List Byte) :=
  match p.body with
  | .spadStore off n v => if p.src == src then some (e, off, leBytes n v.toNat) else none
  | _ => none

/-- What a core has still to write to a scratchpad: its retired team-window stores, then the writes of its issued
commands (R261). -/
def State.pendWrites (s : State) (ep e : Nat) : List (Nat × Nat × List Byte) :=
  (tget s.inbox e []).filterMap (fun p => p.spadWrite (s.epId ep) e) ++
  ((s.kiln (quadOf ep)).flight.filter (fun f => f.core == ep)).flatMap (fun f =>
    f.writes.map (fun w => (f.cmd.ep, w.1, w.2)))

/-- What a kiln read finds: element values, whether any lay outside the region, and a poisoned word. -/
structure KRead where
  vals : List Nat
  outside : Bool
  poison : Option Nat
deriving DecidableEq, Repr

/-- Reads elements of n bytes at offsets of a scratchpad, as the core's commands see it (R260, R261, R285). -/
def State.kread (s : State) (core ep n : Nat) (offs : List Int) : KRead :=
  let size := (s.core ep).carve.spadSize
  let ws := s.pendWrites core ep
  let inside := fun (o : Int) => decide (0 ≤ o) && decide (o.toNat + n ≤ size)
  { vals := offs.map (fun o =>
      if inside o then
        leNat ((List.range n).map (fun i => pendByte ws ep (o.toNat + i) (s.readByte (arrayBase ep + o.toNat + i))))
      else 0),
    outside := offs.any (fun o => !inside o),
    poison := (offs.find? (fun o => inside o && s.anyPoison (arrayBase ep + o.toNat) n)).map
      (fun o => arrayBase ep + o.toNat - o.toNat % 8) }

/-- An offset aligned down. -/
def alignDown (o : Int) (n : Nat) : Int := o - o % (n : Int)

/-- The element offsets a vector memory command reads (R264), with the element bytes. -/
def KSet.readOffs (k : KSet) (cmd : KCmd) : Option (BitVec 3 × Nat × List Int) :=
  match cmd.ins with
  | .vld vd _ => some (vd, 4, (List.range 32).map (fun i => ((cmd.off + 4 * i : Nat) : Int)))
  | .vlds vd vs1 _ sz =>
    let n := (Fmt.ofCode (elemCode sz cmd.f1)).width / 8
    let st := (BitVec.ofNat 32 (elOf (k.vr vs1) 32 0)).toInt
    some (vd, n, (List.range (1024 / (8 * n))).map (fun (e : Nat) => alignDown ((cmd.off : Int) + (e : Int) * st) n))
  | .vgth vd vs1 _ =>
    some (vd, 4, (List.range 32).map (fun (e : Nat) => alignDown ((cmd.off + elOf (k.vr vs1) 32 e : Nat) : Int) 4))
  | _ => none

/-- The bytes a vector memory command writes (R264). -/
def KSet.writeBytes (k : KSet) (cmd : KCmd) : List (Nat × List Byte) :=
  match cmd.ins with
  | .vst vs1 _ => [(cmd.off, leBytes 128 (k.vr vs1).toNat)]
  | .vsct vs1 vs2 _ =>
    (List.range 32).map (fun e =>
      let o := cmd.off + elOf (k.vr vs2) 32 e
      (o - o % 4, leBytes 4 (elOf (k.vr vs1) 32 e)))
  | _ => []

/-- Cycles from issue to result (R255). -/
def vecTime (cmd : KCmd) : Nat :=
  let team := inTeamWindow cmd.x.toNat
  match cmd.ins with
  | .viadd .. | .visub .. | .vimul .. | .vand .. | .vor .. | .vxor .. | .vshl .. | .vshr .. | .vsra .. | .viadds .. => 2
  | .vcmpeq _ _ _ sz c | .vcmplt _ _ _ sz c | .vcmple _ _ _ sz c => if sz = 0 ∧ c = 1 then 2 else 4
  | .vspl .. | .vsplq .. | .vmv .. | .vlane .. | .vperm .. | .vrot .. | .vsel .. | .vseed .. => 2
  | .vld .. => if team then 12 else 4
  | .vlds .. | .vgth .. => if team then 16 else 8
  | .vexp2 .. | .vrcp .. | .vrsq .. | .vlog2 .. => 8
  | .vsum _ _ sz c | .vrmax _ _ sz c | .vrmin _ _ sz c =>
    let w := (Fmt.ofCode (elemCode sz cmd.f1)).width
    if sz = 0 ∧ c = 1 then 10 else 4 * treeLevels (numEls w)
  | .vst .. | .vsct .. => if team then 12 else 4
  | .ringdef .. | .ringadv .. | .lease | .unlease => 2
  | .keep .. => 6
  | _ => 4

end Sys2Proof.Machine
end

