-- ==== Sys2Proof/Machine/KilnVecIns.lean ====
section
/-! DEFINITION. The custom-2 instructions at the core (R252, R256, R257, R260, R263 to R274): each makes its checks and
enters the dispatch queue. -/

namespace Sys2Proof.Machine

/-- An entry with no check of its own. -/
def State.plainKiln (s : State) (i : Instr) (x : Word) : State := s.enterKiln i x 0 0 0

/-- A floating entry: a pending code must be FP32, BF16 or FP16 (R257). -/
def State.floatKiln (s : State) (i : Instr) (sz : BitVec 2) : State :=
  if sz = 3 ∧ !floatCode s.frame.code1 then s.illegal i else s.plainKiln i 0

/-- Element bytes of an entry (R257). -/
def State.elBytes (s : State) (sz : BitVec 2) : Nat := (Fmt.ofCode (elemCode sz s.frame.code1)).width / 8

/-- VSPL (R263). -/
def execVspl (vd : BitVec 3) (xs : XReg) (sz : BitVec 2) (s : State) : Out :=
  s.runKiln (.vspl vd xs sz) [xs] (fun t => t.plainKiln (.vspl vd xs sz) (t.x xs))

/-- VSPLQ (R256, R263): q0 must hold an entry that no earlier queued command pops. -/
def execVsplq (vd : BitVec 3) (sz : BitVec 2) (s : State) : Out :=
  s.runKiln (.vsplq vd sz) [] (fun t =>
    if t.kset.q0.length ≤ t.queued t.cur t.frame.level isVsplq then t.illegal (.vsplq vd sz)
    else t.plainKiln (.vsplq vd sz) 0)

/-- VOUTQ (R256, R263). -/
def execVoutq (vs1 : BitVec 3) (xs : XReg) (sz : BitVec 2) (s : State) : Out :=
  s.runKiln (.voutq vs1 xs sz) [xs] (fun t =>
    if t.pushFull 1 then t.illegal (.voutq vs1 xs sz)
    else t.plainKiln (.voutq vs1 xs sz) (t.x xs))

/-- VMV (R263). -/
def execVmv (vd : BitVec 3) (vs1 : BitVec 3) (s : State) : Out :=
  s.runKiln (.vmv vd vs1) [] (fun t => t.plainKiln (.vmv vd vs1) 0)

/-- VLANE (R263). -/
def execVlane (vd : BitVec 3) (vs1 : BitVec 3) (xs : XReg) (sz : BitVec 2) (s : State) : Out :=
  s.runKiln (.vlane vd vs1 xs sz) [xs] (fun t => t.plainKiln (.vlane vd vs1 xs sz) (t.x xs))

/-- VLD (R260, R264). -/
def execVld (vd : BitVec 3) (xs : XReg) (s : State) : Out :=
  s.runKiln (.vld vd xs) [xs] (fun t => t.enterMem (.vld vd xs) (t.x xs) 4 128 false)

/-- VST (R260, R264). -/
def execVst (vs1 : BitVec 3) (xs : XReg) (s : State) : Out :=
  s.runKiln (.vst vs1 xs) [xs] (fun t => t.enterMem (.vst vs1 xs) (t.x xs) 4 128 true)

/-- VLDS (R260, R264). -/
def execVlds (vd : BitVec 3) (vs1 : BitVec 3) (xs : XReg) (sz : BitVec 2) (s : State) : Out :=
  s.runKiln (.vlds vd vs1 xs sz) [xs] (fun t => t.enterMem (.vlds vd vs1 xs sz) (t.x xs) (t.elBytes sz) (t.elBytes sz) false)

/-- VGTH (R260, R264). -/
def execVgth (vd : BitVec 3) (vs1 : BitVec 3) (xs : XReg) (s : State) : Out :=
  s.runKiln (.vgth vd vs1 xs) [xs] (fun t => t.enterMem (.vgth vd vs1 xs) (t.x xs) 4 4 false)

/-- VSCT (R260, R264). -/
def execVsct (vs1 : BitVec 3) (vs2 : BitVec 3) (xs : XReg) (s : State) : Out :=
  s.runKiln (.vsct vs1 vs2 xs) [xs] (fun t => t.enterMem (.vsct vs1 vs2 xs) (t.x xs) 4 4 true)

/-- VADD (R265). -/
def execVadd (vd : BitVec 3) (vs1 : BitVec 3) (vs2 : BitVec 3) (sz : BitVec 2) (s : State) : Out :=
  s.runKiln (.vadd vd vs1 vs2 sz) [] (fun t => t.floatKiln (.vadd vd vs1 vs2 sz) sz)

/-- VSUB (R265). -/
def execVsub (vd : BitVec 3) (vs1 : BitVec 3) (vs2 : BitVec 3) (sz : BitVec 2) (s : State) : Out :=
  s.runKiln (.vsub vd vs1 vs2 sz) [] (fun t => t.floatKiln (.vsub vd vs1 vs2 sz) sz)

/-- VMUL (R265). -/
def execVmul (vd : BitVec 3) (vs1 : BitVec 3) (vs2 : BitVec 3) (sz : BitVec 2) (s : State) : Out :=
  s.runKiln (.vmul vd vs1 vs2 sz) [] (fun t => t.floatKiln (.vmul vd vs1 vs2 sz) sz)

/-- VFMA (R265). -/
def execVfma (vd : BitVec 3) (vs1 : BitVec 3) (vs2 : BitVec 3) (sz : BitVec 2) (s : State) : Out :=
  s.runKiln (.vfma vd vs1 vs2 sz) [] (fun t => t.floatKiln (.vfma vd vs1 vs2 sz) sz)

/-- VMAX (R265). -/
def execVmax (vd : BitVec 3) (vs1 : BitVec 3) (vs2 : BitVec 3) (sz : BitVec 2) (s : State) : Out :=
  s.runKiln (.vmax vd vs1 vs2 sz) [] (fun t => t.floatKiln (.vmax vd vs1 vs2 sz) sz)

/-- VMIN (R265). -/
def execVmin (vd : BitVec 3) (vs1 : BitVec 3) (vs2 : BitVec 3) (sz : BitVec 2) (s : State) : Out :=
  s.runKiln (.vmin vd vs1 vs2 sz) [] (fun t => t.floatKiln (.vmin vd vs1 vs2 sz) sz)

/-- VABS (R265). -/
def execVabs (vd : BitVec 3) (vs1 : BitVec 3) (sz : BitVec 2) (s : State) : Out :=
  s.runKiln (.vabs vd vs1 sz) [] (fun t => t.floatKiln (.vabs vd vs1 sz) sz)

/-- VNEG (R265). -/
def execVneg (vd : BitVec 3) (vs1 : BitVec 3) (sz : BitVec 2) (s : State) : Out :=
  s.runKiln (.vneg vd vs1 sz) [] (fun t => t.floatKiln (.vneg vd vs1 sz) sz)

/-- VIADD (R266). -/
def execViadd (vd : BitVec 3) (vs1 : BitVec 3) (vs2 : BitVec 3) (s : State) : Out :=
  s.runKiln (.viadd vd vs1 vs2) [] (fun t => t.plainKiln (.viadd vd vs1 vs2) 0)

/-- VISUB (R266). -/
def execVisub (vd : BitVec 3) (vs1 : BitVec 3) (vs2 : BitVec 3) (s : State) : Out :=
  s.runKiln (.visub vd vs1 vs2) [] (fun t => t.plainKiln (.visub vd vs1 vs2) 0)

/-- VIMUL (R266). -/
def execVimul (vd : BitVec 3) (vs1 : BitVec 3) (vs2 : BitVec 3) (s : State) : Out :=
  s.runKiln (.vimul vd vs1 vs2) [] (fun t => t.plainKiln (.vimul vd vs1 vs2) 0)

/-- VAND (R266). -/
def execVand (vd : BitVec 3) (vs1 : BitVec 3) (vs2 : BitVec 3) (s : State) : Out :=
  s.runKiln (.vand vd vs1 vs2) [] (fun t => t.plainKiln (.vand vd vs1 vs2) 0)

/-- VOR (R266). -/
def execVor (vd : BitVec 3) (vs1 : BitVec 3) (vs2 : BitVec 3) (s : State) : Out :=
  s.runKiln (.vor vd vs1 vs2) [] (fun t => t.plainKiln (.vor vd vs1 vs2) 0)

/-- VXOR (R266). -/
def execVxor (vd : BitVec 3) (vs1 : BitVec 3) (vs2 : BitVec 3) (s : State) : Out :=
  s.runKiln (.vxor vd vs1 vs2) [] (fun t => t.plainKiln (.vxor vd vs1 vs2) 0)

/-- VSHL (R266). -/
def execVshl (vd : BitVec 3) (vs1 : BitVec 3) (vs2 : BitVec 3) (s : State) : Out :=
  s.runKiln (.vshl vd vs1 vs2) [] (fun t => t.plainKiln (.vshl vd vs1 vs2) 0)

/-- VSHR (R266). -/
def execVshr (vd : BitVec 3) (vs1 : BitVec 3) (vs2 : BitVec 3) (s : State) : Out :=
  s.runKiln (.vshr vd vs1 vs2) [] (fun t => t.plainKiln (.vshr vd vs1 vs2) 0)

/-- VSRA (R266). -/
def execVsra (vd : BitVec 3) (vs1 : BitVec 3) (vs2 : BitVec 3) (s : State) : Out :=
  s.runKiln (.vsra vd vs1 vs2) [] (fun t => t.plainKiln (.vsra vd vs1 vs2) 0)

/-- VIADDS (R266). -/
def execViadds (vd : BitVec 3) (vs1 : BitVec 3) (vs2 : BitVec 3) (s : State) : Out :=
  s.runKiln (.viadds vd vs1 vs2) [] (fun t => t.plainKiln (.viadds vd vs1 vs2) 0)

/-- VCVT (R267, R268). -/
def execVcvt (vd : BitVec 3) (vs1 : BitVec 3) (part : BitVec 3) (sato : BitVec 1) (mode : BitVec 2) (s : State) : Out :=
  s.runKiln (.vcvt vd vs1 part sato mode) [] (fun t =>
    if !cvtOk t.frame.code1 t.frame.code2 part false then t.illegal (.vcvt vd vs1 part sato mode)
    else t.plainKiln (.vcvt vd vs1 part sato mode) 0)

/-- VCVTI (R267, R268). -/
def execVcvti (vd : BitVec 3) (vs1 : BitVec 3) (part : BitVec 3) (sato : BitVec 1) (mode : BitVec 2) (s : State) : Out :=
  s.runKiln (.vcvti vd vs1 part sato mode) [] (fun t =>
    if !cvtOk t.frame.code1 t.frame.code2 part true then t.illegal (.vcvti vd vs1 part sato mode)
    else t.plainKiln (.vcvti vd vs1 part sato mode) 0)

/-- VCMPEQ (R269). -/
def execVcmpeq (vd : BitVec 3) (vs1 : BitVec 3) (vs2 : BitVec 3) (sz : BitVec 2) (code : BitVec 1) (s : State) : Out :=
  s.runKiln (.vcmpeq vd vs1 vs2 sz code) [] (fun t => t.floatKiln (.vcmpeq vd vs1 vs2 sz code) sz)

/-- VCMPLT (R269). -/
def execVcmplt (vd : BitVec 3) (vs1 : BitVec 3) (vs2 : BitVec 3) (sz : BitVec 2) (code : BitVec 1) (s : State) : Out :=
  s.runKiln (.vcmplt vd vs1 vs2 sz code) [] (fun t => t.floatKiln (.vcmplt vd vs1 vs2 sz code) sz)

/-- VCMPLE (R269). -/
def execVcmple (vd : BitVec 3) (vs1 : BitVec 3) (vs2 : BitVec 3) (sz : BitVec 2) (code : BitVec 1) (s : State) : Out :=
  s.runKiln (.vcmple vd vs1 vs2 sz code) [] (fun t => t.floatKiln (.vcmple vd vs1 vs2 sz code) sz)

/-- VSEL (R270). -/
def execVsel (vd : BitVec 3) (vs1 : BitVec 3) (vs2 : BitVec 3) (s : State) : Out :=
  s.runKiln (.vsel vd vs1 vs2) [] (fun t => t.plainKiln (.vsel vd vs1 vs2) 0)

/-- VBQ (R256, R270). -/
def execVbq (vs1 : BitVec 3) (s : State) : Out :=
  s.runKiln (.vbq vs1) [] (fun t => if t.pushFull 2 then t.illegal (.vbq vs1) else t.plainKiln (.vbq vs1) 0)

/-- VSUM (R271). -/
def execVsum (vd : BitVec 3) (vs1 : BitVec 3) (sz : BitVec 2) (code : BitVec 1) (s : State) : Out :=
  s.runKiln (.vsum vd vs1 sz code) [] (fun t => t.floatKiln (.vsum vd vs1 sz code) sz)

/-- VRMAX (R271). -/
def execVrmax (vd : BitVec 3) (vs1 : BitVec 3) (sz : BitVec 2) (code : BitVec 1) (s : State) : Out :=
  s.runKiln (.vrmax vd vs1 sz code) [] (fun t => t.floatKiln (.vrmax vd vs1 sz code) sz)

/-- VRMIN (R271). -/
def execVrmin (vd : BitVec 3) (vs1 : BitVec 3) (sz : BitVec 2) (code : BitVec 1) (s : State) : Out :=
  s.runKiln (.vrmin vd vs1 sz code) [] (fun t => t.floatKiln (.vrmin vd vs1 sz code) sz)

/-- VPERM (R272). -/
def execVperm (vd : BitVec 3) (vs1 : BitVec 3) (vs2 : BitVec 3) (sz : BitVec 2) (s : State) : Out :=
  s.runKiln (.vperm vd vs1 vs2 sz) [] (fun t => t.plainKiln (.vperm vd vs1 vs2 sz) 0)

/-- VROT (R272). -/
def execVrot (vd : BitVec 3) (vs1 : BitVec 3) (xs : XReg) (sz : BitVec 2) (s : State) : Out :=
  s.runKiln (.vrot vd vs1 xs sz) [xs] (fun t => t.plainKiln (.vrot vd vs1 xs sz) (t.x xs))

/-- VEXP2 (R273). -/
def execVexp2 (vd : BitVec 3) (vs1 : BitVec 3) (sz : BitVec 2) (s : State) : Out :=
  s.runKiln (.vexp2 vd vs1 sz) [] (fun t => t.floatKiln (.vexp2 vd vs1 sz) sz)

/-- VRCP (R273). -/
def execVrcp (vd : BitVec 3) (vs1 : BitVec 3) (sz : BitVec 2) (s : State) : Out :=
  s.runKiln (.vrcp vd vs1 sz) [] (fun t => t.floatKiln (.vrcp vd vs1 sz) sz)

/-- VRSQ (R273). -/
def execVrsq (vd : BitVec 3) (vs1 : BitVec 3) (sz : BitVec 2) (s : State) : Out :=
  s.runKiln (.vrsq vd vs1 sz) [] (fun t => t.floatKiln (.vrsq vd vs1 sz) sz)

/-- VLOG2 (R273). -/
def execVlog2 (vd : BitVec 3) (vs1 : BitVec 3) (sz : BitVec 2) (s : State) : Out :=
  s.runKiln (.vlog2 vd vs1 sz) [] (fun t => t.floatKiln (.vlog2 vd vs1 sz) sz)

/-- VSEED (R274). -/
def execVseed (vs1 : BitVec 3) (s : State) : Out :=
  s.runKiln (.vseed vs1) [] (fun t => t.plainKiln (.vseed vs1) 0)

end Sys2Proof.Machine
end

