-- ==== Sys2Proof/Machine/KilnMatIns.lean ====
section
/-! DEFINITION. The custom-3 instructions at the core (R275 to R303): each makes its checks against the ring shadows and
the level's counts and enters the dispatch queue. -/

namespace Sys2Proof.Machine

/-! ### Ring shadows (R283) -/

def Shadow.none' : Shadow := { base := 0, tiles := 0, tbytes := 0, avail := 0 }

/-- The shadow of a ring at the running level. -/
def State.shadow (s : State) (i : BitVec 2) : Shadow :=
  tget s.me.shadows (s.frame.level * 4 + i.toNat) Shadow.none'

def State.setShadow (s : State) (i : BitVec 2) (h : Shadow) : State :=
  s.onMe (fun c => { c with shadows := tset c.shadows (c.run.level * 4 + i.toNat) h })

/-- The bad-ring trap, TVAL the ring number (R412). -/
def State.badRing (s : State) (i : BitVec 2) : State := s.trap 14 (i.setWidth 64)

/-- Whether a ring fails a check of R287 for a command that reads `need` tile bytes. -/
def State.ringBad (s : State) (i : BitVec 2) (need : Nat) : Bool :=
  let h := s.shadow i
  h.tiles == 0 || decide (s.me.carve.spadSize < h.base + h.tiles * h.tbytes) || decide (h.tbytes < need) || h.avail == 0

/-- The command will pop one tile of the ring (R283). -/
def State.takeTile (s : State) (i : BitVec 2) : State :=
  s.setShadow i { s.shadow i with avail := (s.shadow i).avail - 1 }

/-- The checks of R287 on two rings, then `k`. -/
def State.withRings (s : State) (ia ib : BitVec 2) (na nb : Nat) (k : State → State) : State :=
  if s.ringBad ia na then s.badRing ia
  else if s.ringBad ib nb || ia == ib then s.badRing ib
  else k s

/-- Element bytes of a matrix operand (R288). -/
def tileWidth (f : BitVec 3) : Nat := (Fmt.ofCode f.toNat).width / 8

/-- A product, a matrix pass of R52, enters the queue with the successor that SUCC armed (R220, R287; log entry 54). -/
def State.enterProduct (s : State) (i : Instr) (ia ib : BitVec 2) : State :=
  s.withSucc (fun r t => ((t.takeTile ia).takeTile ib).enterWith r i 0 t.cur 0 0)

/-- KEEPER of the running level (R85). -/
def State.keeper (s : State) : Nat := (tget (s.kiln (quadOf s.cur)).keeper s.frame.level 0).toNat

def isKmmas (k : KCmd) : Bool :=
  match k.ins with
  | .kmmas .. => true
  | _ => false

/-- KEEPs to a target core index. -/
def isKeepTo (tgt : Nat) (k : KCmd) : Bool :=
  match k.ins with
  | .keep .. => k.target == tgt
  | _ => false

/-- Frames issued and on their way to a target's q3 (R293). -/
def State.framesTo (s : State) (tgt lvl : Nat) : Nat :=
  ((s.kiln (quadOf s.cur)).frames.filter (fun f => f.target == tgt && f.level == lvl)).length

/-- A ring record (R282): its fields, when valid for a scratchpad of `size` bytes. The zero field of bytes 12 to 15 counts
among the fields that lie within the table's limits, so a record where it is not zero is invalid (log entry 49). -/
def ringOf (bs : List Byte) (size : Nat) : Option Ring :=
  let r : Ring := { base := natAt bs 0 4, tiles := natAt bs 4 2, tbytes := natAt bs 6 2, head := natAt bs 8 2,
                    tail := natAt bs 10 2 }
  if r.base % 128 = 0 ∧ 1 ≤ r.tiles ∧ r.tiles ≤ 256 ∧ r.tbytes % 128 = 0 ∧ 128 ≤ r.tbytes ∧ r.tbytes ≤ 8192 ∧
     natAt bs 12 4 = 0 ∧ r.base + r.tiles * r.tbytes ≤ size ∧ (r.tail + 65536 - r.head) % 65536 ≤ r.tiles
  then some r else none

/-- A solve entry: n must be 1 to 32 (R296). -/
def State.solveKiln (s : State) (i : Instr) (n : BitVec 6) (x : Word) : State :=
  if n = 0 ∨ 32 < n.toNat then s.illegal i else s.plainKiln i x

/-- A product form (R287, R289). -/
def State.productKiln (s : State) (i : Instr) (ia ib : BitVec 2) (fa fb : BitVec 3) : State :=
  s.withRings ia ib (1024 * tileWidth fa) (1024 * tileWidth fb) (fun t => t.enterProduct i ia ib)

/-- LEASE (R281). -/
def execLease (s : State) : Out :=
  s.runKiln .lease [] (fun t => t.plainKiln .lease 0)

/-- UNLEASE (R280, R281). -/
def execUnlease (s : State) : Out :=
  s.runKiln .unlease [] (fun t => t.plainKiln .unlease 0)

/-- RINGDEF (R284): reads its record from the own scratchpad at retirement; the shadow takes it. -/
def execRingdef (xs : XReg) (ia : BitVec 2) (s : State) : Out :=
  s.runKiln (.ringdef xs ia) [xs] (fun t => 
    let a := t.x xs
    if a.toNat % 16 ≠ 0 then t.trap 6 a
    else if 0x7E0000020000 ≤ a.toNat then t.trap 8 a
    else match t.kilnWindow a 16 with
      | none => t.trap 8 a
      | some (e, off) =>
        if t.locked t.cur (.spad e off) a.toNat 16 false then t.lockTrap a
        else if t.anyPoison (arrayBase e + off) 16 then t.consume (t.poisonAt (arrayBase e + off) 16)
        else
          let bs := t.spadBytes e off 16
          match ringOf bs t.me.carve.spadSize with
          | none => t.badRing ia
          | some r =>
            let u := t.setShadow ia { base := r.base, tiles := r.tiles, tbytes := r.tbytes,
                                      avail := (r.tail + 65536 - r.head) % 65536 }
            -- the record travels with the command: its 12 bytes as base, tiles, tbytes, head and tail
            u.enterKiln (.ringdef xs ia) (wordAt bs 0) t.cur (natAt bs 8 4) 0)

/-- RINGQ (R277, R286). -/
def execRingq (ia : BitVec 2) (s : State) : Out :=
  s.runKiln (.ringq ia) [] (fun t => if t.pushFull 1 then t.illegal (.ringq ia) else t.plainKiln (.ringq ia) 0)

/-- RINGADV (R285). -/
def execRingadv (xs : XReg) (ia : BitVec 2) (s : State) : Out :=
  s.runKiln (.ringadv xs ia) [xs] (fun t => 
    let h := t.shadow ia
    let n := (t.x xs).toNat
    if h.tiles = 0 ∨ h.tiles < h.avail + n then t.badRing ia
    else (t.setShadow ia { h with avail := h.avail + n }).plainKiln (.ringadv xs ia) (t.x xs))

/-- KMMA (R287 to R290). -/
def execKmma (ia : BitVec 2) (ib : BitVec 2) (fa : BitVec 3) (fb : BitVec 3) (mode : BitVec 2) (s : State) : Out :=
  s.runKiln (.kmma ia ib fa fb mode) [] (fun t => t.productKiln (.kmma ia ib fa fb mode) ia ib fa fb)

/-- KMMAS (R287 to R290, R293): illegal where the level has no keeper and no frame that another KMMAS does not take. -/
def execKmmas (ia : BitVec 2) (ib : BitVec 2) (fa : BitVec 3) (fb : BitVec 3) (mode : BitVec 2) (s : State) : Out :=
  s.runKiln (.kmmas ia ib fa fb mode) [] (fun t => 
    t.withRings ia ib (1024 * tileWidth fa) (1024 * tileWidth fb) (fun u =>
      if !bitOf u.keeper 2 && decide (u.kset.q3.length ≤ u.queued u.cur u.frame.level isKmmas) then u.illegal (.kmmas ia ib fa fb mode)
      else u.enterProduct (.kmmas ia ib fa fb mode) ia ib))

/-- KMMAT (R287 to R290). -/
def execKmmat (ia : BitVec 2) (ib : BitVec 2) (fa : BitVec 3) (fb : BitVec 3) (mode : BitVec 2) (s : State) : Out :=
  s.runKiln (.kmmat ia ib fa fb mode) [] (fun t => t.productKiln (.kmmat ia ib fa fb mode) ia ib fa fb)

/-- KMMAN (R287 to R290). -/
def execKmman (ia : BitVec 2) (ib : BitVec 2) (fa : BitVec 3) (fb : BitVec 3) (mode : BitVec 2) (s : State) : Out :=
  s.runKiln (.kmman ia ib fa fb mode) [] (fun t => t.productKiln (.kmman ia ib fa fb mode) ia ib fa fb)

/-- KZERO (R292). -/
def execKzero (s : State) : Out :=
  s.runKiln .kzero [] (fun t => t.plainKiln .kzero 0)

/-- KLD (R292). -/
def execKld (xs : XReg) (s : State) : Out :=
  s.runKiln (.kld xs) [xs] (fun t => t.enterMem (.kld xs) (t.x xs) 128 4096 false)

/-- KST (R292). -/
def execKst (xs : XReg) (s : State) : Out :=
  s.runKiln (.kst xs) [xs] (fun t => t.enterMem (.kst xs) (t.x xs) 128 4096 true)

/-- KROW (R292). -/
def execKrow (vd : BitVec 3) (n : BitVec 6) (s : State) : Out :=
  s.runKiln (.krow vd n) [] (fun t => t.plainKiln (.krow vd n) 0)

/-- KPUTROW (R292). -/
def execKputrow (vs : BitVec 3) (n : BitVec 6) (s : State) : Out :=
  s.runKiln (.kputrow vs n) [] (fun t => t.plainKiln (.kputrow vs n) 0)

/-- KEEP (R293), with its checkpoint (R368). -/
def execKeep (xs : XReg) (ia : BitVec 2) (ib : BitVec 2) (s : State) : Out :=
  s.runKiln (.keep xs ia ib) [xs] (fun t => 
    let k := t.keeper
    let tgt := (t.x xs).toNat % 4
    let lvl := t.frame.level
    if !bitOf k 2 || !(bitsOf k 0 2 == t.cur % 4) || decide (4 ≤ (t.x xs).toNat) ||
       (tgt == t.cur % 4 && decide (2 + t.queued t.cur lvl isKmmas ≤
          t.kset.q3.length + t.queued t.cur lvl (isKeepTo tgt) + t.framesTo tgt lvl)) then t.illegal (.keep xs ia ib)
    else t.withRings ia ib 128 128 (fun u =>
      (((u.takeTile ia).takeTile ib).enterKiln (.keep xs ia ib) (t.x xs) u.cur 0 tgt).ckCycle u.cur))

/-- KSCQ (R277, R295). -/
def execKscq (mode : BitVec 2) (s : State) : Out :=
  s.runKiln (.kscq mode) [] (fun t => if mode = 0 ∧ t.pushFull 1 then t.illegal (.kscq mode) else t.plainKiln (.kscq mode) 0)

/-- KFAC (R296, R297). -/
def execKfac (n : BitVec 6) (s : State) : Out :=
  s.runKiln (.kfac n) [] (fun t => t.solveKiln (.kfac n) n 0)

/-- KTRSL (R296, R298). -/
def execKtrsl (vd : BitVec 3) (vs : BitVec 3) (n : BitVec 6) (s : State) : Out :=
  s.runKiln (.ktrsl vd vs n) [] (fun t => t.solveKiln (.ktrsl vd vs n) n 0)

/-- KTRSU (R296, R298). -/
def execKtrsu (vd : BitVec 3) (vs : BitVec 3) (n : BitVec 6) (s : State) : Out :=
  s.runKiln (.ktrsu vd vs n) [] (fun t => t.solveKiln (.ktrsu vd vs n) n 0)

/-- KMV (R296, R299). -/
def execKmv (vd : BitVec 3) (vs : BitVec 3) (n : BitVec 6) (s : State) : Out :=
  s.runKiln (.kmv vd vs n) [] (fun t => t.solveKiln (.kmv vd vs n) n 0)

/-- KMVT (R296, R299). -/
def execKmvt (vd : BitVec 3) (vs : BitVec 3) (n : BitVec 6) (s : State) : Out :=
  s.runKiln (.kmvt vd vs n) [] (fun t => t.solveKiln (.kmvt vd vs n) n 0)

/-- KDIAG (R296, R299). -/
def execKdiag (xs : XReg) (n : BitVec 6) (s : State) : Out :=
  s.runKiln (.kdiag xs n) [xs] (fun t => t.solveKiln (.kdiag xs n) n (t.x xs))

/-- KCHKQ (R277, R302). -/
def execKchkq (mode : BitVec 2) (s : State) : Out :=
  s.runKiln (.kchkq mode) [] (fun t => if t.pushFull 1 then t.illegal (.kchkq mode) else t.plainKiln (.kchkq mode) 0)

/-- KFLG (R277, R303): xs is a register in mode 1 only. -/
def execKflg (xs : XReg) (mode : BitVec 2) (s : State) : Out :=
  s.runKiln (.kflg xs mode) (if mode = 1 then [xs] else []) (fun t =>
    if t.pushFull 1 then t.illegal (.kflg xs mode) else t.plainKiln (.kflg xs mode) (if mode = 1 then t.x xs else 0))

end Sys2Proof.Machine
end

