-- ==== Sys2Proof/Machine/KilnMat.lean ====
section
/-! DEFINITION. What the matrix array and the control commands compute (R110 to R113, R285 to R303): products with
their checksum, accumulator moves, scale frames and solve steps. -/

namespace Sys2Proof.Machine

/-! ### The accumulator and rings -/

def KSet.k0At (k : KSet) (i j : Nat) : BitVec 32 := tget k.k0 (32 * i + j) 0

def KSet.setK0 (k : KSet) (i j : Nat) (v : BitVec 32) : KSet := { k with k0 := tput k.k0 (32 * i + j) v 0 }

/-- An element of k0 as FP32. -/
def KSet.kf (k : KSet) (i j : Nat) : Fp := Fmt.fp32.dec false (k.k0At i j).toNat

def KSet.ring (k : KSet) (i : BitVec 2) : Ring := k.rings[i.toNat]

def KSet.setRing (k : KSet) (i : BitVec 2) (r : Ring) : KSet := { k with rings := k.rings.set i.toNat r }

/-- Scratchpad offset of the tile of a counter (R282). -/
def Ring.tileAt (r : Ring) (c : Nat) : Nat := if r.tiles = 0 then r.base else r.base + (c % r.tiles) * r.tbytes

/-- The ring after the pop of its head tile (R287). -/
def Ring.pop (r : Ring) : Ring := { r with head := (r.head + 1) % 65536 }

/-! ### Products (R110, R288, R290, R291, R113) -/

/-- The exact sum of terms; zero signs as R96 says. -/
def fpSum (l : List Fp) : Fp := l.foldl Fp.add (.fin true 0 0)

/-- The operands of a product command: forms, formats and mode. -/
structure Prod where
  ia : BitVec 2
  ib : BitVec 2
  fa : Fmt
  fb : Fmt
  mode : BitVec 2
  trans : Bool
  scaled : Bool
  negate : Bool
deriving DecidableEq, Repr

/-- The product a command stands for, if it is of the KMMA family. -/
def prodOf : Instr → Option Prod
  | .kmma ia ib fa fb m => some { ia := ia, ib := ib, fa := Fmt.ofCode fa.toNat, fb := Fmt.ofCode fb.toNat, mode := m,
                                  trans := false, scaled := false, negate := false }
  | .kmmas ia ib fa fb m => some { ia := ia, ib := ib, fa := Fmt.ofCode fa.toNat, fb := Fmt.ofCode fb.toNat, mode := m,
                                   trans := false, scaled := true, negate := false }
  | .kmmat ia ib fa fb m => some { ia := ia, ib := ib, fa := Fmt.ofCode fa.toNat, fb := Fmt.ofCode fb.toNat, mode := m,
                                   trans := true, scaled := false, negate := false }
  | .kmman ia ib fa fb m => some { ia := ia, ib := ib, fa := Fmt.ofCode fa.toNat, fb := Fmt.ofCode fb.toNat, mode := m,
                                   trans := false, scaled := false, negate := true }
  | _ => none

/-- Element (i, k) of A, and (k, j) of B, in their tiles (R288). -/
def Prod.a (p : Prod) (nxr : Bool) (t : Array (BitVec 16)) (i k : Nat) : Fp := p.fa.dec nxr (t.getD (32 * i + k) 0).toNat

def Prod.b (p : Prod) (nxr : Bool) (t : Array (BitVec 16)) (k j : Nat) : Fp :=
  p.fb.dec nxr (t.getD (if p.trans then 32 * j + k else 32 * k + j) 0).toNat

/-- The increment s[i][j] with the array's errors (R110, R403). -/
def Prod.s (p : Prod) (nxr : Bool) (A B : Array (BitVec 16)) (errs : List (Nat × Nat × Int × Int)) (i j : Nat) : Fp :=
  errs.foldl (fun x e =>
    if e.1 = i ∧ e.2.1 = j then x.add (.fin (decide (e.2.2.1 < 0)) e.2.2.1.natAbs e.2.2.2) else x)
    (fpSum ((List.range 32).map (fun k => (p.a nxr A i k).mul (p.b nxr B k j))))

/-- A quantity of R291: rounded once to FP32, or an exact integer for the INT8 pair. -/
def Prod.quant (p : Prod) (x : Fp) : Fp := if p.fa = .int8 then x else Fmt.fp32.dec false (Fmt.fp32.result x).1

def Fp.isFin : Fp → Bool
  | .fin .. => true
  | _ => false

/-- Whether a checksum differs from its sum by more than the tolerance (R291). -/
def Prod.differs (p : Prod) (tol c ps m : Fp) : Bool :=
  if p.fa = .int8 then !c.eq ps
  else c.isFin && ps.isFin && m.isFin && (tol.mul m).lt (c.add ps.neg).abs

/-- Rows whose checksum mismatches (R291). -/
def Prod.badRows (p : Prod) (nxr : Bool) (A B : Array (BitVec 16)) (errs : List (Nat × Nat × Int × Int))
    (ktol : BitVec 32) : List Nat :=
  let r := List.range 32
  let a := p.a nxr A
  let b := p.b nxr B
  r.filter (fun i => p.differs (Fmt.fp32.dec false ktol.toNat)
    (p.quant (fpSum (r.map (fun k => (a i k).mul (fpSum (r.map (fun j => b k j)))))))
    (p.quant (fpSum (r.map (fun j => p.s nxr A B errs i j))))
    (p.quant (fpSum (r.map (fun k => (a i k).abs.mul (fpSum (r.map (fun j => (b k j).abs))))))))

/-- Columns whose checksum mismatches (R291). -/
def Prod.badCols (p : Prod) (nxr : Bool) (A B : Array (BitVec 16)) (errs : List (Nat × Nat × Int × Int))
    (ktol : BitVec 32) : List Nat :=
  let r := List.range 32
  let a := p.a nxr A
  let b := p.b nxr B
  r.filter (fun j => p.differs (Fmt.fp32.dec false ktol.toNat)
    (p.quant (fpSum (r.map (fun k => (fpSum (r.map (fun i => a i k))).mul (b k j)))))
    (p.quant (fpSum (r.map (fun i => p.s nxr A B errs i j))))
    (p.quant (fpSum (r.map (fun k => (fpSum (r.map (fun i => (a i k).abs))).mul (b k j).abs)))))

/-- Whether any row or column mismatches (R291). -/
def Prod.mismatch (p : Prod) (nxr : Bool) (A B : Array (BitVec 16)) (errs : List (Nat × Nat × Int × Int))
    (ktol : BitVec 32) : Bool :=
  !(p.badRows nxr A B errs ktol).isEmpty || !(p.badCols nxr A B errs ktol).isEmpty

/-- DETAIL of a failed checksum (R411): the first failing row in bits 7:0 and column in bits 15:8, 0xFF where there is none
(log entry 73). -/
def Prod.failing (p : Prod) (nxr : Bool) (A B : Array (BitVec 16)) (errs : List (Nat × Nat × Int × Int))
    (ktol : BitVec 32) : Nat :=
  (p.badRows nxr A B errs ktol).headD 0xFF + 256 * (p.badCols nxr A B errs ktol).headD 0xFF

/-- The value of an S20 scale (R101); exponent field 255 is taken as zero (R422). -/
def s20 (v : BitVec 20) : Fp :=
  let e := bitsOf v.toNat 12 8
  if e = 0 ∨ e = 255 then Fp.zero else .fin false (4096 + bitsOf v.toNat 0 12) ((e : Int) - 139)

/-- The increment as it enters k0 (R290, R113). KMMAN negates an exact zero sum too, +0 to -0, where R110, whose sum is a
real, gives zero no sign: the model's choice (log entry 28). A zero rho or gamma makes the increment zero whatever the sum
is: R113 says s = 0 and R108 makes 0 × inf invalid, and the model sets no INV for it (log entry 70). -/
def Prod.term (p : Prod) (f : Option ScaleFrame) (s : Fp) (i j : Nat) : Fp :=
  let t := match p.scaled, f with
    | true, some f =>
      let rho := s20 (f.rho.getD i 0)
      let gam := s20 (f.gamma.getD j 0)
      if rho = Fp.zero ∨ gam = Fp.zero then Fp.zero else (((Fp.fin false 1 f.g).mul rho).mul gam).mul s
    | _, _ => s
  if p.negate then t.neg else t

/-- k0 and the flags after a product whose check passed (R290). -/
def KSet.product (k : KSet) (p : Prod) (nxr : Bool) (A B : Array (BitVec 16)) (errs : List (Nat × Nat × Int × Int))
    (f : Option ScaleFrame) : KSet :=
  let m : Fmt := if p.fa = .int8 then .int32 else .fp32
  (List.range 1024).foldl (fun (acc : KSet) t =>
    let i := t / 32
    let j := t % 32
    let b := if p.mode = 1 then Fp.zero else m.dec false (k.k0At i j).toNat
    let r := m.enc false .ne false (b.add (p.term f (p.s nxr A B errs i j) i j))
    (acc.setK0 i j (BitVec.ofNat 32 r.1)).flag r.2) k

/-- Bytes of the tiles a product reads (R288). -/
def Prod.bytes (f : Fmt) : Nat := 1024 * (f.width / 8)

/-- Occupancy of the array (R278). -/
def Prod.occ (p : Prod) : Nat :=
  if p.fa = .ps8 ∨ p.fb = .ps8 then 8
  else if p.fa.width = 16 then 32
  else 16

/-! ### Scale frames (R112, R293, R422) -/

/-- Exponent field and fraction of an S20. -/
def s20E (v : Nat) : Nat := bitsOf v 12 8

/-- The greatest unbiased exponent among non-zero scales, or 0. -/
def maxExp (l : List Nat) : Int :=
  match (l.filter (fun v => !(s20E v == 0) && !(s20E v == 255))).map (fun v => (s20E v : Int) - 127) with
  | [] => 0
  | e :: r => r.foldl (fun a b => if a < b then b else a) e

/-- One entry of a frame with its flags. -/
def scaleEntry (v : Nat) (m : Int) : BitVec 20 × BitVec 7 :=
  if s20E v = 0 then (0, 0)
  else if s20E v = 255 then (0, flINV)
  else
    let e := (s20E v : Int) - m
    if e < 1 then (0, flUF) else (BitVec.ofNat 20 (4096 * e.toNat + bitsOf v 0 12), 0)

/-- R112: the frame of row and column scales, with its flags. -/
def formFrame (sa sb : List Nat) : ScaleFrame × BitVec 7 :=
  let ma := maxExp sa
  let mb := maxExp sb
  let ra := sa.map (fun v => scaleEntry v ma)
  let rb := sb.map (fun v => scaleEntry v mb)
  ({ g := ma + mb, rho := ra.map (fun r => r.1), gamma := rb.map (fun r => r.1) },
   (ra ++ rb).foldl (fun a r => a ||| r.2) 0)

/-- The 65 words of a frame (R294): its form in q3 and in the context area. -/
def ScaleFrame.words (f : ScaleFrame) : List Nat :=
  (BitVec.ofInt 10 f.g).toNat :: (List.range 32).map (fun i => (f.rho.getD i 0).toNat) ++
    (List.range 32).map (fun i => (f.gamma.getD i 0).toNat)

/-- The 260 bytes of a frame (R294). -/
def ScaleFrame.bytes (f : ScaleFrame) : List Byte := f.words.flatMap (leBytes 4)

/-- A frame from its 260 bytes (R294). -/
def ScaleFrame.ofBytes (bs : List Byte) : ScaleFrame :=
  { g := (BitVec.ofNat 10 (natAt bs 0 4)).toInt,
    rho := (List.range 32).map (fun i => BitVec.ofNat 20 (natAt bs (4 + 4 * i) 4)),
    gamma := (List.range 32).map (fun i => BitVec.ofNat 20 (natAt bs (132 + 4 * i) 4)) }

/-! ### Accumulator moves and single-step solve commands (R292, R299) -/

/-- The state set after a single-step matrix command that reaches no memory. -/
def KSet.matrix1 (k : KSet) (cmd : KCmd) : KSet :=
  match cmd.ins with
  | .kzero => { k with k0 := [] }
  | .krow vd n =>
    let r := n.toNat % 32
    k.setVr vd (ofEls 32 ((List.range 32).map (fun l =>
      if n.toNat < 32 then (k.k0At r l).toNat else (k.k0At l r).toNat)))
  | .kputrow vs n =>
    let r := n.toNat % 32
    (List.range 32).foldl (fun (a : KSet) l =>
      let v := BitVec.ofNat 32 (elOf (k.vr vs) 32 l)
      if n.toNat < 32 then a.setK0 r l v else a.setK0 l r v) k
  | .kmv vd vs n =>
    let m := n.toNat
    k.setEls vd 32 ((List.range 32).map (fun i =>
      if i < m then
        Fmt.fp32.result (fpSum ((List.range m).map (fun q => (k.kf i q).mul (Fmt.fp32.dec false (elOf (k.vr vs) 32 q)))))
      else (0, 0)))
  | .kmvt vd vs n =>
    let m := n.toNat
    k.setEls vd 32 ((List.range 32).map (fun i =>
      if i < m then
        Fmt.fp32.result (fpSum ((List.range m).map (fun q => (k.kf q i).mul (Fmt.fp32.dec false (elOf (k.vr vs) 32 q)))))
      else (0, 0)))
  | .kdiag _ n =>
    (List.range n.toNat).foldl (fun (a : KSet) i =>
      let r := Fmt.fp32.result ((k.kf i i).add (Fmt.fp32.dec false (cmd.x.toNat % 2 ^ 32)))
      (a.setK0 i i (BitVec.ofNat 32 r.1)).flag r.2) k
  | _ => k

/-- What a single-step matrix command writes, computed as it issues from its operands of that moment (R278). -/
def KSet.outOf (k : KSet) (cmd : KCmd) : KOut :=
  let k' := { k with flags := 0 }.matrix1 cmd
  match cmd.ins with
  | .krow vd _ | .kmv vd _ _ | .kmvt vd _ _ => { v := some (vd, k'.vr vd), k0 := none, flags := k'.flags }
  | _ => { v := none, k0 := some k'.k0, flags := k'.flags }

/-- Those results written (R278). -/
def KOut.write (o : KOut) (k : KSet) : KSet :=
  let k1 := match o.v with
    | some (vd, x) => k.setVr vd x
    | none => k
  (match o.k0 with
   | some t => { k1 with k0 := t }
   | none => k1).flag o.flags

/-! ### Solve steps (R296 to R298) -/

/-- A quotient rounded once (R296): a zero divisor under a non-zero finite dividend sets OF. -/
def quotient (num den : Fp) : Nat × BitVec 7 :=
  let r := Fmt.fp32.result (num.div den)
  match num, den with
  | .fin _ m _, .fin _ 0 _ => if m = 0 then r else (r.1, r.2 ||| flOF)
  | _, _ => r

/-- Steps of a solve command (R297, R298). -/
def solveSteps : Instr → Nat
  | .kfac n => n.toNat
  | .ktrsl _ _ n => n.toNat
  | .ktrsu _ _ n => n.toNat
  | _ => 0

def isSolve (i : Instr) : Bool := !(solveSteps i == 0)

/-- Start-up and step cycles (R278, R300). -/
def solveTimes : Instr → Nat × Nat
  | .kfac _ => (40, 12)
  | _ => (20, 4)

/-- KFAC's column j (R297). -/
def KSet.facStep (k : KSet) (n j : Nat) : KSet :=
  let d := Fmt.fp32.result (fpSum (k.kf j j :: (List.range j).map (fun q => ((k.kf j q).mul (k.kf j q)).neg)))
  let dv := Fmt.fp32.dec false d.1
  let fl := Fmt.fp32.dec false k.kfloor.toNat
  let small := dv.isNan || dv.lt fl || dv.eq fl
  let piv := if small then fl else dv
  let root := Fmt.fp32.result piv.sqrt
  let k1 := ((k.setK0 j j (BitVec.ofNat 32 root.1)).flag (d.2 ||| root.2)).flag (if small then flREG else 0)
  let dj := Fmt.fp32.dec false root.1
  (List.range (n - (j + 1))).foldl (fun (a : KSet) t =>
    let i := j + 1 + t
    let r := quotient (fpSum (k.kf i j :: (List.range j).map (fun q => ((k.kf i q).mul (k.kf j q)).neg))) dj
    (a.setK0 i j (BitVec.ofNat 32 r.1)).flag r.2) k1

/-- Lane i of a register as FP32. -/
def KSet.vf (k : KSet) (v : BitVec 3) (i : Nat) : Fp := Fmt.fp32.dec false (elOf (k.vr v) 32 i)

def KSet.setLane (k : KSet) (v : BitVec 3) (i x : Nat) : KSet := k.setVr v (ofEls 32 (setAt (els (k.vr v) 32) i x))

/-- One step of KTRSL or KTRSU at row i, the earlier rows being `qs` (R298); `first` clears lanes n to 31. -/
def KSet.trsStep (k : KSet) (vd vs : BitVec 3) (n i : Nat) (qs : List Nat) (upper first : Bool) : KSet :=
  let k1 := if first then k.setVr vd (ofEls 32 ((els (k.vr vd) 32).take n)) else k
  let r := quotient (fpSum (k.vf vs i :: qs.map (fun q =>
    ((if upper then k.kf q i else k.kf i q).mul (k.vf vd q)).neg))) (k.kf i i)
  (k1.setLane vd i r.1).flag r.2

/-- Step `t` of a solve command. -/
def KSet.solveStep (k : KSet) (i : Instr) (t : Nat) : KSet :=
  match i with
  | .kfac n => k.facStep n.toNat t
  | .ktrsl vd vs n => k.trsStep vd vs n.toNat t (List.range t) false (t == 0)
  | .ktrsu vd vs n =>
    let r := n.toNat - 1 - t
    k.trsStep vd vs n.toNat r ((List.range t).map (fun q => r + 1 + q)) true (t == 0)
  | _ => k

/-! ### Control commands at issue (R284 to R286, R295, R302, R303) -/

/-- RINGQ's word (R286). -/
def Ring.word (r : Ring) : Word := BitVec.ofNat 64 (r.head % 65536 + 65536 * (r.tail % 65536) + 2 ^ 32 * (r.tiles % 512))

/-- The state set after a control command, and the entry it pushes to q1. -/
def KSet.control (k : KSet) (cmd : KCmd) : KSet × Option (Nat × Word) :=
  match cmd.ins with
  | .ringdef _ ia =>
    let x := cmd.x.toNat
    (k.setRing ia { base := bitsOf x 0 32, tiles := bitsOf x 32 16, tbytes := bitsOf x 48 16,
                    head := bitsOf cmd.off 0 16, tail := bitsOf cmd.off 16 16 }, none)
  | .ringq ia => (k, some (1, (k.ring ia).word))
  | .ringadv _ ia =>
    let r := k.ring ia
    (k.setRing ia { r with tail := (r.tail + cmd.x.toNat) % 65536 }, none)
  | .kscq m =>
    if m = 0 then
      (k, some (1, match k.q3 with
        | f :: _ => BitVec.ofInt 64 f.g
        | [] => 0x8000000000000000#64))
    else ({ k with q3 := k.q3.drop 1 }, none)
  | .kchkq m =>
    (if m = 1 then { k with cmds := 0, replays := 0 } else k,
     some (1, BitVec.ofNat 64 (k.replays + 65536 * k.cmds)))
  | .kflg _ m =>
    (if m = 1 then { k with flags := k.flags &&& ~~~(cmd.x.setWidth 7) } else k, some (1, k.flags.setWidth 64))
  | _ => (k, none)

end Sys2Proof.Machine
end

