-- ==== Sys2Proof/Machine/KilnRun.lean ====
section
/-! DEFINITION. The kiln's own steps (R253 to R256, R276 to R281, R287, R293, R300, R301, R376, R403, R404): readiness,
issue in the vector section and on the array, the lease and its firings, retirement, solve steps, frames, gating. -/

namespace Sys2Proof.Machine

/-! ### Readiness (R254, R276) -/

/-- Whether an issued command holds back a later one of its state set (R254, R276, R284). -/
def conflicts (f c : Instr) : Bool :=
  if (prodOf f).isSome && (prodOf c).isSome then false else holdsBack f c

/-- Whether a KEEP to the keeper itself holds back a later command that reads or writes that q3 (R276, R293). -/
def keepHolds (ep : Nat) (f c : KCmd) : Bool :=
  (match f.ins with
   | .keep .. => f.target == ep % 4
   | _ => false) && ((kReads c.ins).contains 14 || (kWrites c.ins).contains 14)

/-- Whether a command's scratchpad is another member's that applies a new carve-out: its accesses wait (R124). -/
def State.kilnCarves (s : State) (ep : Nat) (c : KCmd) : Bool := !(c.ep == ep) && (s.core c.ep).carving

/-- Commands that read a scratchpad as they issue (R264, R292). -/
def readsSpad : Instr → Bool
  | .vld .. | .vlds .. | .vgth .. | .kld .. => true
  | _ => false

/-- Ready under R254 and R276, the lease aside. From the core's retirement to the earliest issue is 2 cycles (R255). -/
def State.kReady (s : State) (ep : Nat) (c : KCmd) : Bool :=
  s.passed ep c.entered 2 && !(readsSpad c.ins && s.kilnCarves ep c) &&
  !((s.kiln (quadOf ep)).flight.any (fun f =>
    f.core == ep && f.cmd.level == c.level && (conflicts f.cmd.ins c.ins || keepHolds ep f.cmd c))) &&
  !(waitsAll c.ins && s.keepWaits ep c.level) &&
  (match c.ins with
   | .kmmas .. => !(tget (s.core ep).sets c.level KSet.reset).q3.isEmpty
   | _ => true)

/-- The endpoint of a quad core. -/
def quadCore (q j : Nat) : Nat := 4 * q + j % 4

/-- The four quad cores after k, in order (R253, R279). -/
def rotation (k : Nat) : List Nat := (List.range 4).map (fun i => (k + 1 + i) % 4)

/-- The head of a core's dispatch queue. -/
def State.head (s : State) (ep : Nat) : Option KCmd := (s.core ep).dq.head?

/-- Whether a core's queue may issue in this cycle: one command issues from it a cycle (R391). -/
def State.slotOpen (s : State) (ep : Nat) : Bool := decide ((s.core ep).dqFree ≤ s.now)

/-- Whether a lease is held by a core's level. -/
def Lease.holds (l : Lease) (ep lvl : Nat) : Bool := l.core == ep % 4 && l.level == lvl

/-- Whether a core requests an issue slot of the vector section (R253, R281). -/
def State.vecRequest (s : State) (q j : Nat) : Bool :=
  match s.head (quadCore q j) with
  | none => false
  | some c =>
    if isMatrix c.ins then false
    else s.slotOpen (quadCore q j) && s.kReady (quadCore q j) c &&
      (if isLease c.ins then (match (s.kiln q).lease with
        | some l => l.holds (quadCore q j) c.level
        | none => false) else true)

/-- Whether a core requests the array, and for which level (R279). -/
def State.matRequest (s : State) (q j : Nat) : Option (Nat × Bool) :=
  match s.head (quadCore q j) with
  | none => none
  | some c => if (isMatrix c.ins || isLease c.ins) && s.kReady (quadCore q j) c then some (c.level, isLease c.ins) else none

/-! ### Changing a state set -/

def State.ksetOf (s : State) (ep lvl : Nat) : KSet := tget (s.core ep).sets lvl KSet.reset

/-- Changes a state set. A command of the interval before the checkpoint changes the checkpoint's snapshot too, so that
a rollback keeps it (R369). -/
def State.onSet (s : State) (ep : Nat) (c : KCmd) (f : KSet → KSet) : State :=
  s.onCore ep (fun d =>
    let d1 := { d with sets := tset d.sets c.level (f (tget d.sets c.level KSet.reset)) }
    match d1.ck with
    | some k => if c.old && k.frame.level == c.level then { d1 with ck := some { k with kset := k.kset.map f } } else d1
    | none => d1)

/-- The snapshot of R369, at the issue of the first command queued after the checkpoint. -/
def State.snapshot (s : State) (ep : Nat) (c : KCmd) : State :=
  if c.old then s
  else s.onCore ep (fun d =>
    match d.ck with
    | some k => if k.kset.isNone && k.frame.level == c.level then
        { d with ck := some { k with kset := some (tget d.sets c.level KSet.reset) } } else d
    | none => d)

/-- Drops the head of a core's queue: it has issued. -/
def State.dropHead (s : State) (ep : Nat) : State :=
  s.onCore ep (fun c => { c with dq := c.dq.drop 1, dqFree := s.after ep 1 })

/-- Consumption of poison by a kiln (R407). -/
def State.kilnConsume (s : State) (ep pa : Nat) (c : KCmd) : State := s.machineCheck ep 1 0x40 pa 0 c.pc.toNat

/-- An issued command. -/
def mkFlight (c : KCmd) (ep due : Nat) : Flight :=
  { cmd := c, core := ep, due := due, step := 0, stepAt := due, tileA := [], tileB := [], frame := none, push := none,
    writes := [], replayed := false, aborting := false }

def State.fly (s : State) (q : Nat) (f : Flight) : State := s.onKiln q (fun k => { k with flight := k.flight ++ [f] })

/-! ### The lease (R279 to R281) -/

/-- Matrix commands that the holder has in flight. -/
def Kiln.matInFlight (k : Kiln) (q : Nat) (l : Lease) : Bool :=
  k.flight.any (fun f => isMatrix f.cmd.ins && f.core == quadCore q l.core && f.cmd.level == l.level)

/-- Frees the lease when its firing has ended (R280): 4 × GAP cycles pass before the next grant (R377). -/
def State.endFiring (s : State) (q : Nat) : State :=
  s.onKiln q (fun k =>
    match k.lease with
    | some l =>
      if l.ending && !k.matInFlight q l then
        { k with lease := none, lastHolder := l.core, nextGrant := s.after (4 * q) (1 + 4 * s.nm.gap) }
      else k
    | none => k)

/-- Event 5 of R280, held off for 64 cycles after a grant to a LEASE (R281). A request of another level of the holder's
own core (a trap frame's, R42) counts as another core's does, for it would wait for ever otherwise (R62, R350; log entry
15). -/
def State.checkEvent5 (s : State) (q : Nat) : State :=
  match (s.kiln q).lease with
  | none => s
  | some l =>
    let holderWants := match s.matRequest q l.core with
      | some (lvl, _) => lvl == l.level
      | none => false
    let other := (List.range 4).any (fun j => match s.matRequest q j with
      | some (lvl, _) => !(j == l.core && lvl == l.level)
      | none => false)
    if !holderWants && other && !l.byLease then
      s.onKiln q (fun k => { k with lease := some { l with ending := true } })
    else s

/-- A grant of the lease to the first requesting core (R279), or the end of a firing. -/
def execLeaseGrant (quad : Nat) (s : State) : Out :=
  let s1 := (s.checkEvent5 quad).endFiring quad
  let k := s1.kiln quad
  if k.lease.isSome || decide (s1.now < k.nextGrant) then .next s1
  else
    match (rotation k.lastHolder).findSome? (fun j => (s1.matRequest quad j).map (fun r => (j, r))) with
    | none => .next s1
    | some (j, lvl, byL) =>
      if k.matGated then .next (s1.onKiln quad (fun k => { k with matGated := false, nextGrant := s1.after (4 * quad) 16 }))
      else .next (s1.onKiln quad (fun k => { k with
        lease := some { core := j, level := lvl, grantedAt := s1.now, from' := s1.after (4 * quad) 1, issued := 0, ending := false,
                        byLease := byL } }))

/-- 64 cycles after a grant to a LEASE its firing may end under event 5 (R281). -/
def execLeaseGrantTermExpiry (quad : Nat) (s : State) : Out :=
  .next (s.onKiln quad (fun k =>
    match k.lease with
    | some l => if l.byLease ∧ s.passed (4 * quad) l.grantedAt 64 then { k with lease := some { l with byLease := false } } else k
    | none => k))

/-! ### Issue in the vector section (R253, R263 to R274, R281, R284 to R286, R293, R295, R302, R303) -/

/-- KEEP at issue: reads and pops both scale tiles and forms the frame (R112, R293). -/
def State.issueKeep (s : State) (q ep : Nat) (c : KCmd) (ia ib : BitVec 2) : State :=
  let k := s.ksetOf ep c.level
  let offs := fun (r : Ring) => (List.range 32).map (fun i => ((r.tileAt r.head + 4 * i : Nat) : Int))
  let a := s.kread ep ep 4 (offs (k.ring ia))
  let b := s.kread ep ep 4 (offs (k.ring ib))
  match a.poison, b.poison with
  | some p, _ => s.kilnConsume ep p c
  | none, some p => s.kilnConsume ep p c
  | none, none =>
    let fr := formFrame (a.vals.map (fun v => v % 2 ^ 20)) (b.vals.map (fun v => v % 2 ^ 20))
    let s1 := (s.snapshot ep c).onSet ep c (fun k =>
      ((k.setRing ia (k.ring ia).pop).setRing ib (k.ring ib).pop).flag
        (fr.2 ||| (if a.outside || b.outside then flINV else 0)))
    ((s1.dropHead ep).fly q (mkFlight c ep (s.after ep 6))).onKiln q (fun n => { n with
      frames := n.frames ++ [{ vdev := (s.core ep).vdev, src := ep % 65536, target := c.target, level := c.level, frame := fr.1, at' := s.after ep 6 }] })

/-- What an issued command finds of its state set: one that reads a word with an uncorrectable error, or that stood in such
a word of its queue, consumes it (R407); what it writes is good again. -/
def State.useSet (s : State) (ep : Nat) (c : KCmd) (k : State → State) : State :=
  let bad := (s.ksetOf ep c.level).bad
  if c.bad then s.kilnConsume ep 0 c
  else if bad.isEmpty then k s
  else if (kReads c.ins ++ (if isVsplq c then [15] else [])).any bad.contains then s.kilnConsume ep 0 c
  else
    let good := fun (k : KSet) => { k with bad := bad.filter (fun i => !(kWrites c.ins).contains i) }
    k (s.onCore ep (fun d => { d with sets := tset d.sets c.level (good (tget d.sets c.level KSet.reset)) }))

/-- Issue of a vector or control command. -/
def State.issueVec (s : State) (q ep : Nat) (c : KCmd) : State :=
  let fl := mkFlight c ep (s.after ep (vecTime c))
  let k := s.ksetOf ep c.level
  match c.ins with
  | .keep _ ia ib => s.issueKeep q ep c ia ib
  | .lease => (s.dropHead ep).fly q fl
  | .unlease =>
    let s1 := (s.dropHead ep).fly q fl
    (s1.onKiln q (fun n => match n.lease with
      | some l => if l.holds ep c.level then { n with lease := some { l with ending := true } } else n
      | none => n)).endFiring q
  | _ =>
    match k.readOffs c with
    | some (vd, n, offs) =>
      let r := s.kread ep c.ep n offs
      match r.poison with
      | some p => s.kilnConsume ep p c
      | none =>
        (((s.snapshot ep c).onSet ep c (fun k =>
          (k.setVr vd (ofEls (8 * n) r.vals)).flag (if r.outside then flINV else 0))).dropHead ep).fly q fl
    | none =>
      let ws := k.writeBytes c
      let v := k.vector c
      let p := v.2.orElse (fun _ => (k.control c).2)
      (((s.snapshot ep c).onSet ep c (fun k => ((k.vector c).1.control c).1)).dropHead ep).fly q
        { fl with push := p, writes := ws }

/-- The vector section issues at most one ready command, round-robin (R253); a gated section first wakes (R376). -/
def execKilnVectorIssue (quad : Nat) (s : State) : Out :=
  let k := s.kiln quad
  if s.now < k.vecFree then .next s
  else
    match (rotation k.lastVec).find? (fun j => s.vecRequest quad j) with
    | none => .next s
    | some j =>
      if k.vecGated then
        .next (s.onKiln quad (fun n => { n with vecGated := false, vecFree := s.after (4 * quad) 16 }))
      else
        match s.head (quadCore quad j) with
        | none => .next s
        | some c =>
          let s1 := s.onKiln quad (fun n => { n with lastVec := j, vecFree := s.after (4 * quad) 1, vecIdleAt := s.now })
          .next (s1.useSet (quadCore quad j) c (fun t => t.issueVec quad (quadCore quad j) c))

/-! ### Issue on the array (R279, R287, R290, R292, R297 to R300) -/

/-- Tiles of a ring that issued commands of the set have taken and not yet popped (R287). -/
def State.taken (s : State) (q ep lvl : Nat) (i : BitVec 2) : Nat :=
  ((s.kiln q).flight.filter (fun f => f.core == ep && f.cmd.level == lvl && (match prodOf f.cmd.ins with
    | some p => p.ia == i || p.ib == i
    | none => false))).length

/-- Owner number of a matrix command's range locks (R133). -/
def matOwner (ep kseq : Nat) : Nat := 2 ^ 60 + (ep % 65536) * 2 ^ 40 + kseq % 2 ^ 40

def State.issueProduct (s : State) (q ep : Nat) (c : KCmd) (p : Prod) : State :=
  let k := s.ksetOf ep c.level
  if 32 < (s.cluster (clusterOf ep)).liveLocks.length + 2 then s
  else
    let tile := fun (i : BitVec 2) (f : Fmt) =>
      let r := k.ring i
      let base := r.tileAt ((r.head + s.taken q ep c.level i) % 65536)
      let b := f.width / 8
      (base, s.kread ep ep b ((List.range 1024).map (fun t => ((base + b * t : Nat) : Int))))
    let a := tile p.ia p.fa
    let b := tile p.ib p.fb
    match a.2.poison, b.2.poison with
    | some x, _ => s.kilnConsume ep x c
    | none, some x => s.kilnConsume ep x c
    | none, none =>
      let lock := fun (lo n : Nat) => ({ owner := matOwner ep c.kseq, dst := false, space := .array s.chip,
                                         lo := arrayBase ep + lo, len := n, cores := [] } : RangeLock)
      let out := a.2.outside || b.2.outside
      let s1 := (s.snapshot ep c).onSet ep c (fun k =>
        ((if p.scaled then { k with q3 := k.q3.drop 1 } else k)).flag (if out then flINV else 0))
      let s2 := s1.onCluster (clusterOf ep) (fun d => { d with
        locks := d.locks ++ [lock a.1 (Prod.bytes p.fa), lock b.1 (Prod.bytes p.fb)] })
      (s2.dropHead ep).fly q { mkFlight c ep (s.after ep (p.occ + 8)) with
        tileA := a.2.vals.map (fun v => BitVec.ofNat 16 v), tileB := b.2.vals.map (fun v => BitVec.ofNat 16 v),
        frame := if p.scaled then k.q3.head? else none }

/-- Occupancy and retirement of the other matrix commands (R278). -/
def matTimes : Instr → Nat × Nat
  | .kzero => (1, 2)
  | .kld _ => (32, 34)
  | .kst _ => (32, 36)
  | .krow _ _ => (2, 4)
  | .kputrow _ _ => (2, 4)
  | .kdiag _ _ => (4, 6)
  | _ => (36, 36)

/-- Issue of a solve command: from its start, or at the step after a suspension (R297, R298, R300). -/
def State.issueSolve (s : State) (q ep : Nat) (c : KCmd) : State :=
  let k := s.ksetOf ep c.level
  let tm := solveTimes c.ins
  let done := match k.susp with
    | some u => if u.kseq = c.kseq then some u.steps else none
    | none => none
  let st := done.getD 0
  let start := if done.isSome then 0 else tm.1
  let due := s.after ep (start + tm.2 * (solveSteps c.ins - st))
  let s1 := (s.snapshot ep c).onSet ep c (fun k => if done.isSome then { k with susp := none } else k)
  ((s1.dropHead ep).fly q { mkFlight c ep due with step := st, stepAt := s.after ep (start + tm.2) }).onKiln q (fun n =>
    { n with arrayFree := due })

/-- Issue of a matrix command on the array. -/
def State.issueMat (s : State) (q ep : Nat) (c : KCmd) : State :=
  match prodOf c.ins with
  | some p =>
    let t := s.issueProduct q ep c p
    if (t.core ep).dq.length < (s.core ep).dq.length then t.onKiln q (fun n => { n with arrayFree := s.after ep p.occ }) else t
  | none =>
    if isSolve c.ins then s.issueSolve q ep c
    else
      let tm := matTimes c.ins
      let fl := mkFlight c ep (s.after ep tm.2)
      let busy := fun (t : State) => t.onKiln q (fun n => { n with arrayFree := s.after ep tm.1 })
      match c.ins with
      | .kld _ =>
        let r := s.kread ep c.ep 4 ((List.range 1024).map (fun t => ((c.off + 4 * t : Nat) : Int)))
        (match r.poison with
         | some x => s.kilnConsume ep x c
         | none =>
           let o : KOut :=
             { v := none, flags := if r.outside then flINV else 0,
               k0 := some (((List.range 1024).zip r.vals).foldl (fun t (e : Nat × Nat) =>
                 tput t e.1 (BitVec.ofNat 32 e.2) 0) []) }
           busy (((s.snapshot ep c).dropHead ep).fly q { fl with out := some o }))
      | .kst _ =>
        let k := s.ksetOf ep c.level
        busy ((s.dropHead ep).fly q { fl with writes :=
          [(c.off, (List.range 1024).flatMap (fun t => leBytes 4 (k.k0At (t / 32) (t % 32)).toNat))] })
      | _ => busy (((s.snapshot ep c).dropHead ep).fly q { fl with out := some ((s.ksetOf ep c.level).outOf c) })

/-- The holder's next matrix command issues when the array is free (R279); the 64th is the firing's last (R280). An array
that was gated while the lease was held wakes first (R376, log entry 71). -/
def execMatrixCommandIssue (quad : Nat) (s : State) : Out :=
  let k := s.kiln quad
  match k.lease with
  | none => .next s
  | some l =>
    let ep := quadCore quad l.core
    match s.head ep with
    | none => .next s
    | some c =>
      if l.ending || decide (s.now < l.from') || decide (s.now < k.arrayFree) || !isMatrix c.ins ||
         !(c.level == l.level) || !s.slotOpen ep || !s.kReady ep c then .next s
      else if k.matGated then .next (s.onKiln quad (fun n => { n with matGated := false, arrayFree := s.after (4 * quad) 16 }))
      else
        let t := s.useSet ep c (fun u => u.issueMat quad ep c)
        if (t.core ep).dq.length < (s.core ep).dq.length then
          .next (t.onKiln quad (fun n => { n with
            lease := some { l with issued := l.issued + 1, ending := decide (64 ≤ l.issued + 1) },
            matIdleAt := s.now }))
        else .next t

/-! ### Retirement (R278, R290, R369, R403, R404) -/

/-- Before a command's scratchpad writes for which the journal has no room, a checkpoint is taken (R368): the command is
then one queued before it. -/
def State.makeRoom (s : State) (f : Flight) : State × KCmd :=
  let c := f.cmd
  let size := (s.core c.ep).carve.spadSize
  let ws := f.writes.map (fun w => (w.1, (w.2.take (size - w.1)).length))
  if !c.old && c.ep == f.core && (s.core f.core).journalFull ws then (s.checkpoint f.core, { c with old := true })
  else (s, c)

/-- A completed product's successor is posted (R52, R221). -/
def State.postPass (s : State) (ep : Nat) (c : KCmd) : State :=
  match c.succ with
  | some r => s.postSucc ep r (s.core ep).pub.lseq
  | none => s

/-- Offsets of a byte list. -/
def spanOf (o n : Nat) : List Nat := (List.range n).map (fun i => o + i)

/-- Performs scratchpad bytes of a command: bytes beyond the region are not written and set INV (R260); own-scratchpad
bytes are journaled, or kept for a later rollback when the command is of the interval before the checkpoint (R262,
R369). -/
def State.kwrite (s : State) (ep : Nat) (c : KCmd) (o : Nat) (bs : List Byte) : State :=
  let size := (s.core c.ep).carve.spadSize
  let ok := bs.take (size - o)
  let s1 := if ok.length < bs.length then s.onSet ep c (fun k => k.flag flINV) else s
  let s2 :=
    if c.ep = ep then
      (if c.old then
        s1.onCore ep (fun d => match d.ck with
          | some k => { d with ck := some { k with
              kept := ((spanOf o ok.length).zip ok).foldl (fun t e =>
                if (tfind k.jour (e.1 / 128)).isSome then tset t e.1 e.2 else t) k.kept } }
          | none => d)
      else s1.journal ep o ok.length)
    else s1
  s2.spadWrite c.ep o ok

/-- Poison cleared where one element pair of a vector write covers an 8-byte word (R406). -/
def State.clearPairs (s : State) (ep : Nat) : List (Nat × List Byte) → State
  | a :: b :: l =>
    State.clearPairs
      (if decide (a.1 / 8 = b.1 / 8) && !(a.1 == b.1) && decide (a.2.length = 4) && decide (b.2.length = 4)
       then s.setPoison (arrayBase ep + 8 * (a.1 / 8)) false else s) ep l
  | _ => s

/-- A multi-step command of a task completed: the deadline's count (R223). -/
def State.countSolve (s : State) (ep fid : Nat) : State :=
  let g := fun (f : Frame) =>
    if f.fid = fid then { f with dl := f.dl.map (fun d => { d with solves := d.solves + 1 }) } else f
  s.onCore ep (fun c => { c with run := g c.run, under := c.under.map g })

/-- The product's tiles are popped and their locks freed (R287). -/
def State.popTiles (s : State) (ep : Nat) (c : KCmd) (p : Prod) : State :=
  (s.onSet ep c (fun k => (k.setRing p.ia (k.ring p.ia).pop).setRing p.ib (k.ring p.ib).pop)).onCluster (clusterOf ep)
    (fun d => { d with locks := d.locks.filter (fun l => !(l.owner == matOwner ep c.kseq)) })

/-- The error record of a kiln (R403, R404, R411): UNIT is the quad's core 0, DETAIL the failing row and column. -/
def State.kilnRecord (s : State) (ep cls code : Nat) (c : KCmd) (detail : Nat) : State :=
  s.report { cls := cls, src := 1, code := code, unit := s.epId (4 * quadOf ep), addr := 0, owner := (s.core ep).owner,
             hseq := (s.core ep).run.hseq, pc := c.pc.toNat, detail := detail }

/-- The pending kiln-check trap of the issuing frame (R404). -/
def State.kilnCheck (s : State) (ep : Nat) (c : KCmd) : State :=
  let g := fun (f : Frame) =>
    if f.fid = c.fid then { f with pendChk := merge f.pendChk (BitVec.ofNat 64 c.kseq) } else f
  s.onCore ep (fun d => { d with run := g d.run, under := d.under.map g })

/-- Removes an issued command. -/
def State.land (s : State) (q : Nat) (f : Flight) : State :=
  s.onKiln q (fun k => { k with flight := k.flight.filter (fun g => !(g.core == f.core && g.cmd.kseq == f.cmd.kseq)) })

/-- A product reaches its retirement: the check, one replay, then k0 or the kiln-check trap (R290, R291, R403, R404). -/
def State.retireProduct (s : State) (q : Nat) (f : Flight) (p : Prod) : State :=
  let c := f.cmd
  let k := s.ksetOf f.core c.level
  let A := f.tileA.toArray
  let B := f.tileB.toArray
  let errs := (s.kiln q).upset.headD []
  let s0 := s.onKiln q (fun n => { n with upset := n.upset.drop 1 })
  let at' := p.failing c.nxr A B errs k.ktol
  if p.mismatch c.nxr A B errs k.ktol then
    (if !f.replayed then
      ((s0.onSet f.core c (fun k => { k with replays := min 0xFFFF (k.replays + 1) })).kilnRecord f.core 0 0x10 c at').countAt
        f.core c.level 11 1 |>.onKiln q (fun n => { n with
          arrayFree := s.ownAfter f.core (max n.arrayFree s.now) p.occ,
          flight := n.flight.map (fun g =>
            if g.core == f.core && g.cmd.kseq == c.kseq then { g with replayed := true, due := s.after f.core p.occ }
            else if isMatrix g.cmd.ins then { g with due := s.ownAfter f.core g.due p.occ } else g) })
    else
      let s1 := (((s0.popTiles f.core c p).onSet f.core c (fun k =>
        { k.flag flCHK with cmds := (k.cmds + 1) % 2 ^ 32 })).onKiln q (fun n => { n with suspect := true })).kilnRecord
          f.core 2 0x11 c at'
      (((s1.kilnCheck f.core c).countAt f.core c.level 10 1).land q f).postPass f.core c)
  else
    ((((s0.onSet f.core c (fun k =>
      { k.product p c.nxr A B errs f.frame with cmds := (k.cmds + 1) % 2 ^ 32 })).popTiles f.core c p).countAt
        f.core c.level 10 1).land q f).postPass f.core c

/-- A command reaches its retirement: writes, queue entry, results (R278). -/
def State.retireFlight (s : State) (q : Nat) (f : Flight) : State :=
  match prodOf f.cmd.ins with
  | some p => s.retireProduct q f p
  | none =>
    let m := (s.land q f).makeRoom f
    let c := m.2
    let s1 := match f.out with
      | some o => m.1.onSet f.core c o.write
      | none => m.1
    let s2 := (f.writes.foldl (fun t w => t.kwrite f.core c w.1 w.2) s1).clearPairs c.ep f.writes
    let s3 := match f.push with
      | some (n, v) => if c.old then s2.pushKept f.core c.level n v else s2.pushQ f.core c.level n v
      | none => s2
    if isSolve c.ins then s3.countSolve f.core c.fid else s3

/-- Whether accesses that a core made to a member's scratchpad before it queued a command are still to be performed there:
the command's writes follow them (R126, R261). -/
def State.spadOlder (s : State) (ep : Nat) (c : KCmd) : Bool :=
  !(c.ep == ep) && (tget s.inbox c.ep []).any (fun p => p.src == s.epId ep && p.isAccess && decide (p.arr < c.entered))

/-- Whether an issued command may retire: its time has come, its steps are done, no earlier write of its core waits (R261,
R276), and the scratchpad that it writes takes it (R124, R126). -/
def State.mayRetire (s : State) (k : Kiln) (f : Flight) : Bool :=
  decide (f.due ≤ s.now) && (f.writes.isEmpty || !(s.kilnCarves f.core f.cmd || s.spadOlder f.core f.cmd)) && (!isSolve f.cmd.ins || f.step == solveSteps f.cmd.ins) &&
  (f.writes.isEmpty || !((k.flight.takeWhile (fun g => !(g.core == f.core && g.cmd.kseq == f.cmd.kseq))).any (fun g =>
    g.core == f.core && !g.writes.isEmpty))) &&
  (!isMatrix f.cmd.ins || !((k.flight.takeWhile (fun g => !(g.core == f.core && g.cmd.kseq == f.cmd.kseq))).any (fun g =>
    g.core == f.core && g.cmd.level == f.cmd.level && isMatrix g.cmd.ins)))

/-- The command of the earliest retirement time retires (R278). -/
def execKilnCommandRetire (quad : Nat) (s : State) : Out :=
  let k := s.kiln quad
  match k.flight.filter (fun f => s.mayRetire k f) with
  | [] => .next s
  | f :: rest =>
    let g := rest.foldl (fun m h => if h.due < m.due then h else m) f
    .next ((s.retireFlight quad g).endFiring quad)

/-! ### Solve steps (R297 to R301) -/

/-- A suspended solve command goes back: to the head of its level's parked list, or, where the level runs again already,
to the front of the queue (R300). -/
def Core.putBack (c : Core) (k : KCmd) : Core :=
  if c.run.level == k.level then { c with dq := k :: c.dq } else { c with parked := k :: c.parked }

/-- A solve command, executing or suspended, ends early under a deadline (R301). -/
def State.abortSolve (s : State) (q : Nat) (f : Flight) : State :=
  let fac := match f.cmd.ins with
    | .kfac _ => true
    | _ => false
  let g := fun (fr : Frame) =>
    if fr.fid = f.cmd.fid then { fr with dl := fr.dl.map (fun d => { d with reason := if fac then 2 else 3 }) } else fr
  ((s.onSet f.core f.cmd (fun k => if fac then k.flag flPART else k)).land q f).onCore f.core (fun c =>
    { c with run := g c.run, under := c.under.map g })

/-- A step of the executing solve command finishes: its results are written; at a step boundary the command may abort
or suspend (R300, R301). One whose deadline expires in its last step has then done all its steps, and completes: R301's words
name no such case, and this is the model's choice (log entry 72). -/
def execSolveStepComplete (quad : Nat) (s : State) : Out :=
  let k := s.kiln quad
  match k.flight.find? (fun f => isSolve f.cmd.ins && decide (f.step < solveSteps f.cmd.ins) && decide (f.stepAt ≤ s.now)) with
  | none => .next s
  | some f =>
    let tm := solveTimes f.cmd.ins
    let s1 := s.onSet f.core f.cmd (fun k => k.solveStep f.cmd.ins f.step)
    let f1 := { f with step := f.step + 1, stepAt := s.ownAfter f.core f.stepAt tm.2 }
    let s2 := s1.onKiln quad (fun n => { n with flight := n.flight.map (fun g =>
      if g.core == f.core && g.cmd.kseq == f.cmd.kseq then f1 else g) })
    if f1.step = solveSteps f.cmd.ins then .next s2
    else if f.aborting then
      .next (((s2.abortSolve quad f1).onKiln quad (fun n => { n with arrayFree := s.now })).endFiring quad)
    else if f.suspending then
      .next ((((s2.onSet f.core f.cmd (fun k => { k with susp := some { kseq := f.cmd.kseq, steps := f1.step } })).land
        quad f1).onCore f.core (fun c => c.putBack f.cmd)).onKiln quad (fun n =>
          { n with arrayFree := s.now }) |>.endFiring quad)
    else .next s2

/-- Acts on a level's kiln commands when its task's deadline expires (R301): the executing solve command will abort at
its next step, a suspended one aborts now, solve commands not started are discarded. -/
def State.expireKiln (s : State) (ep lvl : Nat) : State :=
  let q := quadOf ep
  let k := s.ksetOf ep lvl
  let s1 := s.onKiln q (fun n => { n with flight := n.flight.map (fun f =>
    if f.core == ep && f.cmd.level == lvl && isSolve f.cmd.ins && decide (f.step < solveSteps f.cmd.ins)
    then { f with aborting := true } else f) })
  let susp := match k.susp with
    | some u => (s.core ep).parked.find? (fun c => c.level == lvl && c.kseq == u.kseq) |>.orElse
        (fun _ => (s.core ep).dq.find? (fun c => c.level == lvl && c.kseq == u.kseq))
    | none => none
  let s2 := match susp with
    | some c => (s1.abortSolve q (mkFlight c ep 0)).onSet ep c (fun k => { k with susp := none })
    | none => s1
  s2.onCore ep (fun c => { c with
    dq := c.dq.filter (fun d => !(d.level == lvl && isSolve d.ins)),
    parked := c.parked.filter (fun d => !(d.level == lvl && isSolve d.ins)) })

/-! ### Scale frames and gating (R293, R376) -/

/-- The oldest frame due at a target whose q3 has room is delivered (R293). -/
def execScaleFrameDelivery (quad : Nat) (s : State) : Out :=
  match takeFirst (fun (f : FrameOut) => decide (f.at' ≤ s.now) && (s.core (quadCore quad f.target)).vdev == f.vdev &&
      decide ((s.ksetOf (quadCore quad f.target) f.level).q3.length < 2)) (s.kiln quad).frames with
  | none => .next s
  | some (f, rest) =>
    .next ((s.onKiln quad (fun k => { k with frames := rest })).onCore (quadCore quad f.target) (fun c =>
      let k := tget c.sets f.level KSet.reset
      -- a rollback keeps what is delivered after the snapshot (R370)
      { c with sets := tset c.sets f.level { k with q3 := k.q3 ++ [f.frame] },
               ck := c.ck.map (fun (p : Ckpt) => if p.frame.level = f.level then
                 { p with kset := p.kset.map (fun q => { q with q3 := q.q3 ++ [f.frame] }) } else p) }))

/-- A section idle for 1,024 cycles is gated, unless a command or LEASE waits for it (R376, log entry 71). -/
def execKilnGate (quad : Nat) (matrix : Bool) (s : State) : Out :=
  let k := s.kiln quad
  if matrix then
    .next (if k.matIdleAt + 1024 ≤ s.now ∧ k.flight.all (fun f => !isMatrix f.cmd.ins) ∧
        (List.range 4).all (fun j => (s.matRequest quad j).isNone) then
      s.onKiln quad (fun n => { n with matGated := true }) else s)
  else
    .next (if k.vecIdleAt + 1024 ≤ s.now ∧ k.flight.all (fun f => isMatrix f.cmd.ins) ∧
        (List.range 4).all (fun j => !s.vecRequest quad j) then
      s.onKiln quad (fun n => { n with vecGated := true }) else s)

end Sys2Proof.Machine
end

