-- ==== Sys2Proof/Machine/Fabric.lean ====
section
/-! DEFINITION. The fabric (R313 to R320, R337 to R342, R436, R437, R440, R461): token buckets and arbiters, routes,
the first router's refusals, delivery in SSEQ order, and taking a delivered packet. -/

namespace Sys2Proof.Machine

/-- The head request of each device and class among packets. -/
def headReqs (cost : Pkt → Nat) : List Pkt → List ArbReq → List ArbReq
  | [], acc => acc
  | p :: l, acc =>
    headReqs cost l (if acc.any (fun r => r.vdev == p.vdev && r.cls == p.cls) then acc
                     else acc ++ [{ vdev := p.vdev, cls := p.cls, cost := cost p }])

/-- Flits of a mesh packet and of a link packet (R315). -/
def meshFlits (p : Pkt) : Nat := (16 + p.len + 127) / 128
def linkFlits (p : Pkt) : Nat := (48 + p.len + 127) / 128

/-! ### Routes (R313, R314, R459) -/

/-- The route table entry of a chip, when it is valid: its ports. -/
def State.ports (s : State) (chip : Nat) : List Nat :=
  if chip < 4096 then
    let e := s.mmioWord (0x021000000000 + 8 * chip)
    if bitOf e 24 then (List.range 24).filter (fun p => bitOf e p) else []
  else []

/-- The egress port of a packet for another chip. -/
def State.portOf (s : State) (p : Pkt) : Option Nat :=
  let ps := s.ports (p.dst / 65536)
  let x := p.src ^^^ p.dst
  let h := (x % 65536) ^^^ (x / 65536 % 65536)
  ps[h % ps.length]?

/-- The router of a port's sluice, and the router port that leads into it. -/
def sluiceRouter (port : Nat) : Nat :=
  let d := port / 6
  let p := port % 6
  (32 * (d % 2) + (if d % 2 = 0 then 0 else 31)) + 64 * (16 * (d / 2) + 3 + 2 * p)

def sluiceSide (port : Nat) : Nat := if (port / 6) % 2 = 0 then 3 else 1

/-- The output a packet takes at its router and where it leads: a router, its endpoint (none), or a sluice. -/
inductive Hop where
  | router (r : Nat)
  | home
  | sluice (port : Nat)
deriving DecidableEq, Repr

def State.nextHop (s : State) (p : Pkt) : Option (Nat × Hop) :=
  let col := p.pos % 64
  let row := p.pos / 64
  let go := fun (t : Nat) (last : Nat × Hop) =>
    let c := t % 64
    let r := t / 64
    if col < c then (1, Hop.router (p.pos + 1))
    else if c < col then (3, .router (p.pos - 1))
    else if row < r then (2, .router (p.pos + 64))
    else if r < row then (0, .router (p.pos - 64))
    else last
  if p.dst / 65536 = s.chip then some (go (routerOf p.dst) (4, .home))
  else (s.portOf p).map (fun port => go (sluiceRouter port) (sluiceSide port, .sluice port))

/-! ### Refusals (R436, R437) -/

def refusable (p : Pkt) : Bool := p.cls == 0 || p.cls == 2 || p.cls == 5

/-- Kind, identifier and chunk number by which the sender knows a refused packet. -/
def Body.kind : Body → Nat × Nat × Nat
  | .ldr id .. => (1, id, 0)
  | .atom id .. => (2, id, 0)
  | .post id .. => (3, id, 0)
  | .chunk cp no .. => (4, cp, no)
  | .bar bid _ => (5, bid, 0)
  | .query id _ => (6, id, 0)
  | .fill id .. => (7, id, 0)
  | .chunkRead cp a .. => (11, cp, a)
  | .spadLoad id .. => (8, id, 0)
  | .mmioLoad id .. => (8, id, 0)
  | .abort bid => (9, bid, 0)
  | .red .. => (10, 0, 0)
  | _ => (0, 0, 0)

/-- The negative acknowledgement of a packet, when its class has one; the packet is gone. -/
def State.refuse (s : State) (p : Pkt) (code : Nat) : State :=
  if refusable p then
    let k := p.body.kind
    -- the acknowledgement names the endpoint that was addressed, or the sender's own chip for a bad identifier
    s.send (p.answer (if p.dst / 65536 = s.chip && validEp (p.dst % 65536) then p.dst else p.src) 1 16
      (.nack code k.1 k.2.1 (if k.1 = 6 then p.dst else k.2.2)))
  else s

/-- What the sender of a publish packet for an unreachable chip meets (R434, R439): the packet is dropped, and a copy waits
for no stamp there (log entry 56). -/
def State.dropFar (s : State) (p : Pkt) : State :=
  match p.body with
  | .stampPkt cp q _ => if p.src / 65536 = s.chip then s.deliver (p.src % 65536) (p.answer p.dst 3 8 (.stampAck cp q)) else s
  | _ => s

/-- A packet that cannot reach its chip (R436 code 3, R439): refused, or dropped. -/
def State.unreachable (s : State) (p : Pkt) : State := (s.refuse p 3).dropFar p

/-- Whether a packet needs the core of its destination, or its core array (R436 code 2, R440). -/
def needsCore (p : Pkt) : Bool :=
  match p.body with
  | .ldr _ _ _ _ spad => spad
  | .spadLoad .. => true
  | .spadStore .. => true
  | .chunk _ _ _ _ _ _ spad => spad
  | .query .. => true
  | .chunkRead _ _ _ _ _ spad => spad
  | .fill .. => false
  | .atom .. => false
  | .red .. => false
  | _ => p.cls == 2 || p.cls == 5

/-- The first router's check (R436 codes 2 and 3): the refusal code, 0 to pass. -/
def State.firstRouter (s : State) (p : Pkt) : Nat :=
  if !validEp (p.dst % 65536) then 2
  else if p.dst / 65536 = s.chip then
    (if needsCore p && (s.sagOf (p.dst % 65536)).isNone then 2 else 0)
  else if (s.portOf p).isNone then 3
  else 0

/-- Whether a boundary router refuses the packet's step into a fenced saggar (R440). -/
def State.fenceStops (s : State) (p : Pkt) : Bool :=
  refusable p && needsCore p && p.dst / 65536 == s.chip &&
  (match s.sagOf (p.dst % 65536) with
   | some k => (s.sag k).fenced
   | none => false)

/-! ### Grants of the mesh (R319, R339, R461) -/

/-- Key of a source and destination pair. -/
def pairKey (src dst : Nat) : Nat := src * 2 ^ 32 + dst

/-- Removes the first packet equal to one. -/
def dropPkt (l : List Pkt) (p : Pkt) : List Pkt := l.erase p

/-- The number of a packet that will not reach another chip is kept at its sluice: a skip notice goes ahead of the pair's
next packet (R461). -/
def State.skip (s : State) (src dst seq : Nat) : State :=
  { s with skipped := s.skipped ++ [(pairKey src dst, seq)] }

/-- A skip notice leaves a router or a sluice of this chip for the receiver's network interface, on the management class
(R461). It carries no number of its own, so that it passes what waits for the number it names. -/
def State.sendSkip (s : State) (router src dst seq : Nat) : State :=
  let me := s.epId (epAt (router % 64) (router / 64) 0)
  { s with egress := s.egress ++ [{
      src := me, dst := dst, cls := 6, sseq := 0, vdev := 0, gen := 0, fkey := 0, len := 16, redok := false,
      body := .skipNote src dst seq, pos := router, numbered := false, link := none }] }

/-- A numbered packet that ends here consumes its number at its receiver (R461). -/
def State.skipPkt (s : State) (p : Pkt) (router : Nat) : State :=
  if p.dst / 65536 = s.chip then s.sendSkip router p.src p.dst p.sseq else s.skip p.src p.dst p.sseq

/-- A record of a post to another cluster leaves its core's injection queue as it passes the first router (R119). -/
def State.leftInj (s : State) (p : Pkt) : State :=
  match p.body with
  | .post _ r _ =>
    let ep := p.src % 65536
    let c := s.core ep
    if c.on && c.vdev == p.vdev then s.onCore ep (fun c => { c with inj := c.inj.erase r })
    else match tfind c.saved p.vdev with
      | some x => s.putSaved ep p.vdev { x with inj := x.inj.erase r }
      | none => s
  | _ => s

def Pkt.isSkip (p : Pkt) : Bool :=
  match p.body with
  | .skipNote .. => true
  | _ => false

/-- A packet granted at a router output moves one hop: at its first router it is checked and numbered; at a fence it is
refused; at its destination's router it reaches the network interface; at a sluice's router it enters the sluice. -/
def State.moveHop (s : State) (p : Pkt) (h : Hop) : State :=
  let s0 := { s with egress := dropPkt s.egress p }
  let s0 := if p.numbered then s0 else s0.leftInj p
  let code := if p.numbered || p.isSkip then 0 else s.firstRouter p
  if p.cls = 7 ∧ !p.numbered then s0
  else if code = 3 then s0.unreachable p
  else if code ≠ 0 then s0.refuse p code
  else if p.numbered && !(p.dst / 65536 == s.chip) && (s.portOf p).isNone then
    -- its chip has become unreachable (R439)
    (s0.unreachable p).skip p.src p.dst p.sseq
  else
    let k := pairKey p.src p.dst
    let n := tget s0.sseqOut k 0
    let p1 := if p.numbered then p else if p.isSkip then { p with numbered := true } else { p with sseq := n, numbered := true }
    let s1 := if p.numbered || p.isSkip then s0 else { s0 with sseqOut := tset s0.sseqOut k ((n + 1) % 2 ^ 32) }
    if s1.fenceStops p1 && h == .home then (s1.refuse p1 1).skipPkt p1 p1.pos
    else
      match h with
      | .router r => { s1 with egress := s1.egress ++ [{ p1 with pos := r }] }
      | .home =>
        (match p1.body with
         | .skipNote src dst seq => s1.skip src dst seq
         | _ => { s1 with net := s1.net ++ [p1] })
      | .sluice port =>
        let u := tget s1.sluices port Sluice.reset
        { s1 with sluices := tset s1.sluices port { u with queue := u.queue ++ [p1] } }

/-- Whether a packet of a source waits in its egress queue behind another: packets of one source and destination pass the
first router, which numbers them, in the order in which they were sent (R145, R320), and a sender has one management packet
in flight (R318). -/
def State.behind (s : State) : Pkt → List Pkt → Bool
  | _, [] => false
  | p, q :: l =>
    if q == p then false
    else ((!q.numbered && q.src == p.src && q.dst == p.dst) || (q.cls == 6 && p.cls == 6 && q.src == p.src)) ||
      State.behind s p l

/-- Whether a management packet of a sender is under way past its first router (R318). -/
def State.mgmtBusy (s : State) (src : Nat) : Bool :=
  s.egress.any (fun q => q.numbered && q.cls == 6 && q.src == src) || s.net.any (fun q => q.cls == 6 && q.src == src) || s.sluices.any (fun e => e.2.queue.any (fun q => q.cls == 6 && q.src == src))

/-- The packets that ask for an output of a router. -/
def State.asking (s : State) (router port : Nat) : List Pkt :=
  s.egress.filter (fun p => p.pos == router &&
    (p.numbered || !s.behind p s.egress && !(p.cls == 6 && s.mgmtBusy p.src)) &&
    (match s.nextHop p with
    | some (q, _) => q == port
    | none => port == 4))

/-- One grant of a mesh router output (R339): unit [5:0] column, [10:6] row, [13:11] port. -/
def State.meshGrant (s : State) (unit : Nat) : State :=
  let ps := s.asking (bitsOf unit 0 6 + 64 * bitsOf unit 6 5) (bitsOf unit 11 3)
  match (s.arb 0 unit).grant 0 s.now (headReqs meshFlits ps []) with
  | none => s
  | some (r, a) =>
    match ps.find? (fun p => p.vdev == r.vdev && p.cls == r.cls) with
    | none => s
    | some p =>
      let h := match s.nextHop p with
        | some (_, h) => h
        | none => .home
      (s.setArb 0 unit a).moveHop p h

/-! ### Sluices -/

def State.sluice (s : State) (port : Nat) : Sluice := tget s.sluices port Sluice.reset

def State.onSluice (s : State) (port : Nat) (f : Sluice → Sluice) : State :=
  { s with sluices := tset s.sluices port (f (s.sluice port)) }

/-- Counts n sluice events (R382). -/
def Sluice.count (u : Sluice) (ev n : Nat) : Sluice :=
  { u with evcnt := (List.range 4).foldl (fun t i =>
      if bitsOf (tget u.evsel i 0) 0 8 = ev then tput t i ((tget t i 0 + n) % 2 ^ 48) 0 else t) u.evcnt }

/-! ### Delivery (R320, R436 code 4, R447) -/

/-- Whether a packet's generation is current and its device launched here. -/
def State.current (s : State) (p : Pkt) : Bool := (s.vdevOf p.vdev).launched && (s.vdevOf p.vdev).gen == p.gen

/-- The receiver's number for a source has been skipped: take the next (R461). -/
def State.applySkips (s : State) (k : Nat) : Nat → State
  | 0 => s
  | n + 1 =>
    let e := tget s.sseqIn k 0
    if s.skipped.contains (k, e) then
      State.applySkips { s with sseqIn := tset s.sseqIn k ((e + 1) % 2 ^ 32), skipped := s.skipped.erase (k, e) } k n
    else s

/-- Whether packets of a device are checked against its generation at delivery: all but management and the refusals
and answers that reach a core whatever it runs. -/
def genChecked (p : Pkt) : Bool := !(p.cls == 6)

/-- Frees a core's reservation for a reply of an old generation (R214, R447). -/
def State.freeReq (s : State) (ep : Nat) (p : Pkt) (id : Nat) : State :=
  let keep := fun (r : Req) => !(r.id == id && r.vdev == p.vdev && r.gen == p.gen)
  s.onCore ep (fun c => { c with reqs := c.reqs.filter keep,
                                 saved := c.saved.map (fun e => (e.1, { e.2 with reqs := e.2.reqs.filter keep })) })

/-- An acknowledgement of a record whose device has been reset since (R442). -/
def Core.orphanAcked (c : Core) (vdev addr seq : Nat) : Core := { c with orphans := c.orphans.erase (vdev, addr, seq) }

/-- Frees the engine's reservation for a chunk of an old generation (R310, R447). -/
def State.freeChunk (s : State) (ep : Nat) (p : Pkt) (cp no : Nat) : State :=
  s.onCluster (clusterOf ep) (fun k => { k with copies := k.copies.map (fun c =>
    if c.id = cp ∧ c.vdev = p.vdev ∧ c.gen = p.gen then { c with flight := c.flight.filter (fun f => !(f.no == no)) } else c) })

/-- The reservation of a reply that is dropped is freed (R447), by the reply's kind. -/
def State.freeReply (s : State) (ep : Nat) (p : Pkt) : State :=
  match p.body with
  | .ldrRep i .. => s.freeReq ep p i
  | .atomRep i .. => s.freeReq ep p i
  | .postRep i _ => s.freeReq ep p i
  | .chunkAck cp no _ => s.freeChunk ep p cp no
  | .rcdAck addr seq => s.onCore ep (fun c => c.orphanAcked p.vdev addr seq)
  | .nack _ kind i sub => if kind = 4 then s.freeChunk ep p i sub else if 1 ≤ kind ∧ kind ≤ 3 then s.freeReq ep p i else s
  | _ => s

/-- NI_DELIVERY (R320, R447, R461): among the packets at an endpoint's interface whose number is the next of their
source, the one of the lowest number, then source, is delivered; a packet of an old generation is refused or dropped,
with a refund notice for the sluice it left by. -/
def execNiDelivery (ep : Nat) (s : State) : Out :=
  let dst := s.epId ep
  let here := s.net.filter (fun p => p.dst == dst)
  let s1 := here.foldl (fun (t : State) p => t.applySkips (pairKey p.src dst) (t.skipped.length + 1)) s
  let ready := here.filter (fun p => tget s1.sseqIn (pairKey p.src dst) 0 == p.sseq)
  match firstBy (fun (a b : Pkt) => decide (a.sseq < b.sseq) || (a.sseq == b.sseq && decide (a.src < b.src))) ready with
  | none =>
    -- a packet whose number has passed is stale: dropped, and counted at the sluice it came in by
    match here.find? (fun p => decide ((tget s1.sseqIn (pairKey p.src dst) 0 + 2 ^ 32 - p.sseq) % 2 ^ 32 < 2 ^ 31) &&
        !(tget s1.sseqIn (pairKey p.src dst) 0 == p.sseq)) with
    | some p =>
      let s2 : State := { s1 with net := dropPkt s1.net p }
      .next (match p.inPort with
        | some port => s2.onSluice port (fun u => ({ u with stale := u.stale + 1 } : Sluice).count 5 1)
        | none => s2)
    | none => .next s1
  | some p =>
    let k := pairKey p.src dst
    let s2 := { s1 with net := dropPkt s1.net p, sseqIn := tset s1.sseqIn k ((p.sseq + 1) % 2 ^ 32) }
    if genChecked p && !s2.current p then
      let s3 := if refusable p then s2.refuse p 4 else s2.freeReply (ep % 65536) p
      .next (match p.link with
        | some (port, fl) => if refusable p then s3
            else s3.send { p.answer dst 6 16 (.refund port p.vdev p.cls fl) with fkey := 0 }
        | none => s3)
    else match p.body with
    | .accept lock => .next (s2.accepted lock)
    | .horizon v phase value => .next (s2.onVdev v (fun d => { d with far := d.far ++ [(p.src / 65536, phase, value)] }))
    | .mmioLoad id pa n sup =>
      .next (s2.send (p.answer dst 1 24 (.spadRep id (leBytes n (s2.mmioRead sup pa n)) false)))
    | .mmioStore pa n v sup => .next (s2.mmioWrite sup pa n (v.toNat % 2 ^ (8 * n)))
    | _ => .next (s2.deliver (ep % 65536) p)

/-- SKIP_NOTICE (R461): a number that will never arrive is consumed at the receiver. -/
def execSkipNotice (src dst seq : Nat) (s : State) : Out :=
  let k := pairKey src dst
  if s.skipped.contains (k, seq) then .next (s.applySkips k (s.skipped.length + 1)) else .next s

/-! ### Taking a delivered packet -/

/-- The first packet with a property that has no earlier packet of the same source before it. -/
def takeOrdered (p : Pkt → Bool) : List Pkt → List Nat → Option (Pkt × List Pkt)
  | [], _ => none
  | a :: l, seen =>
    if p a && !seen.contains a.src then some (a, l)
    else match takeOrdered p l (a.src :: seen) with
      | some (b, l') => some (b, a :: l')
      | none => none

/-- What a home slice takes: records, chunks, atomics, reductions, fills and loads of its memory, and stamps (R457). -/
def Pkt.atSlice (p : Pkt) : Bool :=
  match p.body with
  | .rcd _ => true
  | .fill .. => true
  | .atom .. => true
  | .red .. => true
  | .ldr _ _ _ _ spad => !spad
  | .chunk _ _ _ _ _ _ spad => !spad
  | .chunkRead _ _ _ _ _ spad => !spad
  | .stampPkt .. => true
  | _ => false

/-- Takes what a home slice takes, of a kind, in delivery order alone: none of the kind while another such packet stands
before it, whatever its source (R320, R457). -/
def State.takeHome (s : State) (ep : Nat) (p : Pkt → Bool) : Option (Pkt × State) :=
  match takeFirst Pkt.atSlice (tget s.inbox ep []) with
  | some (a, l) => if p a then some (a, { s with inbox := tset s.inbox ep l }) else none
  | none => none

/-- Takes a delivered packet of a kind at an endpoint. -/
def State.takePkt (s : State) (ep : Nat) (p : Pkt → Bool) : Option (Pkt × State) :=
  match takeOrdered p (tget s.inbox ep []) [] with
  | some (a, l) => some (a, { s with inbox := tset s.inbox ep l })
  | none => none

/-- The task of a post. -/
def Pkt.task? (p : Pkt) : Option TaskRec :=
  match p.body with
  | .post _ r _ => some r
  | _ => none

/-- Whether one post is taken before another of its cycle (R33). -/
def Pkt.postBefore (a b : Pkt) : Bool :=
  match a.task?, b.task? with
  | some x, some y => x.before y
  | _, _ => false

/-- Takes a delivered post: of those of the earliest cycle the one that R33 stamps first, so that across cycles delivery order
fixes the stamps (R320); none while another packet of its source stands before it. -/
def State.takePost (s : State) (ep : Nat) : Option (Pkt × State) :=
  let box := tget s.inbox ep []
  let posts := box.filter (fun p => p.task?.isSome)
  match posts with
  | [] => none
  | q :: _ =>
    match firstBy Pkt.postBefore (posts.filter (fun p => p.arr == q.arr)) with
    | none => none
    | some p =>
      if (box.takeWhile (fun r => !(r == p))).any (fun r => r.src == p.src && r.task?.isNone) then none
      else some (p, { s with inbox := tset s.inbox ep (box.erase p) })

/-- Takes a packet that waits at a home (R148, R157), once it may go on. -/
def State.takeHeld (s : State) (ep : Nat) (p : Pkt → Bool) : Option (Pkt × State) :=
  match takeFirst (fun (q : Pkt) => q.dst % 65536 == ep && p q) s.held with
  | some (a, l) => some (a, { s with held := l })
  | none => none

/-- Holds a packet at its home. -/
def State.hold (s : State) (p : Pkt) : State := { s with held := s.held ++ [p] }

end Sys2Proof.Machine
end

