-- ==== Sys2Proof/Machine/Home.lean ====
section
/-! DEFINITION. What a home slice does with what reaches it (R129, R130, R143 to R148, R155 to R158, R366, R405): lines,
eviction, compaction, directories, fills, atomics, reductions, remote loads, write-back. -/

namespace Sys2Proof.Machine

/-- The line of an address, as it stands: the copy used last. -/
def State.lineOf (s : State) (pa : Nat) : Option L2Line := s.l2.find? (fun l => l.line == pa / 512)

def State.onLine (s : State) (pa : Nat) (f : L2Line → L2Line) : State :=
  { s with l2 := mapFirst (fun l => l.line == pa / 512) f s.l2 }

/-! ### Applying a write (R143, R156) -/

/-- Key of a byte's copy at a home (R130): stamps and landing bytes are kept by home. -/
def homeKey (home a : Nat) : Nat := (home % 65536) * 2 ^ 48 + a

/-- The stamp of a byte at a home (R143). -/
def State.stampAt (s : State) (home a : Nat) : BStamp := tget s.stamps (homeKey home a) (0, 0)

/-- The copy whose landed byte stands at a home (R156). -/
def State.landingAt (s : State) (home a : Nat) : Option Nat := tfind s.landing (homeKey home a)

/-- Bytes a masked word writes, lowest first. -/
def maskBytes (mask : BitVec 8) : List Nat := (List.range 8).filter (fun i => mask.getLsbD i)

/-- Applies the bytes of a record that win, and says whether all did; bytes of a copy in flight are never won. -/
def State.applyRecord (s : State) (home addr : Nat) (mask : BitVec 8) (data : Word) (pois : Bool) (st : BStamp) : State × Bool :=
  let win := (maskBytes mask).filter (fun i =>
    stampWins st (s.stampAt home (addr + i)) && (s.landingAt home (addr + i)).isNone)
  let s1 := win.foldl (fun (t : State) i =>
    { t.writeByte (addr + i) (BitVec.ofNat 8 (bitsOf data.toNat (8 * i) 8)) with
      stamps := tset t.stamps (homeKey home (addr + i)) st }) s
  let s2 := if win.isEmpty then s1
            else if pois then s1.setPoison addr true
            else if win.length = 8 then s1.setPoison addr false
            else s1
  (s2, win.length == (maskBytes mask).length)

/-- Messages to the sharers of a line after a write, the latch for an overflow line, and the acknowledgement once they
are accepted (R144, R146, R148). -/
def State.publish (s : State) (slice pa : Nat) (cause : Pkt) (b : Nat → Body) (latch : Nat → Latch)
    (args : Nat × Nat × Nat × Nat) (reply : Option Pkt) : State :=
  match s.lineOf pa with
  | none =>
    match reply with
    | some r => s.send r
    | none => s
  | some l =>
    let lock := s.nextLock + 1
    let s1 : State := { s with nextLock := lock }
    let s2 : State := match reply with
      | some r => { s1 with ackw := s1.ackw ++ [{ lock := lock, slice := slice, left := l.sharers.length, handler := l.ovf,
                                                  reply := r }] }
      | none => s1
    let s3 := s2.tell slice cause l.sharers (b lock)
    let s4 := if l.ovf then s3.latchPost (latch lock) l.owner args.1 args.2.1 args.2.2.1 args.2.2.2 else s3
    s4.finishAckw

/-- Whether a write to an overflow line must wait for the note latch (R148). -/
def State.latchBlocks (s : State) (slice pa : Nat) : Bool :=
  s.l2.any (fun l => l.slice == slice && l.line == pa / 512 && l.ovf) && s.latched slice

/-- Stale note or LOSS after a write of (seq, writer) to part of a word (R146, R147). -/
def State.publishWrite (s : State) (slice : Nat) (cause : Pkt) (writer seq addr : Nat) (mask : BitVec 8) (data : Word)
    (pois won : Bool) (reply : Option Pkt) : State :=
  let line := addr / 512
  s.publish slice addr cause
    (fun lock => if won then .note writer seq addr mask data pois lock else .inval line lock)
    (fun lock => { slice := slice, kind := if won then 1 else 3, line := line, writer := writer, seq := seq, addr := addr,
                   mask := mask, data := data, pois := pois, lock := lock, fkey := cause.fkey })
    (if won then (addr, writer, seq, 1) else (line * 512, writer, seq, 3)) reply

/-- Whether a packet is a published record, and the word that it writes. -/
def Pkt.word? (p : Pkt) : Option Nat :=
  match p.body with
  | .rcd r => some r.addr
  | _ => none

/-- A published record at its home (R143 to R148): applied, or not while it must wait: for the note latch, for its sector, or
behind a held record of its source and word, for those are applied in log order (R143). -/
def State.compact (s : State) (home : Nat) (p : Pkt) (before : List Pkt) : Bool × State :=
  match p.body with
  | .rcd r =>
    let seq := match r.owner with
      | .stamped q => q
      | _ => 0
    if s.latchBlocks home r.addr || before.any (fun q => q.word? == some r.addr && q.src == p.src && q.dst == p.dst) then
      (false, s)
    else
      let u := s.bring home r.set p.vdev r.addr false
      if !u.hasSector home r.set r.addr then (false, u)
      else
        let a := u.applyRecord home r.addr r.mask r.data r.pois (seq, p.src)
        (true, (a.1.publishWrite home p p.src seq r.addr r.mask r.data r.pois a.2
          (some (p.answer (u.epId home) 3 16 (.rcdAck r.addr seq)))).lcount home
            ((u.lineOf r.addr).elim p.vdev (fun l => l.owner)) 4)
  | _ => (false, s)

/-- The first held record of a home that can be applied now is; the others ask for their sectors. -/
def State.compactHeld (s : State) (home : Nat) : List Pkt → List Pkt → Bool × State
  | _, [] => (false, s)
  | before, p :: l =>
    if p.dst % 65536 == home && p.word?.isSome then
      let r := s.compact home p before
      if r.1 then (true, { r.2 with held := r.2.held.erase p }) else State.compactHeld r.2 home (before ++ [p]) l
    else State.compactHeld s home before l

/-- COMPACTION (R143 to R148): a published record is applied at its home, one that waits there before a new one. -/
def execCompaction (home : Nat) (s : State) : Out :=
  let h := s.compactHeld home [] s.held
  if h.1 then .next h.2
  else
    match h.2.takeHome home (fun p => p.word?.isSome) with
    | some (p, t) =>
      let r := t.compact home p t.held
      .next (if r.1 then r.2 else r.2.hold p)
    | none => .next h.2

/-! ### Fills and write-backs (R128, R129, R145, R147) -/

/-- Whether a fill's ADD finds an entry at its home core (R32): a free slot or one of the 4 of the spill area, of the device
that runs there, or of a line's owner that is switched out. -/
def State.addRoom (s : State) (home owner : Nat) : Bool :=
  let c := s.core home
  if c.on then slotFree c.ready || decide (countIn c.ready .spillAdd < 4)
  else match tfind c.saved owner with
    | some x => decide (countIn x.ready .spillAdd < 4)
    | none => true

/-- FILL_AT_HOME (R145): the sector is brought in, the sharer registered, and the data leaves in one step; a fifth
sharer goes to the overflow handler as an ADD (R147). -/
def execFillAtHome (home : Nat) (s : State) : Out :=
  let isFill := fun (p : Pkt) => match p.body with
    | .fill .. => true
    | _ => false
  let taken := match s.takeHeld home isFill with
    | some r => some r
    | none => s.takeHome home isFill
  match taken with
  | none => .next s
  | some (p, t) =>
    match p.body with
    | .fill id pa set =>
      let u := t.bring home set p.vdev pa false
      if !u.hasSector home set pa then .next (u.hold p)
      else
        (match u.lineOf pa with
         | none => .next u
         | some l =>
           let known := l.sharers.contains p.src
           let adds := !known && decide (4 ≤ l.sharers.length)
           if adds && !u.addRoom home l.owner then .next (u.hold p)
           else
             let u1 := if known then u
               else if adds then
                 ((u.readEntry home (u.ovfEntry home l.owner)).onLine pa (fun m => { m with ovf := true })).hwPost home
                   (u.ovfRecord home l.owner (l.line * 512) p.src 0 0) .spillAdd false false
               else u.onLine pa (fun m => { m with sharers := m.sharers ++ [p.src] })
             let base := pa - pa % 128
             .next (u1.send (p.answer (u1.epId home) 1 128 (.fillRep id base (u1.readBytes base 128)
               ((List.range 16).filter (fun i => u1.isPoison (base + 8 * i)))))))
    | _ => .next s

/-- WRITE_BACK_GRANT (R129, R337 to R342): one grant of the memory-controller queue at which the slice has the oldest work: an
evicted sector, or a fill that waits. -/
def execWriteBackGrant (slice : Nat) (s : State) : Out :=
  match s.wb.find? (fun w => w.slice == slice) with
  | some w => .next (s.arbGrant 1 (memQueue (128 * w.sector)))
  | none =>
    match s.asks.find? (fun a => s.askReady a && a.fill.any (fun f => f.1 == slice)) with
    | some a => .next (s.arbGrant (a.key / 2 ^ 24) (a.key % 2 ^ 24))
    | none => .next s

/-! ### Atomics and reductions (R157, R158, R242, R243) -/

/-- F(old) of n bytes (R242, R243): the new value. -/
def AtomOp.eval (op : AtomOp) (n : Nat) (old v w : Nat) : Nat :=
  let m := 2 ^ (8 * n)
  let sg := fun (x : Nat) => if m ≤ 2 * x then (x : Int) - m else (x : Int)
  let f32 := fun (a b : Nat) => (Fmt.fp32.result ((Fmt.fp32.dec false a).add (Fmt.fp32.dec false b))).1
  match op with
  | .add => (old + v) % m
  | .and => old &&& v
  | .or => old ||| v
  | .xor => old ^^^ v
  | .min => if sg old ≤ sg v then old else v
  | .max => if sg v ≤ sg old then old else v
  | .minu => Nat.min old v
  | .maxu => Nat.max old v
  | .swap => v
  | .cas => if old = v then w else old
  | .addf => if n = 4 then f32 old v else f32 (old % 2 ^ 32) (v % 2 ^ 32) + 2 ^ 32 * f32 (old / 2 ^ 32) (v / 2 ^ 32)
  | .put => patchWord old v (BitVec.ofNat 8 w)

/-- Byte mask of an access inside its 8-byte word. -/
def wordMask (pa n : Nat) : BitVec 8 := BitVec.ofNat 8 ((2 ^ n - 1) * 2 ^ (pa % 8))

/-- Whether the 8-byte word of an address holds bytes of a copy that has not completed (R157, R158). -/
def State.wordLanding (s : State) (home pa : Nat) : Bool :=
  (List.range 8).any (fun i => (s.landingAt home (pa - pa % 8 + i)).isSome)

/-- The greatest seq of any byte of the 8-byte word of an address (R157, R158). -/
def State.wordSeq (s : State) (home pa : Nat) : Nat :=
  (List.range 8).foldl (fun m i => max m (s.stampAt home (pa - pa % 8 + i)).1) 0

/-- Writes n bytes with a stamp, whatever they held. -/
def State.putStamped (s : State) (home pa n v : Nat) (st : BStamp) : State :=
  (List.range n).foldl (fun (t : State) i =>
    { t.writeByte (pa + i) (BitVec.ofNat 8 (bitsOf v (8 * i) 8)) with
      stamps := tset t.stamps (homeKey home (pa + i)) st }) s

/-- An atomic step on a word that the slice holds (R157): carried records, old value, result, stamp and notes. Answers
the old value, the new one, the stamp's seq and whether the word is poisoned. A compare that fails writes no result: only the
carried bytes take the stamp (R242). -/
def State.atomStep (s : State) (home : Nat) (cause : Pkt) (pa n : Nat) (op : AtomOp) (v w base : Nat) (who : Nat)
    (recs : List LogRec) : (Nat × Nat × Nat × Bool) × State :=
  let q := max base (s.wordSeq home pa) + 1
  let s1 := recs.foldl (fun (t : State) r => (t.applyRecord home r.addr r.mask r.data r.pois (q, who)).1) s
  let pois := s1.isPoison pa
  let old := s1.readNat pa n
  let new := op.eval n old v w
  let hit := !(op == .cas && !(old == v))
  let s2 := if hit then s1.putStamped home pa n new (q, who) else s1
  let s3 := if (op == .swap || op == .put) && n == 8 && !pois then s2
            else if op == .swap && n == 8 then s2.setPoison pa false else s2
  let mask := recs.foldl (fun (m : BitVec 8) r => m ||| r.mask) (if hit then wordMask pa n else 0)
  let word := pa - pa % 8
  let s4 := if mask ≠ 0 then
      s3.publishWrite home cause who q word mask (BitVec.ofNat 64 (s3.readNat word 8)) (s3.isPoison word) true none
    else s3
  ((old, new, q, pois), s4)

/-- ATOM_AT_HOME (R157): one step at the home, held while a copy's bytes stand there. -/
def execAtomAtHome (home : Nat) (s : State) : Out :=
  let isAtom := fun (p : Pkt) => match p.body with
    | .atom .. => true
    | _ => false
  let free := fun (p : Pkt) => match p.body with
    | .atom _ pa .. => !s.wordLanding home pa && !s.latchBlocks home pa
    | _ => false
  let taken := match s.takeHeld home (fun p => isAtom p && free p) with
    | some r => some r
    | none => s.takeHome home isAtom
  match taken with
  | none => .next s
  | some (p, t) =>
    match p.body with
    | .atom id pa set n op v w clk recs =>
      if !free p then .next (t.hold p)
      else
        let u := t.bring home set p.vdev pa false
        if !u.hasSector home set pa then .next (u.hold p)
        else
          let r := u.atomStep home p pa n op (v.toNat % 2 ^ (8 * n)) (w.toNat % 2 ^ (8 * n)) clk p.src recs
          .next (r.2.send (p.answer (u.epId home) 1 32
            (.atomRep id pa (BitVec.ofNat 64 r.1.1) (BitVec.ofNat 64 r.1.2.1) r.1.2.2.1 r.1.2.2.2)))
    | _ => .next s

/-- REDUCTION_AT_HOME (R158): outside the window as an atomic of its issuer, inside it with the greatest stamp of its
contributions. Contributions of an old generation are discarded (R446). -/
def execReductionAtHome (home : Nat) (s : State) : Out :=
  let isRed := fun (p : Pkt) => match p.body with
    | .red .. => true
    | _ => false
  let free := fun (p : Pkt) => match p.body with
    | .red pa .. => !s.wordLanding home pa && !s.latchBlocks home pa
    | _ => false
  let taken := match s.takeHeld home (fun p => isRed p && free p) with
    | some r => some r
    | none => s.takeHome home isRed
  match taken with
  | none => .next s
  | some (p, t) =>
    match p.body with
    | .red pa set n op v g e _ window clk recs =>
      if !t.current p then .next t
      else if !free p then .next (t.hold p)
      else
        let u := t.bring home set p.vdev pa false
        if !u.hasSector home set pa then .next (u.hold p)
        else
          if window then
            -- s = max(g, m + 1)
            .next (u.atomStep home p pa n op (v.toNat % 2 ^ (8 * n)) 0 (max g (u.wordSeq home pa + 1) - 1) e recs).2
          else .next (u.atomStep home p pa n op (v.toNat % 2 ^ (8 * n)) 0 clk p.src recs).2
    | _ => .next s

end Sys2Proof.Machine
end

