-- ==== Sys2Proof/Machine/Context.lean ====
section
/-! DEFINITION. A core's state for one virtual device (R91, R371, R372): taking it out, putting it in, and acting for a
device that is switched out. -/

namespace Sys2Proof.Machine

/-- What a world switch saves of a core (R91, R371). -/
def Core.toCtx (c : Core) : Ctx :=
  { run := c.run, under := c.under, ready := c.ready, inj := c.inj, holdm := c.csr.holdm, team := c.csr.team,
    stgEn := c.csr.stgEn, stgMask := c.csr.stgMask, carve := c.carve, carveReq := c.carveReq, carveNew := c.carveNew,
    corenxr := c.csr.corenxr, ceil := c.ceil, evs := c.evs, pub := c.pub, sets := c.sets, dq := c.dq, parked := c.parked,
    shadows := c.shadows, alignN := c.alignN, oneN := c.oneN, tbarN := c.tbarN, spillRes := c.spillRes, reqs := c.reqs,
    pops := c.pops, acqs := c.acqs, gbars := c.gbars }

/-- A core with a saved context restored into it. -/
def Core.ofCtx (c : Core) (x : Ctx) : Core :=
  { c with
    run := x.run, under := x.under, ready := x.ready, inj := x.inj,
    csr := { c.csr with holdm := x.holdm, team := x.team, stgEn := x.stgEn, stgMask := x.stgMask, corenxr := x.corenxr },
    carve := x.carve, carveReq := x.carveReq, carveNew := x.carveNew, ceil := x.ceil, evs := x.evs, pub := x.pub,
    sets := x.sets, dq := x.dq, parked := x.parked, shadows := x.shadows, alignN := x.alignN, oneN := x.oneN,
    tbarN := x.tbarN, spillRes := x.spillRes, reqs := x.reqs, pops := x.pops, acqs := x.acqs, gbars := x.gbars }

/-! ### The bytes of a context (R91, R354; log entry 11) -/

/-- Bytes filled with zeros to n, or cut there. -/
def padTo (n : Nat) (l : List Byte) : List Byte := l.take n ++ List.replicate (n - l.length) 0

/-- TEAMSTG (R83). -/
def teamstg (en : Bool) (mask : BitVec 8) : Nat := mask.toNat + 256 * en.toNat

/-- TEAMM of a core with a team mask (R54, R82). -/
def teamm (mask : BitVec 8) (ep : Nat) : Nat :=
  mask.toNat + 256 * coreNo ep + 2048 * ((maskCores mask.toNat).filter (fun k => decide (k < coreNo ep))).length

/-- The context header: 8 bytes for each item in the order of R91. -/
def Ctx.header (x : Ctx) (ep : Nat) : List Byte :=
  leBytes 8 ((x.run :: x.under).foldl (fun n f => n + 2 ^ f.level) 0) ++ leBytes 8 x.holdm.toNat ++
  leBytes 8 x.carve.toNat ++ leBytes 8 (teamm x.team ep) ++ leBytes 8 x.corenxr.toNat ++ leBytes 8 x.tbarN

/-- A frame's control words in the order of R91: PC, TSTAT, DEADM, SUCC, DLREM, the full and the live bits, the claim
stack with the thresholds it returns to, and the two instance counts. -/
def Frame.control (f : Frame) (aligns ones now : Nat) : List Byte :=
  leBytes 8 f.pc.toNat ++ leBytes 8 f.tstat.toNat ++ leBytes 4 f.deadm.toNat ++ leBytes 8 f.succ.toNat ++
  leBytes 8 (match f.dl with
    | some d => d.expiry - now
    | none => 0) ++
  leBytes 4 (f.full ||| 1).toNat ++ leBytes 4 (f.live ||| 1).toNat ++
  leBytes 1 f.claims.length ++ padTo 8 (f.claims.map (fun e => BitVec.ofNat 8 e.1)) ++
  leBytes 3 (f.claims.foldr (fun e n => e.2 + 8 * n) 0) ++ leBytes 4 aligns ++ leBytes 4 ones

/-- The frame control of every level. -/
def Ctx.control (x : Ctx) (now : Nat) : List Byte :=
  (List.range 8).flatMap (fun l => padTo 64 (match (x.run :: x.under).find? (fun f => f.level == l) with
    | some f => f.control x.alignN x.oneN now
    | none => []))

/-- A copy's progress: its serial number, the bytes landed, the next chunk, and the next source address. -/
def Copy.progress (c : Copy) : List Byte :=
  leBytes 8 c.id ++ leBytes 8 c.landed ++ leBytes 8 c.nextNo ++ leBytes 8 ((c.rows.head?.map (fun r => r.1)).getD 0)

/-- A ring definition (R282). -/
def Ring.bytes (r : Ring) : List Byte :=
  leBytes 4 r.base ++ leBytes 2 r.tiles ++ leBytes 2 r.tbytes ++ leBytes 2 r.head ++ leBytes 2 r.tail ++ leBytes 4 0

/-- A state set in the order of R75, then the lengths and contents of q0 to q4 (R91). -/
def KSet.bytes (k : KSet) : List Byte :=
  k.v.toList.flatMap (fun r => leBytes 128 r.toNat) ++
  (List.range 1024).flatMap (fun i => leBytes 4 (tget k.k0 i 0#32).toNat) ++
  k.rings.toList.flatMap Ring.bytes ++ leBytes 8 k.flags.toNat ++ leBytes 4 k.ktol.toNat ++ leBytes 4 k.kfloor.toNat ++
  k.lfsr.toList.flatMap (fun x => leBytes 2 x.toNat) ++
  padTo 64 (match k.susp with
    | some u => leBytes 8 (u.kseq + 1) ++ leBytes 8 u.steps
    | none => []) ++
  [k.q0.length, k.q1.length, k.q2.length, k.q3.length, k.q4.length].map (fun n => BitVec.ofNat 8 n) ++
  k.q0.flatMap (fun w => leBytes 8 w.toNat) ++ k.q1.flatMap (fun w => leBytes 8 w.toNat) ++
  k.q2.flatMap (fun w => leBytes 4 w.toNat) ++ k.q3.flatMap ScaleFrame.bytes ++ k.q4.flatMap (leBytes 2)

/-- The publication state (R91, R372). -/
def Pub.bytes (p : Pub) : List Byte :=
  leBytes 8 p.clk ++ leBytes 8 p.lseq ++ leBytes 8 p.ch ++
  leBytes 8 (p.log.filter (fun r => match r.owner with
    | .stamped _ => true
    | _ => false)).length ++
  leBytes 8 (p.extAt % 65536) ++ leBytes 8 ((p.extAt + p.inExt) % 65536) ++
  padTo 16 (if p.opened then (p.log.getLast?.map LogRec.bytes).getD [] else [])

/-- Writes bytes of a device's context, under its memory key (R354). -/
def State.writeCtx (s : State) (v ep a : Nat) (bs : List Byte) : State := s.writeKeyed (s.descMkey ep v) a bs

/-- Writes the parts of a context that can change while its device is switched out (R371, R372): the header, the frame control,
the windows, the event counters, the publication state, the kiln state sets and the images of its records. -/
def State.saveLive (s : State) (v ep : Nat) (x : Ctx) : State :=
  let b := s.ctxBlock v ep
  let s1 := (s.writeCtx v ep b (padTo 64 (x.header ep))).writeCtx v ep (b + 0x40) (x.control s.now)
  let s2 := (x.run :: x.under).foldl (fun t f => t.writeCtx v ep (b + 0x240 + 256 * f.level) f.image) s1
  let s3 := s2.writeCtx v ep (b + 0xA40)
    (x.evs.sel.toList.flatMap (fun w => leBytes 8 w.toNat) ++ x.evs.cnt.toList.flatMap (fun w => leBytes 8 w.toNat))
  let s4 := (s3.writeCtx v ep (b + 0xB80) x.pub.bytes).writeCtx v ep (s.spillBlock v ep + 0x7040) (leBytes 8 x.evs.ovf.toNat)
  let s5 := x.sets.foldl (fun t e => t.writeCtx v ep (b + 0x1000 + 0x1800 * (e.1 % 8)) (padTo 0x1800 e.2.bytes)) s4
  s5.saveReady v ep x.ready x.inj

/-- Records as their images hold them: the i-th of those at a place is `f i`. -/
def reread (f : Nat → TaskRec) (at' : Ready → Bool) : Nat → List Ready → List Ready
  | _, [] => []
  | n, r :: l => if at' r then { r with task := f n } :: reread f at' (n + 1) l else r :: reread f at' n l

/-! ### Acting for a device -/

/-- Whether a core runs a device. -/
def Core.runs (c : Core) (vdev : Nat) : Bool := c.on && c.vdev == vdev

/-- The range of CKI (R355). -/
def ckiOf (n : Nat) : Nat := max 1024 (min 262144 n)

/-- The registers that a core loads from a device's descriptor (R355). -/
def State.descCsrs (s : State) (v : Nat) (r : Csrs) : Csrs :=
  let d := s.descWord v 7
  { r with cki := ckiOf (bitsOf d 32 19), maxprio := maxprioOf (bitsOf d 51 3), gpv := BitVec.ofNat 64 (s.descWord v 6),
           traptb := traptbOf (s.descWord v 5), xroot := xrootOf (s.descWord v 0) }

/-- Acts on a core for a device: on the core while it runs the device, else on the saved context as its log unit and
reply path do (R371, R372). With neither, nothing. -/
def State.asDevice (s : State) (ep vdev : Nat) (f : State → State) : State :=
  let c := s.core ep
  if c.runs vdev then f s
  else match tfind c.saved vdev with
    | none => s
    | some x =>
      let y := c.ofCtx x
      let t := f (s.setCore ep { y with
        on := true, away := true, vdev := vdev, gen := (s.vdevOf vdev).gen, desc := s.descCopy vdev,
        csr := s.descCsrs vdev y.csr, fkey := s.descFkey vdev, l1 := [], notes := [], loads := [], fills := [], ck := none })
      let d := t.core ep
      let x' := d.toCtx
      (t.setCore ep { c with queries := d.queries, stampN := d.stampN, nextId := d.nextId, pseq := d.pseq,
                             saved := tset c.saved vdev x' }).saveLive vdev ep x'

/-- The publication state of a device on a core. -/
def Core.pubOf (c : Core) (vdev : Nat) : Pub :=
  if c.runs vdev then c.pub
  else match tfind c.saved vdev with
    | some x => x.pub
    | none => Pub.reset

/-- The cores that run a device or hold its context. -/
def State.coresOf (s : State) (vdev : Nat) : List Nat :=
  (s.cores.filter (fun e => e.2.runs vdev || (tfind e.2.saved vdev).isSome)).map (fun e => e.1)

end Sys2Proof.Machine
end

