-- ==== Sys2Proof/Machine/Deliver.lean ====
section
/-! DEFINITION. What a core does with what is delivered to it (R30, R44, R126, R128, R144 to R151, R217, R218, R327,
R328, R437, R446): acknowledgements, notes, queries, fills, replies, posts, statuses, refusals, barrier notices. -/

namespace Sys2Proof.Machine

/-- Answers a packet: over the cluster network inside a cluster, else through the mesh (R126, R313). -/
def State.reply (s : State) (p : Pkt) : State :=
  if p.src / 8 = p.dst / 8 ∧ p.dst / 65536 = s.chip then s.deliver (p.dst % 65536) p else s.send p

/-! ### Remote loads and scratchpad accesses (R126, R232) -/

/-- A byte that the spec leaves open (log entry 7). -/
def State.openBytes (s : State) : Nat → Nat
  | 0 => 0
  | n + 1 => (Config.freeByte (s.fresh + n)).toNat + 256 * State.openBytes s n

/-- A value of n bytes of a scratchpad that a packet reached: beyond a region that has shrunk, an open value. -/
def State.spadValue (s : State) (ep off n : Nat) : Nat × State :=
  if off + n ≤ (s.core ep).carve.spadSize then (leNat (s.spadBytes ep off n), s)
  else (s.openBytes n, { s with fresh := s.fresh + n })

/-- The bytes of a chunk's source at their home or in their scratchpad, for another chip's copy (R136, R309). -/
def State.chunkAnswer (s : State) (ep : Nat) (p : Pkt) (cp va base n : Nat) : State :=
  s.send (p.answer (s.epId ep) 1 144 (.chunkData cp va (s.readBytes base n)
    ((List.range n).filter (fun i => s.isPoison (base + i)))))

/-- A frame that takes the access fault of an access which had left its core at its next boundary (R124, log entry 48). -/
def Frame.faultLater (f : Frame) (va : Word) : Frame := { f with pendFault := merge f.pendFault va }

/-- A team-window LDR that waited for its member's new carve-out and lies beyond the new size (R118, R124): its frame takes the
access fault, its register keeps the value it held, and a successor that it took is not posted (log entry 48). -/
def Core.refuseLdr (c : Core) (id : Nat) (va : Word) : Core :=
  match c.reqs.find? (fun r => r.id == id) with
  | none => c
  | some r =>
    let g := fun (f : Frame) =>
      if f.fid = r.fid then { f.faultLater va with full := if r.rd = 0 then f.full else f.full ||| regBit r.rd } else f
    { c with reqs := c.reqs.filter (fun q => !(q.id == id)), run := g c.run, under := c.under.map g,
             spillRes := c.spillRes - r.succ.isSome.toNat }

/-- The address in a core's team window of a byte of a member's scratchpad (R118). -/
def State.teamVa (s : State) (e ep off : Nat) : Word :=
  BitVec.ofNat 64 (0x7E1000000000 + 131072 * s.teamIndexOf e ep + off)

/-- The next read of another endpoint at this one: a remote load, or the read of a chunk's source. -/
def State.takeRead (s : State) (ep : Nat) : Option (Pkt × State) :=
  let isRead := fun (p : Pkt) => match p.body with
    | .ldr .. => true
    | .chunkRead .. => true
    | _ => false
  ((s.takeHeld ep isRead).orElse (fun _ => s.takePkt ep (fun p => isRead p && !p.atSlice))).orElse
    (fun _ => s.takeHome ep isRead)

/-- REMOTE_LOAD_AT_TARGET (R136, R232): read at the home slice or in the scratchpad, once a new carve-out there is applied
(R124), and answered. -/
def execRemoteLoadAtTarget (ep : Nat) (s : State) : Out :=
  match s.takeRead ep with
  | none => .next s
  | some (p, t) =>
    match p.body with
    | .ldr id pa set n spad =>
      let rep := fun (u : State) (v : Nat) (po : Bool) => u.send (p.answer (u.epId ep) 1 24 (.ldrRep id pa (BitVec.ofNat 64 v) po))
      if spad then
        if (t.core ep).carving then .next s
        else if clusterOf p.src = clusterOf ep ∧ p.src / 65536 = t.chip ∧ (t.core ep).carve.spadSize < pa + n then
          let e := p.src % 65536
          .next (t.asDevice e p.vdev (fun u => u.onCore e (fun c => c.refuseLdr id (t.teamVa e ep pa))))
        else
          let r := t.spadValue ep pa n
          .next (rep r.2 r.1 (t.anyPoison (arrayBase ep + pa) n))
      else
        let u := t.bring ep set p.vdev pa false
        if u.hasSector ep set pa then .next (rep u (u.readNat pa n) (u.isPoison pa)) else .next (u.hold p)
    | .chunkRead cp va pa set n spad =>
      if spad then .next (if (t.core ep).carving then s else t.chunkAnswer ep p cp va (arrayBase ep + pa) n)
      else
        let u := t.bring ep set p.vdev pa false
        if u.hasSector ep set pa then .next (u.chunkAnswer ep p cp va pa n) else .next (u.hold p)
    | _ => .next s

/-! ### Acknowledgements, notes, invalidations (R144, R146, R148) -/

/-- A record's acknowledgement at its writer (R139, R144): its bytes supersede older notes that are still buffered. -/
def Core.recordAcked (c : Core) (home addr seq me : Nat) : Core :=
  let m := match c.pub.log.find? (fun r => r.addr == addr && r.owner == .stamped seq) with
    | some r => r.mask
    | none => 0
  { c with pub := c.pub.ack addr seq, notes := trimNotes c.notes home addr m (seq, me),
           reqs := c.reqs.map (fun r =>
             if r.x.pa - r.x.pa % 8 = addr ∧ r.x.home = home then { r with olds := r.olds - 1 } else r) }

/-- RECORD_ACKNOWLEDGEMENT (R144): frees log space and advances CH. -/
def execRecordAcknowledgement (ep : Nat) (s : State) : Out :=
  match s.takePkt ep (fun p => match p.body with
    | .rcdAck .. => true
    | _ => false) with
  | none => .next s
  | some (p, t) =>
    match p.body with
    | .rcdAck addr seq =>
      .next ((t.onCore ep (fun c => c.orphanAcked p.vdev addr seq)).asDevice ep p.vdev (fun u =>
        u.onCore ep (fun c => c.recordAcked p.src addr seq (u.epId ep))))
    | _ => .next t

/-- A note or invalidation is accepted: at once at a home of this chip, by a packet at another (R144). -/
def State.accept (s : State) (ep lock : Nat) (p : Pkt) : State :=
  if lock = 0 then s
  else if p.src / 65536 = s.chip then s.accepted lock
  else s.send (p.answer (s.epId ep) 3 8 (.accept lock))

/-- Drops an L1 line with its buffered notes (R146). -/
def Core.dropLine (c : Core) (home line : Nat) : Core :=
  { c with l1 := c.l1.filter (fun l => !(l.home == home && l.line == line)),
           notes := c.notes.filter (fun n => !(n.home == home && n.addr / 512 == line)) }

/-- STALE_NOTE (R146): buffered while the line is held and the buffer has room; a full buffer drops the line. -/
def execStaleNote (ep : Nat) (s : State) : Out :=
  match s.takePkt ep (fun p => match p.body with
    | .note .. => true
    | _ => false) with
  | none => .next s
  | some (p, t) =>
    match p.body with
    | .note w q a m d po lock =>
      let c := t.core ep
      let t1 :=
        if !(c.l1.any (fun l => l.home == p.src && l.line == a / 512)) then t
        else if c.notes.length < 256 then
          (t.setCore ep { c with notes := c.notes ++
            [{ writer := w, seq := q, home := p.src, addr := a, mask := m, data := d, pois := po }] }).count ep 8 1
        else t.setCore ep (c.dropLine p.src (a / 512))
      .next (t1.accept ep lock p)
    | _ => .next t

/-- INVALIDATION (R146). -/
def execInvalidation (ep : Nat) (s : State) : Out :=
  match s.takePkt ep (fun p => match p.body with
    | .inval .. => true
    | _ => false) with
  | none => .next s
  | some (p, t) =>
    match p.body with
    | .inval line lock => .next ((t.onCore ep (fun c => c.dropLine p.src line)).accept ep lock p)
    | _ => .next t

/-- DIRECTORY_PORT_SEND_NOTE (R148): a directory port write with INV 0. -/
def execDirectoryPortSendNote (slice target : Nat) (s : State) : Out := .next (s.dirPort slice target false)

/-- DIRECTORY_PORT_SEND_INVALIDATION (R148): a directory port write with INV 1. -/
def execDirectoryPortSendInvalidation (slice target : Nat) (s : State) : Out := .next (s.dirPort slice target true)

/-! ### Acquires (R149 to R151, R154, R442) -/

/-- ACQUIRE_QUERY (R149): the target is the one carried, or the writer's LSEQ now. -/
def execAcquireQuery (ep : Nat) (s : State) : Out :=
  match s.takePkt ep (fun p => match p.body with
    | .query .. => true
    | _ => false) with
  | none => .next s
  | some (p, t) =>
    match p.body with
    | .query id target =>
      .next (t.onCore ep (fun c => { c with queries := c.queries ++
        [{ src := p.src, id := id, target := target.getD (c.pubOf p.vdev).lseq, vdev := p.vdev, fkey := p.fkey }] }))
    | _ => .next t

/-- Records an answer: the writer's target is met (R150). -/
def Core.gotAnswer (c : Core) (id writer target : Nat) : Core :=
  { c with acqs := c.acqs.map (fun a =>
      if a.id = id then { a with got := a.got ++ [(writer, target)],
                                 waits := a.waits.eraseP (fun w => w.1 == writer) } else a) }

/-- Whether a device's core is being contained or reset (R442). -/
def State.dying (s : State) (ep vdev : Nat) : Bool :=
  (s.vdevOf vdev).resetAt.isSome ||
  (match s.sagOf ep with
   | some k => (s.sag k).hit.isSome
   | none => false)

/-- ACQUIRE_ANSWER (R150): the oldest query whose target CH reaches is answered; during containment or reset, once
nothing stamped is unacknowledged. -/
def execAcquireAnswer (ep : Nat) (s : State) : Out :=
  let c := s.core ep
  match takeFirst (fun (q : Query) =>
      let p := c.pubOf q.vdev
      if s.dying ep q.vdev then p.outstanding.isEmpty && !c.orphans.any (fun o => o.1 == q.vdev)
      else p.chMeets q.target) c.queries with
  | none => .next s
  | some (q, rest) =>
    let s1 := s.setCore ep { c with queries := rest }
    if q.src = s.epId ep then
      .next (s1.asDevice ep q.vdev (fun t => t.onCore ep (fun d => d.gotAnswer q.id q.src q.target)))
    else
      .next (s1.reply { s1.ownerPkt ep q.vdev with
        src := s1.epId ep, dst := q.src, cls := 1, len := 16, fkey := q.fkey, body := .answer q.id q.target })

/-- Replays the notes an acquire names, in (seq, endpoint, arrival) order, then the core's own unacknowledged records in
the lines patched (R150). What a replayed note supersedes of the others is dropped (R152, log entry 47). -/
def State.replay (s : State) (ep : Nat) (named : Note → Bool) : State :=
  let c := s.core ep
  let mine := c.notes.filter named
  let order := mine.mergeSort (fun a b => decide (a.seq < b.seq) || (a.seq == b.seq && decide (epRank a.writer ≤ epRank b.writer)))
  let l1a := order.foldl (fun ls n => patchL1 ls n.home n.addr n.mask n.data.toNat n.pois) c.l1
  let lines := mine.map (fun n => (n.home, n.addr / 512))
  let l1b := c.pub.log.foldl (fun ls r =>
    if !(r.owner == .acked) && lines.contains (r.home, r.addr / 512)
    then patchL1 ls r.home r.addr r.mask r.data.toNat r.pois else ls) l1a
  s.setCore ep { c with
    l1 := l1b,
    notes := order.foldl (fun l n => trimNotes l n.home n.addr n.mask (n.seq, n.writer)) (c.notes.filter (fun n => !named n)) }

/-- ACQUIRE_COMPLETE (R150, R151): answers are taken; an acquire with all of them, and with its horizon, replays and
advances CLK. -/
def execAcquireComplete (ep : Nat) (s : State) : Out :=
  match s.takePkt ep (fun p => match p.body with
    | .answer .. => true
    | _ => false) with
  | some (p, t) =>
    (match p.body with
     | .answer id target => .next (t.asDevice ep p.vdev (fun u => u.onCore ep (fun c => c.gotAnswer id p.src target)))
     | _ => .next t)
  | none =>
    let c := s.core ep
    let v := s.vdevOf c.vdev
    let ready := fun (a : Acq) => a.waits.isEmpty && (match a.horizon with
      | none => true
      | some (t, clk) => decide (clk ≤ v.vh) && (match v.refreshed with
        | some b => decide (t < b)
        | none => false))
    match takeFirst ready c.acqs with
    | none => .next s
    | some (a, rest) =>
      let named := fun (n : Note) =>
        match a.horizon with
        | some _ => decide (n.seq ≤ v.vh)
        | none => a.got.any (fun w => n.writer == w.1 && decide (n.seq ≤ w.2))
      let top := match a.horizon with
        | some _ => v.vh
        | none => a.got.foldl (fun m w => max m w.2) 0
      let s1 := (s.setCore ep { c with acqs := rest }).replay ep named
      .next (s1.onCore ep (fun d => { d with
        pub := { d.pub with clk := max d.pub.clk top },
        run := if startAcqId d.run.fid = a.id then { d.run with acq := none } else d.run,
        under := d.under.map (fun f => if startAcqId f.fid = a.id then { f with acq := none } else f) }))

/-- The other chips of a device that this one can reach: those that its chip table names (R151, R359, R463, log entry 31). -/
def State.peerChips (s : State) (vdev : Nat) : List Nat :=
  ((List.range 255).map (fun i => s.readNat (s.descWord vdev 1 + 0x340 + 2 * (i + 1)) 2)).eraseDups.filter (fun c =>
    !(c == s.chip) && !(s.ports c).isEmpty)

/-- Sends a report of a horizon refresh to the other chips of a device, on the management class (R151, R318). -/
def State.tellPeers (s : State) (vdev phase value : Nat) : State :=
  (s.peerChips vdev).foldl (fun t c => t.send { t.ownerPkt 0 vdev with
    src := t.epId 0, dst := c * 65536, cls := 6, fkey := 0, len := 16, body := .horizon vdev phase value }) s

/-- The reports of a phase of the other chips, once all are in. -/
def State.reports (s : State) (vdev phase : Nat) : Option (List Nat) :=
  let got := (s.vdevOf vdev).far.filter (fun r => r.2.1 == phase)
  if (s.peerChips vdev).all (fun c => got.any (fun r => r.1 == c)) then some (got.map (fun r => r.2.2)) else none

/-- Forgets the oldest report of a phase of each chip. -/
def dropReports (l : List (Nat × Nat × Nat)) (phase : Nat) (chips : List Nat) : List (Nat × Nat × Nat) :=
  chips.foldl (fun (m : List (Nat × Nat × Nat)) c => m.eraseP (fun r => r.1 == c && r.2.1 == phase)) l

/-- The first phase's end: every core's CLK is raised to the greatest of the device. -/
def State.raiseClocks (s : State) (vdev b p : Nat) : State :=
  let s1 := (s.coresOf vdev).foldl (fun (t : State) e => t.asDevice e vdev (fun u =>
    u.onCore e (fun c => { c with pub := { c.pub with clk := max c.pub.clk p } }))) s
  s1.onVdev vdev (fun d => { d with refresh := some (b, p), begun := none, low := none,
                                    far := dropReports d.far 1 (s.peerChips vdev) })

/-- VH_REFRESH (R151): phase 1. This chip's greatest CLK goes to the other chips of the device; with all of theirs every
core's CLK is raised to the greatest. -/
def execVhRefresh (vdev : Nat) (s : State) : Out :=
  let v := s.vdevOf vdev
  match v.begun with
  | some (b, m) =>
    (match s.reports vdev 1 with
     | some l => .next (s.raiseClocks vdev b (l.foldl max m))
     | none => .next s)
  | none =>
    if !v.launched || v.refresh.isSome || (v.refreshed.isSome && decide (s.now < v.refreshAt + 4096)) then .next s
    else
      let p := (s.coresOf vdev).foldl (fun m e => max m ((s.core e).pubOf vdev).clk) 0
      let s1 := s.onVdev vdev (fun d => { d with refreshAt := s.now })
      if (s.peerChips vdev).isEmpty then .next (s1.raiseClocks vdev s.now p)
      else .next ((s1.onVdev vdev (fun d => { d with begun := some (s.now, p) })).tellPeers vdev 1 p)

/-- The least report of this chip's cores (R151). -/
def State.leastReport (s : State) (vdev p : Nat) : Nat :=
  let report := fun (e : Nat) =>
    match ((s.core e).pubOf vdev).outstanding with
    | [] => p
    | q :: l => l.foldl min q - 1
  (s.coresOf vdev).foldl (fun m e => min m (report e)) p

/-- VH_REFRESH_COMPLETE (R151): phase 2: VH is the least report, over the chips of the device. -/
def execVhRefreshComplete (vdev : Nat) (s : State) : Out :=
  let v := s.vdevOf vdev
  match v.refresh with
  | none => .next s
  | some (b, p) =>
    let set := fun (t : State) (vh : Nat) => t.onVdev vdev (fun d => { d with
      vh := vh, refresh := none, refreshed := some b, low := none, far := dropReports d.far 2 (s.peerChips vdev) })
    match v.low with
    | none =>
      let m := s.leastReport vdev p
      if (s.peerChips vdev).isEmpty then .next (set s m)
      else .next ((s.onVdev vdev (fun d => { d with low := some m })).tellPeers vdev 2 m)
    | some m =>
      (match s.reports vdev 2 with
       | some l => .next (set s (l.foldl min m))
       | none => .next s)

/-! ### Fills (R128, R201) -/

/-- Installs a sector in an L1 with the core's own unacknowledged records applied (R127, R128). -/
def State.install (s : State) (ep home pa : Nat) (data : List Byte) (pois : List Nat) : State :=
  let c := s.core ep
  let base := pa - pa % 128
  let line := pa / 512
  let bit : BitVec 4 := BitVec.ofNat 4 (2 ^ ((pa / 128) % 4))
  let bytes : Tbl Byte := (List.range 128).foldl (fun t i =>
    tput t (base % 512 + i) (s.overlay ep (home / 65536) (base + i) (data.getD i 0)) 0) []
  let whole := fun (w : Nat) => c.pub.log.any (fun r => decide (r.addr = base + 8 * w) && r.mask == BitVec.allOnes 8 &&
    !(r.owner == .acked) && r.chip s ep c.vdev == home / 65536)
  let bad := (pois.filter (fun w => !whole w)).map (fun w => base % 512 / 8 + w)
  let old := c.l1.find? (fun l => l.home == home && l.line == line)
  let sets := c.carve.l1
  let same := c.l1.filter (fun l => l.line % sets == line % sets)
  let c1 := if old.isNone && decide (8 ≤ same.length) then
      (match firstBy (fun (a b : L1Line) => decide (a.age < b.age)) same with
       | some l => c.dropLine l.home l.line
       | none => c)
    else c
  let keep := match old with
    | some l => (l.data.filter (fun (e : Nat × Byte) => !(e.1 / 128 == base % 512 / 128)),
                 l.pois.filter (fun (w : Nat) => !(w / 16 == base % 512 / 128)), l.valid)
    | none => ([], [], 0)
  let new : L1Line := { home := home, line := line, valid := keep.2.2 ||| bit, data := mergeTbl keep.1 bytes,
                        pois := keep.2.1 ++ bad, age := s.now }
  (s.setCore ep { c1 with
    l1 := c1.l1.filter (fun l => !(l.home == home && l.line == line)) ++ [new],
    -- a note that came before the fill is in its data (R145)
    notes := c1.notes.filter (fun n => !(n.home == home && n.addr / 128 == pa / 128)) }).count ep 7 1

/-- A standard load returns its data (R201): poison is consumed (R407). Data that an instruction reads for itself goes to
`Core.got`. -/
def State.finishLoad (s : State) (ep : Nat) (d : Load) (bs : List Byte) (pois : Bool) : State :=
  let v := extend (bs.take d.n) d.signed
  let s0 := s.oneGot ep d.id v (if pois then 1 else 0)
  let s1 := s0.onCore ep (fun c => { c with loads := c.loads.filter (fun l => !(l.id == d.id)) })
  if d.buf then
    s1.onCore ep (fun c => { c with got := c.got ++ [{ ep := d.x.home, pa := d.x.pa, data := bs.take d.n, pois := pois }] })
  else if pois && !(d.rd == 0) then s1.machineCheck ep 2 0x40 (d.x.pa - d.x.pa % 8) 0 d.pc.toNat
  else s1.onCore ep (fun c => c.fillLoad d.rd v false)

/-- The fill that a fetch waits for has come (R128, R163). -/
def Core.fetched (c : Core) (id : Nat) : Core :=
  if c.fetching.any (fun f => f.1 == id) then { c with fetching := none } else c

/-- FILL_REPLY (R128): a sector, or a scratchpad load's value, arrives; its loads return. A sector that a ONE has invalidated
since it was asked for is not installed (R155). A load's value holds the own
unacknowledged bytes of the moment it was issued, not those of later stores (R152, R153). -/
def execFillReply (ep : Nat) (s : State) : Out :=
  match s.takePkt ep (fun p => match p.body with
    | .fillRep .. => true
    | .spadRep .. => true
    | _ => false) with
  | none => .next s
  | some (p, t) =>
    if !(t.core ep).runs p.vdev then .next t
    else
      let chip := p.src / 65536
      match p.body with
      | .fillRep id pa data pois =>
        let w := (t.core ep).fills.find? (fun f => f.id == id)
        let t1 := t.onCore ep (fun c => { c with fills := c.fills.filter (fun f => !(f.id == id)) })
        let u := (if w.any (fun f => !f.barred) then t1.install ep p.src pa data pois else t1).onCore ep (fun c => c.fetched id)
        (match (u.core ep).loads.find? (fun d => d.id == id) with
         | none => .next u
         | some d =>
           let bytes := (List.range d.n).map (fun i =>
             match d.own.getD i none, u.ownByte ep chip (d.x.pa + i) with
             | some b, some _ => b
             | _, _ => data.getD (d.x.pa % 128 + i) 0)
           .next (u.finishLoad ep d bytes
             (pois.contains ((d.x.pa % 128) / 8) && !(d.own.all Option.isSome && !d.own.isEmpty))))
      | .spadRep id bs po =>
        (match (t.core ep).loads.find? (fun d => d.id == id) with
         | none => .next t
         | some d => .next (t.finishLoad ep d bs po))
      | _ => .next t

/-- A team-window load or store that waited for its member's new carve-out and lies beyond the new size: the access fault of
R118, at the issuing core's next boundary, for its instruction has retired (R124, log entry 48). A load's register is no
longer awaited. -/
def State.lateFault (s : State) (src ep off : Nat) (rd : XReg) : State :=
  let e := src % 65536
  s.onCore e (fun c => { c with run := { c.run.faultLater (s.teamVa e ep off) with
    busy := if rd = 0 then c.run.busy else c.run.busy &&& ~~~regBit rd } })

/-- The next access of another core to a core's scratchpad. -/
def State.takeAccess (s : State) (ep : Nat) : Option (Pkt × State) :=
  s.takePkt ep (fun p => match p.body with
    | .spadLoad .. => true
    | .spadStore .. => true
    | _ => false)

/-- SCRATCHPAD_REMOTE_ACCESS (R126): a team-window or core-array access reaches a scratchpad, once a new carve-out there
is applied (R124). Inside a cluster the load returns with it. What another chip asks beyond the region has an open value,
or is dropped: the fault is that chip's (log entry 21). -/
def execScratchpadRemoteAccess (ep : Nat) (s : State) : Out :=
  if (s.core ep).carving then .next s
  else
  match s.takeAccess ep with
  | none => .next s
  | some (p, t) =>
    let near := p.src / 65536 = t.chip
    let e := p.src % 65536
    match p.body with
    | .spadLoad id off n =>
      if near ∧ (t.core ep).carve.spadSize < off + n then
        .next (((t.onCore e (fun c => { c with loads := c.loads.filter (fun l => !(l.id == id)) })).oneLost e id).lateFault
          p.src ep off (((t.core e).loads.find? (fun l => l.id == id)).elim 0 (fun l => l.rd)))
      else
        let r := t.spadValue ep off n
        let po := t.anyPoison (arrayBase ep + off) n
        if near ∧ clusterOf p.src = clusterOf ep then
          (match (t.core e).loads.find? (fun d => d.id == id) with
           | none => .next r.2
           | some d => .next (r.2.finishLoad e d (leBytes n r.1) po))
        else .next (r.2.send (p.answer (t.epId ep) 1 24 (.spadRep id (leBytes n r.1) po)))
    | .spadStore off n v =>
      if off + n ≤ (t.core ep).carve.spadSize then .next (t.spadWrite ep off (leBytes n v.toNat))
      else if near then .next (t.lateFault p.src ep off 0)
      else .next t
    | _ => .next t

/-! ### Split-phase replies (R44, R157, R232, R371) -/

/-- Sign-extends a reply of n bytes. -/
def replyValue (v : Word) (n : Nat) : Word := extend (leBytes n v.toNat) (n == 4)

/-- The core's own unacknowledged records of a word over L1 lines, but for the first `olds`: those that an atomic's result
supersedes (R152, R153, R157). -/
def Core.reapply (c : Core) (x : Xlat) (olds : Nat) (l1 : List L1Line) : List L1Line :=
  ((c.pub.log.filter (fun r => r.addr == x.pa - x.pa % 8 && r.csel == x.csel && !(r.owner == .acked))).drop olds).foldl
    (fun ls r => patchL1 ls r.home r.addr r.mask r.data.toNat r.pois) l1

/-- REPLY_FILL (R44, R157, R232): a reply of LDR, LDRW or an ATOM fills its register in the frame that issued it; an LDR
then posts its successor. Poisoned data is consumed (R407). -/
def execReplyFill (ep : Nat) (s : State) : Out :=
  match s.takePkt ep (fun p => match p.body with
    | .ldrRep .. => true
    | .atomRep .. => true
    | _ => false) with
  | none => .next s
  | some (p, t) =>
    .next (t.asDevice ep p.vdev (fun u =>
      let id := match p.body with
        | .ldrRep id .. => id
        | .atomRep id .. => id
        | _ => 0
      match takeFirst (fun (r : Req) => r.id == id) (u.core ep).reqs with
      | none =>
        -- the elected member of a ONE reads global memory at its home (R155)
        (match (u.core ep).loads.find? (fun l => l.id == id), p.body with
         | some d, .ldrRep _ _ v po =>
           (u.oneGot ep id v (if po then 1 else 0)).onCore ep (fun c =>
             { c with loads := c.loads.filter (fun l => !(l.id == d.id)) })
         | _, _ => u)
      | some (r, rest) =>
        let u1 := u.onCore ep (fun c => { c with reqs := rest })
        match p.body, r.kind with
        | .ldrRep _ pa v po, .ldr n =>
          let glob := !inArrays r.x.pa
          let bytes := (List.range n).map (fun i =>
            let b := BitVec.ofNat 8 (bitsOf v.toNat (8 * i) 8)
            match r.own.getD i none, u1.ownByte ep r.x.chip (pa + i) with
            | some o, some _ => o
            | _, _ => b)
          let u2 := if glob then u1.onCore ep (fun c => { c with l1 := c.l1.map (fun l =>
              if l.home / 65536 == r.x.chip && l.line == pa / 512 then
                { l with valid := l.valid &&& ~~~(BitVec.ofNat 4 (2 ^ ((pa / 128) % 4))) } else l) }) else u1
          let u3 := if po then u2.machineCheck ep 2 0x40 (r.x.pa - r.x.pa % 8) 0 r.pc.toNat
                    else u2.fillReg ep r.fid r.rd (replyValue (BitVec.ofNat 64 (leNat bytes)) n) false
          (match r.succ with
           | some q => u3.postSucc ep q (u3.core ep).pub.lseq
           | none => u3)
        | .atomRep _ pa old new q po, .atom n =>
          let u2 := u1.onCore ep (fun c => { c with
            pub := { c.pub with clk := max c.pub.clk q },
            notes := trimNotes c.notes r.x.home pa (wordMask pa n) (q, u1.epId ep),
            l1 := c.reapply r.x r.olds (patchL1 c.l1 r.x.home (pa - pa % 8) (wordMask pa n) (new.toNat * 2 ^ (8 * (pa % 8))) po) })
          if po then u2.machineCheck ep 2 0x40 (r.x.pa - r.x.pa % 8) 0 r.pc.toNat
          else u2.fillReg ep r.fid r.rd (replyValue old n) false
        | _, _ => u1))

/-! ### Posts (R30, R217, R218, R371) -/

/-- POST_ARRIVAL (R30, R31): the record takes a free slot or receive-queue entry of the device's ready pool, running or
switched out, or is refused with status 0. -/
def execPostArrival (ep : Nat) (s : State) : Out :=
  match s.takePost ep with
  | none => .next s
  | some (p, t) =>
    match p.body with
    | .post id r recvq =>
      let c := t.core ep
      let rd : Option (List Ready) :=
        if c.runs p.vdev then some c.ready else (tfind c.saved p.vdev).map (fun x => x.ready)
      let ok := t.current p && (match rd with
        | some l => if recvq then recvFree l else slotFree l
        | none => false)
      let t1 := if ok then t.asDevice ep p.vdev (fun u => u.addReadyAt ep r (if recvq then .recvq else .slot) p.arr) else t
      .next (t1.reply (p.answer (t.epId ep) 1 8 (.postRep id ok)))
    | _ => .next t

/-- A status comes back for a post or SPAWN (R31, R56, R218). -/
def State.statusBack (s : State) (ep id : Nat) (ok : Bool) : State :=
  match takeFirst (fun (r : Req) => r.id == id) (s.core ep).reqs with
  | none => s
  | some (r, rest) =>
    let s1 := (s.onCore ep (fun c => { c with reqs := rest })).fillReg ep r.fid r.rd (BitVec.ofNat 64 ok.toNat) false
    let s2 := if ok then s1 else s1.count ep 12 1
    match r.kind with
    | .post a => s2.settle ep a ok
    | .spawn a => s2.settle ep a ok
    | _ => s2

/-- POST_STATUS (R218). -/
def execPostStatus (ep : Nat) (s : State) : Out :=
  match s.takePkt ep (fun p => match p.body with
    | .postRep .. => true
    | _ => false) with
  | none => .next s
  | some (p, t) =>
    match p.body with
    | .postRep id ok => .next (t.asDevice ep p.vdev (fun u => u.statusBack ep id ok))
    | _ => .next t

/-! ### Barrier notices (R327, R328, R446) -/

/-- An open arrival ends with ABORTED: it forwards ABORT and completes with a0 = 1 (R437, R446). -/
def State.abortOpen (s : State) (ep bid : Nat) (forward : Bool) : State :=
  match (s.core ep).gbars.find? (fun g => g.bid == bid && g.opened) with
  | none => s
  | some g =>
    let s1 := s.onCore ep (fun c => { c with gbars := c.gbars.map (fun h =>
      if h.bid == bid then { h with aborted := true } else h) })
    (if forward then s1.gbarAbort ep g else s1).gbarTry ep bid

/-- Holds a notice for a later arrival with its BID (R328). -/
def Core.holdNotice (c : Core) (bid round vdev gen : Nat) (ab : Bool) : Core :=
  if c.gbars.any (fun g => g.bid == bid) then
    { c with gbars := c.gbars.map (fun g => if g.bid == bid then { g with held := g.held ++ [(round, ab)] } else g) }
  else
    { c with gbars := c.gbars ++ [{ bid := bid, opened := false, n := 0, i := 0, peers := [], sent := 0, rcvd := 0,
                                    aborted := false, held := [(round, ab)], succ := none, hasSucc := false,
                                    vdev := vdev, gen := gen }] }

/-- Whether a notice with a BID finds a barrier state entry of its device: its own, or one of the 64 that is free. With
none it waits at the interface (R328, log entry 58). -/
def State.entryFor (s : State) (ep vdev bid : Nat) : Bool :=
  let c := s.core ep
  let gs := if c.runs vdev then c.gbars else match tfind c.saved vdev with
    | some x => x.gbars
    | none => []
  gs.any (fun g => g.bid == bid) || decide (c.gbarCount < 64)

/-- BARRIER_NOTICE (R327, R328). -/
def execBarrierNotice (ep : Nat) (s : State) : Out :=
  match s.takePkt ep (fun p => match p.body with
    | .bar bid _ => s.entryFor ep p.vdev bid
    | _ => false) with
  | none => .next s
  | some (p, t) =>
    match p.body with
    | .bar bid k =>
      .next (t.asDevice ep p.vdev (fun u =>
        match (u.core ep).gbars.find? (fun g => g.bid == bid && g.opened) with
        | some g =>
          if g.rcvd.getLsbD k then u.onCore ep (fun c => c.holdNotice bid k p.vdev p.gen false)
          else
            ((u.onCore ep (fun c => { c with gbars := c.gbars.map (fun h =>
              if h.bid == bid then { h with rcvd := h.rcvd ||| BitVec.ofNat 16 (2 ^ k) } else h) })).gbarAdvance
                ep bid 17).gbarTry ep bid
        | none => u.onCore ep (fun c => c.holdNotice bid k p.vdev p.gen false)))
    | _ => .next t

/-- ABORT_NOTICE (R446). -/
def execAbortNotice (ep : Nat) (s : State) : Out :=
  match s.takePkt ep (fun p => match p.body with
    | .abort bid => s.entryFor ep p.vdev bid
    | _ => false) with
  | none => .next s
  | some (p, t) =>
    match p.body with
    | .abort bid =>
      .next (t.asDevice ep p.vdev (fun u =>
        if (u.core ep).gbars.any (fun g => g.bid == bid && g.opened) then u.abortOpen ep bid true
        else u.onCore ep (fun c => c.holdNotice bid 0 p.vdev p.gen true)))
    | _ => .next t

/-! ### Refusals at the sender (R437) -/

/-- The value that a refused request leaves in its register (R437). -/
def refusedValue (code : Nat) : Word := BitVec.ofNat 64 (2 ^ 64 - 256 + code)

/-- A refused LDR, LDRW or ATOM fills its register, marked poison; an LDR still posts its successor (R232, R437). -/
def State.refusedReq (s : State) (ep id code : Nat) : State :=
  match takeFirst (fun (r : Req) => r.id == id) (s.core ep).reqs with
  | none => s
  | some (r, rest) =>
    let s1 := (s.onCore ep (fun c => { c with reqs := rest })).fillReg ep r.fid r.rd (refusedValue code) true
    match r.succ with
    | some q => s1.postSucc ep { q with a2 := 0, a3 := BitVec.ofNat 64 (0x100 + code) } (s1.core ep).pub.lseq
    | none => s1

/-- A refused fill or scratchpad access fills its load's register as a refused LDR does; a refused fetch faults (log
entry 26). -/
def State.refusedLoad (s : State) (ep id code : Nat) : State :=
  (s.oneGot ep id (refusedValue code) 2).onCore ep (fun d =>
    let c : Core := { d with fills := d.fills.filter (fun f => !(f.id == id)), fetching := d.fetching.map (fun f => if f.1 = id then (f.1, f.2.1, true) else f) }
    match c.loads.find? (fun l => l.id == id) with
    | some d =>
      let c1 : Core := { c with loads := c.loads.filter (fun l => !(l.id == id)) }
      if d.buf then { c1 with got := c1.got ++ [{ ep := d.x.home, pa := d.x.pa,
                                                  data := leBytes d.n (refusedValue code).toNat, pois := true }] }
      else c1.fillLoad d.rd (refusedValue code) true
    | none => c)

/-- REFUSAL_AT_SENDER (R436, R437). -/
def execRefusalAtSender (ep : Nat) (s : State) : Out :=
  match s.takePkt ep (fun p => match p.body with
    | .nack .. => true
    | _ => false) with
  | none => .next s
  | some (p, t) =>
    match p.body with
    | .nack code kind id sub =>
      .next (match kind with
        | 1 => t.asDevice ep p.vdev (fun u => u.refusedReq ep id code)
        | 2 => t.asDevice ep p.vdev (fun u => u.refusedReq ep id code)
        | 3 => t.asDevice ep p.vdev (fun u => u.statusBack ep id false)
        | 4 => t.onCluster (clusterOf ep) (fun k => { k with copies := k.copies.map (fun c =>
            if c.id = id then { c with flight := c.flight.filter (fun f => !(f.no == sub)),
                                       failed := c.failed.orElse (fun _ => some (0, 0x100 + code)) } else c) })
        | 11 => t.onCluster (clusterOf ep) (fun k => { k with copies := k.copies.map (fun c =>
            if c.id = id then { c with srcs := [], failed := c.failed.orElse (fun _ => some (0, 0x100 + code)) } else c) })
        | 5 => t.asDevice ep p.vdev (fun u => u.abortOpen ep id false)
        | 6 => t.asDevice ep p.vdev (fun u => u.onCore ep (fun c => c.gotAnswer id sub 0))
        | 7 => t.refusedLoad ep id code
        | 8 => t.refusedLoad ep id code
        | 10 => t.report { cls := 0, src := 7, code := 0x65, unit := t.epId ep, addr := 0, owner := p.vdev + 64 * p.gen,
                           hseq := 0, pc := 0, detail := code }
        | _ => t)
    | _ => .next t

end Sys2Proof.Machine
end

