-- ==== Sys2Proof/Machine/Copies.lean ====
section
/-! DEFINITION. The copy engine's own steps (R156, R249, R308 to R312, R434, R441): chunks, their landing, stamps and
completion. -/

namespace Sys2Proof.Machine

/-- Whether a copy's next chunk waits for source bytes of another chip (R136). -/
def Copy.reading (c : Copy) : Bool := c.srcs.any (fun q => q.data.isNone)

/-- Chunks a cluster has in flight (R308), one that reads its source on another chip among them. -/
def Cluster.inFlight (c : Cluster) : Nat := c.copies.foldl (fun n k => n + k.flight.length + k.reading.toNat) 0

/-- Whether a copy has a chunk to issue. -/
def Copy.hasChunk (c : Copy) : Bool := !c.rows.isEmpty && !c.paused && !c.silent && c.failed.isNone && !c.reading

/-- Order of a copy in the engine's round (R308). -/
def Copy.place (c : Copy) : Nat := (c.core % 8) * 65536 + c.tag

/-- What a chunk finds of a part of its source (R244, R309, R434). -/
inductive Sourced where
  /-- bytes, and the poisoned byte positions -/
  | have' (data : List Byte) (pois : List Nat)
  /-- they are asked for on another chip (R136), or a translation is awaited (R367) -/
  | wait
  /-- a fault at a virtual address -/
  | fail (va cause : Nat)
deriving DecidableEq, Repr

/-- Asks another chip for source bytes, or takes what it has answered (R136). -/
def State.farSource (s : State) (k : Nat) (c : Copy) (va n dst pa set : Nat) (spad : Bool) : Sourced × State :=
  match c.srcs.find? (fun q => q.va == va && q.n == n) with
  | some q =>
    (match q.data with
     | some d => (.have' d.1 d.2, s)
     | none => (.wait, s))
  | none =>
    let s1 := s.onCluster k (fun d => { d with copies := d.copies.map (fun e =>
      if e.id = c.id then { e with srcs := e.srcs ++ [{ va := va, n := n, chip := dst / 65536, data := none }] } else e) })
    (.wait, s1.send { s1.ownerPkt c.core c.vdev with
      src := s1.epId c.core, dst := dst, cls := 0, gen := c.gen, fkey := c.fkey, len := 24,
      body := .chunkRead c.id va pa set n spad })

/-- A part of a copy's source in memory of this chip, through its home slice (R129, R136): it waits while the slice brings the
sector in. -/
def State.nearSource (s : State) (c : Copy) (x : Xlat) (n : Nat) : Sourced × State :=
  let u := s.bring (x.home % 65536) x.set c.vdev x.pa false
  if u.hasSector (x.home % 65536) x.set x.pa then
    let v := u.atHome x.home x.set x.pa
    (.have' (v.readBytes x.pa n) ((List.range n).filter (fun i => v.isPoison (x.pa + i))), u)
  else (.wait, u)

/-- One page's part of a chunk's source. A member's scratchpad waits for its new carve-out (R124); a poisoned page entry is
consumed by the issuing core (R407). -/
def State.sourceBytes (s : State) (k : Nat) (c : Copy) (va n : Nat) : Sourced × State :=
  let r := s.translate { ep := c.core, vdev := c.vdev, pasid := c.pasid } va n .r
  let t := r.2
  match r.1 with
  | .glob x =>
    if x.chip = t.chip then t.nearSource c x n
    else t.farSource k c va n x.home x.pa x.set false
  | .spad e off =>
    if e ≠ c.core ∧ (t.core e).carving then (.wait, t)
    else (.have' (t.spadBytes e off n) ((List.range n).filter (fun i => t.isPoison (arrayBase e + off + i))), t)
  | .spadFar chip e off => t.farSource k c va n (chip * 65536 + e) off 0 true
  | .bad cause => (.fail va cause, t)
  | .ats => (.wait, t)
  | .poison pa => (.wait, t.machineCheck c.core 2 0x40 (pa - pa % 8) 0 0)
  | _ => (.fail va 8, t)

/-- Changes one copy of a cluster. -/
def State.onCopy (s : State) (k id : Nat) (f : Copy → Copy) : State :=
  s.onCluster k (fun d => { d with copies := d.copies.map (fun c => if c.id = id then f c else c) })

/-- A part of the next chunk's source: as it was read before, or read now. -/
def State.sourcePart (s : State) (k : Nat) (c : Copy) (va n : Nat) : Sourced × State :=
  match c.srcs.find? (fun q => q.va == va && q.n == n && q.data.isSome) with
  | some q => ((q.data.elim .wait (fun d => .have' d.1 d.2)), s)
  | none => s.sourceBytes k c va n

/-- Keeps a part of the next chunk's source that has been read while the other part is awaited. -/
def State.keepSource (s : State) (k : Nat) (c : Copy) (va n : Nat) : Sourced → State
  | .have' d p => s.onCopy k c.id (fun e => if e.srcs.any (fun q => q.va == va && q.n == n) then e
      else { e with srcs := e.srcs ++ [{ va := va, n := n, chip := s.chip, data := some (d, p) }] })
  | _ => s

/-- A chunk's source, which may span two source blocks (R309). -/
def State.chunkSource (s : State) (k : Nat) (c : Copy) (va n : Nat) : Sourced × State :=
  let n1 := min n (128 - va % 128)
  let a := s.sourcePart k c va n1
  if n1 = n then a
  else match a.1 with
    | .fail v cause => (.fail v cause, a.2)
    | f =>
      let b := a.2.sourcePart k c (va + n1) (n - n1)
      match f, b.1 with
      | _, .fail v cause => (.fail v cause, b.2)
      | .have' d p, .have' d' p' => (.have' (d ++ d') (p ++ p'.map (fun i => i + n1)), b.2)
      | _, g => (.wait, (b.2.keepSource k c va n1 f).keepSource k c (va + n1) (n - n1) g)

/-- A chunk's packet: a header of 16 bytes and a block of 128, whatever part of it the chunk carries (R315, log entry 75). -/
def State.chunkPkt (s : State) (c : Copy) (dst : Nat) (b : Body) : Pkt :=
  { s.ownerPkt c.core c.vdev with
    src := s.epId c.core, dst := dst, cls := 0, gen := c.gen, fkey := c.fkey, len := 144, body := b }

def Pkt.isChunk (p : Pkt) : Bool :=
  match p.body with
  | .chunk .. => true
  | _ => false

/-- A chunk over the cluster network (R310). Chunks land in any order (R309): it comes in among the last ones that came
so, wherever an open value puts it (log entry 57). -/
def State.nearChunk (s : State) (p : Pkt) : State :=
  let ep := p.dst % 65536
  let box := tget s.inbox ep []
  let run := (box.reverse.takeWhile (fun q => q.isChunk && !q.numbered)).length
  let j := (Config.freeByte s.fresh).toNat % (run + 1)
  { s with inbox := tset s.inbox ep (box.take (box.length - j) ++ { p with arr := s.now } :: box.drop (box.length - j)),
           fresh := s.fresh + 1 }

/-- The rest of a copy's rows after a chunk of n bytes. -/
def restRows (rows : List (Nat × Nat × Nat)) (n : Nat) : List (Nat × Nat × Nat) :=
  match rows with
  | (a, b, m) :: l => if m ≤ n then l else (a + n, b + n, m - n) :: l
  | [] => []

/-- Whether a chunk has gone. -/
inductive Went where
  | gone
  /-- a translation is awaited (R367) -/
  | wait
  | fail (cause : Nat)
deriving DecidableEq, Repr

/-- Sends a chunk where its destination's translation says (R310): over the cluster network when it was named by a window,
else by the request class. -/
def State.chunkTo (s : State) (c : Copy) (dst n : Nat) (data : List Byte) (pois : List Nat) : Went × State :=
  let q := s.translate { ep := c.core, vdev := c.vdev, pasid := c.pasid } dst n .w
  let b := fun (pa set : Nat) (spad : Bool) => Body.chunk c.id (8 * c.nextNo) pa set data pois spad
  let went := fun (t : State) (ep : Nat) (f : Option (Nat × Nat)) =>
    (Went.gone, t.onCopy (clusterOf c.core) c.id (fun d => { d with
      flight := d.flight ++ [{ no := 8 * c.nextNo, n := n, at' := f, dst := ep }] }))
  match q.1 with
  | .spad e off =>
    let p := q.2.chunkPkt c (q.2.epId e) (b off 0 true)
    went (if byArray dst then q.2.send p else q.2.nearChunk p) p.dst none
  | .spadFar chip e off => went (q.2.send (q.2.chunkPkt c (chip * 65536 + e) (b off 0 true))) (chip * 65536 + e) none
  | .glob x => went (q.2.send (q.2.chunkPkt c x.home (b x.pa x.set false))) x.home (some (x.home, x.pa))
  | .bad cause => (.fail cause, q.2)
  | .ats => (.wait, q.2)
  | .poison pa => (.wait, q.2.machineCheck c.core 2 0x40 (pa - pa % 8) 0 0)
  | _ => (.fail 8, q.2)

/-- Issues the next chunk of a copy (R309, R310). A chunk whose source lies on another chip is asked for first, and one
that needs a host translation waits for its answer (R136, R367). -/
def State.issueChunk (s : State) (k : Nat) (c : Copy) : State :=
  match c.rows with
  | [] => s
  | (src, dst, rem) :: _ =>
    let n := min rem (128 - dst % 128)
    let r := s.chunkSource k c src n
    let t := r.2
    match r.1 with
    | .fail va cause => t.onCopy k c.id (fun d => { d with failed := some (va, cause) })
    | .wait => t
    | .have' data pois =>
      let next := fun (u : State) =>
        u.onCopy k c.id (fun d => { d with rows := restRows d.rows n, nextNo := d.nextNo + 1, srcs := [] })
      if !c.members.isEmpty then
        let ms := c.members.zip (List.range c.members.length)
        let u := ms.foldl (fun (v : State) m =>
          v.nearChunk (v.chunkPkt c (v.epId m.1) (.chunk c.id (8 * c.nextNo + m.2) dst 0 data pois true))) t
        next (u.onCopy k c.id (fun d => { d with
          flight := d.flight ++ ms.map (fun m => { no := 8 * c.nextNo + m.2, n := n, at' := none, dst := u.epId m.1 }) }))
      else
        match t.chunkTo c dst n data pois with
        | (.gone, u) => next u
        | (.fail cause, u) => u.onCopy k c.id (fun d => { d with failed := some (dst, cause) })
        | (.wait, u) => u

/-- The first delivered packet of a kind among a cluster's endpoints. -/
def State.takeCluster (s : State) (k : Nat) (p : Pkt → Bool) : Option (Nat × Pkt × State) :=
  (List.range 8).findSome? (fun i => (s.takePkt (8 * k + i) p).map (fun r => (8 * k + i, r.1, r.2)))

/-- Source bytes that another chip has sent are kept for their copy's chunk (R136, R309). -/
def State.takeSource (s : State) (k : Nat) : Option State :=
  match s.takeCluster k (fun p => match p.body with
    | .chunkData .. => true
    | _ => false) with
  | none => none
  | some (_, p, t) =>
    match p.body with
    | .chunkData cp va data pois => some (t.onCopy k cp (fun c => { c with srcs := c.srcs.map (fun q =>
        if q.va = va then { q with data := some (data, pois) } else q) }))
    | _ => some t

/-- CHUNK_ISSUE (R308, R309): source bytes that have come back are taken; then one chunk per turn, round-robin among the
copies with a chunk ready, at most 64 in flight. A COPYB chunk counts once for each member (log entry 74). -/
def execChunkIssue (cluster : Nat) (s : State) : Out :=
  match s.takeSource cluster with
  | some t => .next t
  | none =>
  let d := s.cluster cluster
  let ready := d.copies.filter (fun c => c.hasChunk)
  let last := d.copyRR.1 * 65536 + d.copyRR.2
  let next := (firstBy (fun (a b : Copy) => decide (a.place < b.place)) (ready.filter (fun c => decide (last < c.place)))).orElse
    (fun _ => firstBy (fun (a b : Copy) => decide (a.place < b.place)) ready)
  match next with
  | none => .next s
  | some c =>
    if 64 < d.inFlight + max 1 c.members.length then .next s
    else .next ((s.onCluster cluster (fun e => { e with copyRR := (c.core % 8, c.tag) })).issueChunk cluster c)

/-- Key by which a landing byte names its copy (R156): the issuing cluster with its chip, and the copy. -/
def landKey (src cp : Nat) : Nat := (src / 8) * 2 ^ 20 + cp

/-- Poison of the words a chunk writes: marked where the source was, cleared where the word is written whole (R406). -/
def State.chunkPoison (s : State) (pa n : Nat) (pois : List Nat) : State :=
  pois.foldl (fun (t : State) i => t.setPoison (pa + i) true) (s.clearWhole pa n)

/-- A chunk's acknowledgement goes back as the chunk came: over the cluster network, or on the reply class (R310). -/
def State.ackChunk (s : State) (p ack : Pkt) : State :=
  if p.numbered then s.send ack else s.deliver (ack.dst % 65536) ack

/-- A chunk of a copy of this chip has landed: COPYQ counts it before its acknowledgement is back (R250, R310). -/
def State.chunkLanded (s : State) (p : Pkt) (cp no : Nat) : State :=
  if p.src / 65536 = s.chip then
    s.onCopy (clusterOf p.src) cp (fun c => { c with flight := c.flight.map (fun f =>
      if f.no = no then { f with landed := true } else f) })
  else s

/-- CHUNK_LANDING (R310, R156): written in a scratchpad, or applied at once at its home with invalidations to the line's
sharers and a LOSS for an overflow line (R146, R147). A scratchpad whose core applies a new carve-out makes it wait (R124). -/
def execChunkLanding (target : Nat) (s : State) : Out :=
  let free := fun (p : Pkt) => match p.body with
    | .chunk _ _ pa _ _ _ spad => spad || !s.latchBlocks target pa
    | _ => false
  let taken := ((s.takeHeld target (fun p => p.isChunk && free p)).orElse
    (fun _ => if (s.core target).carving then none else s.takePkt target (fun p => p.isChunk && !p.atSlice))).orElse (fun _ => s.takeHome target Pkt.isChunk)
  match taken with
  | none => .next s
  | some (p, t) =>
    match p.body with
    | .chunk cp no pa set data pois spad =>
      let n := data.length
      let ack := p.answer (t.epId target) 1 8 (.chunkAck cp no n)
      let q := t
      let t := q.chunkLanded p cp no
      if spad then
        let m := min n ((t.core target).carve.spadSize - pa)
        .next (((t.spadWrite target pa (data.take m)).chunkPoison (arrayBase target + pa) m
          (pois.filter (fun i => decide (i < m)))).ackChunk p ack)
      else if !free p then .next (q.hold p)
      else
        let u := q.bring target set p.vdev pa (pa % 128 == 0 && data.length == 128)
        if !u.hasSector target set pa then .next (u.hold p)
        else
          let u := u.chunkLanded p cp no
          let u1 := (u.writeBytes pa data).chunkPoison pa n pois
          let u2 : State := { u1 with
            landing := (List.range n).foldl (fun l i => tset l (homeKey target (pa + i)) (landKey p.src cp)) u1.landing }
          .next (u2.publish target pa p (fun lock => .inval (pa / 512) lock)
            (fun lock => { slice := target, kind := 3, line := pa / 512, writer := p.src, seq := 0, addr := pa, mask := 0,
                           data := 0, pois := false, lock := lock, fkey := p.fkey }) (pa / 512 * 512, p.src, 0, 3) (some ack))
    | _ => .next s

/-- Adds landed bytes to a copy's armed counter word (R248, R312). -/
def State.addCounter (s : State) (ep off n : Nat) : State :=
  s.spadWrite ep off (leBytes 4 ((leNat (s.spadBytes ep off 4) + n) % 2 ^ 32))

/-- CHUNK_ACKNOWLEDGEMENT (R312): the bytes are counted, then the chunk is no longer in flight. -/
def execChunkAcknowledgement (cluster : Nat) (s : State) : Out :=
  match s.takeCluster cluster (fun p => match p.body with
    | .chunkAck .. => true
    | _ => false) with
  | none => .next s
  | some (_, p, t) =>
    match p.body with
    | .chunkAck cp no n =>
      match (t.cluster cluster).copies.find? (fun c => c.id == cp && c.flight.any (fun f => f.no == no)) with
      | none => .next t
      | some c =>
        let t1 := match c.counter with
          | some off => t.addCounter c.core off n
          | none => t
        .next (t1.onCopy cluster cp (fun d => { d with
          flight := d.flight.filter (fun f => !(f.no == no)), landed := d.landed + n,
          homes := d.homes ++ (d.flight.filter (fun f => f.no == no)).filterMap (fun f => f.at'.map (fun h => (h.1, h.2, n))) }))
    | _ => .next t

/-- STAMP_PACKET (R156, R311): the landed bytes of the copy take its stamp and are no longer landing. The acknowledgement goes
back on the publish class, or over the cluster network inside a cluster (log entry 76). -/
def execStampPacket (home : Nat) (s : State) : Out :=
  match s.takeHome home (fun p => match p.body with
    | .stampPkt .. => true
    | _ => false) with
  | none => .next s
  | some (p, t) =>
    match p.body with
    | .stampPkt cp q ranges =>
      let mine := (ranges.flatMap (fun r => (List.range r.2).map (fun i => r.1 + i))).filter (fun a =>
        t.landingAt home a == some (landKey p.src cp))
      let t1 : State := mine.foldl (fun (u : State) a =>
        ({ u with stamps := tset u.stamps (homeKey home a) (q, p.src), landing := tdel u.landing (homeKey home a) } : State)) t
      .next (t1.reply (p.answer (t.epId home) 3 8 (.stampAck cp q)))
    | _ => .next t

/-- The successor record of a copy at completion, with the failure fields of R434. -/
def Copy.successor (c : Copy) : Option TaskRec :=
  c.succ.map (fun r => match c.failed with
    | some (va, cause) => { r with a2 := BitVec.ofNat 64 va, a3 := BitVec.ofNat 64 cause }
    | none => r)

/-- Completes a copy (R249): locks and slot freed, tag pushed, successor posted. -/
def State.completeCopy (s : State) (k : Nat) (c : Copy) (oseq : Nat) : State :=
  let s1 := s.onCluster k (fun d => { d with
    copies := d.copies.filter (fun e => !(e.id == c.id)),
    locks := d.locks.filter (fun l => !(l.owner == 2 * c.id)) })
  if c.silent then s1
  else
    s1.asDevice c.core c.vdev (fun t =>
      let t1 := t.pushKept c.core c.level 4 (BitVec.ofNat 64 c.tag)
      match c.successor with
      | some r => t1.postSucc c.core r oseq
      | none => t1)

/-- A copy of an old generation ends once its chunks are back (R447): it takes no seq, and its bytes no longer wait for one. -/
def State.endStale (s : State) (k : Nat) (c : Copy) : State :=
  let s1 := s.completeCopy k { c with silent := true } 0
  { s1 with landing := s1.landing.filter (fun b => !(b.2 == landKey (s1.epId c.core) c.id)) }

/-- The byte ranges of a copy at one home. -/
def Copy.rangesAt (c : Copy) (home : Nat) : List (Nat × Nat) :=
  (c.homes.filter (fun h => h.1 == home)).map (fun h => (h.2.1, h.2.2))

/-- COPY_COMPLETION (R249, R311): stamp acknowledgements are taken; then the first copy whose chunks are all
acknowledged takes its seq and sends its stamp packets, or completes. -/
def execCopyCompletion (cluster : Nat) (s : State) : Out :=
  match s.takeCluster cluster (fun p => match p.body with
    | .stampAck .. => true
    | _ => false) with
  | some (_, p, t) =>
    (match p.body with
     | .stampAck cp _ => .next (t.onCopy cluster cp (fun c => { c with stamps := c.stamps - 1 }))
     | _ => .next t)
  | none =>
    let done := fun (c : Copy) => c.flight.isEmpty && !c.reading && (c.rows.isEmpty || c.failed.isSome || c.silent)
    match (s.cluster cluster).copies.find? (fun c => done c && (c.seq.isNone || c.stamps == 0)) with
    | none => .next s
    | some c =>
      if !((s.vdevOf c.vdev).gen == c.gen) then .next (s.endStale cluster c)
      else if c.path = 0 then .next (s.completeCopy cluster c ((s.core c.core).pubOf c.vdev).lseq)
      else
        match c.seq with
        | some q =>
          let s1 := s.asDevice c.core c.vdev (fun t => t.onCore c.core (fun d =>
            { d with pub := { d.pub with engine := d.pub.engine.erase q } }))
          .next (s1.completeCopy cluster c q)
        | none =>
          let q := ((s.core c.core).pubOf c.vdev).nextSeq
          let hs := (c.homes.map (fun h => h.1)).eraseDups
          let s1 := s.asDevice c.core c.vdev (fun t => t.onCore c.core (fun d =>
            { d with pub := { d.pub with lseq := q, clk := q, engine := d.pub.engine ++ [q] } }))
          let s2 := s1.onCopy cluster c.id (fun d => { d with seq := some q, stamps := hs.length })
          .next (hs.foldl (fun t h => t.send { t.ownerPkt c.core c.vdev with
            src := t.epId c.core, dst := h, cls := 3, gen := c.gen, fkey := c.fkey, len := 64,
            body := .stampPkt c.id q (c.rangesAt h) }) s2)

end Sys2Proof.Machine
end

