-- ==== Sys2Proof/Machine/Selector.lean ====
section
/-! DEFINITION. What a core's hardware does at a boundary (R34, R35, R418, R420), and its timers: selection, deadlines,
boundary traps, ALIGN's limit, bank retention, the checkpoint timer and a new carve-out
(R37, R39, R53, R58, R59, R72, R124, R223, R301, R368). -/

namespace Sys2Proof.Machine

/-- Acts as another core's turn would: the current core is set for the act and restored. -/
def State.asCore (s : State) (ep : Nat) (f : State → State) : State := { f { s with cur := ep } with cur := s.cur }

/-! ### Selection (R34, R39, R420) -/

/-- Whether a ready record's deadline has expired before its start (R53). -/
def Ready.expired (r : Ready) (now : Nat) : Bool :=
  !(r.task.deadline == 0) && decide (r.arrived + r.task.deadline ≤ now)

/-- Whether the running frame's deadline has expired. -/
def Core.overdue (c : Core) (now : Nat) : Bool :=
  match c.run.dl with
  | some d => decide (d.expiry ≤ now)
  | none => false

/-- Whether a boundary trap of the running frame is pending (R418); a level-7 frame takes none but the kiln check
(R419). -/
def Core.boundary (c : Core) : Bool :=
  c.run.pendFault.isSome || c.run.pendStep.isSome || c.run.pendWatch.isSome || c.run.pendChk.isSome

/-- The first two conditions of R34. -/
def Core.mayStart (c : Core) (now : Nat) (r : Ready) : Bool :=
  decide (c.run.thr < r.task.prio) && (r.task.prio == 7 || !c.csr.holdm.getLsbD r.task.cls) && !r.expired now

/-- The choice of R34 among records: the highest priority, then the lowest stamp. -/
def choose (l : List Ready) : Option Ready :=
  firstBy (fun (a b : Ready) => decide (b.task.prio < a.task.prio) ||
    (a.task.prio == b.task.prio && decide (a.stamp < b.stamp))) l

/-- The record selection acts on: over the idle frame the first of the order of R34, whether or not it fits (R39), and
else the eligible one. -/
def Core.selected (c : Core) (now : Nat) : Option Ready :=
  let l := c.ready.filter (c.mayStart now)
  if c.idle then choose l else choose (l.filter (fun r => c.fits r.task.frame))

/-- Whether a boundary of a core is open for selection: its standard loads have returned (R201), and nothing that R418
puts first is due. -/
def Core.selectable (c : Core) (now : Nat) : Bool := c.loads.isEmpty && !c.overdue now && !c.boundary

/-- Removes a ready record, refilling its slot (R32). -/
def State.dropReady (s : State) (ep stamp : Nat) : State :=
  s.onCore ep (fun c => { c with ready := takeReady c.ready stamp, idleAt := s.now })

/-- The frame of a chosen record (R38, R53, R154, R330). -/
def Core.taskFrame (c : Core) (r : Ready) : Frame :=
  { c.startFrame r.task c.csr.corenxr with
    acq := some (r.task.origin, r.task.oseq), hseq := r.hseq, pasid := r.pasid, latch := r.latch,
    dl := if r.task.deadline = 0 then none
          else some { expiry := r.arrived + r.task.deadline, succ := none, solves := 0, reason := 1 } }

/-- PushFrame of R37 with the checks of R420. -/
def State.start (s : State) (ep : Nat) (r : Ready) : State :=
  let c := s.core ep
  let far := if r.place = .slot ∨ r.place = .recvq then 0 else l2Cycles
  let s1 := (s.dropReady ep r.stamp).spend ep far
  let s2 := (s1.preempt ep c.run.level).putFrame ep r.task (c.taskFrame r)
  if r.task.nxr = c.csr.corenxr then s2
  else s2.enterTrap ep 5 (BitVec.ofNat 64 r.task.origin) r.task.pc true

/-- PUSH_FRAME (R34, R35, R37, R39, R420). A record whose storage holds an uncorrectable error is consumed as it is read
(R405, R407). -/
def execPushFrame (ep : Nat) (s : State) : Out :=
  let c := s.core ep
  if s.stopped ep || c.carving || !c.selectable s.now then .next s
  else
    match c.selected s.now with
    | none => .next s
    | some r =>
      if r.task.bad then .next (s.machineCheck ep 2 0x40 0 0 r.task.pc.toNat)
      else
      let q := if c.fits r.task.frame then
          (if r.task.nxr = c.csr.corenxr then (true, s) else s.trapReady ep 5)
        else s.trapReady ep 15
      -- the entry of the trap that the start takes is on its way to its home slice
      if !q.1 then .next (q.2.spend ep 1)
      else if c.fits r.task.frame then .next (q.2.start ep r)
      else
        let s1 := q.2.dropReady ep r.stamp
        let s2 := if r.latch then s1.freeLatch ep else s1
        .next (s2.enterTrap ep 15 r.task.pc c.run.pc true)

/-! ### Boundary traps (R418, R419) -/

/-- A pending boundary trap is taken (R418): it is no longer pending once its handler's frame stands over the frame. -/
def State.boundaryTrap (s : State) (ep cause : Nat) (tval : Word) (done : Frame → Frame) : State :=
  let f := (s.core ep).run
  let r := s.trapReady ep cause
  if r.1 then (r.2.onCore ep (fun d => { d with run := done d.run })).enterTrap ep cause tval f.lastPc true
  else r.2.trapWait ep

/-- BOUNDARY_TRAP (R418): one pending trap, in the order step, watchpoint, kiln-check; before them the late access fault of
R124 (log entry 48). -/
def execBoundaryTrap (ep : Nat) (s : State) : Out :=
  let c := s.core ep
  if s.stopped ep || !c.loads.isEmpty || c.overdue s.now then .next s
  else
    match c.run.pendFault, c.run.pendStep, c.run.pendWatch, c.run.pendChk with
    | some v, _, _, _ => .next (s.boundaryTrap ep 8 v (fun f => { f with pendFault := none }))
    | none, some v, _, _ => .next (s.boundaryTrap ep 23 v (fun f => { f with pendStep := none }))
    | none, none, some v, _ => .next (s.boundaryTrap ep 22 v (fun f => { f with pendWatch := none }))
    | none, none, none, some v => .next (s.boundaryTrap ep 20 v (fun f => { f with pendChk := none }))
    | none, none, none, none => .next s

/-! ### Deadlines (R53, R223, R301) -/

/-- The deadline successor of a frame, with the arguments of R223. -/
def Deadline.successor (d : Deadline) : Option TaskRec :=
  d.succ.map (fun r => { r with a0 := BitVec.ofNat 64 d.reason, a1 := BitVec.ofNat 64 d.solves })

/-- The deadline of a frame as the task ends: one that has passed while a trap frame ran over it ends the task with reason
1, whatever became of its commands (R235). -/
def Frame.passedDeadline (f : Frame) : Option Deadline :=
  f.dl.map (fun d => if d.passed then { d with reason := 1 } else d)

/-- Ends the running task at its deadline: its kiln commands are dealt with, and once none is left the frame pops and
the successor is posted. -/
def State.expire (s : State) (ep : Nat) : State :=
  let lvl := (s.core ep).run.level
  let s1 := s.expireKiln ep lvl
  if s1.kilnBusy ep lvl then s1
  else
    match (s1.core ep).run.passedDeadline with
    | none => s1
    | some d =>
      let oseq := (s1.core ep).pub.lseq
      match d.successor with
      -- posted with the pop (R399), which frees the reservation: the post frees none
      | some r => (s1.hwPost ep (s1.succRec ep r oseq) .spill false false).popFrame ep
      | none => s1.popFrame ep

/-- DEADLINE_EXPIRY (R53, R418): the running task's deadline, at a boundary with no load outstanding; else an expired
record that has not started is discarded. -/
def execDeadlineExpiry (ep : Nat) (s : State) : Out :=
  let c := s.core ep
  if !s.stopped ep && c.loads.isEmpty && c.overdue s.now then .next (s.expire ep)
  else
    match c.ready.find? (fun r => r.expired s.now) with
    | some r =>
      let s1 := s.dropReady ep r.stamp
      .next (if r.latch then s1.freeLatch ep else s1)
    | none => .next s

/-! ### Timers -/

/-- ALIGN_TIMEOUT (R58, R230): an ALIGN that has waited 255 cycles retires in the 256th. -/
def execAlignTimeout (ep : Nat) (s : State) : Out :=
  match (s.core ep).alignAt with
  | none => .next s
  | some t =>
    if s.stopped ep || !s.passed ep t 255 then .next s
    else .next (s.asCore ep (fun u => (u.onMe (fun c => { c with alignN := c.alignN + 1 })).retire 1))

/-- BANK_RETENTION (R72). -/
def execBankRetention (ep bank : Nat) (s : State) : Out :=
  let c := s.core ep
  if h : bank < 4 then
    .next (if c.bankAt[bank] + 32 ≤ s.now then
      s.setCore ep { c with bankRet := c.bankRet ||| BitVec.ofNat 4 (2 ^ bank) } else s)
  else .next s

/-- CHECKPOINT_TIMER (R368). -/
def execCheckpointTimer (ep : Nat) (s : State) : Out :=
  match (s.core ep).ck with
  | none => .next s
  | some k =>
    if s.passed ep k.takenAt (s.core ep).csr.cki then .next (s.ckCycle ep) else .next s

/-- Takes back windows lent to neighbours until no more than n are (R45, R124). -/
def State.revokeTo (s : State) (ep n : Nat) : Nat → State
  | 0 => s
  | fuel + 1 => if s.lentBy ep ≤ n then s else State.revokeTo (s.revokeOne ep) ep n fuel

/-- CARVE_OUT_APPLY (R124): over the idle frame only; the release of step 1 comes first and its records must all be
acknowledged. A release that R142 refuses raises its trap (R432, log entry 46). -/
def execCarveOutApply (ep : Nat) (s : State) : Out :=
  let c := s.core ep
  match c.carveNew with
  | none => .next s
  | some w =>
    if !c.idle || s.stopped ep then .next s
    else if c.pub.exhausted then .next (s.takeTrap ep 24 (BitVec.ofNat 64 c.pub.lseq) c.run.pc true)
    else if c.pub.log.any (fun r => r.owner == .free) then .next ((s.release ep).checkpoint ep)
    else if !c.pub.log.isEmpty then .next s
    else
      let old := c.carve.spadSize
      let s1 := s.onCore ep (fun d => { d with l1 := [], notes := [] })
      let s2 := s1.revokeTo ep (16 * w.win) (s1.lentBy ep)
      let s3 := s2.spadWrite ep old (List.replicate (w.spadSize - old) 0)
      .next (s3.onCore ep (fun d => { d with carve := w, carveNew := none, run := { d.run with base := w.spadSize } }))

/-- ONE_RESULT_FILL (R59): the elected result fills one follower's destination. -/
def execOneResultFill (cluster : Nat) (s : State) : Out :=
  let k := s.cluster cluster
  match takeFirst (fun (o : OneInst) => o.result.isSome &&
    o.follow.any (fun e => (s.core e.1).runs o.vdev)) k.ones with
  | none => .next s
  | some (o, _) =>
    match takeFirst (fun (e : Nat × Nat × BitVec 5) => (s.core e.1).runs o.vdev) o.follow with
    | none => .next s
    | some (e, rest) =>
      .next ((s.onCluster cluster (fun c => { c with ones := c.ones.map (fun q =>
        if q == o then { q with follow := rest } else q) })).fillOne o e)

end Sys2Proof.Machine
end

