-- ==== Sys2Proof/Machine/Life.lean ====
section
/-! DEFINITION. The life of a virtual device (R91, R124, R348, R352 to R359, R370 to R372, R424, R441 to R448): context
blocks, launch, rollback, the world switch, reset, teardown and the containment of a saggar. -/

namespace Sys2Proof.Machine

/-! ### Context blocks (R91, R354, log entry 11) -/

/-- Writes a whole block of a core and a device: the context block of R91 with its scratchpad image, and the images of
R354, under the device's memory key. -/
def State.saveBlock (s : State) (v ep : Nat) (x : Ctx) (img : List Byte) : State :=
  let b := s.ctxBlock v ep
  let p := s.spillBlock v ep
  let s1 := s.writeCtx v ep (b + 0x240) (List.replicate 2048 0)
  let s2 := s1.writeCtx v ep (b + 0xA80) (padTo 256 (((s.cluster (clusterOf ep)).copies.filter (fun c =>
    c.core == ep && c.vdev == v)).flatMap Copy.progress))
  let s3 := s2.writeCtx v ep (b + 0xBC0) ((List.range 64).map (fun r => BitVec.ofNat 8 (tget x.ceil r 0)))
  let s4 := s3.writeCtx v ep (b + 0xC00) (padTo 1024 (leBytes 8 (teamstg x.stgEn x.stgMask)))
  let s5 := (List.range 8).foldl (fun (t : State) l =>
    t.writeCtx v ep (b + 0x1000 + 0x1800 * l) (padTo 0x1800 (tget x.sets l KSet.reset).bytes)) s4
  let s6 := s5.writeCtx v ep (b + 0xD000) (List.replicate 0x3000 0)
  let s7 := s6.writeCtx v ep (b + 0x10000) img
  let s8 := s7.writeCtx v ep p (List.replicate 0x4000 0)
  let s9 := s8.writeCtx v ep (p + 0x5000) (List.replicate 0x1C00 0)
  let cnts := (List.range 8).flatMap (fun i => leBytes 8 (tget s.lcnt (8 * (ep % 65536) + i) 0).toNat)
  (((s9.writeCtx v ep (p + 0x7000) cnts).clearWhole b (0x10000 + img.length)).clearWhole p 0x8000).saveLive v ep x

/-- The fields of EVSEL, EVCNT and EVOVF, and those of LSEL and LCNT (R379, R381): the others read as zero whatever a block
holds (R6). -/
def selBits (n : Nat) : Word := BitVec.ofNat 64 (n % 2 ^ 16)
def cntBits (n : Nat) : Word := BitVec.ofNat 64 (n % 2 ^ 48)
def ovfBits (n : Nat) : Word := BitVec.ofNat 64 (bitsOf n 56 8 * 2 ^ 56 + bitsOf n 6 42 * 2 ^ 6 + n % 2)

/-- The context as it comes back: what the spec places in memory byte by byte is read there (log entry 11), under the
device's memory key (R354). -/
def State.readBlock (s : State) (v ep : Nat) (x : Ctx) : Ctx :=
  let b := s.ctxBlock v ep
  let p := s.spillBlock v ep
  let key := s.descMkey ep v
  let inCtx := fun (o n : Nat) => s.readKeyedFrom o key (b + o) n
  let inSpill := fun (o n : Nat) => s.readKeyedFrom (0x30000 + o) key (p + o) n
  let win := fun (f : Frame) => { f with regs := Vector.ofFn (fun i =>
    if i.val = 0 then 0 else wordAt (inCtx (0x240 + 256 * f.level + 8 * i.val) 8) 0) }
  let rec' := fun (o i : Nat) => TaskRec.ofBytes (inSpill (o + 64 * i) 64)
  let l1 := reread (rec' 0) (fun r => !(r.place == .slot) && !(r.place == .recvq)) 0 x.ready
  let l2 := reread (rec' 0x5000) (fun r => r.place == .slot) 0 l1
  let st := leNat (inCtx 0xC00 8)
  { x with
    run := win x.run, under := x.under.map win,
    ready := reread (rec' 0x6000) (fun r => r.place == .recvq) 0 l2,
    inj := (List.range x.inj.length).map (rec' 0x6800),
    evs := { sel := Vector.ofFn (fun i => selBits (leNat (inCtx (0xA40 + 8 * i.val) 8))),
             cnt := Vector.ofFn (fun i => cntBits (leNat (inCtx (0xA60 + 8 * i.val) 8))),
             ovf := ovfBits (leNat (inSpill 0x7040 8)), due := x.evs.due },
    pub := { x.pub with clk := leNat (inCtx 0xB80 6), lseq := leNat (inCtx 0xB88 6) },
    ceil := (List.range 64).foldl (fun t r => tput t r (leNat (inCtx (0xBC0 + r) 1) % 8) 0) [],
    stgEn := bitOf st 8, stgMask := BitVec.ofNat 8 st }

/-- Slice counters saved beside the context (R381). -/
def State.loadSliceCounters (s : State) (v ep : Nat) : State :=
  let w := fun (i : Nat) =>
    leNat (s.readKeyedFrom (0x37000 + 8 * i) (s.descMkey ep v) (s.spillBlock v ep + 0x7000 + 8 * i) 8)
  { s with lcnt := (List.range 8).foldl (fun t i =>
      tput t (8 * (ep % 65536) + i) (if i < 4 then selBits (w i) else cntBits (w i)) 0) s.lcnt }

/-! ### Cores of a device -/

/-- The cores of a device's saggars, in slot order (R354). -/
def State.deviceCores (s : State) (v : Nat) : List Nat :=
  (s.slots v).flatMap (fun c => (List.range 8).map (fun k => epAt c.1 c.2 k))

/-- The cores and clusters of a saggar (R358). -/
def State.sagClusters (s : State) (k : Nat) : List Nat :=
  let r := (s.sag k).rect
  (List.range (rectHeight r)).flatMap (fun i => (List.range (rectWidth r)).map (fun j =>
    clusterOf (epAt (rectCol r + j) (rectRow r + i) 0)))

def State.sagCores (s : State) (k : Nat) : List Nat :=
  (s.sagClusters k).flatMap (fun c => (List.range 8).map (fun i => 8 * c + i))

/-- What of a core belongs to the endpoint, not to a device (R82, R89, R372, R402, R424, R430): everything else is as at
reset, and the core runs no device. -/
def Core.bare (c : Core) (ep : Nat) : Core :=
  { Core.reset ep with
    csr := { (Core.reset ep).csr with ceilsel := c.csr.ceilsel, sgsel := c.csr.sgsel, bksel := c.csr.bksel,
                                      gbsel := c.csr.gbsel },
    stampN := c.stampN, pseq := c.pseq, dbg := c.dbg, queries := c.queries, kseq := c.kseq, tag := c.tag,
    instret := c.instret, nextFid := c.nextFid, nextId := c.nextId, upset := c.upset, utlb := c.utlb, orphans := c.orphans,
    bankAt := c.bankAt, bankRet := c.bankRet, saved := c.saved }

/-- Tasks whose deadline passed while their device was switched out (R371 step 5): their solve commands go, and the
reason they end with is the deadline itself. -/
def State.lateTasks (s : State) (ep : Nat) : State :=
  let late := fun (f : Frame) => f.dl.any (fun d => decide (d.expiry ≤ s.now))
  let g := fun (f : Frame) => if late f then { f with dl := f.dl.map (fun d => { d with reason := 1 }) } else f
  let c := s.core ep
  (((c.run :: c.under).filter late).foldl (fun t f => t.expireKiln ep f.level) s).onCore ep (fun d =>
    { d with run := g d.run, under := d.under.map g })

/-- Loads a device into a core with a context (R355, R371): the descriptor's copies, the context, the scratchpad. The core
then stands at a checkpoint, so that the journal and its timer run on (R368, R369). The reads meet the errors of DRAM (R405),
and a poisoned word of the context block or of its record images is consumed by its restore (R407). -/
def State.loadCore (s0 : State) (v ep : Nat) (x : Ctx) : State :=
  let who := v + 64 * (s0.vdevOf v).gen
  let s := (s0.scanEcc (s0.ctxBlock v ep) (0x10000 + x.carve.spadSize) who).scanEcc (s0.spillBlock v ep) 0x8000 who
  let c := (s.core ep).bare ep
  let d := s.descWord v 7
  let y := s.readBlock v ep x
  let c1 := { c with
    on := true, vdev := v, gen := (s.vdevOf v).gen, desc := s.descCopy v, mkey := bitsOf d 0 10, fkey := s.descFkey v,
    csr := s.descCsrs v c.csr,
    idleAt := s.now }
  let c2 := { c1.ofCtx y with saved := tdel c.saved v }
  let s1 := s.setCore ep c2
  let img := s.readKeyedFrom 0x10000 (s1.descMkey ep v) (s.ctxBlock v ep + 0x10000) y.carve.spadSize
  let s2 := ((s1.spadWrite ep 0 img).movePoison (s.ctxBlock v ep + 0x10000) (arrayBase ep) y.carve.spadSize).loadSliceCounters v ep
  let s3 := ({ s2 with fresh := s2.fresh + 0x40000 }.lateTasks ep).checkpoint ep
  match s.poisonWords (s.ctxBlock v ep) (0x10000 + y.carve.spadSize) ++ s.poisonWords (s.spillBlock v ep) 0x8000 with
  | [] => s3
  | a :: _ => s3.machineCheck ep 2 0x40 a 0 0

/-- A kiln whose lease ends otherwise than by its firing: its next grant waits as after any firing (R377). -/
def State.dropLease (s : State) (q : Nat) : State :=
  s.onKiln q (fun k => match k.lease with
    | some l => { k with lease := none, lastHolder := l.core, nextGrant := s.after (4 * q) (1 + 4 * s.nm.gap) }
    | none => k)

/-- A core stops running a device; its kiln commands, their tile locks and its lease are gone. -/
def State.unloadCore (s : State) (ep : Nat) : State :=
  let mine := (s.kiln (quadOf ep)).flight.filter (fun f => f.core == ep)
  let s1 := ((s.onCluster (clusterOf ep) (fun d => { d with locks := d.locks.filter (fun l =>
    !mine.any (fun f => l.owner == matOwner ep f.cmd.kseq)) })).onCore ep (fun c => c.bare ep)).onKiln (quadOf ep) (fun k =>
    { k with flight := k.flight.filter (fun f => !(f.core == ep)) })
  if (s.kiln (quadOf ep)).lease.any (fun l => l.core == ep % 4) then s1.dropLease (quadOf ep) else s1

/-! ### Launch (R356, R357) -/

/-- The launch block of a device: SDATA, SDSIZE, and the carve-out when its word is valid (R357). -/
def State.launchBlock (s : State) (v : Nat) : Nat × Nat × Option Carve :=
  let a := 0x022300000000 + 16 * v
  let w := s.mmioWord (a + 8)
  (s.mmioWord a, bitsOf w 0 32, if bitsOf w 32 32 = 0 then some Carve.reset else Carve.ofNat (bitsOf w 32 32))

/-- Whether a reset or teardown of a device is in progress (R444). -/
def State.busy (s : State) (v : Nat) : Bool := (s.vdevOf v).resetAt.isSome || (s.vdevOf v).teardown.isSome

/-- Whether a launch is legal (R356, R357, R444). -/
def State.mayLaunch (s : State) (v : Nat) : Bool :=
  let b := s.launchBlock v
  !s.busy v && !(s.vdevOf v).launched && !(s.slots v).isEmpty && s.nm.st == 2 &&
  (match b.2.2 with
   | some c => decide (b.2.1 ≤ 256 * c.sstat) && (b.2.1 == 0 || decide (b.1 % 8 = 0))
   | none => false)

/-- An entry of the placement store (R333): valid, with a mask. -/
def placeOk (e : Nat) : Bool := bitOf e 63 && !(bitsOf e 32 8 == 0)

def State.placement (s : State) (i : Nat) : Nat := s.mmioWord (0x022000000000 + 8 * i)

/-- Entries of a device's placement window (R334): base and size, cut at the end of the store. -/
def State.placeWindow (s : State) (v : Nat) : Nat × Nat :=
  let w := s.mmioWord (0x022100000000 + 8 * v)
  (bitsOf w 0 16, min (bitsOf w 16 17) (65536 - bitsOf w 0 16))

/-- TEAMM.MASK of a core at launch (R356). -/
def State.launchTeam (s : State) (v ep : Nat) : BitVec 8 :=
  let w := s.placeWindow v
  match ((List.range w.2).map (fun i => s.placement (w.1 + i))).find? (fun e =>
      placeOk e && bitsOf e 0 6 == pkgCol ep && bitsOf e 6 5 == pkgRow ep && bitOf (bitsOf e 32 8) (coreNo ep)) with
  | some e => BitVec.ofNat 8 (bitsOf e 32 8)
  | none => BitVec.ofNat 8 (2 ^ coreNo ep)

/-- The initial context of a core (R356). -/
def State.initialCtx (s : State) (v ep : Nat) : Ctx :=
  let cv := (s.launchBlock v).2.2.getD Carve.reset
  { run := { Frame.idle cv.spadSize with vdev := v, gen := (s.vdevOf v).gen }, under := [], ready := [], inj := [], holdm := 0,
    team := s.launchTeam v ep, stgEn := false, stgMask := 0, carve := cv, carveReq := none, carveNew := none,
    corenxr := bitOf (s.descWord v 7) 54,
    ceil := (List.range 64).foldl (fun t r => tput t r (s.readNat (s.descWord v 1 + 0x940 + r) 1 % 8) 0) [],
    evs := Evs.reset, pub := Pub.reset, sets := [], dq := [], parked := [], shadows := [], alignN := 0, oneN := 0, tbarN := 0,
    spillRes := 0, reqs := [], pops := [], acqs := [], gbars := [] }

/-- The initial scratchpad image: the .sdata bytes, read under the descriptor's MKEY, then zeros (R356, R357). -/
def State.initialImage (s : State) (v : Nat) (c : Carve) : List Byte :=
  let b := s.launchBlock v
  s.readKeyed (bitsOf (s.descWord v 7) 0 10) b.1 b.2.1 ++ List.replicate (c.spadSize - b.2.1) (0 : Byte)

/-- Clears EN in every debug register that names a device (R424). -/
def State.clearDebug (s : State) (v : Nat) : State :=
  let f := fun (w : Word) => if bitsOf w.toNat 16 6 = v then w &&& ~~~(BitVec.ofNat 64 (2 ^ 22)) else w
  { s with cores := s.cores.map (fun e => (e.1, { e.2 with dbg := { e.2.dbg with
      dbm := e.2.dbg.dbm.map f, dwm := e.2.dbg.dwm.map f, stepc := f e.2.dbg.stepc } })) }

/-- Writes the initial context block of a core (R356): the slice counters' place is zero, and poison of the .sdata bytes goes
with them (R406). -/
def State.initBlock (s0 : State) (v ep : Nat) (x : Ctx) : State :=
  let b := s0.launchBlock v
  let s := s0.scanEcc b.1 b.2.1 (v + 64 * (s0.vdevOf v).gen)
  let s1 := s.saveBlock v ep x (s.initialImage v x.carve)
  let s2 := s1.writeCtx v ep (s1.spillBlock v ep + 0x7000) (List.replicate 64 (0 : Byte))
  { s2.movePoison b.1 (s2.ctxBlock v ep + 0x10000) b.2.1 with fresh := s2.fresh + b.2.1 }

/-- Whether an overflow handler that holds its slice's note latch runs or waits in a context (R148). -/
def Ctx.latched (y : Ctx) : Bool := (y.run :: y.under).any (fun f => f.latch) || y.ready.any (fun r => r.latch)

/-- The records that a publication state has stamped and that are not acknowledged, as a reset of their device leaves them
behind (R442). -/
def Pub.orphans (p : Pub) (v : Nat) : List (Nat × Nat × Nat) :=
  p.log.filterMap (fun r => match r.owner with
    | .stamped q => some (v, r.addr, q)
    | _ => none)

/-- Gives every core of a device its initial context (R356): a core that runs the device starts again from it. The
requests still outstanding keep their reservations until their replies are dropped or the scan frees them (R447), and
the note latch of an overflow handler that goes with its old context frees (R148). -/
def State.freshContexts (s : State) (v : Nat) : State :=
  (s.deviceCores v).foldl (fun (t : State) ep =>
    let c := t.core ep
    let was := if c.on && c.vdev == v then some c.toCtx else tfind c.saved v
    let x := { t.initialCtx v ep with reqs := (was.map (fun y => y.reqs)).getD [] }
    let t0 := if was.any Ctx.latched then t.freeLatch ep else t
    let t1 := (t0.initBlock v ep x).onCore ep (fun d => { d with orphans := d.orphans ++ (c.pubOf v).orphans v })
    if c.on && c.vdev == v then (t1.unloadCore ep).loadCore v ep x
    else t1.onCore ep (fun d => { d with saved := tset d.saved v x })) s

/-- A launch (R356): a new generation with initial contexts, run from its first slice. -/
def State.launchDevice (s : State) (v : Nat) : State :=
  let s1 := s.onVdev v (fun d => { d with gen := (d.gen + 1) % 1024, launched := true, vh := 0, refresh := none,
                                          refreshAt := s.now, refreshed := none })
  let s2 : State := { s1.clearDebug v with
    disps := s1.disps.map (fun e => (e.1, { e.2 with last := e.2.last.filter (fun x => !(x.1 / 65536 == v)) })) }
  s2.freshContexts v

/-- LAUNCH (R356): VDCTL command 1. An illegal launch does nothing here; the CSR write that asks for it traps. -/
def execLaunch (vdev : Nat) (s : State) : Out := .next (if s.mayLaunch (vdev % 64) then s.launchDevice (vdev % 64) else s)

/-! ### Rollback (R161, R370) -/

/-- The frame that a rollback leaves: the journaled items are the checkpoint's, the others stay (R369). A register that
was live at the checkpoint and was marked dead after it is live again with its old value: R71 speaks of the registers that
are dead as the checkpoint is taken, and this case is the model's choice (log entry 51). -/
def Frame.rollback (f k : Frame) : Frame :=
  { f with regs := k.regs, full := k.full, live := k.live, pois := k.pois, busy := 0, pc := k.pc, drt := k.drt, dr := k.dr,
           pp := k.pp, pfmt := k.pfmt, nxr := k.nxr, deadm := k.deadm, succ := k.succ, thr := k.thr, claims := k.claims,
           exempt := k.exempt }

/-- Restores a journaled sector, but for the bytes that commands of the earlier interval wrote: those keep the commands'
values (R369). -/
def State.restoreSector (s : State) (ep : Nat) (kept : Tbl Byte) (q : Nat) (bs : List Byte) : State :=
  (List.range 128).foldl (fun t i =>
    t.writeByte (arrayBase ep + 128 * q + i) ((tfind kept (128 * q + i)).getD (bs.getD i 0))) s

/-- The poison of the journaled words comes back with them; a poisoned one is consumed by its restore (R407). -/
def State.rollbackPoison (s : State) (ep : Nat) (k : Ckpt) : State :=
  let all := k.jour.flatMap (fun e => (List.range 16).map (fun i => 16 * e.1 + i))
  let s1 := all.foldl (fun (t : State) w => t.setPoison (arrayBase ep + 8 * w) (k.jpois.contains w)) s
  match all.find? (fun w => k.jpois.contains w) with
  | some w => s1.machineCheck ep 2 0x40 (arrayBase ep + 8 * w) 0 k.frame.pc.toNat
  | none => s1

/-- The log at a checkpoint (R161), with a record that stayed open over it as it stood then (R206). -/
def Ckpt.logAt (k : Ckpt) (log : List LogRec) : List LogRec :=
  let kept := log.take (log.length - k.logNew)
  match k.openRec, kept.getLast? with
  | some r, some l => kept.dropLast ++ [{ r with spilled := l.spilled }]
  | _, _ => kept

/-- Rolls a core back to its checkpoint (R370), once its queued kiln commands have completed. -/
def State.rollback (s : State) (ep : Nat) : State :=
  match (s.core ep).ck with
  | none => s.onCore ep (fun c => { c with l1 := [], notes := [], stalled := none, alignAt := none, got := [] })
  | some k =>
    let s1 := k.jour.foldl (fun t e => t.restoreSector ep k.kept e.1 e.2) s
    let c0 := s.core ep
    let s2 := (s1.rollbackPoison ep k).onCluster (clusterOf ep) (fun d => { d with ones := d.ones.map (fun o =>
      if o.vdev == c0.vdev && o.team == c0.csr.team && decide (k.oneN < o.count) then
        { o with passed := o.passed &&& ~~~(BitVec.ofNat 8 (2 ^ coreNo ep)),
                 follow := o.follow.filter (fun e => !(e.1 == ep)) }
      else o) })
    s2.onCore ep (fun c =>
      let run := c.run.rollback k.frame
      { c with
        run := run, csr := { c.csr with holdm := k.holdm }, shadows := k.shadows, alignN := k.alignN, oneN := k.oneN,
        pub := { c.pub with log := k.logAt c.pub.log, opened := k.openRec.isSome },
        l1 := [], notes := [],
        sets := match k.kset with
          | some q => tset c.sets k.frame.level q
          | none => c.sets,
        pops := c.pops.filter (fun p => !(p.fid == run.fid) || !run.isFull p.rd),
        stalled := none, alignAt := none, got := [], ck := none })

/-! ### The world switch (R348, R371) -/

/-- The slice length of a device in a saggar with its credit (R348). -/
def Saggar.sliceLen (g : Saggar) (v : Nat) : Nat := 1024 * tget g.weight v 0 + tget g.credit v 0

/-- The next device of the rotation after the one that had the last slice (R348). -/
def State.nextDevice (s : State) (k : Nat) : Option Nat :=
  let g := s.sag k
  ((List.range 64).map (fun i => (g.turn + i) % 64)).find? (fun v => !(tget g.weight v 0 == 0) && (s.vdevOf v).launched)

/-- Starts a slice: its length is fixed and the credit cleared (R348). -/
def State.beginSlice (s : State) (k v : Nat) : State :=
  s.onSag k (fun g => { g with running := some v, turn := v + 1, sliceEnd := s.now + g.sliceLen v, sliceStart := s.now,
                               credit := tdel g.credit v, switching := false })

/-- Loads a device into every core of a saggar, with its clusters' permission tables (R359), and resumes its copies. -/
def State.enterDevice (s : State) (k v : Nat) : State :=
  let s1 := (s.sagCores k).foldl (fun (t : State) ep =>
    match tfind (t.core ep).saved v with
    | some x => t.loadCore v ep x
    | none => t.loadCore v ep (t.initialCtx v ep)) s
  (s.sagClusters k).foldl (fun (t : State) c => t.onCluster c (fun d => { d with
    perm := (List.range 16).map (fun i => BitVec.ofNat 64 (t.readNat (t.descWord v 1 + 0x2C0 + 8 * i) 8)),
    copies := d.copies.map (fun p => if p.vdev = v then { p with paused := false, srcs := [] } else p) })) s1

/-- Whether a saggar's cores still have something that the switch waits for (R371 steps 2 to 4): chunks in flight, kiln
commands, standard loads, stamped records not yet sent. -/
def State.settling (s : State) (k : Nat) : Bool :=
  (s.sagClusters k).any (fun c => (s.cluster c).copies.any (fun p => !p.flight.isEmpty || p.reading)) ||
  (s.sagCores k).any (fun ep =>
    !(s.core ep).dq.isEmpty || (s.kiln (quadOf ep)).flight.any (fun f => f.core == ep) || !(s.core ep).loads.isEmpty ||
    s.egress.any (fun p => p.src == s.epId ep && !p.numbered && (match p.body with
      | .rcd _ => true
      | _ => false)))

/-- Saves one core to its device (R371 steps 3 and 4): rolled back, its unstamped records moved to the log extension. -/
def State.saveCore (s : State) (ep : Nat) : State :=
  let s1 := s.rollback ep
  let c := s1.core ep
  if !c.on then s1
  else
    let x := { c.toCtx with pub := { c.pub with log := c.pub.log.map (fun r => match r.owner with
      | .stamped _ => r
      | .acked => r
      | _ => { r with spilled := true }) } }
    let s2 := (s1.writeExt c.vdev ep (c.pub.extAt + c.pub.inExt) (c.pub.log.filter (fun r => !r.spilled && (match r.owner with
      | .stamped _ => false
      | .acked => false
      | _ => true)))).saveBlock c.vdev ep x (s1.spadBytes ep 0 c.carve.spadSize)
    ((s2.movePoison (arrayBase ep) (s2.ctxBlock c.vdev ep + 0x10000) c.carve.spadSize).onCore ep (fun d =>
      { d with saved := tset d.saved c.vdev x })).unloadCore ep

/-- The switch of a saggar to another device, or to none, once everything has settled. -/
def State.switchTo (s : State) (k : Nat) (next : Option Nat) : State :=
  let s1 := (s.sagCores k).foldl (fun (t : State) ep => t.saveCore ep) s
  match next with
  | some v => (s1.enterDevice k v).beginSlice k v
  | none => s1.onSag k (fun g => { g with running := none, switching := false })

/-- The same device goes on where the other one of the rotation has left it while the switch was under way: no world switch
takes place (R348). -/
def State.resume (s : State) (k v : Nat) : State :=
  ((s.sagClusters k).foldl (fun (t : State) c => t.onCluster c (fun d => { d with
    copies := d.copies.map (fun p => if p.vdev = v then { p with paused := false } else p) })) s).beginSlice k v

/-- Ends a slice (R348, R371): with one device in the rotation the next slice follows at once; else the cores stop and
copies pause, and the switch takes place when everything has settled. -/
def State.endSlice (s : State) (k : Nat) : State :=
  let g := s.sag k
  if g.switching then
    (match s.nextDevice k with
     | some v => if g.running = some v then s.resume k v else if s.settling k then s else s.switchTo k (some v)
     | none => if s.settling k then s else s.switchTo k none)
  else
    match s.nextDevice k with
    | none => if g.running.isNone then s else s.onSag k (fun h => { h with switching := true })
    | some v =>
      if g.running = some v then s.beginSlice k v
      else
        (s.sagClusters k).foldl (fun (t : State) c => t.onCluster c (fun d => { d with
          copies := d.copies.map (fun p => { p with paused := true }) }))
          (s.onSag k (fun h => { h with switching := true }))

/-- SLICE_END (R348, R371). -/
def execSliceEnd (sag : Nat) (s : State) : Out :=
  let g := s.sag sag
  if !g.en || g.hit.isSome then .next s
  else if g.switching || g.running.isNone || decide (g.sliceEnd ≤ s.now) then .next (s.endSlice sag)
  else .next s

/-- The cycle since which no core of a saggar has held a ready record or a frame above its idle frame, if none does. -/
def State.idleSince (s : State) (k : Nat) : Option Nat :=
  if (s.sagCores k).all (fun ep => (s.core ep).idle && (s.core ep).ready.isEmpty) then
    some ((s.sagCores k).foldl (fun m ep => max m (s.core ep).idleAt) (s.sag k).sliceStart)
  else none

/-- SLICE_EARLY_END (R348): 4,096 idle cycles end the slice, and its unused cycles become credit. -/
def execSliceEarlyEnd (sag : Nat) (s : State) : Out :=
  let g := s.sag sag
  match g.running, s.idleSince sag with
  | some v, some t =>
    if g.en && g.hit.isNone && !g.switching && decide (t + 4096 ≤ s.now) && decide (s.now < g.sliceEnd) then
      let cap := 1024 * tget g.weight v 0
      .next ((s.onSag sag (fun h => { h with
        credit := tput h.credit v (min cap (tget h.credit v 0 + (g.sliceEnd - s.now))) 0, sliceEnd := s.now })).endSlice sag)
    else .next s
  | _, _ => .next s

/-! ### Reset and teardown (R445 to R448) -/

/-- The open arrivals of a device at gang barriers on some cores send ABORT (R446), under its own key (R323). -/
def State.abortArrivals (s : State) (v : Nat) (eps : List Nat) : State :=
  eps.foldl (fun (t : State) ep =>
    t.asDevice ep v (fun w => ((w.core ep).gbars.filter (fun g => g.opened)).foldl (fun u g => u.gbarAbort ep g) w)) s

/-- Ends a device's collectives (R446): its open arrivals at gang barriers send ABORT, its team arrivals and ONE
instances go. -/
def State.endCollectives (s : State) (v : Nat) : State :=
  let s1 := s.abortArrivals v (s.coresOf v)
  { s1 with clusters := s1.clusters.map (fun e => (e.1, { e.2 with
      arr := e.2.arr.filter (fun a => !(a.vdev == v)), ones := e.2.ones.filter (fun o => !(o.vdev == v)) })) }

/-- Starts a reset of a device (R445, R446). -/
def State.resetDevice (s : State) (v : Nat) : State :=
  let s1 := s.endCollectives v
  let s2 := s1.onVdev v (fun d => { d with gen := (d.gen + 1) % 1024, resetAt := some s.now, vh := 0, refresh := none,
                                           refreshed := none, again := false })
  let s3 : State := { s2.clearDebug v with
    asks := s2.asks.filter (fun a => !(a.vdev == v)),
    disps := s2.disps.map (fun e => (e.1, { e.2 with queue := e.2.queue.filter (fun q => !(q.vdev == v)) })),
    kilns := s2.kilns.map (fun e => (e.1, { e.2 with frames := e.2.frames.filter (fun f => !(f.vdev == v)) })) }
  s3.freshContexts v

/-- The part starts a reset of a device by itself (R438, R441): at once, or, where one is in progress, when that has
completed. -/
def State.startReset (s : State) (v : Nat) : State :=
  if !(s.vdevOf v).launched then s
  else if s.busy v then s.onVdev v (fun d => { d with again := true })
  else s.resetDevice v

/-- RESET (R445): VDCTL command 2; legal for a launched device with no reset or teardown in progress (R444). -/
def execReset (vdev : Nat) (s : State) : Out :=
  let v := vdev % 64
  .next (if (s.vdevOf v).launched && !s.busy v then s.resetDevice v else s)

/-- The scan of R447: reservations of an old generation are freed, with the copies that still hold landing bytes. -/
def State.scanDevice (s : State) (v : Nat) : State :=
  let g := (s.vdevOf v).gen
  let keep := fun (r : Req) => !(r.vdev == v && !(r.gen == g))
  let dead := s.clusters.flatMap (fun e => (e.2.copies.filter (fun c => c.vdev == v && !(c.gen == g))).map (fun c => (e.1, c.id)))
  { s with
    cores := s.cores.map (fun e => (e.1, { e.2 with
      orphans := e.2.orphans.filter (fun o => !(o.1 == v)), reqs := e.2.reqs.filter keep, saved := e.2.saved.map (fun x => (x.1, { x.2 with reqs := x.2.reqs.filter keep })) })),
    clusters := s.clusters.map (fun e => (e.1, { e.2 with
      copies := e.2.copies.filter (fun c => !dead.contains (e.1, c.id)),
      locks := e.2.locks.filter (fun l => !dead.any (fun d => d.1 == e.1 && l.owner == 2 * d.2)) })),
    landing := s.landing.filter (fun b => !dead.any (fun d => landKey (s.epId (8 * d.1)) d.2 == b.2)) }

/-- A teardown completes (R448): a second scan, and the device is no longer launched. -/
def State.endTeardown (s : State) (v : Nat) : State :=
  let s1 := s.scanDevice v
  let s2 := (s1.coresOf v).foldl (fun (t : State) ep =>
    let c := t.core ep
    let was := if c.runs v then some c.toCtx else tfind c.saved v
    let t0 := if was.any Ctx.latched then t.freeLatch ep else t
    let t1 := if c.runs v then t0.unloadCore ep else t0
    t1.onCore ep (fun c => { c with saved := tdel c.saved v })) s1
  { s2.onVdev v (fun d => { d with launched := false, teardown := none }) with
    sags := s2.sags.map (fun e => (e.1, if e.2.running = some v then { e.2 with running := none } else e.2)) }

/-- The quiet handshake begins (R448): queued egress packets of the device go, their numbers to be skipped (R461), and each
sluice sends a marker to each peer, one for each chip (log entry 78), to which it has sent the device's packets; with none,
the teardown is complete. -/
def State.beginQuiet (s : State) (v : Nat) : State :=
  let peers := (s.sluices.filter (fun e => e.2.up)).flatMap (fun e =>
    (e.2.sentFor.filter (fun p => p.1 == v)).map (fun p => e.1 + 32 * p.2))
  let marker := fun (q : Nat) => { s.ownerPkt 0 v with
    dst := q / 32 * 65536, cls := 6, fkey := 0, len := 8, body := .quiet q v, numbered := true, key := tget s.fkeys 0 0 }
  let s1 : State := { s with sluices := s.sluices.map (fun e => (e.1, { e.2 with
    queue := e.2.queue.filter (fun p => !(p.vdev == v)) ++ (peers.filter (fun q => q % 32 == e.1)).map marker })) }
  let gone := s.sluices.flatMap (fun e => e.2.queue.filter (fun p => p.vdev == v))
  let s2 := (gone.foldl (fun (t : State) p => t.skip p.src p.dst p.sseq) s1).onVdev v (fun d => { d with teardown := some peers })
  if peers.isEmpty then s2.endTeardown v else s2

/-- RESET_SCAN (R447): 2^17 cycles after a reset began; a teardown goes on to its handshake. -/
def execResetScan (vdev : Nat) (s : State) : Out :=
  match (s.vdevOf vdev).resetAt with
  | none => .next s
  | some t =>
    if s.now < t + 2 ^ 17 then .next s
    else
      let s1 := (s.scanDevice vdev).onVdev vdev (fun d => { d with resetAt := none })
      .next (match (s1.vdevOf vdev).teardown with
        | some _ => s1.beginQuiet vdev
        | none => if (s1.vdevOf vdev).again then s1.resetDevice vdev else s1)

/-- A teardown starts with a reset (R448). -/
def State.teardownDevice (s : State) (v : Nat) : State :=
  (s.resetDevice v).onVdev v (fun d => { d with teardown := some [], downAt := s.now })

/-- TEARDOWN (R448): VDCTL command 3. -/
def execTeardown (vdev : Nat) (s : State) : Out :=
  let v := vdev % 64
  .next (if (s.vdevOf v).launched && !s.busy v then s.teardownDevice v else s)

/-- QUIET_HANDSHAKE_TIMEOUT (R448): 2^20 cycles after the command. -/
def execQuietHandshakeTimeout (vdev : Nat) (s : State) : Out :=
  let d := s.vdevOf vdev
  match d.teardown with
  | none => .next s
  | some _ =>
    if d.resetAt.isSome || decide (s.now < d.downAt + 2 ^ 20) then .next s
    else .next ((s.report { cls := 0, src := 7, code := 0x64, unit := 0, addr := 0, owner := vdev + 64 * d.gen, hseq := 0,
                            pc := 0, detail := 0 }).endTeardown vdev)

/-! ### Containment (R441 to R443) -/

/-- Steps 1 to 4 of R441 begin: the fence rises, copies fall silent, those that an abandoned switch had paused too (R442), unstamped records go, and a span whose post's
status is pending is streamed. -/
def State.raiseFence (s : State) (k : Nat) : State :=
  let s1 := s.onSag k (fun g => { g with fenced := true, switching := false })
  let s2 := (s.sagClusters k).foldl (fun (t : State) c => t.onCluster c (fun d => { d with
    copies := d.copies.map (fun p =>
      if p.paused && !((s.sag k).running == some p.vdev) then p else { p with silent := true, paused := false }) })) s1
  (s.sagCores k).foldl (fun (t : State) ep =>
    let acts := (t.core ep).pub.acts
    let t1 := acts.foldl (fun (u : State) a => match a with
      | .post i q _ => u.stampOwner ep (.act i) q
      | .rel _ _ => u) t
    t1.onCore ep (fun c => { c with pub := { c.pub with
      acts := [], opened := false,
      log := c.pub.log.filter (fun r => match r.owner with
        | .stamped _ => true
        | .acked => true
        | _ => false) } })) s2

/-- A request that reaches a core's array or its ready set: delivered before the fence rose, it is answered as usual (R436). -/
def Pkt.toCore (p : Pkt) : Bool := refusable p && needsCore p && (match p.body with
  | .query .. => false
  | .bar .. => false
  | .abort _ => false
  | _ => true)

/-- What a core of a device awaits: a reply, or a barrier notice. Those of a cleared core are dropped (R441). -/
def Pkt.forCore (p : Pkt) : Bool :=
  match p.body with
  | .fillRep .. => true
  | .spadRep .. => true
  | .ldrRep .. => true
  | .atomRep .. => true
  | .postRep .. => true
  | .answer .. => true
  | .nack .. => true
  | .chunkAck .. => true
  | .chunkData .. => true
  | .bar .. => true
  | .abort _ => true
  | _ => false

/-- Whether the steps of R441 may go on: what was delivered before the fence is answered, every copy of the saggar that was
running has completed, every stamped record is acknowledged. -/
def State.quiescent (s : State) (k : Nat) : Bool :=
  (s.sagCores k).all (fun ep => (s.core ep).carving || !(tget s.inbox ep []).any Pkt.toCore) &&
  (s.sagClusters k).all (fun c => (s.cluster c).copies.all (fun p => p.paused)) &&
  (s.sagCores k).all (fun ep => (s.core ep).pub.log.isEmpty && (s.core ep).pub.engine.isEmpty)

/-- Answers the acquire queries that a core holds for a device (R442): every record it stamped is acknowledged. -/
def State.answerAll (s : State) (ep v : Nat) : State :=
  let qs := (s.core ep).queries.filter (fun q => q.vdev == v)
  qs.foldl (fun (t : State) q => t.send { t.ownerPkt ep q.vdev with
      src := t.epId ep, dst := q.src, cls := 1, fkey := q.fkey, len := 16, body := .answer q.id q.target })
    (s.onCore ep (fun c => { c with queries := c.queries.filter (fun q => !(q.vdev == v)) }))

/-- Directory-overflow sharers kept in a contained core are lost (R443): each overflow line of its slice is invalidated at
every core of its owner's saggars, and its directory and latch are cleared. The acknowledgements that waited for the handler
wait for all these invalidations instead. -/
def State.loseOverflow (s : State) (ep : Nat) : State :=
  let ls := s.l2.filter (fun l => l.slice == ep && l.ovf)
  let all := ls.flatMap (fun l => (s.deviceCores l.owner).map (fun e => (l, s.epId e)))
  let held := s.ackw.filter (fun a => a.slice == ep && a.handler)
  -- one invalidation for each acknowledgement held, so that each counts its own
  let s1 := all.foldl (fun (t : State) e =>
    match held with
    | [] => t.tell ep (t.ownerPkt ep e.1.owner) [e.2] (.inval e.1.line 0)
    | _ => held.foldl (fun (u : State) a => u.tell ep (u.ownerPkt ep e.1.owner) [e.2] (.inval e.1.line a.lock)) t) s
  ({ s1 with
    ackw := s1.ackw.map (fun (a : Ackw) =>
      if a.slice == ep && a.handler then { a with handler := false, left := a.left + all.length } else a),
    l2 := s1.l2.map (fun l => if l.slice == ep && l.ovf then { l with ovf := false, sharers := [] } else l) } :
    State).freeLatch ep

/-- Step 5 of R441: a core, its array and its queues are cleared, with the replies to the device that has reached it; what
waits for its slice, and for devices that are switched out, stays (R440). -/
def State.clearCore (s : State) (ep v : Nat) : State :=
  let s1 := (s.answerAll ep v).loseOverflow ep
  let s2 := s1.unloadCore ep
  { s2.spadWrite ep 0 (List.replicate 131072 (0 : Byte)) with
    inbox := tset s2.inbox ep ((tget s2.inbox ep []).filter (fun p => !(p.vdev == v && p.forCore))) }

/-- A kiln whose commands, frames and lease are gone; KEEPER, SUSPECT and its timers stay (R404, R441). -/
def State.emptyKiln (s : State) (q : Nat) : State :=
  (s.dropLease q).onKiln q (fun k => { k with flight := [], frames := [] })

/-- Steps 5 and 6 of R441. The device's open arrivals send ABORT first, while its cores still hold them (R446). -/
def State.contain (s : State) (k : Nat) : State :=
  let dev := (s.sag k).running
  let s0 := match dev with
    | some v => s.abortArrivals v (s.sagCores k)
    | none => s
  let s1 := (s0.sagCores k).foldl (fun (t : State) ep => t.clearCore ep (dev.getD 64)) s0
  let s2 := (s1.sagClusters k).foldl (fun (t : State) c => ((t.onCluster c (fun d => { d with
      copies := d.copies.filter (fun p => p.paused),
      locks := d.locks.filter (fun l => d.copies.any (fun p => p.paused && l.owner == 2 * p.id)),
      arr := match dev with
        | some v => d.arr.filter (fun a => !(a.vdev == v))
        | none => d.arr })).emptyKiln (2 * c)).emptyKiln (2 * c + 1)) s1
  let s3 := s2.onSag k (fun g => { g with running := none, contained := true })
  match dev with
  | some v => s3.startReset v
  | none => s3

/-- SAGGAR_CONTAINMENT (R441): the fence rises at its first firing, and the saggar is cleared once everything that it
streams has been acknowledged. What waits for an overflow handler of a stopped core goes on without it (R443), and a class
that blocks between chips holds the containment up no longer than its bound (R450, log entry 79). -/
def execSaggarContainment (sag : Nat) (s : State) : Out :=
  let g := s.sag sag
  match g.hit with
  | none => .next s
  | some t =>
    if !g.fenced then .next (s.raiseFence sag)
    else if g.contained then .next s
    else
      let s1 := ((s.sagCores sag).filter s.latched).foldl (fun (u : State) ep => u.loseOverflow ep) s
      if s1.quiescent sag || decide (t + 2 ^ 18 ≤ s.now) then .next (s1.contain sag) else .next s1

/-- FENCE_FALL (R441 step 7). -/
def execFenceFall (sag : Nat) (s : State) : Out :=
  let g := s.sag sag
  .next (if g.fenced && g.contained then s.onSag sag (fun h => { h with fenced := false, contained := false, hit := none })
         else s)

end Sys2Proof.Machine
end

