-- ==== Sys2Proof/Machine/Sluice.lean ====
section
/-! DEFINITION. The sluices and their links (R315 to R317, R322 to R326, R382, R438, R439, R447, R448, R461), and the
grants of the arbiters (R339). -/

namespace Sys2Proof.Machine

/-! ### Egress -/

/-- Whether two waiting packets may be combined (R326). -/
def combinable (a b : Pkt) : Bool :=
  a.vdev == b.vdev && a.gen == b.gen && a.fkey == b.fkey && a.dst / 65536 == b.dst / 65536 &&
  (match a.body, b.body with
   | .red pa _ n op _ _ _ _ win _ ra, .red pb _ m oq _ _ _ _ win' _ rb =>
     pa == pb && n == m && op == oq && win && win' && ra.isEmpty && rb.isEmpty
   | _, _ => false)

/-- The merged packet (R158, R326): the combined value, the sum of the counts, the greatest stamp. -/
def combine (a b : Pkt) : Pkt :=
  match a.body, b.body with
  | .red pa st n op v q e c w k r, .red _ _ _ _ v' q' e' c' _ k' _ =>
    let best := if stampWins (q', e') (q, e) then (q', e') else (q, e)
    { a with body := .red pa st n op (BitVec.ofNat 64 (op.eval n (v.toNat % 2 ^ (8 * n)) (v'.toNat % 2 ^ (8 * n)) 0)) best.1
               best.2 (c + c') w (max k k') r }
  | _, _ => a

/-- Combines a packet with every later one of a queue that may be: the queue without them. -/
def gather (p : Pkt) : List Pkt → Pkt × List Pkt × List Pkt
  | [] => (p, [], [])
  | b :: l =>
    if combinable p b then
      let r := gather (combine p b) l
      (r.1, r.2.1, b :: r.2.2)
    else
      let r := gather p l
      (r.1, b :: r.2.1, r.2.2)

/-- The 32 bytes of a link header (R316). -/
def linkHeader (p : Pkt) (ivc port : Nat) : List Byte :=
  leBytes 4 p.dst ++ leBytes 4 p.src ++ leBytes 4 p.sseq ++ leBytes 1 (p.cls % 8 + 8 * p.redok.toNat) ++
  leBytes 1 (linkFlits p) ++ leBytes 2 p.len ++ leBytes 2 (p.vdev % 64 + 64 * (p.gen % 1024)) ++
  leBytes 2 (p.fkey % 1024) ++ leBytes 9 ivc ++ leBytes 1 port ++ leBytes 2 0

/-- The packet as its link header shows it (R316), before anything is authenticated. -/
def LinkPkt.clear (l : LinkPkt) : Pkt :=
  let h := l.header
  { l.pkt with
    dst := natAt h 0 4, src := natAt h 4 4, sseq := natAt h 8 4, cls := bitsOf (natAt h 12 1) 0 3,
    redok := bitOf (natAt h 12 1) 3, len := natAt h 14 2, vdev := bitsOf (natAt h 16 2) 0 6,
    gen := bitsOf (natAt h 16 2) 6 10, fkey := bitsOf (natAt h 18 2) 0 10 }

/-- FLITS of the header. -/
def LinkPkt.flits (l : LinkPkt) : Nat := natAt l.header 13 1

/-- The key of an entry of the fabric key table (R20). -/
def State.fabricKey (s : State) (id : Nat) : Nat := tget s.fkeys id 0

/-- Whether a link packet authenticates (R315, R316, R323, R324): under entry FKEY of this chip's own table, or under what that
entry held before it was written last, for a packet already in flight (R374, log entry 77), with the IV
that its header gives, the header unchanged since it was sealed, and FLITS that matches LEN. -/
def State.opens (s : State) (l : LinkPkt) : Bool :=
  let p := l.clear
  (l.key == s.fabricKey p.fkey || tfind s.fkeysOld p.fkey == some l.key) && l.chip == p.src / 65536 && l.port == natAt l.header 29 1 && l.ivc == natAt l.header 20 9 &&
  l.header == linkHeader l.pkt l.ivc l.port && l.flits == linkFlits p && decide (p.len ≤ 1024)

/-- Protects a packet and puts it on the wire (R316, R323, R325): sealed under what entry FKEY of the fabric key table held as
it was sent (R374), with the next IVC of its key, REDOK from ENR. -/
def State.emit (s : State) (port : Nat) (p : Pkt) : State :=
  let u := s.sluice port
  let iv := tget u.ivc p.fkey 0
  let enr := bitOf (s.mmioWord (0x021000010000 + 8 * p.vdev)) 62
  let q := { p with redok := p.cls == 4 && enr }
  let lp : LinkPkt := { pkt := q, key := p.key, ivc := iv, port := port, chip := s.chip,
                        header := linkHeader q iv port }
  let u1 : Sluice := { u with ivc := tset u.ivc p.fkey ((iv + 1) % 2 ^ 72), unacked := u.unacked ++ [lp],
                              sentFor := if u.sentFor.contains (p.vdev, p.dst / 65536) || p.cls == 6 then u.sentFor
                                         else u.sentFor ++ [(p.vdev, p.dst / 65536)] }
  { s.onSluice port (fun _ => u1.count 1 (linkFlits p)) with linkOut := s.linkOut ++ [lp] }

/-- Skip notices kept for a pair leave ahead of its next packet (R461). Each carries the number that it names, which its
loss would skip all the same. -/
def State.emitSkips (s : State) (port : Nat) (p : Pkt) : State :=
  let k := pairKey p.src p.dst
  let mine := s.skipped.filter (fun e => e.1 == k)
  mine.foldl (fun (t : State) e => t.emit port { p with cls := 6, fkey := 0, len := 16, redok := false, sseq := e.2, key := s.fabricKey 0,
                                                          body := .skipNote p.src p.dst e.2 })
    { s with skipped := s.skipped.filter (fun e => !(e.1 == k)) }

/-- Whether a packet is a reduction's contribution that its device's reset has overtaken: sluices, switches and homes
discard it (R446). -/
def State.deadRed (s : State) (p : Pkt) : Bool :=
  match p.body with
  | .red .. => !s.current p
  | _ => false

/-- A sluice sends one packet (R319, R322, R323, R326): of those whose send allowance covers them, the one the arbiter
grants; a packet whose chip has become unreachable is refused (R439). -/
def State.sluiceGrant (s : State) (port : Nat) : State :=
  let u := s.sluice port
  if !u.up then s
  else
    match u.queue.find? (fun p => s.deadRed p) with
    | some p => (s.onSluice port (fun w => { w with queue := w.queue.erase p })).skip p.src p.dst p.sseq
    | none =>
    match u.queue.find? (fun p => !(p.cls == 6) && !(p.dst / 65536 == s.chip) && (s.portOf p).isNone) with
    | some p => ((s.onSluice port (fun w => { w with queue := w.queue.erase p })).unreachable p).skip p.src p.dst p.sseq
    | none =>
      match (s.arb 2 port).grant 2 s.now (headReqs linkFlits u.queue []) with
      | none => s
      | some (r, a) =>
        match takeFirst (fun (p : Pkt) => p.vdev == r.vdev && p.cls == r.cls) u.queue with
        | none => s
        | some (p, rest) =>
          let g := gather p rest
          let s1 := (s.setArb 2 port a).onSluice port (fun w => { w with queue := g.2.1 })
          let s2 := g.2.2.foldl (fun (t : State) b => t.skip b.src b.dst b.sseq) s1
          (s2.emitSkips port g.1).emit port g.1

/-- SLUICE_EGRESS (R315, R322, R323). -/
def execSluiceEgress (port : Nat) (s : State) : Out := .next (s.sluiceGrant port)

/-- ARBITER_GRANT (R339): one grant of a mesh output, a memory-controller queue, a sluice, CXL ingress or a queue port. -/
def execArbiterGrant (kind unit : Nat) (s : State) : Out :=
  .next (if kind = 0 then s.meshGrant unit
         else if kind = 2 then s.sluiceGrant unit
         else s.arbGrant kind unit)

/-! ### Ingress -/

/-- The first packet that has arrived at a port. -/
def State.arrived (s : State) (port : Nat) : Option LinkPkt := (tget s.linkIn port []).head?

def State.takeLink (s : State) (port : Nat) : State :=
  { s with linkIn := tset s.linkIn port ((tget s.linkIn port []).drop 1) }

/-- A packet that fails authentication (R315, R324, R438, R461): dropped, a skip notice sent for the number of its header;
of the current generation it resets its device with a class-3 record, else it is counted as stale. -/
def State.dropTag (s : State) (port : Nat) (p : Pkt) : State :=
  let s1 := (s.onSluice port (fun u => u.count 3 1)).sendSkip (sluiceRouter port) p.src p.dst p.sseq
  if s1.current p then
    let s2 := s1.report { cls := 3, src := 7, code := 0x60, unit := port, addr := 0, owner := p.vdev + 64 * p.gen, hseq := 0,
                          pc := 0, detail := 0 }
    s2.startReset p.vdev
  else s1.onSluice port (fun u => ({ u with stale := u.stale + 1 }).count 5 1)

/-- Whether a packet is a marker of the quiet handshake or its answer (R448). -/
def Pkt.isQuiet (p : Pkt) : Bool :=
  match p.body with
  | .quiet .. => true
  | .quietAns .. => true
  | _ => false

/-- SLUICE_INGRESS (R324): the packet is authenticated, `tagOk` saying that its payload and tag came over unchanged, and
goes on from the sluice's router, whose checks it passes as at a first router (R436). Markers and answers end at their own
steps. -/
def execSluiceIngress (port : Nat) (tagOk : Bool) (s : State) : Out :=
  match s.arrived port with
  | none => .next s
  | some lp =>
    let p := lp.clear
    let ok := tagOk && s.opens lp
    if ok && p.isQuiet then .next s
    else
      let s1 := (s.takeLink port).onSluice port (fun u => u.count 2 lp.flits)
      let r := sluiceRouter port
      if !ok then .next (s1.dropTag port p)
      else
        match p.body with
        | .skipNote src dst seq => .next (s1.sendSkip r src dst seq)
        | _ =>
          if p.cls = 7 then .next (s1.skipPkt p r)
          else
            let code := s1.firstRouter p
            if code ≠ 0 then .next ((s1.refuse p code).skipPkt p r)
            else .next { s1 with egress := s1.egress ++ [{ p with pos := r, numbered := true, inPort := some port,
                                                                  link := some (lp.port, lp.flits) }] }

/-! ### Links (R317, R439) -/

/-- LINK_FRAME_RESEND (R317): a frame of the oldest unacknowledged packet is resent; which one failed its CRC is an open
value. -/
def execLinkFrameResend (port : Nat) (s : State) : Out :=
  .next (match (s.sluice port).unacked with
    | [] => s
    | p :: _ =>
      if (s.sluice port).up then
        let f := (Config.freeByte s.fresh).toNat % linkFlits p.pkt
        ({ s with fresh := s.fresh + 1 } : State).onSluice port (fun u =>
          ({ u with resends := tput u.resends f (tget u.resends f 0 + 1) 0 }).count 4 1)
      else s)

/-- The peer acknowledges the last frame of a port's oldest packet (R439). -/
def State.linkAck (s : State) (port : Nat) : State :=
  s.onSluice port (fun u => { u with unacked := u.unacked.drop 1, resends := [] })

/-- What a core still awaits from a chip is answered with code 3 (R439): the refusals reach it as packets do. -/
def State.refuseAwaited (s : State) (ep chip : Nat) : State :=
  let c := s.core ep
  let nack := fun (v g kind id sub : Nat) =>
    ({ s.ownerPkt ep v with gen := g, cls := 1, len := 16, body := .nack 3 kind id sub } : Pkt)
  let ofReq := fun (r : Req) => nack r.vdev r.gen (match r.kind with
    | .ldr _ => 1
    | .atom _ => 2
    | _ => 3) r.id 0
  let reqs := ((c.reqs ++ c.saved.flatMap (fun e => e.2.reqs)).filter (fun r => r.x.chip == chip)).map ofReq
  let loads := (c.loads.filter (fun l => l.x.chip == chip)).map (fun l => nack c.vdev c.gen 7 l.id 0)
  let code := (c.fetching.toList.filter (fun f => f.2.1.chip == chip)).map (fun f => nack c.vdev c.gen 7 f.1 0)
  let copies := ((s.cluster (clusterOf ep)).copies.filter (fun k => k.core == ep)).flatMap (fun k =>
    ((k.flight.filter (fun f => f.dst / 65536 == chip && !f.landed)).map (fun f => nack k.vdev k.gen 4 k.id f.no)) ++
    ((k.srcs.filter (fun q => q.data.isNone && q.chip == chip)).take 1).map (fun _ => nack k.vdev k.gen 11 k.id 0))
  let asked := fun (v g : Nat) (as : List Acq) => as.flatMap (fun a => (a.waits.filter (fun w => w.1 / 65536 == chip)).map (fun w =>
    nack v g 6 a.id w.1))
  let queries := asked c.vdev c.gen c.acqs ++ c.saved.flatMap (fun e => asked e.1 (s.vdevOf e.1).gen e.2.acqs)
  let s1 := s.onCore ep (fun d => { d with fills := d.fills.filter (fun w => !(w.home / 65536 == chip)) })
  { s1 with inbox := tset s1.inbox ep (tget s1.inbox ep [] ++ reqs ++ loads ++ code ++ copies ++ queries) }

/-- PORT_DOWN (R439): after 64 resends of one frame. The port leaves every route entry; its packets go by the ports that
are left; a chip with none is unreachable. -/
def execPortDown (port : Nat) (s : State) : Out :=
  let u := s.sluice port
  if !u.up || !u.resends.any (fun e => decide (64 ≤ e.2)) then .next s
  else
    let before := (List.range 4096).filter (fun c => !(s.ports c).isEmpty)
    let s1 : State := { s with mmio := s.mmio.map (fun (e : Nat × Word) =>
      if 0x021000000000 ≤ 8 * e.1 ∧ 8 * e.1 < 0x021000008000 then (e.1, e.2 &&& ~~~(BitVec.ofNat 64 (2 ^ port))) else e) }
    let s2 := s1.report { cls := 0, src := 7, code := 0x66, unit := port, addr := 0, owner := 0xFFFF, hseq := 0, pc := 0,
                          detail := 0 }
    let again := u.unacked.map (fun l => l.pkt) ++ u.queue
    let s3 : State := { s2.onSluice port (fun w => { w with up := false, unacked := [], queue := [] }) with
      egress := s2.egress ++ again.map (fun p => { p with pos := sluiceRouter port }) }
    let gone := before.filter (fun c => (s3.ports c).isEmpty)
    .next (gone.foldl (fun (t : State) c => t.cores.foldl (fun (v : State) e => v.refuseAwaited e.1 c) t) s3)

/-! ### Refunds and the quiet handshake (R447, R448) -/

/-- GEN_REFUND_NOTICE (R447): a notice that has reached this part refunds the flits to the bucket of its device and class
at the sluice it names; any excess goes as R338 gives. -/
def execGenRefundNotice (port vdev cls flits : Nat) (s : State) : Out :=
  let mine := fun (p : Pkt) => p.body == .refund port vdev cls flits
  let inboxes := s.inbox.find? (fun e => e.2.any mine)
  match inboxes with
  | none => .next s
  | some (e, l) =>
    let a := s.arb 2 port
    let k := bucketKey 2 vdev cls
    let b := tget a.buckets k Bucket.reset
    let t := b.tok + flits
    let a1 := { a with buckets := tset a.buckets k { b with tok := min b.depth t },
                       pool := if b.lend then min 4096 (a.pool + (t - b.depth)) else a.pool }
    .next ({ s with inbox := tset s.inbox e (match takeFirst mine l with
      | some r => r.2
      | none => l) }.setArb 2 port a1)

/-- QUIET_MARKER (R448): a peer's marker has arrived behind every earlier packet of its port; it is answered. -/
def execQuietMarker (port : Nat) (s : State) : Out :=
  match s.arrived port with
  | none => .next s
  | some lp =>
    match lp.pkt.body with
    | .quiet from' v =>
      if !s.opens lp then .next s
      else .next ((s.takeLink port).onSluice port (fun u => ({ u with
        queue := u.queue ++ [{ lp.pkt.answer (s.epId 0) 6 8 (.quietAns from' v) with
          fkey := 0, numbered := true, key := s.fabricKey 0 }] } : Sluice).count 2 lp.flits))
    | _ => .next s

/-- QUIET_ANSWER (R448): an answer has arrived; the last one completes the teardown. -/
def execQuietAnswer (vdev port : Nat) (s : State) : Out :=
  match s.arrived port with
  | none => .next s
  | some lp =>
    match lp.pkt.body with
    | .quietAns from' v =>
      if v ≠ vdev || !s.opens lp then .next s
      else
        let s1 := (s.takeLink port).onSluice port (fun u => u.count 2 lp.flits)
        match (s1.vdevOf v).teardown with
        | none => .next s1
        | some ps =>
          let rest := ps.filter (fun q => !(q == from'))
          if rest.isEmpty && (s1.vdevOf v).resetAt.isNone then .next (s1.endTeardown v)
          else .next (s1.onVdev v (fun d => { d with teardown := some rest }))
    | _ => .next s

end Sys2Proof.Machine
end

