-- ==== Sys2Proof/Machine/HostLink.lean ====
section
/-! DEFINITION. What the host does to the part: enqueues and the dispatchers (R329 to R336), CXL.mem (R366, R462),
CXL.cache (R136), ATS and PRI (R367, R435). -/

namespace Sys2Proof.Machine

def State.tellHost (s : State) (m : HostMsg) : State := { s with hostOut := s.hostOut ++ [m] }

/-- The request of a message of n bytes at CXL ingress (R337). -/
def cxlReq (v n : Nat) : ArbReq := { vdev := v, cls := 0, cost := min 8 (max 1 ((n + 63) / 64)) }

/-- What a message that waits for its tokens is among those that wait. -/
def msgAsk (kind unit v cost : Nat) : Ask := { key := arbKey kind unit, vdev := v, cost := cost, fill := none, done := false }

/-- A message passes its arbiter for a device, among all that waits there (R337, R339): where the grant falls on another it
waits, and passes without a further one once it has been granted. -/
def State.passArb (s : State) (kind unit v cost : Nat) : Bool × State :=
  let want := msgAsk kind unit v cost
  let got := { want with done := true }
  let t := if s.asks.contains got then s else (s.ask want).arbGrant kind unit
  (t.asks.contains got, { t with asks := t.asks.erase got })

/-- A message of n bytes passes CXL ingress for a device (R337), or waits there. -/
def State.ingress (s : State) (v n : Nat) : Bool × State := s.passArb 3 0 v (cxlReq v n).cost

/-- What a message does once CXL ingress has passed it; while it waits, nothing else happens. -/
def State.through (s : State) (v n : Nat) (f : State → State) : State :=
  let r := s.ingress v n
  if r.1 then f r.2 else r.2

/-! ### Queue ports (R329 to R331) -/

/-- QUEUE_PORT_OTHER_ACCESS (R329). An access of a virtual function passes CXL ingress for its device; which one it is, and
how long, the access does not say: they are open values (log entry 50). -/
def execQueuePortOtherAccess (a : PortAccess) (s : State) : Out :=
  let v := (Config.freeByte s.fresh).toNat % 64
  let n := 64 * ((Config.freeByte (s.fresh + 1)).toNat % 8)
  let drawn := fun (t : State) => { t with fresh := t.fresh + 2 }
  .next (match a with
    | .otherDmwr => s.through v n (fun t => (drawn t).tellHost .unsupported)
    | .pfDmwr => s.tellHost .unsupported
    | .postedWrite => s.through v n (fun t => { drawn t with dropped := t.dropped + 1 })
    | .read => s.through v n (fun t => (drawn t).tellHost .zeros))

/-- The fields of an enqueue record behind its task record (R330). -/
structure Enq where
  pasid : Nat
  pv : Bool
  entry : Nat
  mode : Nat
  core : Nat
  hseq : Nat
deriving DecidableEq, Repr

def Enq.ofBytes (bs : List Byte) : Enq :=
  let a := natAt bs 64 4
  let b := natAt bs 68 4
  { pasid := bitsOf a 0 20, pv := bitOf a 31, entry := bitsOf b 0 16, mode := bitsOf b 16 2, core := bitsOf b 18 3,
    hseq := natAt bs 72 8 }

/-- The store entry that an enqueue names, if the window has it and it is valid (R333, R334). -/
def State.entryOf (s : State) (v e : Nat) : Option Nat :=
  let w := s.placeWindow v
  let p := s.placement (w.1 + e)
  if e < w.2 && placeOk p then some p else none

/-- The format check of R331. -/
def State.enqOk (s : State) (v : Nat) (bs : List Byte) : Bool :=
  let q := Enq.ofBytes bs
  let d := s.vdevOf v
  recordOk (bs.take 64) false &&
  bitsOf (natAt bs 64 4) 20 11 == 0 && bitsOf (natAt bs 68 4) 21 11 == 0 && (bs.drop 80).all (fun b => b == 0) &&
  !(q.mode == 3) && d.launched && d.teardown.isNone && (!q.pv || d.pasidEn) &&
  (match s.entryOf v q.entry with
   | none => false
   | some p => !(q.mode == 0) || bitOf (bitsOf p 32 8) q.core)

/-- The die of a placement store entry's cluster (R15, R331). -/
def entryDie (p : Nat) : Nat := bitsOf p 0 6 / 32 + 2 * (bitsOf p 6 5 / 16)

/-- The accepted record (R25, R331): the part's fields and the cap. -/
def State.hostTask (s : State) (v : Nat) (bs : List Byte) : TaskRec :=
  ({ TaskRec.ofBytes (bs.take 64) with
     origin := Config.hostEp, oseq := 0, vdev := v, gen := (s.vdevOf v).gen } : TaskRec).cap
    (maxprioOf (bitsOf (s.descWord v 7) 51 3))

def State.disp (s : State) (die : Nat) : Dispatcher := tget s.disps die Dispatcher.reset

/-- A message that has passed an arbiter and must wait for something else keeps what it was granted. -/
def State.keepPass (s : State) (kind unit v cost : Nat) : State :=
  { s with asks := s.asks ++ [{ msgAsk kind unit v cost with done := true }] }

/-- A message of n bytes that must wait behind CXL ingress. -/
def State.keepIngress (s : State) (v n : Nat) : State := s.keepPass 3 0 v (cxlReq v n).cost

/-- Whether an enqueue's rate check holds at a port (R331, R339): the device's bucket or the lend pool covers it. -/
def State.portRate (s : State) (port v : Nat) : Bool :=
  (((s.arb 4 port).grant 4 s.now [{ vdev := v, cls := 0, cost := 1 }]).isSome)

/-- An accepted enqueue (R331): its record joins the dispatcher's queue. -/
def State.takeEnqueue (s : State) (v die : Nat) (bytes : List Byte) : State :=
  let q := Enq.ofBytes bytes
  let d := s.disp die
  let e : DispEntry :=
    { task := s.hostTask v bytes, vdev := v, entry := q.entry, mode := q.mode, core := q.core,
      pasid := if q.pv then some q.pasid else none, hseq := q.hseq, chosen := none }
  { s with disps := tset s.disps die { d with queue := d.queue ++ [e] } }.tellHost .enqueued

/-- ENQUEUE (R331): the DMWr passes CXL ingress and is answered: unsupported, busy or accepted. While the port's output
is taken by an earlier one it waits there, and is granted among all that wait (R339); one that has its token waits for room in
the dispatcher's queue (log entry 50). -/
def execEnqueue (vf port : Nat) (bytes : List (BitVec 8)) (s : State) : Out :=
  let v := vf - 1
  let r := s.ingress v 128
  let t := r.2
  if !r.1 then .next t
  else if vf = 0 || 64 < vf || 256 ≤ port || !(bytes.length == 128) || !t.enqOk v bytes then .next (t.tellHost .unsupported)
  else
    let die := entryDie ((t.entryOf v (Enq.ofBytes bytes).entry).getD 0)
    let full := decide (4096 ≤ (t.disp die).queue.length)
    if t.asks.contains { msgAsk 4 port v 1 with done := true } then
      .next (if full then t.keepIngress v 128 else ({ t with asks := t.asks.erase { msgAsk 4 port v 1 with done := true } } : State).takeEnqueue v die bytes)
    else if t.now < (t.arb 4 port).freeAt then .next ((t.ask (msgAsk 4 port v 1)).keepIngress v 128)
    else if !t.portRate port v || (t.vdevOf v).resetAt.isSome || full then
      .next ({ t with asks := t.asks.erase (msgAsk 4 port v 1) }.tellHost .busy)
    else
      let g := t.passArb 4 port v 1
      .next (if g.1 then g.2.takeEnqueue v die bytes else g.2.keepIngress v 128)

/-! ### Dispatchers (R335, R336) -/

/-- Ready-set slots and spill entries a core has taken (R335). -/
def Core.occupancy (c : Core) : Nat := (c.ready.filter (fun r => !(r.place == .recvq))).length

/-- OCCUPANCY_REPORT (R335). -/
def execOccupancyReport (cluster : Nat) (s : State) : Out :=
  .next (s.onCluster cluster (fun k => { k with
    occ := (List.range 8).foldl (fun t i => tput t i (s.core (8 * cluster + i)).occupancy 0) [] }))

/-- The member that a mode chooses (R335). -/
def State.member (s : State) (d : Dispatcher) (e : DispEntry) (p : Nat) : Nat :=
  let ms := maskCores (bitsOf p 32 8)
  let k := clusterOf (epAt (bitsOf p 0 6) (bitsOf p 6 5) 0)
  let occ := fun (m : Nat) => tget (s.cluster k).occ m 0
  match e.mode with
  | 0 => e.core
  | 1 =>
    (match tfind d.last (e.vdev * 65536 + e.entry) with
     | some l => (ms.find? (fun m => decide (l < m))).getD (ms.headD 0)
     | none => ms.headD 0)
  | _ => (firstBy (fun a b => decide (occ a < occ b)) ms).getD 0

/-- Replaces the first entry of a queue with a property. -/
def replaceFirst {α : Type} (p : α → Bool) (f : α → α) : List α → List α
  | [] => []
  | a :: l => if p a then f a :: l else a :: replaceFirst p f l

/-- DISPATCHER_RESOLVE (R335): the oldest record not yet placed; one placed outside its device's saggars, or whose store
entry has gone, is discarded with a record (R334, R449). -/
def execDispatcherResolve (die : Nat) (s : State) : Out :=
  let d := s.disp die
  match takeFirst (fun (e : DispEntry) => e.chosen.isNone) d.queue with
  | none => .next s
  | some (e, rest) =>
    let drop := ({ s with disps := tset s.disps die { d with queue := rest } } : State).report
      { cls := 0, src := 8, code := 0x63, unit := die, addr := 0, owner := e.vdev + 64 * e.task.gen, hseq := e.hseq, pc := 0,
        detail := 0 }
    match s.entryOf e.vdev e.entry with
    | none => .next drop
    | some p =>
      if !s.inDevice e.vdev (bitsOf p 0 6) (bitsOf p 6 5) then .next drop
      else
        let m := s.member d e p
        .next { s with disps := tset s.disps die { d with
          queue := replaceFirst (fun (q : DispEntry) => q.chosen.isNone)
            (fun q => { q with chosen := some (epAt (bitsOf p 0 6) (bitsOf p 6 5) m) }) d.queue,
          last := tset d.last (e.vdev * 65536 + e.entry) m } }

/-- Ready records of a device at a core: the core's, or its saved image's (R371). -/
def Core.readyOf (c : Core) (v : Nat) : Option (List Ready) :=
  if c.runs v then some c.ready else (tfind c.saved v).map (fun x => x.ready)

/-- The first resolved entry whose core has a free slot, with no earlier entry for the same core (R336). -/
def State.deliverable (s : State) : List DispEntry → List Nat → Option DispEntry
  | [], _ => none
  | e :: l, seen =>
    match e.chosen with
    | none => State.deliverable s l seen
    | some ep =>
      if !seen.contains ep && (match (s.core ep).readyOf e.vdev with
        | some r => slotFree r
        | none => false) then some e
      else State.deliverable s l (ep :: seen)

/-- DISPATCHER_DELIVERY (R336). -/
def execDispatcherDelivery (die : Nat) (s : State) : Out :=
  let d := s.disp die
  match s.deliverable d.queue [] with
  | none => .next s
  | some e =>
    let ep := e.chosen.getD 0
    let s1 : State := { s with disps := tset s.disps die { d with queue := d.queue.erase e, count := (d.count + 1) % 2 ^ 32 } }
    let c := s1.core ep
    let r : Ready := { mkReady { e.task with pseq := d.count } c.stampN s1.now .slot with pasid := e.pasid, hseq := e.hseq }
    let c1 := { c with stampN := c.stampN + 1 }
    .next (if c.runs e.vdev then s1.setCore ep { c1 with ready := arrive c.ready r }
      else match tfind c.saved e.vdev with
        | some x => (s1.setCore ep c1).putSaved ep e.vdev { x with ready := arrive x.ready r }
        | none => s1.setCore ep c1)

/-! ### CXL.mem and CXL.cache (R136, R366, R462) -/

/-- Whether n bytes from an address are DRAM that one CXL.mem message reaches: of one 64-byte block (R366). -/
def hostBlock (addr n : Nat) : Bool := !(n == 0) && inDram (addr + n - 1) && decide (addr % 64 + n ≤ 64)

/-- HOST_CXL_MEM_READ (R366): the bytes at the home slice, with the poison of their words; one message reads at most 64
bytes of one 64-byte block. -/
def execHostCxlMemRead (addr n : Nat) (s : State) : Out :=
  if !hostBlock addr n then .next (s.tellHost .unsupported)
  else
    let h := s.hostHome addr
    .next (s.through h.2.2 n (fun t =>
      let u := t.bring h.1 h.2.1 h.2.2 addr false
      if u.hasSector h.1 h.2.1 addr then
        u.tellHost (.data (u.readBytes addr n)
          ((List.range n).filter (fun i => (i == 0 || (addr + i) % 8 == 0) && u.isPoison (addr + i))))
      else u.keepIngress h.2.2 n))

/-- The pieces of a byte range within 8-byte words: address and bytes. -/
def wordPieces (pa : Nat) (bs : List Byte) : Nat → List (Nat × List Byte)
  | 0 => []
  | fuel + 1 =>
    match bs with
    | [] => []
    | _ =>
      let k := 8 - pa % 8
      (pa, bs.take k) :: wordPieces (pa + k) (bs.drop k) fuel

/-- HOST_CXL_MEM_WRITE (R366): each word's bytes are applied at the home as an atomic of CLK 0 and the host's endpoint;
poison that arrives is recorded and marks the words (R406). -/
def execHostCxlMemWrite (addr : Nat) (bytes : List (BitVec 8)) (poison : Bool) (s : State) : Out :=
  let n := bytes.length
  if !hostBlock addr n then .next (s.tellHost .unsupported)
  else if (wordPieces addr bytes 9).any (fun p => s.wordLanding (s.hostHome addr).1 p.1) ||
      s.latchBlocks (s.hostHome addr).1 addr then .next s
  else
    let h := s.hostHome addr
    .next (s.through h.2.2 n (fun t =>
      let u := t.bring h.1 h.2.1 h.2.2 addr false
      if !u.hasSector h.1 h.2.1 addr then u.keepIngress h.2.2 n
      else
        let cause := { u.ownerPkt h.1 h.2.2 with src := Config.hostEp }
        let u1 := (wordPieces addr bytes 9).foldl (fun (x : State) p =>
          let k := p.2.length
          let y := (x.atomStep h.1 cause p.1 k .put (leNat p.2) 255 0 Config.hostEp []).2
          if poison then y.setPoison p.1 true else if k = 8 then y.setPoison p.1 false else y) u
        if poison then u1.report { cls := 1, src := 5, code := 0x41, unit := h.1, addr := addr,
                                   owner := h.2.2 + 64 * (u1.vdevOf h.2.2).gen, hseq := 0, pc := 0, detail := 0 } else u1))

/-- The dirty sectors of a line of host memory go back there, with their poison (R136, R406); the line is clean. -/
def State.cleanHost (s : State) (l : L2Line) : State :=
  let t := l.dirtySectors.foldl (fun (u : State) i => u.writeBack { s.wbSector l i with key := none }) s
  { t with l2 := t.l2.map (fun m => if m == l then { m with dirty := 0 } else m) }

/-- CXL_CACHE_HOST_SNOOP (R136): the home delivers a held host line's bytes with their poison; its dirty sectors go back to
host memory. A snoop that takes the line also drops it, with invalidations to its sharers. -/
def execCxlCacheHostSnoop (addr : Nat) (k : Snoop) (s : State) : Out :=
  match s.lineOf addr with
  | none => .next s
  | some l =>
    if !inHost addr then .next s
    else
      .next (s.through l.owner 64 (fun t =>
        let base := addr - addr % 64
        let t1 := (t.cleanHost l).tellHost (.data (t.readBytes base 64)
          ((List.range 64).filter (fun i => i % 8 == 0 && t.isPoison (base + i))))
        let clean := { l with dirty := 0 }
        match k with
        | .data => t1
        | .inv => if t1.canEvict clean then t1.evict clean else t.keepIngress l.owner 64))

/-! ### ATS and PRI (R367, R435) -/

/-- Outstanding page requests of one virtual function (R365): with all of them out, a failed response waits. -/
def pageLimit : Nat := 512

/-- ATS_RESPONSE (R367): success maps the VA with the host's permissions (`perm`: R, W, X); failure asks for the page. -/
def execAtsResponse (id : Nat) (hpa : Option Nat) (perm : BitVec 3) (s : State) : Out :=
  match takeFirst (fun (r : AtsReq) => r.id == id && !r.failed) s.ats with
  | none => .next s
  | some (r, rest) =>
    if hpa.isNone && decide (pageLimit ≤ (s.pages.filter (fun p => p.vdev == r.vdev)).length) then .next s
    else .next (s.through r.vdev 64 (fun s =>
    match hpa with
    | some h =>
      let t : TlbEntry := { vdev := r.vdev, pasid := some r.pasid, va := r.va - r.va % 4096, size := 4096,
                            leaf := BitVec.ofNat 64 (2 * perm.toNat), ats := some (0x100000000000 + (h - h % 4096)), age := s.now }
      ({ s with ats := rest } : State).cache r.core t
    | none =>
      { s with
        ats := { r with failed := true } :: rest,
        pages := s.pages ++ [{ grp := s.fresh, vdev := r.vdev, gen := (s.vdevOf r.vdev).gen, core := r.core, va := r.va }],
        hostOut := s.hostOut ++ [.pri s.fresh r.vdev (r.va - r.va % 4096) r.pasid],
        fresh := s.fresh + 1 }))

/-- The page-response entry: number 33 of the trap table (R367, R413), the core's TRAPTB while it runs the device (R355). -/
def State.pageEntry (s : State) (p : PageReq) : Nat :=
  (if (s.core p.core).runs p.vdev then (s.core p.core).csr.traptb else traptbOf (s.descWord p.vdev 5)) + 16 * 33

/-- The page-response task (R367, R413): its NXR is the core NXR of the device there (R90). -/
def State.pageRecord (s : State) (p : PageReq) (code : Nat) : TaskRec :=
  let e := s.pageEntry p
  let c := s.core p.core
  { pc := wordAt (s.readBytes e 16) 0 &&& ~~~3#64, a0 := BitVec.ofNat 64 p.va, a1 := BitVec.ofNat 64 code, a2 := 0, a3 := 0,
    origin := Config.hostEp, oseq := 0, prio := 7,
    nxr := if c.runs p.vdev then c.csr.corenxr else (tfind c.saved p.vdev).elim false (fun x => x.corenxr), s := true, cls := 0,
    frame := (s.readByte (e + 8)).toNat, pan := 0, vdev := p.vdev, gen := p.gen, deadline := 0, pseq := 0 }

/-- PAGE_RESPONSE (R32, R367, R435). -/
def execPageResponse (grp code : Nat) (s : State) : Out :=
  match takeFirst (fun (p : PageReq) => p.grp == grp) s.pages with
  | none =>
    .next (s.report { cls := 0, src := 8, code := 0x62, unit := 0, addr := 0, owner := 0xFFFF, hseq := 0, pc := 0, detail := 0 })
  | some (p, rest) =>
    if p.gen ≠ (s.vdevOf p.vdev).gen then
      .next (s.through p.vdev 64 (fun s => State.report { s with pages := rest }
        { cls := 0, src := 8, code := 0x61, unit := 0, addr := 0, owner := p.vdev + 64 * p.gen, hseq := 0, pc := 0, detail := 0 }))
    else
      match (s.core p.core).readyOf p.vdev with
      | some l =>
        -- the record of a switched-out device goes to its spill area (R371)
        if !((s.core p.core).runs p.vdev && slotFree l) && decide (2 ≤ countIn l .spillPage) then .next s
        else .next (s.through p.vdev 64 (fun s =>
          State.hwPost ({ s with pages := rest }.readEntry p.core (s.pageEntry p)) p.core (s.pageRecord p code) .spillPage
            false false))
      | none => .next (s.through p.vdev 64 (fun s => { s with pages := rest }))

/-- ATS_INVALIDATION (R237, R367): host translations of the page leave every cache once the requests that they translated have
passed their first routers. -/
def execAtsInvalidation (vdev va : Nat) (s : State) : Out :=
  let drops := fun (t : TlbEntry) => t.ats.isSome && xinvDrops t vdev false va
  if s.translatedWaits drops then .next s
  else .next (s.through vdev 64 (fun s =>
    let keep := fun (t : TlbEntry) => !drops t
    let s1 : State := { s with
      cores := s.cores.map (fun e => (e.1, { e.2 with utlb := e.2.utlb.filter keep })),
      clusters := s.clusters.map (fun e => (e.1, { e.2 with tlb := e.2.tlb.filter keep })) }
    s1.tellHost (.invalidated vdev va)))

/-- The host changes its own memory where no slice holds the line (R136). -/
def State.hostMem (s : State) (addr : Nat) (bs : List Byte) : State :=
  if inHost addr && inHost (addr + bs.length) && (List.range bs.length).all (fun i => (s.lineOf (addr + i)).isNone) then
    (s.writeBytes addr bs).clearWhole addr bs.length
  else s

end Sys2Proof.Machine
end

