-- ==== Sys2Proof/Machine/Bringup.lean ====
section
/-! DEFINITION. The Nierman controller (R373 to R378, R405, R408, R409): boot, the mailbox commands, the firing gap, the
guard bands, scrubbing; and the error log's control (R410). -/

namespace Sys2Proof.Machine

/-- The mailbox's argument and report area. -/
def nmArg : Nat := 0x024000000040

/-- Bytes of the argument area. -/
def State.nmBytes (s : State) (off n : Nat) : List Byte :=
  (List.range n).map (fun i => BitVec.ofNat 8 (bitsOf (s.mmioWord (nmArg + (off + i) - (off + i) % 8)) (8 * ((off + i) % 8)) 8))

/-- Writes bytes from the start of the area, in doublewords. -/
def State.nmWrite (s : State) (bs : List Byte) : State :=
  (List.range (bs.length / 8)).foldl (fun t i => t.setMmio (nmArg + 8 * i) (leNat ((bs.drop (8 * i)).take 8))) s

/-- A command ends with a result. -/
def State.nmDone (s : State) (r : Nat) : State := { s with nm := { s.nm with result := r, cmd := none } }

/-- n bytes that the spec does not state (log entry 7). -/
def State.freshBytes (s : State) (n : Nat) : List Byte × State :=
  ((List.range n).map (fun i => Config.freeByte (s.fresh + i)), { s with fresh := s.fresh + n })

/-- POWER_ON_BOOT (R373): `ok` says whether the firmware's signature holds. -/
def execPowerOnBoot (ok : Bool) (s : State) : Out :=
  if s.nm.st ≠ 0 then .next s
  else if ok then
    let r := s.freshBytes 32
    .next { r.2 with fkeys := [(0, leNat r.1)], fkeysOld := [], mkeys := [], nm := { r.2.nm with st := 1 } }
  else .next { s with nm := { s.nm with st := 3 } }

/-- SETCHIP (R19, R374). -/
def execSetchip (s : State) : Out :=
  if s.nm.cmd ≠ some 1 then .next s
  else
    let c := bitsOf (s.mmioWord nmArg) 0 16
    if s.nm.st ≠ 1 then .next (s.nmDone 3)
    else if c = 0xFFFF then .next (s.nmDone 2)
    else .next ({ s with chip := c }.nmDone 0)

/-- RUN (R374). -/
def execRun (s : State) : Out :=
  if s.nm.cmd ≠ some 2 then .next s
  else if s.nm.st ≠ 1 then .next (s.nmDone 3)
  else .next ({ s with nm := { s.nm with st := 2 } }.nmDone 0)

/-- FKEYW (R323, R374): the entry is written in every sluice, and its invocation counters return to 0. -/
def execFkeyw (s : State) : Out :=
  if s.nm.cmd ≠ some 3 then .next s
  else
    let a := bitsOf (s.mmioWord nmArg) 0 10
    if a = 0 then .next (s.nmDone 2)
    else
      let s1 : State := { s with
        fkeysOld := tset s.fkeysOld a (tget s.fkeys a 0), fkeys := tset s.fkeys a (leNat (s.nmBytes 8 32)),
        sluices := s.sluices.map (fun e => (e.1, { e.2 with ivc := tdel e.2.ivc a })) }
      .next (s1.nmDone 0)

/-- MKEYW (R374). -/
def execMkeyw (s : State) : Out :=
  if s.nm.cmd ≠ some 4 then .next s
  else
    let a := bitsOf (s.mmioWord nmArg) 0 10
    .next ({ s with mkeys := tset s.mkeys a (leNat (s.nmBytes 8 64)) }.nmDone 0)

/-- ATTEST (R375): the report of 200 bytes; the digest, serial and key are this part's, the signature is an open value. -/
def execAttest (s : State) : Out :=
  if s.nm.cmd ≠ some 5 then .next s
  else
    let fuse := fun (lo n : Nat) => (List.range n).map (fun i => Config.fuseByte (lo + i))
    let sig := s.freshBytes 64
    .next ((sig.2.nmWrite (fuse 0 64 ++ s.nmBytes 0 32 ++ fuse 64 8 ++ fuse 72 32 ++ sig.1)).nmDone 0)

/-- GAP_MEASUREMENT (R22, R377): `draw` is the measured draw in watts. One comes every 1,024 cycles: before its time
there is none. -/
def execGapMeasurement (draw : Nat) (s : State) : Out :=
  if s.now < s.nm.gapAt then .next s
  else
  let g := s.nm.gap
  let g' := if 2600 < draw then min 63 (g + 1) else if 100 * draw < 95 * 2600 then g - 1 else g
  .next { s with nm := { s.nm with gap := g', gapAt := s.now + 1024 } }

/-- An hour in cycles of the clock (R10, R378). -/
def hour : Nat := 3600 * Config.clockHz

/-- CONE_REPLAN (R378, R408, R409): the band moves by at most 5 mV within 0 to 60; where the margin has run out the
cluster is derated, and next time removed. A cluster is re-planned once an hour: before its time there is no re-plan. -/
def execConeReplan (cluster band : Nat) (out : Bool) (s : State) : Out :=
  let k := s.cluster cluster
  let b := min 60 (max (k.band - 5) (min (k.band + 5) band))
  let s1 := s.onCluster cluster (fun c => { c with band := b, replanAt := s.now + hour })
  let e := epAt (pkgCol (8 * cluster)) (pkgRow (8 * cluster)) 0
  let rec' := fun (cls code : Nat) =>
    ({ cls := cls, src := 6, code := code, unit := pkgCol e + 64 * pkgRow e, addr := 0, owner := 0xFFFF, hseq := 0, pc := 0,
       detail := 0 } : ErrRec)
  if s.now < k.replanAt then .next s
  else if !out then .next s1
  else if k.cstate = 0 then
    .next ((s1.onCluster cluster (fun c => { c with cstate := 1, derateAt := some s.now })).report (rec' 4 0x50))
  else if k.cstate = 1 then
    let s2 := (s1.onCluster cluster (fun c => { c with cstate := 2 })).report (rec' 5 0x51)
    .next (match s2.sagOf e with
      | some g => s2.onSag g (fun h => { h with hit := match h.hit with
          | some t => some t
          | none => some s.now })
      | none => s2)
  else .next s1

/-- DRAM_SCRUB (R405): every word of a stack is read and corrected; what is beyond correction becomes poison. A stack is
scrubbed once every 24 hours: before its time there is no scrub. -/
def execDramScrub (stack : Nat) (s : State) : Out :=
  if s.now < tget s.nm.scrubAt stack 0 then .next s
  else
    let t := (s.ecc.filter (fun e => (8 * e.1) / 2 ^ 36 == stack)).foldl (fun (t : State) e => t.readEcc (e.1 / 16) 0xFFFF) s
    .next { t with nm := { t.nm with scrubAt := tset t.nm.scrubAt stack (s.now + 24 * hour) } }

/-- The error record of an SRAM array (R405, R411). -/
def State.sramRecord (s : State) (double : Bool) (src ep addr owner : Nat) : State :=
  { s with fresh := s.fresh + 8 }.report
    { cls := double.toNat, src := src, code := 0x20 + double.toNat, unit := s.epId ep, addr := addr, owner := owner,
      hseq := 0, pc := 0, detail := s.freeSyndrome }

/-- An error of an SRAM word (R405): one bad bit is corrected with a record; two mark the word poison, or the register,
the state-set word, the queued record or the queued command as one whose use is a consumption (R407). -/
def State.sramError (s : State) (a : Sram) (double : Bool) : State :=
  match a with
  | .word pa =>
    let mark := fun (t : State) => if double then t.setPoison pa true else t
    (match s.l2Find pa with
     | some l => mark (s.sramRecord double 3 l.slice (pa / 8 * 8) (l.owner + 64 * (s.vdevOf l.owner).gen))
     | none =>
       let ep := (pa - arrayBase 0) / 131072
       if inArrays pa then mark (s.sramRecord double 2 ep (pa / 8 * 8) (s.core ep).owner) else s)
  | .l1 ep line word =>
    (s.sramRecord double 2 ep (512 * line + 8 * (word % 64)) (s.core ep).owner).onCore ep (fun c => { c with l1 := c.l1.map (fun l =>
      if double && l.line == line then { l with pois := l.pois ++ [word % 64] } else l) })
  | .reg ep level r =>
    let g := fun (f : Frame) =>
      if double && f.level == level && !(r == 0) then { f with pois := f.pois ||| regBit r } else f
    (s.sramRecord double 2 ep 0 (s.core ep).owner).onCore ep (fun c => { c with run := g c.run, under := c.under.map g })
  | .kset ep level item =>
    (s.sramRecord double 1 (ep / 4 * 4) 0 (s.core ep).owner).onCore ep (fun c =>
      let k := tget c.sets level KSet.reset
      if double then { c with sets := tset c.sets level { k with bad := k.bad ++ [item] } } else c)
  | .ready ep i =>
    if (s.core ep).ready.length ≤ i then s
    else (s.sramRecord double 2 ep 0 (s.core ep).owner).onCore ep (fun c =>
      { c with ready := c.ready.modify i (fun r => { r with task := { r.task with bad := r.task.bad || double } }) })
  | .injected ep i =>
    if (s.core ep).inj.length ≤ i then s
    else (s.sramRecord double 2 ep 0 (s.core ep).owner).onCore ep (fun c =>
      { c with inj := c.inj.modify i (fun r => { r with bad := r.bad || double }) })
  | .command ep i =>
    if (s.core ep).dq.length ≤ i then s
    else (s.sramRecord double 2 ep 0 (s.core ep).owner).onCore ep (fun c =>
      { c with dq := c.dq.modify i (fun r => { r with bad := r.bad || double }) })
  | .journal ep word =>
    (match (s.core ep).ck with
     | none => s
     | some k =>
       if (tfind k.jour (word / 16)).isNone then s
       else (s.sramRecord double 2 ep 0 (s.core ep).owner).onCore ep (fun c =>
         { c with ck := c.ck.map (fun j => if double then { j with jpois := j.jpois ++ [word] } else j) }))
  | .log ep i =>
    if (s.core ep).pub.log.length ≤ i then s
    else (s.sramRecord double 2 ep 0 (s.core ep).owner).onCore ep (fun c =>
      { c with pub := { c.pub with log := c.pub.log.modify i (fun r => { r with pois := r.pois || double }) } })

/-- ERRCTL_WRITE (R410). -/
def execErrctlWrite (v : BitVec 64) (s : State) : Out := .next (s.errctl v.toNat true)

end Sys2Proof.Machine
end

