-- ==== Sys2Proof/Machine/Csr.lean ====
section
/-! DEFINITION. The system registers and the Zicsr instructions (R77 to R90, R207, R208, R343 to R348, R355, R356, R358,
R379, R423, R429, R430, R444). -/

namespace Sys2Proof.Machine

/-! ### Units that BKSEL names (R344) -/

/-- KIND, CLASS, UNIT and VDEV of BKSEL. -/
def bkKind (w : Nat) : Nat := bitsOf w 40 8
def bkClass (w : Nat) : Nat := bitsOf w 32 8
def bkUnit (w : Nat) : Nat := bitsOf w 8 24
def bkVdev (w : Nat) : Nat := bitsOf w 0 6

/-- Whether BKSEL names a unit. -/
def bkNames (w : Nat) : Bool :=
  let u := bkUnit w
  (bkKind w == 2 || bkClass w == 0) &&
  match bkKind w with
  | 0 => decide (u < 2 ^ 14) && decide (bitsOf u 11 3 ≤ 4)
  | 1 => decide (u < 128)
  | 2 => decide (u < 24) && decide (bkClass w ≤ 5)
  | 3 => u == 0
  | 4 => decide (u < 256)
  | 5 => decide (u < 64)
  | _ => false

/-! ### Which registers there are (R77, R78, R87, R88) -/

/-- Whether a register is a supervisor register (R77). -/
def csrSup (a : Nat) : Bool := decide (0x5C0 ≤ a) && decide (a < 0x600)

/-- Whether an address names a register. -/
def csrNamed (a : Nat) : Bool :=
  (decide (0x800 ≤ a) && decide (a ≤ 0x80B)) || (decide (0x810 ≤ a) && decide (a ≤ 0x818)) ||
  (decide (0x820 ≤ a) && decide (a ≤ 0x830)) || (decide (0xC00 ≤ a) && decide (a ≤ 0xC1F)) ||
  (decide (0x5C0 ≤ a) && decide (a ≤ 0x5CB)) || (decide (0x5D0 ≤ a) && decide (a ≤ 0x5D4)) ||
  (decide (0x5E0 ≤ a) && decide (a ≤ 0x5E3))

/-- Registers whose every field is read-only: a write is illegal (R77). -/
def csrReadOnly (a : Nat) : Bool :=
  a == 0x801 || a == 0x805 || a == 0x806 || a == 0x807 || a == 0x80B || (decide (0xC00 ≤ a) && decide (a ≤ 0xC1F)) ||
  a == 0x5CB || a == 0x5D2

/-- Whether the running frame may access a register at all (R77, R344). -/
def State.csrOk (s : State) (a : Nat) : Bool :=
  let b := s.me.csr.bksel.toNat
  csrNamed a && (!csrSup a || s.frame.sup) &&
  (if a = 0x5D1 ∨ a = 0x5D2 then bkNames b && !(bkKind b == 5)
   else if a = 0x5D4 then bkNames b && bkKind b == 5
   else true)

/-! ### Reading -/

/-- DLREM at a cycle (R86). -/
def Frame.left (f : Frame) (now : Nat) : Nat :=
  match f.dl with
  | some d => d.expiry - now
  | none => 0

/-- The bucket that BKSEL names, with its arbiter. -/
def State.bkBucket (s : State) : Arb × Bucket :=
  let w := s.me.csr.bksel.toNat
  let a := s.arb (bkKind w) (bkUnit w)
  (a, tget a.buckets (bucketKey (bkKind w) (bkVdev w) (bkClass w)) Bucket.reset)

/-- VDSTAT (R444). -/
def State.vdstat (s : State) : Nat := (List.range 64).foldl (fun n v => n + (s.busy v).toNat * 2 ^ v) 0

/-- The open arrival that GBSEL names (R430). -/
def Core.gbOpen (c : Core) : Option GBar := c.gbars.find? (fun g => g.bid == c.csr.gbsel && g.opened)

/-- The value of a register that is named, at the cycle its instruction retires (R208). The reading instruction itself is
not yet counted in instret (log entry 30). -/
def State.csrRead (s : State) (a : Nat) : Word :=
  let c := s.me
  let f := c.run
  let ks := tget c.sets f.level KSet.reset
  let at' := s.after s.cur 1
  match a with
  | 0x800 => f.tstat
  | 0x801 => f.thresh
  | 0x802 => c.csr.holdm
  | 0x803 => f.deadm.setWidth 64
  | 0x804 => f.succ
  | 0x805 => BitVec.ofNat 64 (teamm c.csr.team s.cur)
  | 0x806 => BitVec.ofNat 64 (s.epId s.cur * 2 ^ 32 + 64 * c.gen + c.vdev)
  | 0x807 => BitVec.ofNat 64 (c.mkey + 65536 * c.fkey)
  | 0x808 => ks.ktol.setWidth 64
  | 0x809 => ks.kfloor.setWidth 64
  | 0x80A => tget (s.kiln (quadOf s.cur)).keeper f.level 0
  | 0x80B => BitVec.ofNat 64 (f.left at' % 2 ^ 32)
  | 0x818 => c.evs.ovf
  | 0x830 => c.dbg.stepc
  | 0xC00 => BitVec.ofNat 64 (s.own s.cur at')
  | 0xC01 => BitVec.ofNat 64 at'
  | 0xC02 => BitVec.ofNat 64 c.instret
  | 0x5C0 => BitVec.ofNat 64 c.csr.cki
  | 0x5C1 => BitVec.ofNat 64 c.csr.ceilsel
  | 0x5C2 => BitVec.ofNat 64 (tget c.ceil c.csr.ceilsel 0)
  | 0x5C3 => c.csr.gpv
  | 0x5C4 => BitVec.ofNat 64 c.csr.traptb
  | 0x5C5 => BitVec.ofNat 64 c.csr.maxprio
  | 0x5C6 => BitVec.ofNat 64 c.csr.corenxr.toNat
  | 0x5C7 => BitVec.ofNat 64 c.csr.xroot
  | 0x5C8 => BitVec.ofNat 64 c.csr.sgsel
  | 0x5C9 => BitVec.ofNat 64 ((s.sag c.csr.sgsel).en.toNat * 2 ^ 63 + (s.sag c.csr.sgsel).rect)
  | 0x5CB => BitVec.ofNat 64 s.vdstat
  | 0x5D0 => c.csr.bksel
  | 0x5D1 =>
    let b := s.bkBucket.2
    BitVec.ofNat 64 (b.rate + 65536 * b.depth + b.lend.toNat * 2 ^ 32 + b.borrow.toNat * 2 ^ 33)
  | 0x5D2 => BitVec.ofNat 64 (s.bkBucket.2.tok + s.bkBucket.1.pool * 2 ^ 32)
  | 0x5D3 => BitVec.ofNat 64 ((s.vdevOf (bkVdev c.csr.bksel.toNat)).wayMask + 65536 * s.shared)
  | 0x5D4 =>
    let g := s.sag (bkUnit c.csr.bksel.toNat)
    let v := bkVdev c.csr.bksel.toNat
    BitVec.ofNat 64 (tget g.weight v 0 + 65536 * tget g.credit v 0)
  | 0x5E0 => BitVec.ofNat 64 ((s.cluster (clusterOf s.cur)).arrived c.vdev c.csr.team + 256 * c.csr.team.toNat)
  | 0x5E1 => BitVec.ofNat 64 c.csr.gbsel
  | 0x5E2 =>
    (match c.gbOpen with
     | some g => BitVec.ofNat 64 ((2 ^ g.sent - 1) % 65536 + 65536 * g.rcvd.toNat + 2 ^ 32)
     | none => 0)
  | 0x5E3 => BitVec.ofNat 64 (teamstg c.csr.stgEn c.csr.stgMask)
  | _ =>
    if 0x810 ≤ a ∧ a < 0x814 then c.evs.sel.getD (a - 0x810) 0
    else if 0x814 ≤ a ∧ a < 0x818 then c.evs.cnt.getD (a - 0x814) 0
    else if 0xC03 ≤ a ∧ a < 0xC07 then c.evs.cnt.getD (a - 0xC03) 0
    else if 0x820 ≤ a ∧ a < 0x824 then c.dbg.dba.getD (a - 0x820) 0
    else if 0x824 ≤ a ∧ a < 0x828 then c.dbg.dbm.getD (a - 0x824) 0
    else if 0x828 ≤ a ∧ a < 0x82C then c.dbg.dwa.getD (a - 0x828) 0
    else if 0x82C ≤ a ∧ a < 0x830 then c.dbg.dwm.getD (a - 0x82C) 0
    else 0

/-! ### Writing -/

/-- What a write of a register does: it is applied, it waits, or it is illegal. -/
inductive Written where
  | ok (s : State)
  | wait (w : Wait)
  | illegal
deriving DecidableEq

/-- KTOL's and KFLOOR's stored values (R84). -/
def ktolOf (v : Word) : BitVec 32 :=
  let t := v.toNat % 2 ^ 31
  BitVec.ofNat 32 (if bitsOf t 23 8 = 255 then 0x7F7FFFFF else t)

def kfloorOf (v : Word) : BitVec 32 :=
  let t := v.toNat % 2 ^ 31
  BitVec.ofNat 32 (if bitsOf t 23 8 = 255 then 0x7F7FFFFF else if t < 0x00800000 then 0x00800000 else t)

/-- A match control as stored (R423): a frame with S = 0 stores its own device. -/
def matchOf (v : Word) (watch sup : Bool) (vdev : Nat) : Word :=
  let n := v.toNat
  BitVec.ofNat 64 (bitsOf n 0 6 + 128 * bitsOf n 7 7 + 65536 * (if sup then bitsOf n 16 6 else vdev) +
    2 ^ 22 * (bitOf n 22).toNat + (if watch then 2 ^ 26 * bitsOf n 26 6 else 0))

/-- Sets an element of a four-register file. -/
def set4 (r : Vector Word 4) (i : Nat) (v : Word) : Vector Word 4 := if h : i < 4 then r.set i v else r

/-- EVOVF after a write (R379). -/
def evovfOf (old v : Word) : Word :=
  BitVec.ofNat 64 ((bitsOf old.toNat 56 8 &&& (255 - bitsOf v.toNat 56 8)) * 2 ^ 56 + 64 * bitsOf v.toNat 6 42 + v.toNat % 2)

/-- Whether a rectangle may become a saggar (R358, R409). -/
def State.rectOk (s : State) (k r : Nat) : Bool :=
  let w := rectWidth r
  let h := rectHeight r
  !(w == 0) && !(h == 0) && decide (rectCol r + w ≤ 64) && decide (rectRow r + h ≤ 32) &&
  s.sags.all (fun e => e.1 == k || !e.2.en ||
    decide (rectCol r + w ≤ rectCol e.2.rect) || decide (rectCol e.2.rect + rectWidth e.2.rect ≤ rectCol r) ||
    decide (rectRow r + h ≤ rectRow e.2.rect) || decide (rectRow e.2.rect + rectHeight e.2.rect ≤ rectRow r)) &&
  (List.range h).all (fun i => (List.range w).all (fun j =>
    !((s.cluster (clusterOf (epAt (rectCol r + j) (rectRow r + i) 0))).cstate == 2)))

/-- SGRECT (R358). -/
def State.writeSgrect (s : State) (v : Word) : Written :=
  let k := s.me.csr.sgsel
  let g := s.sag k
  let r := v.toNat % 2 ^ 24
  let en := bitOf v.toNat 63
  let held := (List.range 64).any (fun d => !(tget g.weight d 0 == 0) && (s.vdevOf d).launched)
  if en && !s.rectOk k r then .illegal
  else if g.en && !(r == g.rect) then .illegal
  else if !en && held then .illegal
  else .ok (s.onSag k (fun h => { h with en := en, rect := r }))

/-- VDCTL (R356, R444). -/
def State.writeVdctl (s : State) (v : Word) : Written :=
  let d := v.toNat % 64
  if s.busy d then .illegal
  else match bitsOf v.toNat 6 2 with
  | 0 => .ok s
  | 1 => if s.mayLaunch d then .ok (s.launchDevice d) else .illegal
  | 2 => if (s.vdevOf d).launched then .ok (s.resetDevice d) else .illegal
  | _ => if (s.vdevOf d).launched then .ok (s.teardownDevice d) else .illegal

/-- BKCFG (R338, R342, R345). -/
def State.writeBkcfg (s : State) (v : Word) : State :=
  let w := s.me.csr.bksel.toNat
  let k := bkKind w
  let a := s.arb k (bkUnit w)
  let key := bucketKey k (bkVdev w) (bkClass w)
  let b := tget a.buckets key Bucket.reset
  let depth := max (arbMax k) (bitsOf v.toNat 16 16)
  let lend := bitOf v.toNat 32
  let nb : Bucket := { rate := bitsOf v.toNat 0 16, depth := depth, lend := lend, borrow := bitOf v.toNat 33,
                       tok := min depth b.tok, fr := b.fr }
  s.setArb k (bkUnit w) { a with
    buckets := tset a.buckets key nb, enforcing := true,
    pool := if lend then min 4096 (a.pool + (b.tok - depth)) else a.pool }

/-- SLWT (R348, R352). -/
def State.writeSlwt (s : State) (v : Word) : State :=
  let w := s.me.csr.bksel.toNat
  let d := bkVdev w
  let n := v.toNat % 65536
  let old := tget (s.sag (bkUnit w)).weight d 0
  if (s.vdevOf d).launched && !((n == 0) == (old == 0)) then s
  else s.onSag (bkUnit w) (fun g => { g with weight := tput g.weight d n 0 })

/-- TBCTL (R429): a withdrawal frees the arrival's reservation. -/
def State.writeTbctl (s : State) (v : Word) : State :=
  if !bitOf v.toNat 16 then s
  else
    let mine := fun (a : Arrival) => a.core == s.cur && a.vdev == s.me.vdev
    match (s.cluster (clusterOf s.cur)).arr.find? mine with
    | none => s
    | some a =>
      let s1 := s.onCluster (clusterOf s.cur) (fun k => { k with arr := k.arr.filter (fun b => !mine b) })
      if a.succ.isSome then s1.freeSpill s.cur a.vdev else s1

/-- GBSTAT (R430): a withdrawal frees the entry and the reservation. -/
def State.writeGbstat (s : State) (v : Word) : State :=
  if !bitOf v.toNat 33 then s
  else match s.me.gbOpen with
  | none => s
  | some g =>
    let s1 := s.onMe (fun c => { c with gbars := c.gbars.filter (fun h => !(h.bid == g.bid)) })
    if g.succ.isSome then s1.freeSpill s.cur g.vdev else s1

/-- TEAMSTG (R83). -/
def State.writeTeamstg (s : State) (v : Word) : Written :=
  if bitOf v.toNat 8 && !bitOf v.toNat (coreNo s.cur) then .illegal
  else .ok (s.onMe (fun c => { c with csr := { c.csr with stgEn := bitOf v.toNat 8, stgMask := v.setWidth 8 } }))

/-- KTOL and KFLOOR (R84, R208): the write waits for the frame's queued kiln commands. -/
def State.writeK (s : State) (floor : Bool) (v : Word) : Written :=
  if s.kilnBusy s.cur s.frame.level then .wait .kilnRetire
  else
    .ok (s.onMe (fun c =>
      let k := tget c.sets c.run.level KSet.reset
      { c with sets := tset c.sets c.run.level (if floor then { k with kfloor := kfloorOf v } else { k with ktol := ktolOf v }) }))

/-- SUCC (R81): ARM and the address bits [63:6]. -/
def State.writeSucc (s : State) (v : Word) : State := s.onFrame (fun f => { f with succ := v &&& ~~~62#64 })

/-- A write of a register that may be written. -/
def State.csrWrite (s : State) (a : Nat) (v : Word) : Written :=
  let n := v.toNat
  let onCsr := fun (g : Csrs → Csrs) => Written.ok (s.onMe (fun c => { c with csr := g c.csr }))
  let onEvs := fun (g : Evs → Evs) => Written.ok (s.onMe (fun c => { c with evs := g c.evs }))
  let onDbg := fun (g : Dbg → Dbg) => Written.ok (s.onMe (fun c => { c with dbg := g c.dbg }))
  let m := matchOf v false s.frame.sup s.me.vdev
  match a with
  | 0x800 => .ok (s.onFrame (fun f => f.writeTstat v))
  | 0x802 => onCsr (fun c => { c with holdm := v &&& ~~~1#64 })
  | 0x803 => .ok (s.onFrame (fun f => { f with deadm := deadmOf v }))
  | 0x804 => .ok (s.writeSucc v)
  | 0x808 => s.writeK false v
  | 0x809 => s.writeK true v
  | 0x80A => .ok (s.onKiln (quadOf s.cur) (fun k => { k with keeper := tset k.keeper s.frame.level (v &&& 7#64) }))
  | 0x818 => onEvs (fun e => { e with ovf := evovfOf e.ovf v })
  | 0x830 => onDbg (fun d => { d with stepc := m })
  | 0x5C0 => onCsr (fun c => { c with cki := ckiOf (n % 2 ^ 19) })
  | 0x5C1 => onCsr (fun c => { c with ceilsel := n % 64 })
  | 0x5C2 => .ok (s.onMe (fun c => { c with ceil := tput c.ceil c.csr.ceilsel (n % 8) 0 }))
  | 0x5C3 => onCsr (fun c => { c with gpv := v })
  | 0x5C4 => onCsr (fun c => { c with traptb := traptbOf n })
  | 0x5C5 => onCsr (fun c => { c with maxprio := maxprioOf (n % 8) })
  | 0x5C6 => onCsr (fun c => { c with corenxr := bitOf n 0 })
  | 0x5C7 => onCsr (fun c => { c with xroot := xrootOf n })
  | 0x5C8 => onCsr (fun c => { c with sgsel := n % 64 })
  | 0x5C9 => s.writeSgrect v
  | 0x5CA => s.writeVdctl v
  | 0x5D0 => onCsr (fun c => { c with bksel := v &&& 0xFFFFFFFFFF3F#64 })
  | 0x5D1 => .ok (s.writeBkcfg v)
  | 0x5D3 => .ok ({ s with shared := bitsOf n 16 16 }.onVdev (bkVdev s.me.csr.bksel.toNat) (fun d => { d with wayMask := n % 65536 }))
  | 0x5D4 => .ok (s.writeSlwt v)
  | 0x5E0 => .ok (s.writeTbctl v)
  | 0x5E1 => onCsr (fun c => { c with gbsel := n % 2 ^ 32 })
  | 0x5E2 => .ok (s.writeGbstat v)
  | 0x5E3 => s.writeTeamstg v
  | _ =>
    if 0x810 ≤ a ∧ a < 0x814 then onEvs (fun e => { e with sel := set4 e.sel (a - 0x810) (v &&& 0xFFFF#64) })
    else if 0x814 ≤ a ∧ a < 0x818 then onEvs (fun e => { e with cnt := set4 e.cnt (a - 0x814) (v &&& 0xFFFFFFFFFFFF#64) })
    else if 0x820 ≤ a ∧ a < 0x824 then onDbg (fun d => { d with dba := set4 d.dba (a - 0x820) (v &&& 0xFFFFFFFFFFFC#64) })
    else if 0x824 ≤ a ∧ a < 0x828 then onDbg (fun d => { d with dbm := set4 d.dbm (a - 0x824) m })
    else if 0x828 ≤ a ∧ a < 0x82C then onDbg (fun d => { d with dwa := set4 d.dwa (a - 0x828) (v &&& 0xFFFFFFFFFFFF#64) })
    else if 0x82C ≤ a ∧ a < 0x830 then
      onDbg (fun d => { d with dwm := set4 d.dwm (a - 0x82C) (matchOf v true s.frame.sup s.me.vdev) })
    else .ok s

/-! ### The Zicsr instructions (R77, R207) -/

/-- Registers that act on another unit: an access stalls for the unit's answer (R23, R343). -/
def csrRemote (a : Nat) : Bool := decide (0x5D1 ≤ a) && decide (a ≤ 0x5D4)

/-- Whether an access of a register still has to wait for its unit. -/
def Core.csrWaits (c : Core) (a : Nat) : Bool := csrRemote a && !(c.stalled == some .remoteCsr)

/-- Retires an instruction that has written a register. What it counts itself goes by the selections before its write
(R208), and not to the counter that it wrote (R383); the step control before its write decides whether it is stepped (R208,
R427). -/
def State.retireWrite (s t : State) (a : Nat) : State :=
  let old := s.me.evs.sel
  let during := if 0x814 ≤ a ∧ a < 0x818 then set4 old (a - 0x814) 0 else old
  let put := fun (u : State) (sel : Vector Word 4) => u.onMe (fun c => { c with evs := { c.evs with sel := sel } })
  put ((put t during).retireUnder s.me.dbg.stepc (t.frame.pc + 4) 2) t.me.evs.sel

/-- A Zicsr instruction's own part: `f` gives the value written, if it writes. A reset of the device that runs here ends
the frame, which then retires nothing. -/
def csrOp (i : Instr) (rd : XReg) (csr : BitVec 12) (f : Option (Word → Word)) (s : State) : State :=
  let a := csr.toNat
  if !s.csrOk a then s.illegal i
  else
    let old := s.csrRead a
    match f with
    | none => if s.me.csrWaits a then s.stall .remoteCsr else (s.setX rd old).retire 1
    | some g =>
      if csrReadOnly a then s.illegal i
      else if s.me.csrWaits a then s.stall .remoteCsr
      else match s.csrWrite a (g old) with
      | .illegal => s.illegal i
      | .wait w => s.stall w
      | .ok t => if t.frame.fid = s.frame.fid then s.retireWrite (t.setX rd old) a else t

/-- The value of an immediate form (R191). -/
def zext5 (z : BitVec 5) : Word := z.setWidth 64

/-- CSRRW (R207). -/
def execCsrrw (rd rs1 : XReg) (csr : BitVec 12) (s : State) : Out :=
  s.run (.csrrw rd rs1 csr) [rs1] [] rd (fun t => csrOp (.csrrw rd rs1 csr) rd csr (some (fun _ => t.x rs1)) t)

/-- CSRRS (R207). -/
def execCsrrs (rd rs1 : XReg) (csr : BitVec 12) (s : State) : Out :=
  s.run (.csrrs rd rs1 csr) [rs1] [] rd (fun t =>
    csrOp (.csrrs rd rs1 csr) rd csr (if rs1 = 0 then none else some (fun o => o ||| t.x rs1)) t)

/-- CSRRC (R207). -/
def execCsrrc (rd rs1 : XReg) (csr : BitVec 12) (s : State) : Out :=
  s.run (.csrrc rd rs1 csr) [rs1] [] rd (fun t =>
    csrOp (.csrrc rd rs1 csr) rd csr (if rs1 = 0 then none else some (fun o => o &&& ~~~(t.x rs1))) t)

/-- CSRRWI (R207). -/
def execCsrrwi (rd : XReg) (csr : BitVec 12) (zimm : BitVec 5) (s : State) : Out :=
  s.run (.csrrwi rd csr zimm) [] [] rd (fun t => csrOp (.csrrwi rd csr zimm) rd csr (some (fun _ => zext5 zimm)) t)

/-- CSRRSI (R207). -/
def execCsrrsi (rd : XReg) (csr : BitVec 12) (zimm : BitVec 5) (s : State) : Out :=
  s.run (.csrrsi rd csr zimm) [] [] rd (fun t =>
    csrOp (.csrrsi rd csr zimm) rd csr (if zimm = 0 then none else some (fun o => o ||| zext5 zimm)) t)

/-- CSRRCI (R207). -/
def execCsrrci (rd : XReg) (csr : BitVec 12) (zimm : BitVec 5) (s : State) : Out :=
  s.run (.csrrci rd csr zimm) [] [] rd (fun t =>
    csrOp (.csrrci rd csr zimm) rd csr (if zimm = 0 then none else some (fun o => o &&& ~~~(zext5 zimm))) t)

/-! ### The writes with an effect of their own

The opcode table lists these register writes as steps of their own: each is what a Zicsr write of that register does to
the current core, without the instruction's retirement (log entry 30). -/

/-- The write step of a register: R77's refusals trap, with the word of a CSRRW of that register. -/
def State.csrStep (s : State) (csr : BitVec 12) (v : Word) : State :=
  let i : Instr := .csrrw 0 0 csr
  if !s.csrOk csr.toNat || csrReadOnly csr.toNat then s.illegal i
  else match s.csrWrite csr.toNat v with
  | .illegal => s.illegal i
  | .wait w => s.stall w
  | .ok t => t

/-- TEAMSTG_WRITE (R83). -/
def execTeamstgWrite (v : BitVec 64) (s : State) : Out := .next (s.csrStep 0x5E3#12 v)

/-- KTOL_KFLOOR_WRITE (R84, R208): `csr` 0x809 is KFLOOR, every other KTOL. -/
def execKtolKfloorWrite (csr : BitVec 12) (v : BitVec 64) (s : State) : Out :=
  .next (s.csrStep (if csr = 0x809#12 then 0x809#12 else 0x808#12) v)

/-- SUCC_CSR_WRITE (R81). -/
def execSuccCsrWrite (v : BitVec 64) (s : State) : Out := .next (s.csrStep 0x804#12 v)

/-- TBCTL_WITHDRAW (R429). -/
def execTbctlWithdraw (s : State) : Out := .next (s.csrStep 0x5E0#12 0x10000#64)

/-- GBSTAT_WITHDRAW (R430). -/
def execGbstatWithdraw (s : State) : Out := .next (s.csrStep 0x5E2#12 0x200000000#64)

/-- BKCFG_WRITE (R345). -/
def execBkcfgWrite (v : BitVec 64) (s : State) : Out := .next (s.csrStep 0x5D1#12 v)

/-- SGRECT_WRITE (R358). -/
def execSgrectWrite (v : BitVec 64) (s : State) : Out := .next (s.csrStep 0x5C9#12 v)

/-- REGISTER_WRITE (R207). -/
def execRegisterWrite (csr : BitVec 12) (v : BitVec 64) (s : State) : Out := .next (s.csrStep csr v)

end Sys2Proof.Machine
end

