-- ==== Sys2Proof/Machine/Fetch.lean ====
section
/-! DEFINITION. Fetching an instruction word (R162, R163). -/

namespace Sys2Proof.Machine

/-- What a fetch answers. -/
inductive Fetched where
  | word (w : BitVec 32)
  | fault (cause : Nat)
  | poison (pa : Nat)
  | wait
deriving DecidableEq, Repr

/-- The instruction line of an address, kept until a FENCE.I (R159, R205, log entry 14): the one held; else the sector as the
core's L1 holds it, so that an acquire is what makes another core's write show; else as its home slice in this chip holds it,
once it has brought the sector in (R129, R136). A home on another chip is asked for the sector (R136): none while it is on its way, or where it was refused. -/
def State.codeLine (s : State) (x : Xlat) : Option ILine × State :=
  let c := s.me
  match c.ilines.find? (fun l => l.home == x.home && l.sector == x.pa / 128) with
  | some l => (some l, s)
  | none =>
    let base := x.pa - x.pa % 128
    let keep := fun (u : State) (data : List Byte) (pois : List Nat) =>
      let l : ILine := { home := x.home, sector := x.pa / 128, data := data, pois := pois }
      (some l, u.onMe (fun d => { d with ilines := l :: d.ilines, fetching := none }))
    match c.l1Find x.home x.pa with
    | some l => keep s (l.bytes (base % 512) 128) ((List.range 16).filter (fun i => l.pois.contains (base % 512 / 8 + i)))
    | none =>
      if x.chip == s.chip then
        let t := s.bring (x.home % 65536) x.set c.vdev x.pa false
        if t.hasSector (x.home % 65536) x.set x.pa then
          let h := t.atHome x.home x.set x.pa
          keep t (h.readBytes base 128) ((List.range 16).filter (fun i => h.isPoison (base + 8 * i)))
        else (none, t)
      else if c.fetching.any (fun f => f.2.1.home == x.home && f.2.1.pa == base) then (none, s)
      else
        (none, (s.onMe (fun d => { d with nextId := d.nextId + 1, fetching := some (c.nextId, { x with pa := base }, false) })).askFill
          s.cur c.nextId x)

/-- The instruction word at a virtual address: a translated address whose page grants X (R163), little-endian (R162).
A PC that is not a multiple of 4 faults as the word it names cannot be fetched. -/
def State.fetch (s : State) (va : Word) : Fetched × State :=
  if va.toNat % 4 ≠ 0 then (.fault 8, s)
  else
    let r := s.translate s.asker va.toNat 4 .x
    let t := r.2
    match r.1 with
    | .glob x =>
      (match t.codeLine x with
       | (some l, u) =>
         let b := fun (i : Nat) => l.data.getD (x.pa % 128 + i) 0
         (if l.pois.contains ((x.pa % 128) / 8) then .poison x.pa else .word (wordOfBytes (b 0) (b 1) (b 2) (b 3)), u)
       | (none, u) =>
         -- a refused fill: the access fault, and the next fetch asks again (log entry 26)
         if u.me.fetching.any (fun f => f.2.2) then (.fault 8, u.onMe (fun d => { d with fetching := none })) else (.wait, u))
    | .bad c => (.fault c, t)
    | .poison pa => (.poison pa, t)
    | .ats => (.wait, t)
    | _ => (.fault 8, t)

end Sys2Proof.Machine
end

