-- ==== Sys2Proof/Machine/One.lean ====
section
/-! DEFINITION. ONE (R43, R58, R59, R155, R174, R175, R231, R349). -/

namespace Sys2Proof.Machine

/-- The destination of a governed instruction, for the instructions that R174 allows. -/
def governedRd : Instr → Option XReg
  | .lui rd _ | .auipc rd _ => some rd
  | .addi rd _ _ | .slti rd _ _ | .sltiu rd _ _ | .xori rd _ _ | .ori rd _ _ | .andi rd _ _ | .addiw rd _ _ => some rd
  | .slli rd _ _ | .srli rd _ _ | .srai rd _ _ | .slliw rd _ _ | .srliw rd _ _ | .sraiw rd _ _ => some rd
  | .add rd _ _ | .sub rd _ _ | .sll rd _ _ | .slt rd _ _ | .sltu rd _ _ | .xor rd _ _ | .srl rd _ _ | .sra rd _ _
  | .or rd _ _ | .and rd _ _ | .mul rd _ _ | .mulh rd _ _ | .mulhsu rd _ _ | .mulhu rd _ _ | .div rd _ _
  | .divu rd _ _ | .rem rd _ _ | .remu rd _ _ => some rd
  | .addw rd _ _ | .subw rd _ _ | .sllw rd _ _ | .srlw rd _ _ | .sraw rd _ _ | .mulw rd _ _ | .divw rd _ _
  | .divuw rd _ _ | .remw rd _ _ | .remuw rd _ _ => some rd
  | .lb rd _ _ | .lh rd _ _ | .lw rd _ _ | .ld rd _ _ | .lbu rd _ _ | .lhu rd _ _ | .lwu rd _ _ => some rd
  | .csrrs rd rs1 _ | .csrrc rd rs1 _ => if rs1 = 0 then some rd else none
  | .csrrsi rd _ z | .csrrci rd _ z => if z = 0 then some rd else none
  | .qlen rd _ => some rd
  | _ => none

/-- The meaning of a governed instruction other than a load. AUIPC adds to its own address, which follows the ONE's. -/
def governedExec (i : Instr) (s : State) : Out :=
  match i with
  | .lui rd imm => execLui rd imm s
  | .auipc rd imm => aluU (.auipc rd imm) rd (fun t => t.frame.pc + 4 + immU imm) s
  | .addi rd rs1 imm => execAddi rd rs1 imm s
  | .slti rd rs1 imm => execSlti rd rs1 imm s
  | .sltiu rd rs1 imm => execSltiu rd rs1 imm s
  | .xori rd rs1 imm => execXori rd rs1 imm s
  | .ori rd rs1 imm => execOri rd rs1 imm s
  | .andi rd rs1 imm => execAndi rd rs1 imm s
  | .addiw rd rs1 imm => execAddiw rd rs1 imm s
  | .slli rd rs1 sh => execSlli rd rs1 sh s
  | .srli rd rs1 sh => execSrli rd rs1 sh s
  | .srai rd rs1 sh => execSrai rd rs1 sh s
  | .slliw rd rs1 sh => execSlliw rd rs1 sh s
  | .srliw rd rs1 sh => execSrliw rd rs1 sh s
  | .sraiw rd rs1 sh => execSraiw rd rs1 sh s
  | .add rd rs1 rs2 => execAdd rd rs1 rs2 s
  | .sub rd rs1 rs2 => execSub rd rs1 rs2 s
  | .sll rd rs1 rs2 => execSll rd rs1 rs2 s
  | .slt rd rs1 rs2 => execSlt rd rs1 rs2 s
  | .sltu rd rs1 rs2 => execSltu rd rs1 rs2 s
  | .xor rd rs1 rs2 => execXor rd rs1 rs2 s
  | .srl rd rs1 rs2 => execSrl rd rs1 rs2 s
  | .sra rd rs1 rs2 => execSra rd rs1 rs2 s
  | .or rd rs1 rs2 => execOr rd rs1 rs2 s
  | .and rd rs1 rs2 => execAnd rd rs1 rs2 s
  | .mul rd rs1 rs2 => execMul rd rs1 rs2 s
  | .mulh rd rs1 rs2 => execMulh rd rs1 rs2 s
  | .mulhsu rd rs1 rs2 => execMulhsu rd rs1 rs2 s
  | .mulhu rd rs1 rs2 => execMulhu rd rs1 rs2 s
  | .div rd rs1 rs2 => execDiv rd rs1 rs2 s
  | .divu rd rs1 rs2 => execDivu rd rs1 rs2 s
  | .rem rd rs1 rs2 => execRem rd rs1 rs2 s
  | .remu rd rs1 rs2 => execRemu rd rs1 rs2 s
  | .addw rd rs1 rs2 => execAddw rd rs1 rs2 s
  | .subw rd rs1 rs2 => execSubw rd rs1 rs2 s
  | .sllw rd rs1 rs2 => execSllw rd rs1 rs2 s
  | .srlw rd rs1 rs2 => execSrlw rd rs1 rs2 s
  | .sraw rd rs1 rs2 => execSraw rd rs1 rs2 s
  | .mulw rd rs1 rs2 => execMulw rd rs1 rs2 s
  | .divw rd rs1 rs2 => execDivw rd rs1 rs2 s
  | .divuw rd rs1 rs2 => execDivuw rd rs1 rs2 s
  | .remw rd rs1 rs2 => execRemw rd rs1 rs2 s
  | .remuw rd rs1 rs2 => execRemuw rd rs1 rs2 s
  | .csrrs rd rs1 csr => execCsrrs rd rs1 csr s
  | .csrrc rd rs1 csr => execCsrrc rd rs1 csr s
  | .csrrsi rd csr z => execCsrrsi rd csr z s
  | .csrrci rd csr z => execCsrrci rd csr z s
  | .qlen rd q => execQlen rd q s
  | _ => .next s

/-- The fields of a load: rd, rs1, offset, bytes, sign extension (R192). -/
def loadParts : Instr → Option (XReg × XReg × BitVec 12 × Nat × Bool)
  | .lb rd rs1 imm => some (rd, rs1, imm, 1, true)
  | .lh rd rs1 imm => some (rd, rs1, imm, 2, true)
  | .lw rd rs1 imm => some (rd, rs1, imm, 4, true)
  | .ld rd rs1 imm => some (rd, rs1, imm, 8, true)
  | .lbu rd rs1 imm => some (rd, rs1, imm, 1, false)
  | .lhu rd rs1 imm => some (rd, rs1, imm, 2, false)
  | .lwu rd rs1 imm => some (rd, rs1, imm, 4, false)
  | _ => none

/-- Whether an instance is the one that a core reaches next: its count, its team, not yet passed by this core (R58). -/
def OneInst.isNext (o : OneInst) (c : Core) (ep : Nat) : Bool :=
  decide (o.count = c.oneN + 1) && o.vdev == c.vdev && o.team == c.csr.team && !o.passed.getLsbD (coreNo ep)

/-- Changes the instance that the current core is at. -/
def State.onOne (s : State) (f : OneInst → OneInst) : State :=
  let c := s.me
  s.onCluster (clusterOf s.cur) (fun k => { k with ones := k.ones.map (fun o => if o.isNext c s.cur then f o else o) })

/-- Removes the L1 sector of an address from every member's L1, and bars the fills of it that are on their way (R155). -/
def State.dropSector (s : State) (team : BitVec 8) (chip pa : Nat) : State :=
  (maskCores team.toNat).foldl (fun t i => t.onCore (8 * clusterOf s.cur + i) (fun c => { c with
    l1 := c.l1.map (fun l =>
      if l.home / 65536 == chip && l.line == pa / 512 then
        { l with valid := l.valid &&& ~~~(BitVec.ofNat 4 (2 ^ ((pa / 128) % 4))) } else l),
    fills := c.fills.map (fun w => if w.home / 65536 = chip ∧ w.sector = pa / 128 then { w with barred := true } else w) })) s

/-- Passes the instance: the count, and the PC behind the governed instruction, with no boundary between (R43, R59). -/
def State.passOne (s : State) (pc : Word) : State :=
  (s.onOne (fun o => { o with passed := o.passed ||| BitVec.ofNat 8 (2 ^ coreNo s.cur) })).onMe (fun c =>
    { c with oneN := c.oneN + 1, run := { c.run with pc := pc + 8, lastPc := pc } })

/-- The elected member's governed instruction has retired: the result, the instance passed, both instructions counted,
and a checkpoint (R59, R87, R175, R368). -/
def State.finishOne (s : State) (pc v : Word) (bad : Bool) : State :=
  let s1 := (s.onOne (fun o => { o with result := some (v, bad), load := none, got := none })).passOne pc
  let s2 := s1.onMe (fun c => { c with instret := c.instret + 1 })
  ((s2.spend s.cur 1).count s.cur 2 1).ckCycle s.cur

/-- A governed load of remote data: asked for once, awaited at the ONE (R155). -/
def State.oneAsk (s : State) (x : Xlat) (n : Nat) (sg : Bool) (glob : Option (Nat × Nat × Nat × Bool))
    (ask : Nat → State → State) : State :=
  if 4 ≤ s.me.loads.length then s.stall .loads
  else
    let id := s.me.nextId
    let d : Load := { id := id, rd := 0, n := n, signed := sg, x := x, own := [], pc := s.frame.pc + 4 }
    let s1 := (s.onOne (fun o => { o with load := some id, glob := glob })).onMe (fun c =>
      { c with loads := c.loads ++ [d], nextId := id + 1 })
    (ask id s1).stall .one

/-- The elected member's load (R155, R199): remote data is awaited at the ONE; poisoned data is consumed, and a refused
request fills the register as LDR's does (log entry 26). -/
def State.oneLoad (s : State) (o : OneInst) (rd : XReg) (a : Word) (n : Nat) (sg : Bool) : State :=
  match o.load, o.got with
  | some _, _ => s.stall .one
  | none, some (v, how) =>
    if how = 1 then s.consume (match o.glob with
      | some (_, pa, _) => pa
      | none => 0)
    else
      let w := s.oneValue s.cur o v
      let t := (s.onFrame (fun f => f.fillX rd (if how = 2 then v else w) (decide (how = 2)))).watch a n 1
      match o.glob with
      | some (chip, pa, _) => (t.dropSector o.team chip pa).retire 1
      | none => t.retire 1
  | none, none =>
    if a.toNat % n ≠ 0 then s.trap 6 a
    else if s.carveHolds a.toNat then s.stall .mmio
    else
      let r := s.translate s.asker a.toNat n .r
      let t := r.2
      match r.1 with
      | .spad e off =>
        if e = s.cur || t.locked s.cur (.spad e off) a.toNat n false || (byArray a.toNat && t.arrayBusy s.cur (s.epId e)) then
          s.load rd a n sg
        else t.oneAsk (arrayXlat s.chip (s.epId e) (arrayBase e + off)) n sg none
          (fun id u => u.sendSpad s.cur e (.spadLoad id off n))
      | .spadFar chip e off =>
        if t.locked s.cur (.spadFar chip e off) a.toNat n false then t.lockTrap a
        else if t.arrayBusy s.cur (chip * 65536 + e) then t.stall .mmio
        else t.oneAsk (arrayXlat chip (chip * 65536 + e) (arrayBase e + off)) n sg none
          (fun id u => u.send (u.pktFrom s.cur (chip * 65536 + e) 0 16 (.spadLoad id off n)))
      | .mmioFar chip pa =>
        if !mmioAllowed t.frame.sup pa n then t.trap 8 a
        else if t.arrayBusy s.cur (chip * 65536) then t.stall .mmio
        else t.oneAsk (arrayXlat chip (chip * 65536) pa) n sg none
          (fun id u => u.send (u.pktFrom s.cur (chip * 65536) 0 16 (.mmioLoad id pa n t.frame.sup)))
      | .glob x =>
        if t.locked s.cur (.glob x) a.toNat n false then t.lockTrap a
        else if !t.me.acqs.isEmpty then t.stall .acquire
        else
          let mine := t.me.pub.log.filter (fun q => decide (q.addr = x.pa - x.pa % 8) && !(q.owner == .acked) &&
            q.chip t t.cur t.me.vdev == x.chip)
          if mine.any (fun q => q.owner == .free) then
            (if t.me.pub.exhausted then t.trap 24 (BitVec.ofNat 64 t.me.pub.lseq)
             else t.releaseOnce.stall .one)
          else if !mine.isEmpty then t.stall .one
          else t.oneAsk x n sg (some (x.chip, x.pa, n, sg))
            (fun id u => u.send (u.pktFrom s.cur x.home 0 16 (.ldr id x.pa x.set n false)))
      | _ => s.load rd a n sg

/-- The state of an outcome that is a next state. -/
def outState (d : State) : Out → State
  | .next t => t
  | _ => d

/-- The elected member runs the governed instruction (R59, R175): its result when it retires; on a trap the instance
stays open with no elected member. -/
def State.oneElected (s : State) (o : OneInst) (i : Instr) (rd : XReg) : State :=
  let s0 := s.onMe (fun c => { c with
    stalled := if c.stalled == some .mmio || c.stalled == some .remoteCsr then c.stalled else none })
  let pc := s.frame.pc
  let t := match loadParts i with
    | some (rd, rs1, imm, n, sg) => outState s0 (s0.run i [rs1] [] rd (fun u => u.oneLoad o rd (u.x rs1 + immI imm) n sg))
    | none => outState s0 (governedExec i s0)
  if t.me.instret ≠ s.me.instret then
    let v := match o.got with
      | some (v, _) => v
      | none => t.x rd
    t.finishOne pc v (t.frame.isPois rd)
  else if t.me.stalled.isSome then t
  else t.onCluster (clusterOf s.cur) (fun k => { k with ones := k.ones.map (fun q =>
    if q.isNext s.me s.cur then { q with elected := none, load := none, got := none, glob := none } else q) })

/-- A member that is not elected skips the governed instruction, its destination empty until the result, which fills it
at once if it is known (R59). -/
def State.oneFollow (s : State) (o : OneInst) (rd : XReg) : State :=
  match s.regGate [] [] rd with
  | .done t => t
  | .go t =>
    let e := (t.cur, t.frame.fid, rd)
    let t1 := t.onFrame (fun f => f.setEmpty rd)
    let t2 := match o.result with
      | some _ => t1.fillOne o e
      | none => t1.onOne (fun q => { q with follow := q.follow ++ [e] })
    let pc := t.frame.pc
    (t2.retireTo (pc + 8) 1).passOne pc

/-- Opens the instance and elects the current core; a 17th instance waits until the oldest has been passed by all
members (R59, R349). -/
def State.openOne (s : State) : Option (OneInst × State) :=
  let c := s.me
  let k := clusterOf s.cur
  let mine := (s.cluster k).ones.filter (fun o => o.vdev == c.vdev && o.team == c.csr.team)
  let new : OneInst := { vdev := c.vdev, team := c.csr.team, count := c.oneN + 1, elected := some s.cur, fid := c.run.fid, result := none,
                         follow := [], passed := 0, load := none, got := none, glob := none }
  if mine.length < 16 then some (new, s.onCluster k (fun d => { d with ones := d.ones ++ [new] }))
  else
    match firstBy (fun (a b : OneInst) => decide (a.count < b.count)) mine with
    | some old =>
      if s.onePassed k old then
        let s1 := old.follow.foldl (fun (t : State) e => t.fillOne old e) s
        some (new, s1.onCluster k (fun d => { d with ones := d.ones.filter (fun o => !(o == old)) ++ [new] }))
      else none
    | none => none

/-- An instance with a core elected, for a frame of it: a load that another frame has begun is not that frame's (R231). -/
def OneInst.forFrame (o : OneInst) (ep fid : Nat) : OneInst :=
  if o.elected = some ep ∧ o.fid = fid then o
  else { o with elected := some ep, fid := fid, load := none, got := none, glob := none }

/-- ONE at its instance, with the governed instruction (R59). -/
def State.oneAt (s : State) (i : Instr) (rd : XReg) : State :=
  let c := s.me
  match (s.cluster (clusterOf s.cur)).ones.find? (fun o => o.isNext c s.cur) with
  | none =>
    match s.openOne with
    | none => s.stall .one
    | some (o, t) => t.oneElected o i rd
  | some o =>
    if o.result.isSome then s.oneFollow o rd
    else
      match o.elected with
      | none =>
        let o' := o.forFrame s.cur c.run.fid
        (s.onOne (fun _ => o')).oneElected o' i rd
      | some e =>
        if e = s.cur then
          let o' := o.forFrame s.cur c.run.fid
          (s.onOne (fun _ => o')).oneElected o' i rd
        else s.oneFollow o rd

/-- Whether a breakpoint matches the governed instruction's address; it is taken at the ONE (R175, R425). -/
def Core.breaksNext (c : Core) : Bool := ({ c with run := { c.run with pc := c.run.pc + 4 } } : Core).breaks

/-- ONE (R59, R174, R175): the governed instruction is fetched, checked, and run by the elected member alone. A word that no
instruction has is illegal (R172) before it is no governed instruction (R417); the unit traps at the ONE. -/
def execOne (s : State) : Out :=
  s.run .one [] [] 0 (fun t =>
    if t.me.breaksNext then t.trap 21 (t.frame.pc + 4)
    else
      let r := t.fetch (t.frame.pc + 4)
      match r.1 with
      | .fault c => r.2.trap c (t.frame.pc + 4)
      | .poison pa => r.2.consume pa
      | .wait => r.2.stall .fill
      | .word w =>
        match decode w with
        | .error _ => r.2.trap 1 (w.setWidth 64)
        | .ok i =>
          match governedRd i with
          | none => r.2.trap 2 (wordOf .one)
          | some rd => if rd = 0 then r.2.trap 2 (wordOf .one) else r.2.oneAt i rd)

end Sys2Proof.Machine
end

