-- ==== Sys2Proof/Machine/Dispatch.lean ====
section
/-! DEFINITION. The dispatch: one arm for each constructor of `Instr`, one call of its meaning. -/

namespace Sys2Proof.Machine

/-- What an instruction or a hardware step does. -/
def exec (i : Instr) (s : State) : Host.Outcome State Fault Refusal :=
  match i with
  | .lui rd imm => Sys2Proof.Machine.execLui rd imm s
  | .auipc rd imm => Sys2Proof.Machine.execAuipc rd imm s
  | .jal rd imm => Sys2Proof.Machine.execJal rd imm s
  | .jalr rd rs1 imm => Sys2Proof.Machine.execJalr rd rs1 imm s
  | .beq rs1 rs2 imm => Sys2Proof.Machine.execBeq rs1 rs2 imm s
  | .bne rs1 rs2 imm => Sys2Proof.Machine.execBne rs1 rs2 imm s
  | .blt rs1 rs2 imm => Sys2Proof.Machine.execBlt rs1 rs2 imm s
  | .bge rs1 rs2 imm => Sys2Proof.Machine.execBge rs1 rs2 imm s
  | .bltu rs1 rs2 imm => Sys2Proof.Machine.execBltu rs1 rs2 imm s
  | .bgeu rs1 rs2 imm => Sys2Proof.Machine.execBgeu rs1 rs2 imm s
  | .lb rd rs1 imm => Sys2Proof.Machine.execLb rd rs1 imm s
  | .lh rd rs1 imm => Sys2Proof.Machine.execLh rd rs1 imm s
  | .lw rd rs1 imm => Sys2Proof.Machine.execLw rd rs1 imm s
  | .ld rd rs1 imm => Sys2Proof.Machine.execLd rd rs1 imm s
  | .lbu rd rs1 imm => Sys2Proof.Machine.execLbu rd rs1 imm s
  | .lhu rd rs1 imm => Sys2Proof.Machine.execLhu rd rs1 imm s
  | .lwu rd rs1 imm => Sys2Proof.Machine.execLwu rd rs1 imm s
  | .sb rs1 rs2 imm => Sys2Proof.Machine.execSb rs1 rs2 imm s
  | .sh rs1 rs2 imm => Sys2Proof.Machine.execSh rs1 rs2 imm s
  | .sw rs1 rs2 imm => Sys2Proof.Machine.execSw rs1 rs2 imm s
  | .sd rs1 rs2 imm => Sys2Proof.Machine.execSd rs1 rs2 imm s
  | .addi rd rs1 imm => Sys2Proof.Machine.execAddi rd rs1 imm s
  | .slti rd rs1 imm => Sys2Proof.Machine.execSlti rd rs1 imm s
  | .sltiu rd rs1 imm => Sys2Proof.Machine.execSltiu rd rs1 imm s
  | .xori rd rs1 imm => Sys2Proof.Machine.execXori rd rs1 imm s
  | .ori rd rs1 imm => Sys2Proof.Machine.execOri rd rs1 imm s
  | .andi rd rs1 imm => Sys2Proof.Machine.execAndi rd rs1 imm s
  | .slli rd rs1 sh => Sys2Proof.Machine.execSlli rd rs1 sh s
  | .srli rd rs1 sh => Sys2Proof.Machine.execSrli rd rs1 sh s
  | .srai rd rs1 sh => Sys2Proof.Machine.execSrai rd rs1 sh s
  | .addiw rd rs1 imm => Sys2Proof.Machine.execAddiw rd rs1 imm s
  | .slliw rd rs1 sh => Sys2Proof.Machine.execSlliw rd rs1 sh s
  | .srliw rd rs1 sh => Sys2Proof.Machine.execSrliw rd rs1 sh s
  | .sraiw rd rs1 sh => Sys2Proof.Machine.execSraiw rd rs1 sh s
  | .add rd rs1 rs2 => Sys2Proof.Machine.execAdd rd rs1 rs2 s
  | .sub rd rs1 rs2 => Sys2Proof.Machine.execSub rd rs1 rs2 s
  | .sll rd rs1 rs2 => Sys2Proof.Machine.execSll rd rs1 rs2 s
  | .slt rd rs1 rs2 => Sys2Proof.Machine.execSlt rd rs1 rs2 s
  | .sltu rd rs1 rs2 => Sys2Proof.Machine.execSltu rd rs1 rs2 s
  | .xor rd rs1 rs2 => Sys2Proof.Machine.execXor rd rs1 rs2 s
  | .srl rd rs1 rs2 => Sys2Proof.Machine.execSrl rd rs1 rs2 s
  | .sra rd rs1 rs2 => Sys2Proof.Machine.execSra rd rs1 rs2 s
  | .or rd rs1 rs2 => Sys2Proof.Machine.execOr rd rs1 rs2 s
  | .and rd rs1 rs2 => Sys2Proof.Machine.execAnd rd rs1 rs2 s
  | .mul rd rs1 rs2 => Sys2Proof.Machine.execMul rd rs1 rs2 s
  | .mulh rd rs1 rs2 => Sys2Proof.Machine.execMulh rd rs1 rs2 s
  | .mulhsu rd rs1 rs2 => Sys2Proof.Machine.execMulhsu rd rs1 rs2 s
  | .mulhu rd rs1 rs2 => Sys2Proof.Machine.execMulhu rd rs1 rs2 s
  | .div rd rs1 rs2 => Sys2Proof.Machine.execDiv rd rs1 rs2 s
  | .divu rd rs1 rs2 => Sys2Proof.Machine.execDivu rd rs1 rs2 s
  | .rem rd rs1 rs2 => Sys2Proof.Machine.execRem rd rs1 rs2 s
  | .remu rd rs1 rs2 => Sys2Proof.Machine.execRemu rd rs1 rs2 s
  | .addw rd rs1 rs2 => Sys2Proof.Machine.execAddw rd rs1 rs2 s
  | .subw rd rs1 rs2 => Sys2Proof.Machine.execSubw rd rs1 rs2 s
  | .sllw rd rs1 rs2 => Sys2Proof.Machine.execSllw rd rs1 rs2 s
  | .srlw rd rs1 rs2 => Sys2Proof.Machine.execSrlw rd rs1 rs2 s
  | .sraw rd rs1 rs2 => Sys2Proof.Machine.execSraw rd rs1 rs2 s
  | .mulw rd rs1 rs2 => Sys2Proof.Machine.execMulw rd rs1 rs2 s
  | .divw rd rs1 rs2 => Sys2Proof.Machine.execDivw rd rs1 rs2 s
  | .divuw rd rs1 rs2 => Sys2Proof.Machine.execDivuw rd rs1 rs2 s
  | .remw rd rs1 rs2 => Sys2Proof.Machine.execRemw rd rs1 rs2 s
  | .remuw rd rs1 rs2 => Sys2Proof.Machine.execRemuw rd rs1 rs2 s
  | .fence fm pred succ => Sys2Proof.Machine.execFence fm pred succ s
  | .fenceI => Sys2Proof.Machine.execFenceI s
  | .ecall => Sys2Proof.Machine.execEcall s
  | .ebreak => Sys2Proof.Machine.execEbreak s
  | .csrrw rd rs1 csr => Sys2Proof.Machine.execCsrrw rd rs1 csr s
  | .csrrs rd rs1 csr => Sys2Proof.Machine.execCsrrs rd rs1 csr s
  | .csrrc rd rs1 csr => Sys2Proof.Machine.execCsrrc rd rs1 csr s
  | .csrrwi rd csr zimm => Sys2Proof.Machine.execCsrrwi rd csr zimm s
  | .csrrsi rd csr zimm => Sys2Proof.Machine.execCsrrsi rd csr zimm s
  | .csrrci rd csr zimm => Sys2Proof.Machine.execCsrrci rd csr zimm s
  | .tend => Sys2Proof.Machine.execTend s
  | .post rd rs1 e1 => Sys2Proof.Machine.execPost rd rs1 e1 s
  | .poste rd rs1 rs2 e1 e2 => Sys2Proof.Machine.execPoste rd rs1 rs2 e1 e2 s
  | .succ rs1 e1 => Sys2Proof.Machine.execSucc rs1 e1 s
  | .dlset rs1 rs2 e1 e2 => Sys2Proof.Machine.execDlset rs1 rs2 e1 e2 s
  | .dlclr => Sys2Proof.Machine.execDlclr s
  | .spawn rd rs1 rs2 e1 e2 => Sys2Proof.Machine.execSpawn rd rs1 rs2 e1 e2 s
  | .claim rs1 e1 => Sys2Proof.Machine.execClaim rs1 e1 s
  | .unclaim rs1 e1 => Sys2Proof.Machine.execUnclaim rs1 e1 s
  | .hold rs1 e1 => Sys2Proof.Machine.execHold rs1 e1 s
  | .unhold rs1 e1 => Sys2Proof.Machine.execUnhold rs1 e1 s
  | .holdm rs1 e1 => Sys2Proof.Machine.execHoldm rs1 e1 s
  | .unholdm rs1 e1 => Sys2Proof.Machine.execUnholdm rs1 e1 s
  | .tbar => Sys2Proof.Machine.execTbar s
  | .gbar rs1 e1 => Sys2Proof.Machine.execGbar rs1 e1 s
  | .carve rs1 e1 => Sys2Proof.Machine.execCarve rs1 e1 s
  | .align => Sys2Proof.Machine.execAlign s
  | .tbarq rd => Sys2Proof.Machine.execTbarq rd s
  | .send rd rs1 rs2 e1 e2 => Sys2Proof.Machine.execSend rd rs1 rs2 e1 e2 s
  | .ldr rd rs1 e1 => Sys2Proof.Machine.execLdr rd rs1 e1 s
  | .ldrw rd rs1 e1 => Sys2Proof.Machine.execLdrw rd rs1 e1 s
  | .tjmp rs1 rs2 e1 e2 => Sys2Proof.Machine.execTjmp rs1 rs2 e1 e2 s
  | .qpush rs1 e1 q => Sys2Proof.Machine.execQpush rs1 e1 q s
  | .qpop rd q => Sys2Proof.Machine.execQpop rd q s
  | .qlen rd q => Sys2Proof.Machine.execQlen rd q s
  | .one => Sys2Proof.Machine.execOne s
  | .fmt f1 f2 => Sys2Proof.Machine.execFmt f1 f2 s
  | .tret => Sys2Proof.Machine.execTret s
  | .tkill => Sys2Proof.Machine.execTkill s
  | .tfrd rd rs1 e1 => Sys2Proof.Machine.execTfrd rd rs1 e1 s
  | .tfwr rs1 rs2 e1 e2 => Sys2Proof.Machine.execTfwr rs1 rs2 e1 e2 s
  | .xinv rs1 rs2 e1 e2 => Sys2Proof.Machine.execXinv rs1 rs2 e1 e2 s
  | .ckpt => Sys2Proof.Machine.execCkpt s
  | .rel => Sys2Proof.Machine.execRel s
  | .acq rs1 e1 => Sys2Proof.Machine.execAcq rs1 e1 s
  | .acqm rs1 e1 => Sys2Proof.Machine.execAcqm rs1 e1 s
  | .acqg rs1 e1 => Sys2Proof.Machine.execAcqg rs1 e1 s
  | .acqv => Sys2Proof.Machine.execAcqv s
  | .drainS => Sys2Proof.Machine.execDrainS s
  | .drainG => Sys2Proof.Machine.execDrainG s
  | .drainR => Sys2Proof.Machine.execDrainR s
  | .drainK => Sys2Proof.Machine.execDrainK s
  | .atomAdd rd rs1 rs2 e1 e2 => Sys2Proof.Machine.execAtomAdd rd rs1 rs2 e1 e2 s
  | .atomAnd rd rs1 rs2 e1 e2 => Sys2Proof.Machine.execAtomAnd rd rs1 rs2 e1 e2 s
  | .atomOr rd rs1 rs2 e1 e2 => Sys2Proof.Machine.execAtomOr rd rs1 rs2 e1 e2 s
  | .atomXor rd rs1 rs2 e1 e2 => Sys2Proof.Machine.execAtomXor rd rs1 rs2 e1 e2 s
  | .atomMin rd rs1 rs2 e1 e2 => Sys2Proof.Machine.execAtomMin rd rs1 rs2 e1 e2 s
  | .atomMax rd rs1 rs2 e1 e2 => Sys2Proof.Machine.execAtomMax rd rs1 rs2 e1 e2 s
  | .atomMinu rd rs1 rs2 e1 e2 => Sys2Proof.Machine.execAtomMinu rd rs1 rs2 e1 e2 s
  | .atomMaxu rd rs1 rs2 e1 e2 => Sys2Proof.Machine.execAtomMaxu rd rs1 rs2 e1 e2 s
  | .atomSwap rd rs1 rs2 e1 e2 => Sys2Proof.Machine.execAtomSwap rd rs1 rs2 e1 e2 s
  | .atomAddW rd rs1 rs2 e1 e2 => Sys2Proof.Machine.execAtomAddW rd rs1 rs2 e1 e2 s
  | .atomAndW rd rs1 rs2 e1 e2 => Sys2Proof.Machine.execAtomAndW rd rs1 rs2 e1 e2 s
  | .atomOrW rd rs1 rs2 e1 e2 => Sys2Proof.Machine.execAtomOrW rd rs1 rs2 e1 e2 s
  | .atomXorW rd rs1 rs2 e1 e2 => Sys2Proof.Machine.execAtomXorW rd rs1 rs2 e1 e2 s
  | .atomMinW rd rs1 rs2 e1 e2 => Sys2Proof.Machine.execAtomMinW rd rs1 rs2 e1 e2 s
  | .atomMaxW rd rs1 rs2 e1 e2 => Sys2Proof.Machine.execAtomMaxW rd rs1 rs2 e1 e2 s
  | .atomMinuW rd rs1 rs2 e1 e2 => Sys2Proof.Machine.execAtomMinuW rd rs1 rs2 e1 e2 s
  | .atomMaxuW rd rs1 rs2 e1 e2 => Sys2Proof.Machine.execAtomMaxuW rd rs1 rs2 e1 e2 s
  | .atomSwapW rd rs1 rs2 e1 e2 => Sys2Proof.Machine.execAtomSwapW rd rs1 rs2 e1 e2 s
  | .atomCas rd rs1 rs2 rs3 => Sys2Proof.Machine.execAtomCas rd rs1 rs2 rs3 s
  | .atomCasW rd rs1 rs2 rs3 => Sys2Proof.Machine.execAtomCasW rd rs1 rs2 rs3 s
  | .redAdd rs1 rs2 e1 e2 => Sys2Proof.Machine.execRedAdd rs1 rs2 e1 e2 s
  | .redAddf rs1 rs2 e1 e2 => Sys2Proof.Machine.execRedAddf rs1 rs2 e1 e2 s
  | .redMin rs1 rs2 e1 e2 => Sys2Proof.Machine.execRedMin rs1 rs2 e1 e2 s
  | .redMax rs1 rs2 e1 e2 => Sys2Proof.Machine.execRedMax rs1 rs2 e1 e2 s
  | .redAddW rs1 rs2 e1 e2 => Sys2Proof.Machine.execRedAddW rs1 rs2 e1 e2 s
  | .redAddfW rs1 rs2 e1 e2 => Sys2Proof.Machine.execRedAddfW rs1 rs2 e1 e2 s
  | .redMinW rs1 rs2 e1 e2 => Sys2Proof.Machine.execRedMinW rs1 rs2 e1 e2 s
  | .redMaxW rs1 rs2 e1 e2 => Sys2Proof.Machine.execRedMaxW rs1 rs2 e1 e2 s
  | .copy rd rs1 rs2 rs3 => Sys2Proof.Machine.execCopy rd rs1 rs2 rs3 s
  | .copy2d rd rs1 rs2 rs3 => Sys2Proof.Machine.execCopy2d rd rs1 rs2 rs3 s
  | .copyb rd rs1 rs2 rs3 => Sys2Proof.Machine.execCopyb rd rs1 rs2 rs3 s
  | .cpcnt rs1 e1 => Sys2Proof.Machine.execCpcnt rs1 e1 s
  | .copyq rd rs1 e1 => Sys2Proof.Machine.execCopyq rd rs1 e1 s
  | .pref rs1 e1 => Sys2Proof.Machine.execPref rs1 e1 s
  | .vspl vd xs sz => Sys2Proof.Machine.execVspl vd xs sz s
  | .vsplq vd sz => Sys2Proof.Machine.execVsplq vd sz s
  | .voutq vs1 xs sz => Sys2Proof.Machine.execVoutq vs1 xs sz s
  | .vmv vd vs1 => Sys2Proof.Machine.execVmv vd vs1 s
  | .vlane vd vs1 xs sz => Sys2Proof.Machine.execVlane vd vs1 xs sz s
  | .vld vd xs => Sys2Proof.Machine.execVld vd xs s
  | .vst vs1 xs => Sys2Proof.Machine.execVst vs1 xs s
  | .vlds vd vs1 xs sz => Sys2Proof.Machine.execVlds vd vs1 xs sz s
  | .vgth vd vs1 xs => Sys2Proof.Machine.execVgth vd vs1 xs s
  | .vsct vs1 vs2 xs => Sys2Proof.Machine.execVsct vs1 vs2 xs s
  | .vadd vd vs1 vs2 sz => Sys2Proof.Machine.execVadd vd vs1 vs2 sz s
  | .vsub vd vs1 vs2 sz => Sys2Proof.Machine.execVsub vd vs1 vs2 sz s
  | .vmul vd vs1 vs2 sz => Sys2Proof.Machine.execVmul vd vs1 vs2 sz s
  | .vfma vd vs1 vs2 sz => Sys2Proof.Machine.execVfma vd vs1 vs2 sz s
  | .vmax vd vs1 vs2 sz => Sys2Proof.Machine.execVmax vd vs1 vs2 sz s
  | .vmin vd vs1 vs2 sz => Sys2Proof.Machine.execVmin vd vs1 vs2 sz s
  | .vabs vd vs1 sz => Sys2Proof.Machine.execVabs vd vs1 sz s
  | .vneg vd vs1 sz => Sys2Proof.Machine.execVneg vd vs1 sz s
  | .viadd vd vs1 vs2 => Sys2Proof.Machine.execViadd vd vs1 vs2 s
  | .visub vd vs1 vs2 => Sys2Proof.Machine.execVisub vd vs1 vs2 s
  | .vimul vd vs1 vs2 => Sys2Proof.Machine.execVimul vd vs1 vs2 s
  | .vand vd vs1 vs2 => Sys2Proof.Machine.execVand vd vs1 vs2 s
  | .vor vd vs1 vs2 => Sys2Proof.Machine.execVor vd vs1 vs2 s
  | .vxor vd vs1 vs2 => Sys2Proof.Machine.execVxor vd vs1 vs2 s
  | .vshl vd vs1 vs2 => Sys2Proof.Machine.execVshl vd vs1 vs2 s
  | .vshr vd vs1 vs2 => Sys2Proof.Machine.execVshr vd vs1 vs2 s
  | .vsra vd vs1 vs2 => Sys2Proof.Machine.execVsra vd vs1 vs2 s
  | .viadds vd vs1 vs2 => Sys2Proof.Machine.execViadds vd vs1 vs2 s
  | .vcvt vd vs1 part sato mode => Sys2Proof.Machine.execVcvt vd vs1 part sato mode s
  | .vcvti vd vs1 part sato mode => Sys2Proof.Machine.execVcvti vd vs1 part sato mode s
  | .vcmpeq vd vs1 vs2 sz code => Sys2Proof.Machine.execVcmpeq vd vs1 vs2 sz code s
  | .vcmplt vd vs1 vs2 sz code => Sys2Proof.Machine.execVcmplt vd vs1 vs2 sz code s
  | .vcmple vd vs1 vs2 sz code => Sys2Proof.Machine.execVcmple vd vs1 vs2 sz code s
  | .vsel vd vs1 vs2 => Sys2Proof.Machine.execVsel vd vs1 vs2 s
  | .vbq vs1 => Sys2Proof.Machine.execVbq vs1 s
  | .vsum vd vs1 sz code => Sys2Proof.Machine.execVsum vd vs1 sz code s
  | .vrmax vd vs1 sz code => Sys2Proof.Machine.execVrmax vd vs1 sz code s
  | .vrmin vd vs1 sz code => Sys2Proof.Machine.execVrmin vd vs1 sz code s
  | .vperm vd vs1 vs2 sz => Sys2Proof.Machine.execVperm vd vs1 vs2 sz s
  | .vrot vd vs1 xs sz => Sys2Proof.Machine.execVrot vd vs1 xs sz s
  | .vexp2 vd vs1 sz => Sys2Proof.Machine.execVexp2 vd vs1 sz s
  | .vrcp vd vs1 sz => Sys2Proof.Machine.execVrcp vd vs1 sz s
  | .vrsq vd vs1 sz => Sys2Proof.Machine.execVrsq vd vs1 sz s
  | .vlog2 vd vs1 sz => Sys2Proof.Machine.execVlog2 vd vs1 sz s
  | .vseed vs1 => Sys2Proof.Machine.execVseed vs1 s
  | .lease => Sys2Proof.Machine.execLease s
  | .unlease => Sys2Proof.Machine.execUnlease s
  | .ringdef xs ia => Sys2Proof.Machine.execRingdef xs ia s
  | .ringq ia => Sys2Proof.Machine.execRingq ia s
  | .ringadv xs ia => Sys2Proof.Machine.execRingadv xs ia s
  | .kmma ia ib fa fb mode => Sys2Proof.Machine.execKmma ia ib fa fb mode s
  | .kmmas ia ib fa fb mode => Sys2Proof.Machine.execKmmas ia ib fa fb mode s
  | .kmmat ia ib fa fb mode => Sys2Proof.Machine.execKmmat ia ib fa fb mode s
  | .kmman ia ib fa fb mode => Sys2Proof.Machine.execKmman ia ib fa fb mode s
  | .kzero => Sys2Proof.Machine.execKzero s
  | .kld xs => Sys2Proof.Machine.execKld xs s
  | .kst xs => Sys2Proof.Machine.execKst xs s
  | .krow vd n => Sys2Proof.Machine.execKrow vd n s
  | .kputrow vs n => Sys2Proof.Machine.execKputrow vs n s
  | .keep xs ia ib => Sys2Proof.Machine.execKeep xs ia ib s
  | .kscq mode => Sys2Proof.Machine.execKscq mode s
  | .kfac n => Sys2Proof.Machine.execKfac n s
  | .ktrsl vd vs n => Sys2Proof.Machine.execKtrsl vd vs n s
  | .ktrsu vd vs n => Sys2Proof.Machine.execKtrsu vd vs n s
  | .kmv vd vs n => Sys2Proof.Machine.execKmv vd vs n s
  | .kmvt vd vs n => Sys2Proof.Machine.execKmvt vd vs n s
  | .kdiag xs n => Sys2Proof.Machine.execKdiag xs n s
  | .kchkq mode => Sys2Proof.Machine.execKchkq mode s
  | .kflg xs mode => Sys2Proof.Machine.execKflg xs mode s
  | .powerOnBoot ok => Sys2Proof.Machine.execPowerOnBoot ok s
  | .setchip => Sys2Proof.Machine.execSetchip s
  | .run => Sys2Proof.Machine.execRun s
  | .fkeyw => Sys2Proof.Machine.execFkeyw s
  | .mkeyw => Sys2Proof.Machine.execMkeyw s
  | .attest => Sys2Proof.Machine.execAttest s
  | .enqueue vf port bytes => Sys2Proof.Machine.execEnqueue vf port bytes s
  | .queuePortOtherAccess a => Sys2Proof.Machine.execQueuePortOtherAccess a s
  | .dispatcherResolve die => Sys2Proof.Machine.execDispatcherResolve die s
  | .dispatcherDelivery die => Sys2Proof.Machine.execDispatcherDelivery die s
  | .occupancyReport cluster => Sys2Proof.Machine.execOccupancyReport cluster s
  | .pushFrame ep => Sys2Proof.Machine.execPushFrame ep s
  | .boundaryTrap ep => Sys2Proof.Machine.execBoundaryTrap ep s
  | .deadlineExpiry ep => Sys2Proof.Machine.execDeadlineExpiry ep s
  | .replyFill ep => Sys2Proof.Machine.execReplyFill ep s
  | .oneResultFill cluster => Sys2Proof.Machine.execOneResultFill cluster s
  | .alignTimeout ep => Sys2Proof.Machine.execAlignTimeout ep s
  | .bankRetention ep bank => Sys2Proof.Machine.execBankRetention ep bank s
  | .kilnVectorIssue quad => Sys2Proof.Machine.execKilnVectorIssue quad s
  | .leaseGrant quad => Sys2Proof.Machine.execLeaseGrant quad s
  | .matrixCommandIssue quad => Sys2Proof.Machine.execMatrixCommandIssue quad s
  | .kilnCommandRetire quad => Sys2Proof.Machine.execKilnCommandRetire quad s
  | .solveStepComplete quad => Sys2Proof.Machine.execSolveStepComplete quad s
  | .scaleFrameDelivery quad => Sys2Proof.Machine.execScaleFrameDelivery quad s
  | .kilnGate quad matrix => Sys2Proof.Machine.execKilnGate quad matrix s
  | .gapMeasurement draw => Sys2Proof.Machine.execGapMeasurement draw s
  | .coneReplan cluster band out => Sys2Proof.Machine.execConeReplan cluster band out s
  | .dramScrub stack => Sys2Proof.Machine.execDramScrub stack s
  | .errctlWrite v => Sys2Proof.Machine.execErrctlWrite v s
  | .checkpointTimer ep => Sys2Proof.Machine.execCheckpointTimer ep s
  | .compaction home => Sys2Proof.Machine.execCompaction home s
  | .recordAcknowledgement ep => Sys2Proof.Machine.execRecordAcknowledgement ep s
  | .staleNote ep => Sys2Proof.Machine.execStaleNote ep s
  | .invalidation ep => Sys2Proof.Machine.execInvalidation ep s
  | .directoryPortSendNote slice target => Sys2Proof.Machine.execDirectoryPortSendNote slice target s
  | .directoryPortSendInvalidation slice target => Sys2Proof.Machine.execDirectoryPortSendInvalidation slice target s
  | .acquireQuery ep => Sys2Proof.Machine.execAcquireQuery ep s
  | .acquireAnswer ep => Sys2Proof.Machine.execAcquireAnswer ep s
  | .acquireComplete ep => Sys2Proof.Machine.execAcquireComplete ep s
  | .vhRefresh vdev => Sys2Proof.Machine.execVhRefresh vdev s
  | .vhRefreshComplete vdev => Sys2Proof.Machine.execVhRefreshComplete vdev s
  | .fillAtHome home => Sys2Proof.Machine.execFillAtHome home s
  | .writeBackGrant home => Sys2Proof.Machine.execWriteBackGrant home s
  | .fillReply ep => Sys2Proof.Machine.execFillReply ep s
  | .atomAtHome home => Sys2Proof.Machine.execAtomAtHome home s
  | .reductionAtHome home => Sys2Proof.Machine.execReductionAtHome home s
  | .remoteLoadAtTarget ep => Sys2Proof.Machine.execRemoteLoadAtTarget ep s
  | .scratchpadRemoteAccess ep => Sys2Proof.Machine.execScratchpadRemoteAccess ep s
  | .chunkIssue cluster => Sys2Proof.Machine.execChunkIssue cluster s
  | .chunkLanding target => Sys2Proof.Machine.execChunkLanding target s
  | .chunkAcknowledgement cluster => Sys2Proof.Machine.execChunkAcknowledgement cluster s
  | .stampPacket home => Sys2Proof.Machine.execStampPacket home s
  | .copyCompletion cluster => Sys2Proof.Machine.execCopyCompletion cluster s
  | .postArrival ep => Sys2Proof.Machine.execPostArrival ep s
  | .postStatus ep => Sys2Proof.Machine.execPostStatus ep s
  | .arbiterGrant kind unit => Sys2Proof.Machine.execArbiterGrant kind unit s
  | .niDelivery ep => Sys2Proof.Machine.execNiDelivery ep s
  | .skipNotice src dst seq => Sys2Proof.Machine.execSkipNotice src dst seq s
  | .refusalAtSender ep => Sys2Proof.Machine.execRefusalAtSender ep s
  | .sluiceEgress port => Sys2Proof.Machine.execSluiceEgress port s
  | .sluiceIngress port tagOk => Sys2Proof.Machine.execSluiceIngress port tagOk s
  | .linkFrameResend port => Sys2Proof.Machine.execLinkFrameResend port s
  | .portDown port => Sys2Proof.Machine.execPortDown port s
  | .barrierNotice ep => Sys2Proof.Machine.execBarrierNotice ep s
  | .abortNotice ep => Sys2Proof.Machine.execAbortNotice ep s
  | .carveOutApply ep => Sys2Proof.Machine.execCarveOutApply ep s
  | .sliceEnd sag => Sys2Proof.Machine.execSliceEnd sag s
  | .sliceEarlyEnd sag => Sys2Proof.Machine.execSliceEarlyEnd sag s
  | .launch vdev => Sys2Proof.Machine.execLaunch vdev s
  | .reset vdev => Sys2Proof.Machine.execReset vdev s
  | .teardown vdev => Sys2Proof.Machine.execTeardown vdev s
  | .resetScan vdev => Sys2Proof.Machine.execResetScan vdev s
  | .quietMarker port => Sys2Proof.Machine.execQuietMarker port s
  | .quietAnswer vdev port => Sys2Proof.Machine.execQuietAnswer vdev port s
  | .quietHandshakeTimeout vdev => Sys2Proof.Machine.execQuietHandshakeTimeout vdev s
  | .genRefundNotice port vdev cls flits => Sys2Proof.Machine.execGenRefundNotice port vdev cls flits s
  | .saggarContainment sag => Sys2Proof.Machine.execSaggarContainment sag s
  | .fenceFall sag => Sys2Proof.Machine.execFenceFall sag s
  | .atsResponse id hpa perm => Sys2Proof.Machine.execAtsResponse id hpa perm s
  | .pageResponse grp code => Sys2Proof.Machine.execPageResponse grp code s
  | .atsInvalidation vdev va => Sys2Proof.Machine.execAtsInvalidation vdev va s
  | .hostCxlMemRead addr n => Sys2Proof.Machine.execHostCxlMemRead addr n s
  | .hostCxlMemWrite addr bytes poison => Sys2Proof.Machine.execHostCxlMemWrite addr bytes poison s
  | .teamstgWrite v => Sys2Proof.Machine.execTeamstgWrite v s
  | .ktolKfloorWrite csr v => Sys2Proof.Machine.execKtolKfloorWrite csr v s
  | .succCsrWrite v => Sys2Proof.Machine.execSuccCsrWrite v s
  | .tbctlWithdraw => Sys2Proof.Machine.execTbctlWithdraw s
  | .gbstatWithdraw => Sys2Proof.Machine.execGbstatWithdraw s
  | .bkcfgWrite v => Sys2Proof.Machine.execBkcfgWrite v s
  | .sgrectWrite v => Sys2Proof.Machine.execSgrectWrite v s
  | .registerWrite csr v => Sys2Proof.Machine.execRegisterWrite csr v s
  | .illegalInstructionWord w => Sys2Proof.Machine.execIllegalInstructionWord w s
  | .instructionFetchFault addr => Sys2Proof.Machine.execInstructionFetchFault addr s
  | .leaseGrantTermExpiry quad => Sys2Proof.Machine.execLeaseGrantTermExpiry quad s
  | .cxlCacheHostSnoop addr k => Sys2Proof.Machine.execCxlCacheHostSnoop addr k s

end Sys2Proof.Machine
end

