-- ==== Sys2Proof/Machine/Schedule.lean ====
section
/-! DEFINITION. Which step comes next (log entry 4): the agenda names hardware steps, the world's actions and the core
that runs; with an empty agenda the current core acts at an instruction boundary (R418) and then runs the instruction
at its PC (R162, R163, R417). -/

namespace Sys2Proof.Machine

/-- Rows of the opcode table that are no instruction and that the part, its firmware or the world does by itself: the
agenda may name them. The rows that an instruction causes (a CSR write, a store to a register block, a launch, reset or
teardown through VDCTL, a fetch that fails) happen only through that instruction. -/
def isHardwareStep (i : Instr) : Bool :=
  !i.hasWord && (match i with
    | .illegalInstructionWord _ | .instructionFetchFault _ | .launch _ | .reset _ | .teardown _ => false
    | .teamstgWrite _ | .ktolKfloorWrite _ _ | .succCsrWrite _ | .tbctlWithdraw | .gbstatWithdraw => false
    | .bkcfgWrite _ | .sgrectWrite _ | .registerWrite _ _ | .errctlWrite _ => false
    | .directoryPortSendNote _ _ | .directoryPortSendInvalidation _ _ => false
    | _ => true)

/-- A fetch that gives no word: a debug breakpoint comes first (R417), then the access fault with its own row (R163),
the trap of another cause, a wait, or a machine check for poisoned code (R407). -/
def State.noWord (s : State) (f : Fetched) : Out :=
  let pc := s.frame.pc
  match f with
  | .fault c => if c = 8 then execInstructionFetchFault pc s
                else .next (if s.me.breaks then s.trap 21 pc else s.trap c pc)
  | .poison pa => .next (if s.me.breaks then s.trap 21 pc else s.consume pa)
  | _ => .next (if s.me.breaks then s.trap 21 pc else s.stall .fill)

/-- The current core runs the instruction at its PC. -/
def State.instrTurn (s : State) : Out :=
  let r := s.fetch s.frame.pc
  match r.1 with
  | .word w =>
    match decode w with
    | .ok i => exec i r.2
    | .error _ => execIllegalInstructionWord w r.2
  | f => r.2.noWord f

/-- Lets a cycle of a core pass after a hardware step of its own. -/
def tickOut (ep : Nat) : Out → Out
  | .next t => .next (t.spend ep 1)
  | o => o

/-- Whether a frame is to be popped or pushed at this boundary (R418): a deadline has expired, a boundary trap is
pending, or a record is selected. -/
def Core.due (c : Core) (now : Nat) : Bool := c.overdue now || c.boundary || (c.selected now).isSome

/-- Whether the running frame of the current core goes on to an instruction: the core runs, no record of a counter overflow
is to be posted (R383), nothing of R418 is due at this boundary, no carve-out is to be applied (R124), and the frame is not
the idle frame. -/
def State.atInstr (s : State) : Bool :=
  let c := s.me
  !s.stopped s.cur && !c.evs.due && !c.ready.any (fun r => r.expired s.now) && !c.due s.now && !c.carving && !(c.run.level == 0)

/-- The current core's turn at a boundary (R418): a new carve-out over the idle frame (R124), deadline expiry, one
boundary trap, selection, then an instruction. A change of frame waits for the standard loads that are outstanding, and
no instruction issues meanwhile (R201). -/
def State.coreTurn (s : State) : Out :=
  let c := s.me
  if c.evs.due && !s.stopped s.cur then
    -- a record of a counter overflow is read and posted first; the core waits for the read (log entry 63)
    let t := s.overflowRead
    .next (if t.me.evs.due then t.spend t.cur 1 else t)
  else if s.atInstr then s.instrTurn
  else if s.stopped s.cur then .next (s.tick 1)
  else if c.carving then tickOut s.cur (execCarveOutApply s.cur s)
  else if (c.loads.isEmpty && c.overdue s.now) || c.ready.any (fun r => r.expired s.now) then
    tickOut s.cur (execDeadlineExpiry s.cur s)
  else if !c.loads.isEmpty then .next ((s.onMe (fun d => { d with stalled := some .loads })).spend s.cur 1)
  else if c.boundary then execBoundaryTrap s.cur s
  else if (c.selected s.now).isSome then execPushFrame s.cur s
  else .next (s.spend s.cur 1)

/-- The group of an access to a core's scratchpad by another core: one inside the cluster is an instruction's own (R126,
R457). -/
def State.accessGroup (s : State) (ep : Nat) (p : Pkt) : Nat :=
  if p.src / 65536 = s.chip ∧ clusterOf p.src = clusterOf ep then 1 else 2

/-- The groups of R457: what takes effect in one cycle does so in ascending group. An instruction of a core is of the
first, with its scratchpad accesses; 0 marks what the rule orders against nothing, as what a home slice takes in its order
of delivery. -/
def State.groupOf (s : State) : Instr → Nat
  | .scratchpadRemoteAccess ep => (match s.takeAccess ep with
    | some (p, _) => s.accessGroup ep p
    | none => 2)
  | .remoteLoadAtTarget ep => (match s.takeRead ep with
    | some (p, _) => (match p.body with
      | .ldr _ _ _ _ true => s.accessGroup ep p
      | .chunkRead _ _ _ _ _ true => 3
      | _ => 0)
    | none => 0)
  | .chunkIssue _ | .chunkLanding _ | .chunkAcknowledgement _ => 3
  | .kilnVectorIssue _ | .matrixCommandIssue _ | .kilnCommandRetire _ | .solveStepComplete _ => 4
  | .fillReply _ | .replyFill _ | .staleNote _ | .invalidation _ | .scaleFrameDelivery _ | .postArrival _ | .postStatus _ |
    .dispatcherDelivery _ | .oneResultFill _ | .barrierNotice _ | .abortNotice _ | .copyCompletion _ | .acquireComplete _ |
    .refusalAtSender _ => 5
  | _ => 0

/-- Whether a later group of R457 has acted in this cycle, so that one of group g takes effect in the next one. -/
def State.late (s : State) (g : Nat) : Bool := s.phaseAt == s.now && !(g == 0) && decide (g < s.phase)

/-- An outcome after which group g is the latest to have acted in its cycle. -/
def acted (g now : Nat) : Out → Out
  | .next t => .next (if g = 0 then t else { t with phase := g, phaseAt := now })
  | o => o

/-- Another chip tells the size of a scratchpad region of its own (log entry 21). -/
def State.tellSpad (s : State) (ep size : Nat) : State := { s with farSpads := tset s.farSpads ep size }

/-- Another chip tells a word of a device's homing tables there (log entry 20). -/
def State.tellTab (s : State) (chip vdev i : Nat) (e : Word) : State :=
  { s with farTabs := tset s.farTabs ((chip * 64 + vdev) * 512 + i) e }

/-- The physical function writes or reads MMIO through BAR 0 (R353, R365). -/
def State.pfWrite (s : State) (a n : Nat) (v : Word) : State :=
  if pfAllowed a then s.mmioWrite true a n v.toNat else s

def State.pfRead (s : State) (a n : Nat) : State :=
  s.tellHost (if pfAllowed a then .data (leBytes n (s.mmioRead true a n)) [] else .zeros)

/-- Whether the compute dies are out of reset: the firmware's check has passed and the boot is done (R373). -/
def State.alive (s : State) : Bool := s.nm.st == 1 || s.nm.st == 2

/-- What may happen while the compute dies are in reset (R373): the Nierman controller works, the physical function reaches
its mailbox, and the world goes on around the part (log entry 80). -/
def Turn.inReset : Turn → Bool
  | .ev (.powerOnBoot _) | .ev .setchip | .ev .run | .ev .fkeyw | .ev .mkeyw | .ev .attest => true
  | .ev _ | .pasid .. | .sram .. => false
  | .pfWrite a _ _ => inNm a
  | .pfRead a _ => inNm a
  | .core _ | .farSpad .. | .farTab .. | .wire .. | .linkAck _ | .hostMem .. | .pass _ => true

/-- One turn that the agenda names (log entry 4). -/
def State.takeTurn (s : State) : Turn → Out
  | .core ep => if validEp ep then .next { s with cur := ep } else .fault (.noSuchCore ep)
  | .ev i => if isHardwareStep i then acted (s.groupOf i) s.now (exec i s) else .next s
  | .pfWrite a n v => .next (s.pfWrite a n v)
  | .pfRead a n => .next (s.pfRead a n)
  | .farSpad ep size => .next (s.tellSpad ep size)
  | .farTab chip v i e => .next (s.tellTab chip v i e)
  | .wire p k => .next { s with linkIn := tset s.linkIn p (tget s.linkIn p [] ++ [k]) }
  | .linkAck p => .next (s.linkAck p)
  | .pasid v on => .next (s.onVdev v (fun d => { d with pasidEn := on }))
  | .hostMem a bs => .next (s.hostMem a bs)
  | .sram a double => .next (s.sramError a double)
  | .pass n => .next (s.tick n)

/-- The group of R457 that a turn belongs to. -/
def State.turnGroup (s : State) : Turn → Nat
  | .ev i => s.groupOf i
  | _ => 0

/-- One step of the machine. What comes too late for its cycle waits for the next one (R457); what cannot happen while the
compute dies are in reset does not (R373). -/
def State.advance (s : State) : Out :=
  match s.agenda with
  | [] => if !s.alive || s.late 1 then .next (s.tick 1) else s.coreTurn
  | t :: rest =>
    if s.late (s.turnGroup t) then .next (s.tick 1)
    else if s.alive || t.inReset then State.takeTurn { s with agenda := rest } t
    else .next { s with agenda := rest }

/-! ### A program's first word (log entry 3) -/

/-- The address of the word that `placeWord` places, virtual and physical. -/
def entryVa : Nat := 0x10000

/-- Core 0 as a launch and a task push leave it, about to fetch at `entryVa`: a page that grants R, W and X maps it. -/
def Core.atEntry (c : Core) (leaf : Nat) : Core :=
  { c with
    on := true, loads := [], fills := [], ready := [], ilines := [],
    utlb := [{ vdev := c.vdev, pasid := none, va := entryVa, size := 65536, leaf := BitVec.ofNat 64 leaf, ats := none,
               age := 0 }],
    run := { c.run with level := if c.run.level = 0 then 1 else c.run.level, pc := BitVec.ofNat 64 entryVa, acq := none,
                        dl := none, pendStep := none, pendWatch := none, pendChk := none,
                        pendFault := none } }

/-- The state with an instruction word at the place that the next step fetches from: the loader's work (R356), the
push of a task (R37), the page table's (R361) and, where the part is still in reset, the firmware's boot and RUN (R373,
R374) are taken as done, for core 0. -/
def State.placeWord (s : State) (nbits w : Nat) : State :=
  let v := BitVec.ofNat 32 (w % 2 ^ nbits)
  let leaf := 0xF + 2 ^ 6 * s.descMkey 0 (s.core 0).vdev + entryVa
  let s1 := (((s.setCore 0 ((s.core 0).atEntry leaf)).writeBytes entryVa
    [byteOfWord v 0, byteOfWord v 1, byteOfWord v 2, byteOfWord v 3]).setPoison entryVa false)
  { s1.onSag 0 (fun g => { g with en := true, rect := 2 ^ 11 + 2 ^ 18, switching := false, hit := none }) with
    nm := { s.nm with st := if s.alive then s.nm.st else 2 }, agenda := [], cur := 0, phase := 0 }

end Sys2Proof.Machine
end

