-- ==== Sys2Proof/Safety.lean ====
section
/-! DEFINITION. The terms that claims use: when nothing before an instruction's own effect stops it, what a retirement
leaves, the invariants of the state, and a safe step. -/

namespace Sys2Proof.Machine

/-- Nothing of R417 items 1 to 6, of R68, of R72 or of R154 keeps the instruction from its own effect: the start acquire is
done, the checker finds nothing, no breakpoint matches, TSTAT.PP is as the instruction needs it, every source is
full, live and clean, the destination neither empty nor waiting for a load, and the banks of its registers are awake. -/
def State.clear (s : State) (pp : Bool) (srcs : List XReg) (dst : XReg) : Bool :=
  let f := s.frame
  f.acq.isNone && s.me.upset == 0 && !s.me.breaks && f.pp == pp &&
  (dst :: srcs).all (fun r => f.isFull r && !f.isBusy r) && srcs.all (fun r => f.isLive r && !f.isPois r) &&
  !s.me.bankWaits srcs dst s.now

/-- `t` is `u`, which holds an instruction's own effect, after the instruction has retired to `next` (R8, R87): the
running frame has that PC, the instruction is counted, and nothing else differs but the clock, the event counters and what a
counter overflow merges into its post in the ready set (R383), and a pending step trap (R427). In particular every register,
every special register, the kiln state and every byte of memory are those of `u`. -/
def State.Retires (u t : State) (next : Word) : Prop :=
  t.me = { u.me with
    run := { u.me.run with pc := next, lastPc := u.me.run.pc, exempt := false, pendStep := t.me.run.pendStep },
    instret := u.me.instret + 1, stalled := none, alignAt := none, again := false, got := [],
    evs := t.me.evs, ready := t.me.ready } ∧
  t = { u.setCore u.cur t.me with now := t.now }

/-- As `Retires`, followed by the checkpoint of R213 and its cycle (R368). -/
def State.RetiresCk (u t : State) (next : Word) : Prop :=
  ∃ v, u.Retires v next ∧ t = v.ckCycle v.cur

/-- The instruction goes on to a next state: `u`, which holds its own effect, retired to `next`. -/
def State.completes (s : State) (i : Instr) (u : State) (next : Word) : Prop :=
  ∃ t, exec i s = .next t ∧ u.Retires t next

/-- As `completes`, in n own cycles of the cluster, and twice that where the instruction executes again (R210, R402, R408). -/
def State.completesIn (s : State) (i : Instr) (u : State) (next : Word) (n : Nat) : Prop :=
  ∃ t, exec i s = .next t ∧ u.Retires t next ∧ t.now = u.after u.cur (u.me.time n)

/-- As `completes` for an instruction that takes a checkpoint at the end of the word (R213). -/
def State.completesCk (s : State) (i : Instr) (u : State) (next : Word) : Prop :=
  ∃ t, exec i s = .next t ∧ u.RetiresCk t next

/-- The instruction's whole effect is to write v to rd and to go on at the following word. -/
def State.puts (s : State) (i : Instr) (srcs : List XReg) (rd : XReg) (v : Word) : Prop :=
  s.completes i ((s.wake srcs rd).setX rd v) (s.frame.pc + 4)

/-- A write at a home tells a handler, if it tells one, at a core that runs a device: no record of a device that is
switched out goes to its spill area in memory (R32, R146, R371). -/
def State.tellsHere (s : State) (home pa : Nat) : Prop :=
  (s.core home).on = true ∨ ∀ l ∈ s.l2, l.line = pa / 512 → l.ovf = false

/-- The state in which a trap of a cause finds its entry: the slice that holds it has looked it up (log entry 65). -/
def State.trapAt (s : State) (cause : Nat) : State := (s.trapReady s.cur cause).2

/-- The bytes of a cause's entry in the device's trap table (R413). -/
def State.trapEntry (s : State) (cause : Nat) : List Byte :=
  (s.trapAt cause).readBytes ((s.trapAt cause).me.csr.traptb + 16 * cause) 16

/-- The entry of a cause can be read: no standard load is outstanding (R201), and its home slice holds it. -/
def State.trapMeets (s : State) (cause : Nat) : Bool := (s.trapReady s.cur cause).1

/-- A word of the entry of a cause is poisoned (R407). -/
def State.trapPoison (s : State) (cause : Nat) : Bool :=
  (s.trapAt cause).anyPoison ((s.trapAt cause).me.csr.traptb + 16 * cause) 16

/-- A trap of a cause pushes its handler's frame (R201, R413, R414): the running frame is not at level 7, no standard
load is outstanding, and the entry is there, clean, valid and has room. -/
def State.trapOpen (s : State) (cause : Nat) : Bool :=
  !(s.frame.level == 7) && s.trapMeets cause && !s.trapPoison cause &&
  bitOf (natAt (s.trapEntry cause) 9 1) 0 && (s.trapAt cause).me.fits (natAt (s.trapEntry cause) 8 1)

/-- The frames under the running one, wherever their windows lie. -/
def Core.stack (c : Core) : List Frame := c.under.map (fun f => { f with win := .loc })

/-- `t` runs the handler's frame of a trap taken in `s` (R37, R38, R414, R416): level 7, the entry's PC and rights, the
CAUSE word, with bit 8 for the two task-start traps, the trap value, the PC and the TSTAT of the trapped frame in a0 to a3, the record's address in sp and tp, and the
trapped frame beneath, as it was. -/
def State.trapTaken (s t : State) (cause : Nat) (tval : Word) : Prop :=
  let e := s.trapEntry cause
  let at' : Word := BitVec.ofNat 64 (0x7E0000000000 + (s.frame.base - 64))
  t.cur = s.cur ∧ t.frame.level = 7 ∧ t.frame.pc = wordAt e 0 &&& ~~~3#64 ∧
  t.frame.sup = (bitOf (natAt e 9 1) 1 || supervisorCause cause) ∧ t.frame.nxr = s.me.csr.corenxr ∧
  t.x 10 = BitVec.ofNat 64 (cause + if cause = 5 ∨ cause = 15 then 256 else 0) ∧ t.x 11 = tval ∧ t.x 12 = s.frame.pc ∧ t.x 13 = s.frame.tstat ∧
  t.x 2 = at' ∧ t.x 4 = at' ∧ t.x 3 = s.me.csr.gpv ∧
  t.me.stack = { s.frame with win := .loc } :: s.me.stack

/-- What a post to the core's own queue leaves (R217): the status in rd, and where there is room the record, with the
part's fields, in the ready set or the receive queue. -/
def State.postedOwn (u t : State) (r : TaskRec) (recvq : Bool) (rd : XReg) : Prop :=
  let free := if recvq then recvFree u.me.ready else slotFree u.me.ready
  t.x rd = (if rd = 0 then 0 else boolWord free) ∧
  (free = true → ∃ q ∈ t.me.ready, q.task = u.posted r (u.stampPost u.cur).1 ∧
    q.place = (if recvq then Place.recvq else Place.slot))

/-- What a post through the fabric leaves (R217): rd empty, a reply reservation, and the record on its way on the
message class. -/
def State.postedFar (u t : State) (r : TaskRec) (target : Nat) (recvq : Bool) (rd : XReg) : Prop :=
  (rd ≠ 0 → t.frame.isFull rd = false) ∧
  ∃ p ∈ t.egress, p.dst = target ∧ p.cls = 2 ∧ p.body = .post u.me.nextId (u.posted r (u.stampPost u.cur).1) recvq ∧
    ∃ q ∈ t.me.reqs, q.id = u.me.nextId ∧ q.rd = rd ∧ q.fid = u.frame.fid

/-- What a split-phase request leaves (R67, R214): rd empty and a reservation that names it. -/
def State.requested (u t : State) (kind : ReqKind) (rd : XReg) : Prop :=
  (rd ≠ 0 → t.frame.isFull rd = false) ∧
  ∃ q ∈ t.me.reqs, q.id = u.me.nextId ∧ q.kind = kind ∧ q.rd = rd ∧ q.fid = u.frame.fid

/-- `t` has gone on from `s` by n words and m instructions. -/
def State.goneOn (s t : State) (n : Word) (m : Nat) : Prop :=
  t.cur = s.cur ∧ t.frame.pc = s.frame.pc + n ∧ t.me.instret = s.me.instret + m

/-- `t` keeps all that `s` holds of registers and memory but register rd: every other register, the system registers,
the frames beneath, and every byte of memory. -/
def State.keepsBut (s t : State) (rd : XReg) : Prop :=
  (∀ r, r ≠ rd → t.x r = s.x r) ∧ t.me.csr = s.me.csr ∧ t.me.under = s.me.under ∧ ∀ p, t.readByte p = s.readByte p

/-- `t` keeps every register of `s` but rd, its system registers and the frames beneath, and every byte of memory as `u`
holds it, where `u` is `s` after the translations of the instruction's addresses: these may bring sectors into slices, for a
walk and for what waits at the same arbiter. -/
def State.keepsFrom (s u t : State) (rd : XReg) : Prop :=
  (∀ r, r ≠ rd → t.x r = s.x r) ∧ t.me.csr = s.me.csr ∧ t.me.under = s.me.under ∧ ∀ p, t.readByte p = u.readByte p

/-- The instruction retires with its command at the tail of the core's dispatch queue (R252): with the level, TSTAT.NXR
and the pending codes of its frame, and the register value it captured; the prefix is used up, and no kiln register
changes yet. -/
def State.entersKiln (s : State) (i : Instr) (x : Word) : Prop :=
  ∃ (t : State) (c : KCmd), exec i s = .next t ∧ s.goneOn t 4 1 ∧ s.keepsBut t 0 ∧ t.me.dq = s.me.dq ++ [c] ∧
    t.me.sets = s.me.sets ∧ t.frame.pp = false ∧
    c.ins = i ∧ c.level = s.frame.level ∧ c.nxr = s.frame.nxr ∧ c.f1 = s.frame.code1 ∧ c.f2 = s.frame.code2 ∧ c.x = x ∧
    c.old = false

/-- A product's command is at the tail of the dispatch queue with the successor it took, and one tile of each of its
rings is taken from the core's shadows (R52, R283, R287). `u` is `s` after the successor's record was read. -/
def State.entersProduct (s u : State) (i : Instr) (ia ib : BitVec 2) (succ : Option TaskRec) : Prop :=
  ∃ (t : State) (c : KCmd), exec i s = .next t ∧ s.goneOn t 4 1 ∧ s.keepsFrom u t 0 ∧ t.me.dq = s.me.dq ++ [c] ∧
    t.me.sets = s.me.sets ∧ c.ins = i ∧ c.level = s.frame.level ∧ c.succ = succ ∧
    (t.shadow ia).avail = (s.shadow ia).avail - 1 ∧ (t.shadow ib).avail = (s.shadow ib).avail - 1

/-- As `entersKiln` for a command that also takes a checkpoint, after which it counts as queued before it (R368). -/
def State.entersKilnCk (s : State) (i : Instr) (x : Word) : Prop :=
  ∃ (t : State) (c : KCmd), exec i s = .next t ∧ s.goneOn t 4 1 ∧ s.keepsBut t 0 ∧
    t.me.dq = (s.me.dq ++ [c]).map (fun (k : KCmd) => { k with old := true }) ∧ t.me.sets = s.me.sets ∧ t.frame.pp = false ∧
    c.ins = i ∧ c.level = s.frame.level ∧ c.x = x

/-- A custom-2 or custom-3 instruction meets nothing before its own checks: the gates of R417 are clear and the dispatch
queue has room (R252, R275). -/
def State.kilnClear (s : State) (i : Instr) (srcs : List XReg) : Bool :=
  s.clear (isPrefixed i) srcs 0 && decide (s.me.dq.length < 8)

/-- Lane e of a vector register. -/
def laneOf (v : BitVec 1024) (e : Nat) : BitVec 32 := v.extractLsb' (32 * e) 32

/-- `t` differs from `s` in the clock alone. -/
def State.onlyTime (s t : State) : Prop := t = { s with now := t.now }

/-- The memory of the part is in its one canonical form: addresses strictly rising, and no entry equal to what an
unlisted address reads as. -/
def State.memOk (s : State) : Prop := Memory.wf s.mem = true

/-- A step that goes on: neither a fault nor a refusal. -/
def goesOn (o : Out) : Prop := ∃ t, o = .next t

/-- A safe step from a state: it goes on, and memory keeps its canonical form. -/
def State.safeStep (s : State) : Prop := ∃ t, step s = .next t ∧ (s.memOk → t.memOk)

end Sys2Proof.Machine
end

