-- ==== Sys2Proof/Certificates/Slice0/Obligations.lean ====
section
/-! DEFINITION. The statements for the provers. Each docstring says what it states and names the rules it rests on. -/

open Sys2Proof Sys2Proof.Machine

/-! ### The machine as a whole -/

/-- After reset every core runs its idle frame with the register values that the register tables state: HOLDM, SUCC,
TEAMSTG, SGSEL, BKSEL, XROOT, the event counters and the debug registers 0, DEADM 0xF000_00E0, CKI 16,384, the carve-out
WIN 1, LOG 4, SPAD 19, SSTAT 0, KTOL 2^-10 and KFLOOR 2^-20; the controller is in its boot state, every generation is 0,
every saggar is absent, and every way is shared (R28, R50, R80, R81, R83, R84, R121, R344, R347, R355, R356, R358, R374,
R379, R423). -/
def Obligations.ResetLeavesTheStatedValues : Prop :=
  ∀ (ep level v : Nat),
    let s := State.reset
    let c := s.core ep
    let k := tget c.sets level KSet.reset
    c.run.level = 0 ∧ c.under = [] ∧ c.ready = [] ∧ c.run.deadm = 0xF00000E0#32 ∧ c.run.succ = 0 ∧
    c.csr.holdm = 0 ∧ c.csr.stgEn = false ∧ c.csr.stgMask = 0 ∧ c.csr.sgsel = 0 ∧ c.csr.bksel = 0 ∧
    c.csr.cki = 16384 ∧ c.csr.xroot = 0 ∧
    c.carve.sstat = 0 ∧ c.carve.spad = 19 ∧ c.carve.log = 4 ∧ c.carve.win = 1 ∧ c.carve.l1 = 8 ∧
    k.ktol = 0x3A800000#32 ∧ k.kfloor = 0x35800000#32 ∧
    (∀ i : Fin 4, c.evs.sel[i] = 0 ∧ c.evs.cnt[i] = 0 ∧ c.dbg.dba[i] = 0 ∧ c.dbg.dbm[i] = 0 ∧ c.dbg.dwa[i] = 0 ∧
      c.dbg.dwm[i] = 0) ∧
    c.evs.ovf = 0 ∧ c.dbg.stepc = 0 ∧
    s.nm.st = 0 ∧ s.nm.result = 0 ∧ s.nm.gap = 0 ∧ s.shared = 0xFFFF ∧
    (s.vdevOf v).gen = 0 ∧ (s.vdevOf v).wayMask = 0 ∧ (s.sag v).en = false ∧ (s.sag v).rect = 0 ∧ s.now = 0

/-- At reset memory is in its canonical form and lists nothing; a byte that nothing has written reads as 0 (the model's
choice, log entry 1). -/
def Obligations.ResetMemoryIsCanonical : Prop :=
  State.reset.memOk ∧ ∀ a, State.reset.readByte a = 0

/-- Every step of the machine, whatever it is and whatever the state, keeps memory in its canonical form (log entry 1):
addresses rising, and no entry equal to what an unlisted address reads as. -/
def Obligations.EveryStepKeepsMemoryCanonical : Prop :=
  ∀ s t : State, s.memOk → step s = .next t → t.memOk

/-- Decoding the word of a well-formed instruction gives that instruction back, with every operand at every value its
encoding admits (R164 to R174, R191 to R195). -/
def Obligations.DecodingAnEncodedInstructionGivesItBack : Prop :=
  ∀ i : Instr, i.wellFormed = true → ∃ w, encode i = some w ∧ decode w = .ok i

/-- A few words, written out from the encoding tables, decode to the instructions they stand for, and words that no table
has are illegal (R164, R168 to R172, R191 to R195). -/
def Obligations.WordsDecodeToTheirInstructions : Prop :=
  -- imm[11:0] rs1 funct3 rd opcode
  decode 0b111111111111_00010_000_00001_0010011#32 = .ok (.addi 1 2 0xFFF) ∧
  decode 0b0100000_00011_00010_000_00001_0110011#32 = .ok (.sub 1 2 3) ∧
  decode 0b0000001_00011_00010_100_00001_0110011#32 = .ok (.div 1 2 3) ∧
  decode 0b0000000_00101_00010_011_01000_0100011#32 = .ok (.sd 2 5 8) ∧
  decode 0b1_111111_00010_00001_000_1110_1_1100011#32 = .ok (.beq 1 2 0xFFE) ∧
  decode 0b000000000000_00000_000_00000_1110011#32 = .ok .ecall ∧
  decode 0b100000000010_00011_001_00100_1110011#32 = .ok (.csrrw 4 3 0x802) ∧
  (∃ e, decode 0x00000000#32 = .error e) ∧ (∃ e, decode 0xFFFFFFFF#32 = .error e)

/-- With nothing scheduled, the running task at an instruction boundary and no later unit already through with the cycle,
a step fetches the word at its PC and runs the instruction it decodes to; a word that decodes to none raises the
illegal-instruction trap with the word as its value, and a fetch that fails the access-fault trap with the PC as its
value; where another unit's later turn of the cycle is over (the order of turns is log entry 4's), or the compute dies are in reset, the step lets a cycle pass
(R163, R172, R373, R412, R418, R457). -/
def Obligations.AStepRunsTheDecodedInstruction : Prop :=
  ∀ (s u : State) (w : BitVec 32) (i : Instr), s.agenda = [] →
    (s.late 1 = true ∨ s.nm.st = 0 ∨ s.nm.st = 3 → step s = .next (s.tick 1)) ∧
    (s.late 1 = false → s.nm.st = 1 ∨ s.nm.st = 2 → s.atInstr = true →
    (s.fetch s.frame.pc = (.word w, u) →
      (decode w = .ok i → step s = exec i u) ∧
      (∀ e, decode w = .error e →
        step s = exec (.illegalInstructionWord w) u ∧
        (u.frame.acq = none → u.me.upset = 0 → u.me.breaks = false →
          exec (.illegalInstructionWord w) u = .next (u.trap 1 (w.zeroExtend 64))))) ∧
    (s.fetch s.frame.pc = (.fault 8, u) →
      step s = exec (.instructionFetchFault s.frame.pc) u ∧
      (u.frame.acq = none → u.me.upset = 0 → u.me.breaks = false →
        exec (.instructionFetchFault s.frame.pc) u = .next (u.trap 8 s.frame.pc))))

/-! ### Base integer instructions (chapter 08) -/

/-- The register-immediate instructions write what their table says, and nothing else (R193). -/
def Obligations.ImmediateInstructionsWriteTheirResult : Prop :=
  ∀ (s : State) (rd rs1 : XReg) (imm : BitVec 12) (sh : BitVec 6) (shw : BitVec 5),
    s.clear false [rs1] rd = true →
    let a := s.x rs1
    let k : Word := imm.signExtend 64
    let lo : BitVec 32 := a.setWidth 32
    let puts := fun (i : Instr) (v : Word) => s.puts i [rs1] rd v
    puts (.addi rd rs1 imm) (a + k) ∧
    puts (.slti rd rs1 imm) (if a.toInt < k.toInt then 1 else 0) ∧
    puts (.sltiu rd rs1 imm) (if a.toNat < k.toNat then 1 else 0) ∧
    puts (.xori rd rs1 imm) (a ^^^ k) ∧
    puts (.ori rd rs1 imm) (a ||| k) ∧
    puts (.andi rd rs1 imm) (a &&& k) ∧
    puts (.slli rd rs1 sh) (a <<< sh.toNat) ∧
    puts (.srli rd rs1 sh) (a >>> sh.toNat) ∧
    puts (.srai rd rs1 sh) (BitVec.ofInt 64 (a.toInt / 2 ^ sh.toNat)) ∧
    puts (.addiw rd rs1 imm) ((lo + imm.signExtend 32).signExtend 64) ∧
    puts (.slliw rd rs1 shw) ((lo <<< shw.toNat).signExtend 64) ∧
    puts (.srliw rd rs1 shw) ((lo >>> shw.toNat).signExtend 64) ∧
    puts (.sraiw rd rs1 shw) (BitVec.ofInt 64 (lo.toInt / 2 ^ shw.toNat))

/-- The register-register instructions outside M write what their table says, and nothing else (R194). -/
def Obligations.RegisterInstructionsWriteTheirResult : Prop :=
  ∀ (s : State) (rd rs1 rs2 : XReg), s.clear false [rs1, rs2] rd = true →
    let a := s.x rs1
    let b := s.x rs2
    let lo := fun (v : Word) => (v.setWidth 32 : BitVec 32)
    let puts := fun (i : Instr) (v : Word) => s.puts i [rs1, rs2] rd v
    puts (.add rd rs1 rs2) (a + b) ∧
    puts (.sub rd rs1 rs2) (a - b) ∧
    puts (.sll rd rs1 rs2) (a <<< (b.toNat % 64)) ∧
    puts (.slt rd rs1 rs2) (if a.toInt < b.toInt then 1 else 0) ∧
    puts (.sltu rd rs1 rs2) (if a.toNat < b.toNat then 1 else 0) ∧
    puts (.xor rd rs1 rs2) (a ^^^ b) ∧
    puts (.srl rd rs1 rs2) (a >>> (b.toNat % 64)) ∧
    puts (.sra rd rs1 rs2) (BitVec.ofInt 64 (a.toInt / 2 ^ (b.toNat % 64))) ∧
    puts (.or rd rs1 rs2) (a ||| b) ∧
    puts (.and rd rs1 rs2) (a &&& b) ∧
    puts (.addw rd rs1 rs2) ((lo a + lo b).signExtend 64) ∧
    puts (.subw rd rs1 rs2) ((lo a - lo b).signExtend 64) ∧
    puts (.sllw rd rs1 rs2) ((lo a <<< (b.toNat % 32)).signExtend 64) ∧
    puts (.srlw rd rs1 rs2) ((lo a >>> (b.toNat % 32)).signExtend 64) ∧
    puts (.sraw rd rs1 rs2) (BitVec.ofInt 64 ((lo a).toInt / 2 ^ (b.toNat % 32)))

/-- The products: the low or the high word of the exact product of two integers (R194). -/
def Obligations.MultiplicationsWriteTheExactProduct : Prop :=
  ∀ (s : State) (rd rs1 rs2 : XReg), s.clear false [rs1, rs2] rd = true →
    let a := s.x rs1
    let b := s.x rs2
    let high := fun (p : BitVec 128) => (p.extractLsb' 64 64 : Word)
    let puts := fun (i : Instr) (v : Word) => s.puts i [rs1, rs2] rd v
    puts (.mul rd rs1 rs2) (a * b) ∧
    puts (.mulh rd rs1 rs2) (high (a.signExtend 128 * b.signExtend 128)) ∧
    puts (.mulhsu rd rs1 rs2) (high (a.signExtend 128 * b.zeroExtend 128)) ∧
    puts (.mulhu rd rs1 rs2) (high (a.zeroExtend 128 * b.zeroExtend 128)) ∧
    puts (.mulw rd rs1 rs2) (((a * b).setWidth 32 : BitVec 32).signExtend 64)

/-- Division (R194, R196): an exact quotient truncated toward zero and its remainder; −1 or all ones and the dividend
for a zero divisor; the dividend and 0 where the quotient would not fit. Division completes in every case. -/
def Obligations.DivisionFollowsTheCornerTable : Prop :=
  ∀ (s : State) (rd rs1 rs2 : XReg), s.clear false [rs1, rs2] rd = true →
    let quotS := fun (x y : Int) => if y = 0 then -1 else x.tdiv y
    let remS := fun (x y : Int) => if y = 0 then x else x.tmod y
    let quotU := fun (w x y : Nat) => if y = 0 then 2 ^ w - 1 else x / y
    let remU := fun (x y : Nat) => if y = 0 then x else x % y
    let a := s.x rs1
    let b := s.x rs2
    let al : BitVec 32 := a.setWidth 32
    let bl : BitVec 32 := b.setWidth 32
    let puts := fun (i : Instr) (v : Word) => s.puts i [rs1, rs2] rd v
    puts (.div rd rs1 rs2) (BitVec.ofInt 64 (quotS a.toInt b.toInt)) ∧
    puts (.divu rd rs1 rs2) (BitVec.ofNat 64 (quotU 64 a.toNat b.toNat)) ∧
    puts (.rem rd rs1 rs2) (BitVec.ofInt 64 (remS a.toInt b.toInt)) ∧
    puts (.remu rd rs1 rs2) (BitVec.ofNat 64 (remU a.toNat b.toNat)) ∧
    puts (.divw rd rs1 rs2) ((BitVec.ofInt 32 (quotS al.toInt bl.toInt)).signExtend 64) ∧
    puts (.divuw rd rs1 rs2) ((BitVec.ofNat 32 (quotU 32 al.toNat bl.toNat)).signExtend 64) ∧
    puts (.remw rd rs1 rs2) ((BitVec.ofInt 32 (remS al.toInt bl.toInt)).signExtend 64) ∧
    puts (.remuw rd rs1 rs2) ((BitVec.ofNat 32 (remU al.toNat bl.toNat)).signExtend 64)

/-- LUI and AUIPC write their value; JAL and JALR with an aligned target write the return address, mark the registers
of DEADM dead for a call or a return, and go to the target; a branch goes to its target when its condition holds and the
target is a multiple of 4, and to the next word when the condition fails. A read of a dead register gives 0, sets TSTAT.DR
and goes on, and with TSTAT.DRT set traps with the register's number (R70, R191, R197, R198). -/
def Obligations.JumpsAndBranchesGoToTheirTarget : Prop :=
  (∀ (s : State) (rd rs1 : XReg) (up : BitVec 20) (imm : BitVec 12),
     let pc := s.frame.pc
     let hi : Word := (up ++ (0 : BitVec 12)).signExtend 64
     let jal := pc + (up ++ (0 : BitVec 1)).signExtend 64
     let jalr := (s.x rs1 + imm.signExtend 64) &&& ~~~1#64
     let w := s.wake [] rd
     let w1 := s.wake [rs1] rd
     (s.clear false [] rd = true →
       s.puts (.lui rd up) [] rd hi ∧
       s.puts (.auipc rd up) [] rd (pc + hi) ∧
       (jal.toNat % 4 = 0 →
         s.completes (.jal rd up) ((if rd = 1 then w.onFrame Frame.markDead else w).setX rd (pc + 4)) jal)) ∧
     (s.clear false [rs1] rd = true → jalr.toNat % 4 = 0 →
       s.completes (.jalr rd rs1 imm)
         ((if rd = 1 ∨ (rd = 0 ∧ rs1 = 1 ∧ imm = 0) then w1.onFrame Frame.markDead else w1).setX rd (pc + 4)) jalr)) ∧
  (∀ (s : State) (rs1 rs2 : XReg) (imm : BitVec 12), s.clear false [rs1, rs2] 0 = true →
     let a := s.x rs1
     let b := s.x rs2
     let tgt := s.frame.pc + (imm ++ (0 : BitVec 1)).signExtend 64
     let goes := fun (i : Instr) (c : Prop) =>
       (c → tgt.toNat % 4 = 0 → s.completes i (s.wake [rs1, rs2] 0) tgt) ∧
       (¬ c → s.completes i (s.wake [rs1, rs2] 0) (s.frame.pc + 4))
     goes (.beq rs1 rs2 imm) (a = b) ∧
     goes (.bne rs1 rs2 imm) (a ≠ b) ∧
     goes (.blt rs1 rs2 imm) (a.toInt < b.toInt) ∧
     goes (.bge rs1 rs2 imm) (b.toInt ≤ a.toInt) ∧
     goes (.bltu rs1 rs2 imm) (a.toNat < b.toNat) ∧
     goes (.bgeu rs1 rs2 imm) (b.toNat ≤ a.toNat)) ∧
  (∀ (s : State) (rd rs1 rs2 : XReg) (imm : BitVec 12), s.frame.acq = none → s.me.upset = 0 → s.me.breaks = false →
     s.frame.pp = false →
     let f := s.frame
     let ready := fun (srcs : List XReg) (dst : XReg) =>
       (dst :: srcs).all (fun r => f.isFull r && !f.isBusy r) && srcs.all (fun r => !f.isLive r || !f.isPois r) &&
       !s.me.bankWaits srcs dst s.now
     -- `v` is the value of rd, `r` the first dead source
     let reads := fun (i : Instr) (srcs : List XReg) (dst r : XReg) (v : Word) => ready srcs dst = true →
       srcs.find? (fun q => !f.isLive q) = some r →
       (f.drt = true → exec i s = .next (s.trap 4 (r.zeroExtend 64))) ∧
       (f.drt = false → ∃ t, exec i s = .next t ∧ s.goneOn t 4 1 ∧ s.keepsBut t dst ∧ t.frame.dr = true ∧
         (dst ≠ 0 → t.x dst = v))
     ∀ r, s.frame.isLive r = false → s.x r = 0 ∧
       reads (.add rd rs1 rs2) [rs1, rs2] rd r (s.x rs1 + s.x rs2) ∧
       reads (.sub rd rs1 rs2) [rs1, rs2] rd r (s.x rs1 - s.x rs2) ∧
       reads (.addi rd rs1 imm) [rs1] rd r (s.x rs1 + imm.signExtend 64))
/-! ### Loads, stores and system registers (chapters 05, 08) -/

/-- Loads give the little-endian bytes of the place they name, extended as R192 says. From the own-scratchpad window they
change nothing but rd and a watchpoint's pending trap; from an L1 line, the queue window or this chip's MMIO, at the
access after the stall, they give the bytes there; for a sector that the L1 lacks and for another member's scratchpad
they leave rd waiting, with the request on its way. An access that meets a range lock traps instead (R118, R119, R126,
R128, R134, R199, R200, R201, R426). -/
def Obligations.LoadsReadTheOwnScratchpad : Prop :=
  ∀ (s : State) (rd rs1 : XReg) (imm : BitVec 12) (off : Nat), s.clear false [rs1] rd = true →
    let a := s.x rs1 + imm.signExtend 64
    let w := s.wake [rs1] rd
    -- `v` makes the value of the bytes
    let loads := fun (i : Instr) (n : Nat) (signed : Bool) (v : (Nat → BitVec 8) → Word) =>
      (a.toNat = 0x7E0000000000 + off → off < 131072 → off % n = 0 → off + n ≤ s.me.carve.spadSize →
        (s.locked s.cur (.spad s.cur off) a.toNat n false = false → s.anyPoison (arrayBase s.cur + off) n = false →
          s.completes i ((w.setX rd (v (fun k => s.readByte (arrayBase s.cur + off + k)))).watch a n 1) (s.frame.pc + 4)) ∧
        (s.locked s.cur (.spad s.cur off) a.toNat n false = true → exec i s = .next (w.lockTrap a))) ∧
      (∀ t : State, a.toNat % n = 0 → w.carveHolds a.toNat = false → w.walkWaits w.asker a.toNat = false →
        let gives := fun (b : Nat → BitVec 8) =>
          ∃ u, exec i s = .next u ∧ s.goneOn u 4 1 ∧ s.keepsFrom t u rd ∧ (rd ≠ 0 → u.x rd = v b)
        let waits := fun (asked : State → Load → Prop) =>
          ∃ u, exec i s = .next u ∧ s.goneOn u 4 1 ∧ s.keepsFrom t u rd ∧ (rd ≠ 0 → u.frame.isBusy rd = true) ∧
            ∃ d ∈ u.me.loads, d.rd = rd ∧ d.n = n ∧ d.signed = signed ∧ asked u d
        (∀ x, w.translate w.asker a.toNat n .r = (.glob x, t) → t.locked s.cur (.glob x) a.toNat n false = false →
          t.me.acqs = [] →
          (∀ l, t.me.l1Find x.home x.pa = some l → l.pois.contains ((x.pa % 512) / 8) = false →
            gives (fun k => tget l.data (x.pa % 512 + k) 0)) ∧
          (t.me.l1Find x.home x.pa = none → t.me.loads.length < 4 →
            waits (fun u d => d.x = x ∧
              ∃ p ∈ u.egress, p.dst = x.home ∧ p.cls = 0 ∧ p.body = .fill d.id (x.pa - x.pa % 128) x.set))) ∧
        (∀ e o, w.translate w.asker a.toNat n .r = (.spad e o, t) → e ≠ s.cur → clusterOf s.cur = clusterOf e →
          t.locked s.cur (.spad e o) a.toNat n false = false →
          (byArray a.toNat = false ∨ t.arrayBusy s.cur (s.epId e) = false) → t.me.loads.length < 4 →
          waits (fun u d => ∃ p ∈ tget u.inbox e [], p.src = t.epId s.cur ∧ p.body = .spadLoad d.id o n)) ∧
        (∀ o, w.translate w.asker a.toNat n .r = (.queue o, t) → gives (fun k => t.me.queueWindow.getD (o + k) 0)) ∧
        (∀ pa, w.translate w.asker a.toNat n .r = (.mmio pa, t) → mmioAllowed s.frame.sup pa n = true →
          (t.mmioReady = false → exec i s = .next (t.stall .mmio)) ∧
          (t.mmioReady = true →
            gives (fun k => BitVec.ofNat 8 (t.mmioRead s.frame.sup pa n / 2 ^ (8 * k) % 256)))))
    loads (.lb rd rs1 imm) 1 true (fun b => (b 0).signExtend 64) ∧
    loads (.lh rd rs1 imm) 2 true (fun b => (b 1 ++ b 0).signExtend 64) ∧
    loads (.lw rd rs1 imm) 4 true (fun b => (b 3 ++ b 2 ++ b 1 ++ b 0).signExtend 64) ∧
    loads (.ld rd rs1 imm) 8 false (fun b => b 7 ++ b 6 ++ b 5 ++ b 4 ++ b 3 ++ b 2 ++ b 1 ++ b 0) ∧
    loads (.lbu rd rs1 imm) 1 false (fun b => (b 0).zeroExtend 64) ∧
    loads (.lhu rd rs1 imm) 2 false (fun b => (b 1 ++ b 0).zeroExtend 64) ∧
    loads (.lwu rd rs1 imm) 4 false (fun b => (b 3 ++ b 2 ++ b 1 ++ b 0).zeroExtend 64)

/-- Stores to the own-scratchpad window complete: afterwards the n bytes at the address are the low bytes of x[rs2],
little-endian, every other byte of memory reads as before, and every register of the frame is as before; an access that
meets a range lock traps instead. A store to another member's team-window slot is on its way to that member, after a
checkpoint; one to this chip's MMIO writes the register at the access after the stall (R118, R126, R134, R192, R199, R202,
R368). -/
def Obligations.StoresWriteTheOwnScratchpad : Prop :=
  ∀ (s : State) (rs1 rs2 : XReg) (imm : BitVec 12) (off : Nat), s.clear false [rs1, rs2] 0 = true →
    let a := s.x rs1 + imm.signExtend 64
    let v := s.x rs2
    let w := s.wake [rs1, rs2] 0
    let lo := arrayBase s.cur + off
    let stores := fun (i : Instr) (n : Nat) =>
      a.toNat = 0x7E0000000000 + off → off < 131072 → off % n = 0 → off + n ≤ s.me.carve.spadSize →
      (s.locked s.cur (.spad s.cur off) a.toNat n true = false →
        ∃ t, exec i s = .next t ∧
          (((w.ownSpadStore off (leBytes n v.toNat)).watch a n 2).Retires t (s.frame.pc + 4)) ∧
          (∀ k, k < n → t.readByte (lo + k) = v.extractLsb' (8 * k) 8) ∧
          (∀ x, x < lo ∨ lo + n ≤ x → t.readByte x = s.readByte x) ∧
          (∀ r, t.x r = s.x r)) ∧
      (s.locked s.cur (.spad s.cur off) a.toNat n true = true → exec i s = .next (w.lockTrap a))
    let others := fun (i : Instr) (n : Nat) => a.toNat % n = 0 → w.carveHolds a.toNat = false →
      (∀ e o t, w.translate w.asker a.toNat n .w = (.spad e o, t) → e ≠ s.cur → clusterOf s.cur = clusterOf e →
        t.locked s.cur (.spad e o) a.toNat n true = false →
        (byArray a.toNat = false ∨ t.arrayBusy s.cur (s.epId e) = false) →
        ∃ u, exec i s = .next u ∧ s.goneOn u 4 1 ∧ s.keepsFrom t u 0 ∧
          (∃ p ∈ tget u.inbox e [], p.src = t.epId s.cur ∧ p.body = .spadStore o n v) ∧
          (inTeamWindow a.toNat = true → ∃ k, u.me.ck = some k ∧ k.frame.pc = s.frame.pc + 4)) ∧
      (∀ pa t, w.translate w.asker a.toNat n .w = (.mmio pa, t) → mmioAllowed s.frame.sup pa n = true →
        (t.mmioReady = false → exec i s = .next (t.stall .mmio)) ∧
        (t.mmioReady = true → s.completes i ((t.mmioWrite s.frame.sup pa n (v.toNat % 2 ^ (8 * n))).watch a n 2)
          (s.frame.pc + 4)))
    stores (.sb rs1 rs2 imm) 1 ∧ stores (.sh rs1 rs2 imm) 2 ∧ stores (.sw rs1 rs2 imm) 4 ∧ stores (.sd rs1 rs2 imm) 8 ∧
    others (.sb rs1 rs2 imm) 1 ∧ others (.sh rs1 rs2 imm) 2 ∧ others (.sw rs1 rs2 imm) 4 ∧ others (.sd rs1 rs2 imm) 8

/-- A taken branch, JAL or JALR to a target that is no multiple of 4 raises the misaligned-fetch trap, cause 7, with the
target as its value, and a load or store whose address is no multiple of its size the misaligned-access trap, cause 6,
with the address as its value, before any other check of its own; nothing of the instruction happens
(R199, R204, R412). -/
def Obligations.MisalignmentTraps : Prop :=
  ∀ (s : State) (rd rs1 rs2 : XReg) (up : BitVec 20) (imm : BitVec 12),
    let a := s.x rs1 + imm.signExtend 64
    let jal := s.frame.pc + (up ++ (0 : BitVec 1)).signExtend 64
    let jalr := (s.x rs1 + imm.signExtend 64) &&& ~~~1#64
    let tgt := s.frame.pc + (imm ++ (0 : BitVec 1)).signExtend 64
    (s.clear false [] rd = true → jal.toNat % 4 ≠ 0 →
      exec (.jal rd up) s = .next ((s.wake [] rd).trap 7 jal)) ∧
    (s.clear false [rs1] rd = true → jalr.toNat % 4 ≠ 0 →
      exec (.jalr rd rs1 imm) s = .next ((s.wake [rs1] rd).trap 7 jalr)) ∧
    (s.clear false [rs1, rs2] 0 = true → tgt.toNat % 4 ≠ 0 →
      let traps := fun (i : Instr) => exec i s = .next ((s.wake [rs1, rs2] 0).trap 7 tgt)
      (s.x rs1 = s.x rs2 → traps (.beq rs1 rs2 imm)) ∧
      (s.x rs1 ≠ s.x rs2 → traps (.bne rs1 rs2 imm)) ∧
      ((s.x rs1).toInt < (s.x rs2).toInt → traps (.blt rs1 rs2 imm)) ∧
      ((s.x rs2).toInt ≤ (s.x rs1).toInt → traps (.bge rs1 rs2 imm)) ∧
      ((s.x rs1).toNat < (s.x rs2).toNat → traps (.bltu rs1 rs2 imm)) ∧
      ((s.x rs2).toNat ≤ (s.x rs1).toNat → traps (.bgeu rs1 rs2 imm))) ∧
    (s.clear false [rs1] rd = true →
      let traps := fun (i : Instr) (n : Nat) => a.toNat % n ≠ 0 → exec i s = .next ((s.wake [rs1] rd).trap 6 a)
      traps (.lh rd rs1 imm) 2 ∧ traps (.lhu rd rs1 imm) 2 ∧ traps (.lw rd rs1 imm) 4 ∧ traps (.lwu rd rs1 imm) 4 ∧
      traps (.ld rd rs1 imm) 8) ∧
    (s.clear false [rs1, rs2] 0 = true →
      let traps := fun (i : Instr) (n : Nat) => a.toNat % n ≠ 0 → exec i s = .next ((s.wake [rs1, rs2] 0).trap 6 a)
      traps (.sh rs1 rs2 imm) 2 ∧ traps (.sw rs1 rs2 imm) 4 ∧ traps (.sd rs1 rs2 imm) 8)

/-- A store to global memory with room in the log touches no byte of memory: it changes the own core's log and its L1; the
translation of its address may bring sectors into slices. An address that a cached leaf covers translates to the leaf's page
with the offset kept, and to the home that the leaf's index names; a foreign memory key and a permission that the leaf lacks
are access faults, and a write through a read-duplicated leaf the write-protection fault
(R116, R130, R137, R138, R202, R361 to R363). -/
def Obligations.GlobalStoresGoToTheLog : Prop :=
  ∀ (s : State) (rs1 rs2 : XReg) (imm : BitVec 12) (x : Xlat) (t : State), s.clear false [rs1, rs2] 0 = true →
    let a := s.x rs1 + imm.signExtend 64
    let w := s.wake [rs1, rs2] 0
    let stores := fun (i : Instr) (n : Nat) =>
      a.toNat % n = 0 → w.translate w.asker a.toNat n .w = (.glob x, t) →
      t.locked t.cur (.glob x) a.toNat n true = false → t.me.logRoom x = .ok →
      ∃ u, exec i s = .next u ∧ ((t.logStore t.cur x n (s.x rs2)).watch a n 2).Retires u (s.frame.pc + 4) ∧
        (∀ p, u.readByte p = t.readByte p) ∧ (∀ r, u.x r = s.x r)
    (stores (.sb rs1 rs2 imm) 1 ∧ stores (.sh rs1 rs2 imm) 2 ∧ stores (.sw rs1 rs2 imm) 4 ∧ stores (.sd rs1 rs2 imm) 8) ∧
    (∀ (k : Asker) (va n : Nat) (p : Perm) (e : TlbEntry), canonical va = true →
      va < 0x7E0000000000 ∨ 0x7F0000000000 ≤ va → (s.core k.ep).utlb.find? (fun q => q.hit k va) = some e → e.ats = none →
      let leaf := e.leaf.toNat
      let mk := bitsOf leaf 6 10
      let keyOk := s.descMkey k.ep k.vdev ≤ mk ∧ mk ≤ s.descMkey k.ep k.vdev + s.descMkn k.ep k.vdev
      let writes := p = .w ∨ p = .rw
      let granted := ((p = .r ∨ p = .rw) → bitOf leaf 1 = true) ∧ (writes → bitOf leaf 2 = true) ∧
        (p = .x → bitOf leaf 3 = true)
      let pa := 65536 * bitsOf leaf 16 32 + va % e.size
      (¬ keyOk → s.translate k va n p = (.bad 8, s)) ∧
      (keyOk → bitOf leaf 5 = true → writes → s.translate k va n p = (.bad 16, s)) ∧
      (keyOk → ¬ (bitOf leaf 5 = true ∧ writes) → ¬ granted → s.translate k va n p = (.bad 8, s)) ∧
      (keyOk → granted → bitOf leaf 5 = false → bitOf leaf 4 = false → bitsOf leaf 56 8 = 0 → isGlobal pa = true →
        let home := bitsOf (s.readNat (s.descTabb k.ep k.vdev + 0x540 + 4 * bitsOf leaf 48 8) 4) 0 16
        ∃ y, s.translate k va n p = (.glob y, s) ∧ y.pa = pa ∧ y.csel = 0 ∧ y.home = s.chip * 65536 + home))

/-- The six Zicsr instructions on a register that the frame may write: rd receives the old value and the register the
new one; one of another core's registers stalls the first time it comes to its access (R23, R195, R207). The write's own
effect is `csrWrite`. -/
def Obligations.SystemRegistersAreReadAndWritten : Prop :=
  ∀ (s : State) (rd rs1 : XReg) (z : BitVec 5) (csr : BitVec 12),
    let writes := fun (i : Instr) (srcs : List XReg) (g : Word → Word) =>
      let w := s.wake srcs rd
      let old := w.csrRead csr.toNat
      s.clear false srcs rd = true → w.csrOk csr.toNat = true → csrReadOnly csr.toNat = false →
      (w.me.csrWaits csr.toNat = true → exec i s = .next (w.stall .remoteCsr)) ∧
      (w.me.csrWaits csr.toNat = false → ∀ t, w.csrWrite csr.toNat (g old) = .ok t → t.frame.fid = w.frame.fid →
        s.completes i (t.setX rd old) (t.frame.pc + 4))
    let reads := fun (i : Instr) (srcs : List XReg) =>
      let w := s.wake srcs rd
      s.clear false srcs rd = true → w.csrOk csr.toNat = true →
        (w.me.csrWaits csr.toNat = true → exec i s = .next (w.stall .remoteCsr)) ∧
        (w.me.csrWaits csr.toNat = false → s.completes i (w.setX rd (w.csrRead csr.toNat)) (s.frame.pc + 4))
    let v := s.x rs1
    let k : Word := z.zeroExtend 64
    writes (.csrrw rd rs1 csr) [rs1] (fun _ => v) ∧
    (rs1 ≠ 0 → writes (.csrrs rd rs1 csr) [rs1] (fun o => o ||| v)) ∧
    (rs1 ≠ 0 → writes (.csrrc rd rs1 csr) [rs1] (fun o => o &&& ~~~v)) ∧
    writes (.csrrwi rd csr z) [] (fun _ => k) ∧
    (z ≠ 0 → writes (.csrrsi rd csr z) [] (fun o => o ||| k)) ∧
    (z ≠ 0 → writes (.csrrci rd csr z) [] (fun o => o &&& ~~~k)) ∧
    reads (.csrrs rd 0 csr) [0] ∧ reads (.csrrc rd 0 csr) [0] ∧ reads (.csrrsi rd csr 0) [] ∧ reads (.csrrci rd csr 0) []

/-- What CSRRW does to registers: TSTAT, HOLDM, DEADM and SUCC take the bits that R79 to R81 let software write, a
supervisor frame writes the supervisor registers of R88 to R90 with the values their fields keep, and an address that names no register, a supervisor register with S = 0 and a read-only register raise
the illegal-instruction trap with the word as its value. Read by CSRRS with x0, HOLDM, DEADM, SUCC and the debug and counter
registers give what they hold, DLREM the cycles left, cycle, time and instret the counts, and the image registers those of
EVCNT (R77, R80, R81, R86, R87, R379, R423). That time counts from the reset, and that instret leaves out the reading
instruction, are the model's choices (log entries 5 and 30). -/
def Obligations.RegisterWritesAndRefusals : Prop :=
  ∀ (s : State) (rd rs1 : XReg) (csr : BitVec 12), s.clear false [rs1] rd = true →
    let v := s.x rs1
    let w := s.wake [rs1] rd
    let sets := fun (a : BitVec 12) (u : State) =>
      s.completes (.csrrw rd rs1 a) (u.setX rd (w.csrRead a.toNat)) (s.frame.pc + 4)
    sets 0x800 (w.onFrame (fun f => { f with drt := v.getLsbD 13, nxr := v.getLsbD 4, dr := f.dr && !v.getLsbD 12 })) ∧
    sets 0x802 (w.onMe (fun c => { c with csr := { c.csr with holdm := v &&& ~~~1#64 } })) ∧
    sets 0x803 (w.onFrame (fun f => { f with deadm := v.setWidth 32 &&& ~~~1#32 })) ∧
    sets 0x804 (w.onFrame (fun f => { f with succ := v &&& ~~~62#64 })) ∧
    (s.frame.sup = true →
      let super := fun (a : BitVec 12) (g : Csrs → Csrs) => sets a (w.onMe (fun c => { c with csr := g c.csr }))
      super 0x5C1 (fun c => { c with ceilsel := v.toNat % 64 }) ∧
      super 0x5C3 (fun c => { c with gpv := v }) ∧
      super 0x5C6 (fun c => { c with corenxr := v.getLsbD 0 }) ∧
      super 0x5C8 (fun c => { c with sgsel := v.toNat % 64 }) ∧
      super 0x5E1 (fun c => { c with gbsel := v.toNat % 2 ^ 32 })) ∧
    ((csrNamed csr.toNat = false ∨ (csrSup csr.toNat = true ∧ s.frame.sup = false) ∨ csrReadOnly csr.toNat = true) →
      exec (.csrrw rd rs1 csr) s = .next (w.trap 1 (wordOf (.csrrw rd rs1 csr)))) ∧
    (let c := s.me
     let soon := s.after s.cur 1
     let shows := fun (a : BitVec 12) (x : Word) => s.clear false [0] rd = true →
       s.completes (.csrrs rd 0 a) ((s.wake [0] rd).setX rd x) (s.frame.pc + 4)
     shows 0x802 c.csr.holdm ∧ shows 0x803 (c.run.deadm.zeroExtend 64) ∧ shows 0x804 c.run.succ ∧
     (c.run.dl = none → shows 0x80B 0) ∧
     (∀ d, c.run.dl = some d → shows 0x80B (BitVec.ofNat 64 ((d.expiry - soon) % 2 ^ 32))) ∧
     (∀ i : Fin 4, shows (BitVec.ofNat 12 (0x810 + i)) c.evs.sel[i] ∧ shows (BitVec.ofNat 12 (0x814 + i)) c.evs.cnt[i] ∧
       shows (BitVec.ofNat 12 (0xC03 + i)) c.evs.cnt[i] ∧ shows (BitVec.ofNat 12 (0x820 + i)) c.dbg.dba[i] ∧
       shows (BitVec.ofNat 12 (0x824 + i)) c.dbg.dbm[i] ∧ shows (BitVec.ofNat 12 (0x828 + i)) c.dbg.dwa[i] ∧
       shows (BitVec.ofNat 12 (0x82C + i)) c.dbg.dwm[i]) ∧
     shows 0x818 c.evs.ovf ∧ shows 0x830 c.dbg.stepc ∧
     ((s.cluster (clusterOf s.cur)).derateAt = none → shows 0xC00 (BitVec.ofNat 64 (s.now + 1))) ∧
     shows 0xC01 (BitVec.ofNat 64 soon) ∧ shows 0xC02 (BitVec.ofNat 64 c.instret) ∧
     (∀ j : Fin 25, shows (BitVec.ofNat 12 (0xC07 + j)) 0))
/-! ### Traps and tasks (chapters 02, 09, 19) -/

/-- A trap pushes the handler's frame at level 7 with the cause, its value, the PC and TSTAT, and keeps the trapped
frame beneath (R42, R412 to R416); in a level-7 frame, with an invalid entry, without room or with a poisoned entry it is
a machine check (R41, R407, R414). It waits while a standard load is outstanding, and while the entry's home slice
fills (R201; the fill is log entry 65). -/
def Obligations.TrapsPushTheHandlerFrame : Prop :=
  ∀ (s : State) (cause : Nat) (tval : Word),
    let u := s.trapAt cause
    let entry := s.trapEntry cause
    let checks := fun (code : Nat) => s.trap cause tval = u.machineCheck s.cur 0 code 0 0 s.frame.pc.toNat
    (s.trapOpen cause = true → s.trapTaken (s.trap cause tval) cause tval) ∧
    (s.frame.level = 7 → s.trap cause tval = s.machineCheck s.cur 0 0x03 0 0 s.frame.pc.toNat) ∧
    (s.trapMeets cause = false → s.trap cause tval = u.trapWait s.cur) ∧
    (s.frame.level ≠ 7 → s.me.loads ≠ [] → s.trapMeets cause = false) ∧
    (s.frame.level ≠ 7 → s.trapMeets cause = true → s.trapPoison cause = true →
      s.trap cause tval = u.machineCheck s.cur 2 0x40 (u.poisonAt (u.me.csr.traptb + 16 * cause) 16) 0 s.frame.pc.toNat) ∧
    (s.frame.level ≠ 7 → s.trapMeets cause = true → s.trapPoison cause = false →
      (bitOf (natAt entry 9 1) 0 = false → checks 0x05) ∧
      (bitOf (natAt entry 9 1) 0 = true → u.me.fits (natAt entry 8 1) = false → checks 0x04))

/-- ECALL takes the environment-call trap and EBREAK the breakpoint trap (R206): the handler's frame runs, with the
cause 18 or 19 in a0, 0 in a1 and the instruction's own PC in a2; the open record stays open. Where an enabled breakpoint
matches the PC, no instruction executes: the debug breakpoint trap is taken with the PC as its value. Where the core's checker
finds a first mismatch, no instruction commits: the frame, the log and the pending posts stay, and the instruction executes again; a second
mismatch is the machine check of class 3, code 0x02, at the instruction's PC (R402, R425). -/
def Obligations.EnvironmentCallsAndBreakpointsTrap : Prop :=
  (∀ s : State, s.clear false [] 0 = true →
    let w := s.wake [] 0
    let calls := fun (i : Instr) (cause : Nat) => w.trapOpen cause = true →
      ∃ t, exec i s = .next t ∧ w.trapTaken t cause 0 ∧ t.me.pub.log = s.me.pub.log ∧
        (s.frame.fid ≠ s.me.nextFid → t.me.pub.opened = s.me.pub.opened)
    calls .ecall 18 ∧ calls .ebreak 19) ∧
  (∀ (s : State) (i : Instr) (w : BitVec 32), encode i = some w → s.frame.acq = none →
    (s.me.upset = 0 → s.me.breaks = true → exec i s = .next (s.trap 21 s.frame.pc)) ∧
    (s.me.upset ≠ 0 → s.me.again = false →
      ∃ t, exec i s = .next t ∧ t.cur = s.cur ∧ t.frame = s.frame ∧ t.me.pub = s.me.pub ∧ t.me.instret = s.me.instret ∧
        t.me.again = true ∧ t.me.upset = s.me.upset - 1) ∧
    (s.me.upset ≠ 0 → s.me.again = true →
      exec i s = .next ((s.onMe (fun c => { c with upset := c.upset - 1, again := false })).machineCheck s.cur 0 0x02 0 0
        s.frame.pc.toNat)))

/-- TRET, TKILL and TEND, with no kiln command of the level left and no standard load outstanding, remove the frame they
end and run the frame beneath as it was, its registers read back from the spill region where its window lies there; a frame
that TRET uncovers has no breakpoint at its next instruction, and a deadline of it that has passed stands noted as passed;
TKILL removes the trapped frame too, and TEND in a trap frame is TRET (R40, R74, R201, R216, R223, R235, R354, R415). That
TEND in the idle frame only goes on, and TKILL over the idle frame uncovers it, is the model's choice (log entry 81); TRET
and TKILL outside a trap frame are illegal (R235). -/
def Obligations.FramesEndAndTheFrameBeneathRuns : Prop :=
  ∀ (s : State) (f g : Frame) (rest : List Frame), s.clear false [] 0 = true → s.me.loads = [] →
    s.winBad s.cur f = false → s.winBad s.cur g = false →
    -- the registers of an uncovered frame
    let regs := fun (u : Frame) (t : State) =>
      (u.win ≠ .l2 → t.frame.regs = u.regs) ∧
      (u.win = .l2 → ∀ r : XReg, r ≠ 0 → u.isLive r = true →
        t.x r = wordAt (s.readKeyed (s.descMkey s.cur s.me.vdev) (s.windowAt s.cur u.level) 256) (8 * r.toNat))
    let ends := fun (i : Instr) (u : Frame) (under : List Frame) =>
      ∃ t, exec i s = .next t ∧ t.cur = s.cur ∧ t.frame = { u with win := .loc, regs := t.frame.regs } ∧ regs u t ∧
        t.me.under = under ∧ t.me.instret = s.me.instret + 1
    let returns := fun (i : Instr) =>
      ∃ t, exec i s = .next t ∧ t.cur = s.cur ∧ regs f t ∧ t.me.under = rest ∧ t.me.instret = s.me.instret + 1 ∧
        t.frame = { f with
          win := .loc, regs := t.frame.regs, exempt := true,
          dl := f.dl.map (fun d => { d with passed := d.passed || decide (d.expiry ≤ t.now) }) }
    (s.frame.trap.isSome = true → s.kilnBusy s.cur s.frame.level = false →
      (s.me.under = f :: rest → returns .tret ∧ (s.frame.level ≠ 0 → returns .tend)) ∧
      (s.me.under = f :: rest → f.level = 0 → s.kilnBusy s.cur 0 = false → ends .tkill f rest) ∧
      (s.me.under = f :: g :: rest → f.level ≠ 0 → s.kilnBusy s.cur f.level = false → ends .tkill g rest)) ∧
    (s.frame.trap = none → s.frame.level ≠ 0 → s.kilnBusy s.cur s.frame.level = false → s.me.under = f :: rest →
      ends .tend f rest) ∧
    (s.frame.trap = none →
      exec .tret s = .next ((s.wake [] 0).trap 1 (wordOf .tret)) ∧
      exec .tkill s = .next ((s.wake [] 0).trap 1 (wordOf .tkill))) ∧
    (s.frame.level = 0 → s.completes .tend (s.wake [] 0) (s.frame.pc + 4))

/-- In a trap frame TFRD reads an item of the trapped frame and TFWR writes one (R236): a register, the PC with bits
[1:0] cleared, or DEADM; other items are not written, and outside a trap frame both are illegal. -/
def Obligations.TrapItemsReadAndWriteTheTrappedFrame : Prop :=
  ∀ (s : State) (rd rs1 rs2 : XReg) (e1 e2 : BitVec 1) (f : Frame) (rest : List Frame) (ti : TrapInfo),
    (s.clear false [rs1] rd = true →
      let sel := (s.x rs1).toNat
      let w := s.wake [rs1] rd
      (s.frame.trap = some ti → s.me.under = f :: rest →
        let reads := fun (v : Word) => s.puts (.tfrd rd rs1 e1) [rs1] rd v
        (∀ r : XReg, sel = r.toNat → f.isFull r = true → f.isBusy r = false → reads (f.x r)) ∧
        (sel = 32 → reads f.pc) ∧ (sel = 33 → reads f.tstat) ∧ (sel = 34 → reads (f.deadm.zeroExtend 64)) ∧
        (sel = 35 → reads f.thresh) ∧
        (sel = 36 → reads (BitVec.ofNat 64 (ti.cause + 256 * ti.boundary.toNat))) ∧ (sel = 37 → reads ti.tval)) ∧
      (s.frame.trap = none → exec (.tfrd rd rs1 e1) s = .next (w.trap 1 (wordOf (.tfrd rd rs1 e1))))) ∧
    (s.clear false [rs1, rs2] 0 = true →
      let sel := (s.x rs1).toNat
      let v := s.x rs2
      let w := s.wake [rs1, rs2] 0
      (s.frame.trap = some ti → s.me.under = f :: rest →
        let writes := fun (g : Frame) => s.completes (.tfwr rs1 rs2 e1 e2)
          (w.onMe (fun c => { c with under := g :: rest })) (s.frame.pc + 4)
        (∀ r : XReg, sel = r.toNat → f.isFull r = true → writes (f.setX r v)) ∧
        (sel = 32 → writes { f with pc := v &&& ~~~3#64 }) ∧
        (sel = 33 → writes { f with drt := v.getLsbD 13, nxr := v.getLsbD 4, dr := f.dr && !v.getLsbD 12 }) ∧
        (sel = 34 → writes { f with deadm := v.setWidth 32 &&& ~~~1#32 }) ∧
        (34 < sel → sel ≤ 63 → writes f)) ∧
      (s.frame.trap = none → exec (.tfwr rs1 rs2 e1 e2) s = .next (w.trap 1 (wordOf (.tfwr rs1 rs2 e1 e2)))))

/-- CLAIM pushes the resource with the present threshold and raises the threshold to the resource's ceiling; UNCLAIM of
the newest claim restores the threshold; a resource out of range or without a ceiling, a ninth claim, and an UNCLAIM of
another resource raise the claim trap, cause 10; each takes 1 cycle (R48, R224). -/
def Obligations.ClaimsRaiseAndRestoreTheThreshold : Prop :=
  ∀ (s : State) (rs1 : XReg) (e1 : BitVec 1), s.clear false [rs1] 0 = true →
    let r := (s.x rs1).toNat
    let c := tget s.me.ceil r 0
    let w := s.wake [rs1] 0
    (r ≤ 63 → c ≠ 0 → s.frame.claims.length < 8 →
      s.completesIn (.claim rs1 e1)
        (w.onFrame (fun f => { f with claims := (r, f.thr) :: f.claims, thr := max f.thr c })) (s.frame.pc + 4) 1) ∧
    ((63 < r ∨ c = 0 ∨ 8 ≤ s.frame.claims.length) → exec (.claim rs1 e1) s = .next (w.trap 10 (s.x rs1))) ∧
    (∀ l rest, s.frame.claims = (r, l) :: rest →
      s.completesIn (.unclaim rs1 e1) (w.onFrame (fun f => { f with claims := rest, thr := l })) (s.frame.pc + 4) 1) ∧
    ((∀ l rest, s.frame.claims ≠ (r, l) :: rest) → exec (.unclaim rs1 e1) s = .next (w.trap 10 (s.x rs1)))

/-- HOLD and UNHOLD set and clear one bit of HOLDM, and are illegal for a value above 63; HOLDM and UNHOLDM set and
clear every bit of a mask; bit 0 stays as it is; each takes 1 cycle (R50, R225). -/
def Obligations.HoldsChangeTheHoldMask : Prop :=
  ∀ (s : State) (rs1 : XReg) (e1 : BitVec 1), s.clear false [rs1] 0 = true →
    let v := s.x rs1
    let w := s.wake [rs1] 0
    let hold := fun (i : Instr) (m : Word → Word) => s.completesIn i
      (w.onMe (fun c => { c with csr := { c.csr with holdm := m c.csr.holdm } })) (s.frame.pc + 4) 1
    let bits : Word → Word := fun m => m &&& ~~~1#64
    hold (.holdm rs1 e1) (fun h => h ||| bits v) ∧
    hold (.unholdm rs1 e1) (fun h => h &&& ~~~bits v) ∧
    (v.toNat ≤ 63 →
      hold (.hold rs1 e1) (fun h => h ||| bits (1#64 <<< v.toNat)) ∧
      hold (.unhold rs1 e1) (fun h => h &&& ~~~bits (1#64 <<< v.toNat))) ∧
    (63 < v.toNat →
      exec (.hold rs1 e1) s = .next (w.trap 1 (wordOf (.hold rs1 e1))) ∧
      exec (.unhold rs1 e1) s = .next (w.trap 1 (wordOf (.unhold rs1 e1))))

/-- SUCC arms SUCC with an aligned address, disarms it for rs1 = x0 and traps on a misaligned one; DLSET arms the
deadline of the running task, counted from its retirement, or disarms it for a count of 0 whatever rs2 names, and DLCLR
disarms it (R81, R220, R222). -/
def Obligations.SuccessorsAndDeadlinesAreArmed : Prop :=
  ∀ (s : State) (rs1 rs2 : XReg) (e1 e2 : BitVec 1),
    let pc4 := s.frame.pc + 4
    (s.clear false [rs1] 0 = true →
      let w := s.wake [rs1] 0
      (rs1 = 0 → s.completes (.succ rs1 e1) (w.onFrame (fun f => { f with succ := f.succ &&& ~~~1#64 })) pc4) ∧
      (rs1 ≠ 0 → (s.x rs1).toNat % 64 = 0 →
        s.completes (.succ rs1 e1) (w.onFrame (fun f => { f with succ := (s.x rs1) ||| 1#64 })) pc4) ∧
      (rs1 ≠ 0 → (s.x rs1).toNat % 64 ≠ 0 → exec (.succ rs1 e1) s = .next (w.trap 6 (s.x rs1)))) ∧
    (s.clear false [rs1, rs2] 0 = true →
      (s.x rs1).toNat = 0 → s.completes (.dlset rs1 rs2 e1 e2) ((s.wake [rs1, rs2] 0).onMe Core.disarm) pc4) ∧
    (s.clear false [rs1, 0] 0 = true →
      let w := s.wake [rs1, 0] 0
      let n := (s.x rs1).toNat
      (n ≠ 0 → ∃ t, exec (.dlset rs1 0 e1 e2) s = .next t ∧ (w.arm n none).Retires t pc4 ∧
        t.frame.dl = some { expiry := w.after w.cur 1 + min n (2 ^ 32 - 1), succ := none, solves := 0, reason := 1 })) ∧
    (s.clear false [] 0 = true → s.completes .dlclr ((s.wake [] 0).onMe Core.disarm) pc4)

/-- FMT sets the prefix state with its two codes, first code in the low bits; an instruction that takes no prefix under a
pending FMT, and one that needs one without it, raise the bad-prefix trap with their word as its value. CKPT takes a
checkpoint after it has retired. QPUSH appends to q0 while it holds fewer than 8 entries; QPOP takes the oldest entry of q1,
q2 or q4, and on an empty queue leaves rd empty until an entry arrives; QLEN counts entries; any other queue is illegal. An
empty register makes an instruction that reads or writes it wait, but for a source of an E-format instruction whose e bit is
1: that one raises the EMPTY trap with the register's number, rs1 first (R68, R165, R173, R234, R238, R407). -/
def Obligations.PrefixesCheckpointsAndQueues : Prop :=
  (∀ (s : State) (f1 f2 : BitVec 3), s.clear false [] 0 = true →
     s.completes (.fmt f1 f2) ((s.wake [] 0).onFrame (fun f => { f with pp := true, pfmt := f2 ++ f1 }))
       (s.frame.pc + 4) ∧
     (∃ t u, exec .ckpt s = .next t ∧ (s.wake [] 0).Retires u (s.frame.pc + 4) ∧ t = u.checkpoint u.cur ∧
       ∃ k, t.me.ck = some k ∧ k.frame = t.frame)) ∧
  (∀ (s : State) (rd rs1 : XReg) (e1 : BitVec 1) (q : BitVec 5),
     let pc4 := s.frame.pc + 4
     let clean := fun (n : Nat) => s.kset.bad.contains (queueItem n) = false
     (s.clear false [rs1] 0 = true →
       let w := s.wake [rs1] 0
       (s.kset.q0.length < 8 →
         s.completes (.qpush rs1 e1 0) (w.onKset (fun k => { k with q0 := k.q0 ++ [s.x rs1] })) pc4) ∧
       (8 ≤ s.kset.q0.length → exec (.qpush rs1 e1 0) s = .next (w.stall .q0full)) ∧
       (q ≠ 0 → exec (.qpush rs1 e1 q) s = .next (w.trap 1 (wordOf (.qpush rs1 e1 q))))) ∧
     (s.clear false [] rd = true →
       let w := s.wake [] rd
       (∀ v l, s.kset.q1 = v :: l → clean 1 →
         s.completes (.qpop rd 1) ((w.onKset (fun k => { k with q1 := l })).setX rd v) pc4) ∧
       (∀ v l, s.kset.q2 = v :: l → clean 2 →
         s.completes (.qpop rd 2) ((w.onKset (fun k => { k with q2 := l })).setX rd (v.zeroExtend 64)) pc4) ∧
       (∀ v l, s.kset.q4 = v :: l → clean 4 →
         s.completes (.qpop rd 4) ((w.onKset (fun k => { k with q4 := l })).setX rd (BitVec.ofNat 64 v)) pc4) ∧
       (((q = 1 ∧ s.kset.q1 = []) ∨ (q = 2 ∧ s.kset.q2 = []) ∨ (q = 4 ∧ s.kset.q4 = [])) →
         s.completes (.qpop rd q) (w.onMe (fun c => { c with
           pops := c.pops ++ [{ fid := c.run.fid, level := c.run.level, q := q.toNat, rd := rd }],
           run := c.run.setEmpty rd })) pc4) ∧
       (q ≠ 1 → q ≠ 2 → q ≠ 4 → exec (.qpop rd q) s = .next (w.trap 1 (wordOf (.qpop rd q)))) ∧
       (q.toNat ≤ 4 → s.puts (.qlen rd q) [] rd (BitVec.ofNat 64 (s.kset.len q.toNat))))) ∧
  (∀ s : State, s.frame.acq = none → s.me.upset = 0 → s.me.breaks = false →
     (∀ (i : Instr) (w : BitVec 32), encode i = some w → s.frame.pp ≠ isPrefixed i →
       exec i s = .next (s.trap 2 (w.zeroExtend 64))) ∧
     (s.frame.pp = false →
       let full := fun (r : XReg) => s.frame.isFull r = true
       -- base instructions: every register waits
       (∀ (rd rs1 rs2 : XReg) (imm : BitVec 12),
         (¬ (full rd ∧ full rs1 ∧ full rs2) → exec (.add rd rs1 rs2) s = .next (s.stall .reg)) ∧
         (¬ (full rd ∧ full rs1) → exec (.addi rd rs1 imm) s = .next (s.stall .reg) ∧
           exec (.ld rd rs1 imm) s = .next (s.stall .reg)) ∧
         (¬ (full rs1 ∧ full rs2) → exec (.sd rs1 rs2 imm) s = .next (s.stall .reg) ∧
           exec (.beq rs1 rs2 imm) s = .next (s.stall .reg))) ∧
       (∀ (rd rs1 rs2 : XReg) (e1 e2 : BitVec 1),
         let meets := fun (i : Instr) (dst : XReg) =>
           (e1 = 1 → ¬ full rs1 → exec i s = .next (s.trap 3 (rs1.zeroExtend 64))) ∧
           (e1 = 0 ∨ full rs1 →
             (e2 = 1 → ¬ full rs2 → exec i s = .next (s.trap 3 (rs2.zeroExtend 64))) ∧
             (e2 = 0 ∨ full rs2 → ¬ (full dst ∧ full rs1 ∧ full rs2) → exec i s = .next (s.stall .reg)))
         meets (.poste rd rs1 rs2 e1 e2) rd ∧ meets (.send rd rs1 rs2 e1 e2) rd ∧
         meets (.atomAdd rd rs1 rs2 e1 e2) rd ∧ meets (.redAdd rs1 rs2 e1 e2) 0 ∧
         meets (.tjmp rs1 rs2 e1 e2) 0 ∧ meets (.dlset rs1 rs2 e1 e2) 0 ∧ meets (.tfwr rs1 rs2 e1 e2) 0 ∧
         meets (.xinv rs1 rs2 e1 e2) 0)))
/-! ### Posts, barriers, remote loads and ONE (chapter 09) -/

/-- POST, POSTE, SEND and SPAWN with a readable, well-formed record and a permitted target complete: a record for the
own core enters its ready set or its receive queue with the status in rd; a record for another core leaves as a
message with rd empty until the status returns; a SPAWN of another team member is handed over in the cluster (R56, R215,
R217 to R219). -/
def Obligations.PostsDeliverTheirRecord : Prop :=
  ∀ (s : State) (rd rs1 rs2 : XReg) (e1 e2 : BitVec 1) (bs : List Byte) (u : State),
    (s.clear false [rs1] rd = true → (s.wake [rs1] rd).recordAt (s.x rs1).toNat = (.data bs, u) →
      recordOk bs u.frame.sup = true → u.me.pub.exhausted = false →
      ∃ t, exec (.post rd rs1 e1) s = .next t ∧ s.goneOn t 4 1 ∧ s.keepsFrom u t rd ∧ u.postedOwn t (TaskRec.ofBytes bs) false rd) ∧
    (s.clear false [rs1, rs2] rd = true → (s.wake [rs1, rs2] rd).recordAt (s.x rs1).toNat = (.data bs, u) →
      recordOk bs u.frame.sup = true → u.me.pub.exhausted = false →
      let tg := (s.x rs2).toNat % 2 ^ 32
      let posts := fun (i : Instr) (recvq : Bool) =>
        (tg = u.epId u.cur →
          ∃ t, exec i s = .next t ∧ s.goneOn t 4 1 ∧ s.keepsFrom u t rd ∧ u.postedOwn t (TaskRec.ofBytes bs) recvq rd) ∧
        (tg ≠ u.epId u.cur → u.permits u.cur tg = true → u.me.reserved < 16 →
          ∃ t, exec i s = .next t ∧ s.goneOn t 4 1 ∧ s.keepsFrom u t rd ∧ u.postedFar t (TaskRec.ofBytes bs) tg recvq rd) ∧
        (tg ≠ u.epId u.cur → u.permits u.cur tg = false → exec i s = .next (u.trap 11 (BitVec.ofNat 64 tg)))
      posts (.poste rd rs1 rs2 e1 e2) false ∧ posts (.send rd rs1 rs2 e1 e2) true) ∧
    (s.clear false [rs1, rs2, 10, 11, 12, 13] rd = true →
      let w := s.wake [rs1, rs2, 10, 11, 12, 13] rd
      let f := s.frame
      let r : TaskRec :=
        { pc := s.x rs1, a0 := s.x 10, a1 := s.x 11, a2 := s.x 12, a3 := s.x 13, origin := 0, oseq := 0,
          prio := f.level, nxr := f.nxr, s := f.sup, cls := f.cls, frame := f.fsize, pan := f.pan, vdev := 0, gen := 0,
          deadline := 0, pseq := 0 }
      ∀ m, (s.x rs2).toNat < 8 → w.teamMember w.cur (s.x rs2).toNat = some m → (s.x rs1).toNat % 4 = 0 →
        w.me.pub.exhausted = false →
        (m = s.cur → w.epId m = w.epId s.cur →
          ∃ t, exec (.spawn rd rs1 rs2 e1 e2) s = .next t ∧ s.goneOn t 4 1 ∧ s.keepsBut t rd ∧
            w.postedOwn t r false rd) ∧
        (m ≠ s.cur → w.epId m ≠ w.epId s.cur →
          ∃ t, exec (.spawn rd rs1 rs2 e1 e2) s = .next t ∧ s.goneOn t 4 1 ∧ s.keepsBut t rd ∧
            (rd ≠ 0 → t.frame.isFull rd = false) ∧
            ∃ p ∈ tget t.inbox (w.epId m % 65536) [], p.dst = w.epId m ∧
              p.body = .post w.me.nextId (w.posted r (w.stampPost w.cur).1) false))

/-- TBAR with no successor armed releases and arrives: while another member of the team is missing the arrival stands;
with the last one the barrier completes, which counts it and takes up a staged team; a second arrival traps (R226). -/
def Obligations.TeamBarriersCompleteWithTheLastArrival : Prop :=
  ∀ s : State, s.clear false [] 0 = true → s.frame.succ.getLsbD 0 = false → s.me.pub.exhausted = false →
    let w := s.wake [] 0
    let k := clusterOf s.cur
    let v := s.me.vdev
    let team := s.me.csr.team
    let others := (maskCores team.toNat).all (fun i => decide (8 * k + i = s.cur) ||
      (s.cluster k).arr.any (fun a => a.mask == team && a.vdev == v && a.core == 8 * k + i))
    let here := (s.cluster k).arr.any (fun a => a.core == s.cur && a.vdev == v)
    (here = true → exec .tbar s = .next (w.trap 12 0)) ∧
    (here = false → others = false →
      s.completesCk .tbar ((w.release s.cur).onCluster k (fun c => { c with arr := c.arr ++
        [{ core := s.cur, vdev := v, mask := team, succ := none, hasSucc := false }] })) (s.frame.pc + 4)) ∧
    (here = false → others = true →
      ∃ t, exec .tbar s = .next t ∧ s.goneOn t 4 1 ∧
        ((s.cluster k).arr.all (fun a => a.succ.isNone) = true → ∀ p, t.readByte p = s.readByte p) ∧
        t.me.tbarN = (s.me.tbarN + 1) % 2 ^ 32 ∧ t.me.alignN = 0 ∧
        t.me.oneN = 0 ∧ t.me.csr.team = (if s.me.csr.stgEn then s.me.csr.stgMask else team) ∧
        (t.cluster k).arr.all (fun a => !(a.mask == team && a.vdev == v)) = true)

/-- TBARQ reads the arrivals; CARVE records a valid word as this core's request and is illegal for another word; ALIGN
completes once every other member has reached its instance, or with the 256th cycle of its wait, and waits before
(R58, R121, R227, R229, R230). -/
def Obligations.TeamQueriesCarveOutRequestsAndAlign : Prop :=
  ∀ (s : State) (rd rs1 : XReg) (e1 : BitVec 1),
    let k := clusterOf s.cur
    let team := s.me.csr.team
    let pc4 := s.frame.pc + 4
    (s.clear false [] rd = true →
      let own := (s.cluster k).arr.any (fun a => a.core == s.cur && a.vdev == s.me.vdev)
      s.completesIn (.tbarq rd) ((s.wake [] rd).setX rd
        (BitVec.ofNat 64 ((s.cluster k).arrived s.me.vdev team + 256 * team.toNat + 65536 * own.toNat))) pc4 1) ∧
    (s.clear false [rs1] 0 = true →
      let w := s.wake [rs1] 0
      ((Carve.ofNat (s.x rs1).toNat).isSome = true →
        s.completesIn (.carve rs1 e1) (w.onMe (fun c => { c with carveReq := some (s.x rs1).toNat })) pc4 1) ∧
      (Carve.ofNat (s.x rs1).toNat = none →
        exec (.carve rs1 e1) s = .next (w.trap 1 (wordOf (.carve rs1 e1))))) ∧
    (s.clear false [] 0 = true →
      let w := s.wake [] 0
      let inst := s.me.alignN + 1
      let all := (maskCores team.toNat).all (fun i =>
        decide (8 * k + i = s.cur) || decide (inst ≤ (w.core (8 * k + i)).aligned))
      let late := w.passed s.cur (s.me.alignAt.getD w.now) 255
      ((all = true ∨ late = true) → s.completes .align (w.onMe (fun c => { c with alignN := inst })) pc4) ∧
      (all = false → late = false → exec .align s =
        .next ((w.onMe (fun c => { c with alignAt := some (s.me.alignAt.getD w.now) })).stall .align)))

/-- GBAR with a clean descriptor and no successor armed: a gang of one completes at once and leaves no entry; a gang of
two notifies its peer of round 0 and keeps its arrival open; a malformed descriptor or an open arrival traps
(R228, R327). -/
def Obligations.GangBarriersNotifyTheirPeers : Prop :=
  ∀ (s : State) (rs1 : XReg) (e1 : BitVec 1) (bs : List Byte) (u : State), s.clear false [rs1] 0 = true →
    (s.wake [rs1] 0).recordAt (s.x rs1).toNat = (.data bs, u) →
    let n := natAt bs 0 2
    let i := natAt bs 2 2
    let bid := natAt bs 4 4
    let bad := (bs.drop 16).any (fun b => !(b == 0))
    let opened := u.me.gbars.any (fun g => g.bid == bid && g.opened)
    let fresh := u.me.gbars.all (fun g => !(g.bid == bid))
    (n = 0 ∨ n ≤ i ∨ bad = true ∨ opened = true → exec (.gbar rs1 e1) s = .next (u.trap 12 (BitVec.ofNat 64 bid))) ∧
    (n = 1 → i = 0 → bad = false → fresh = true → u.me.gbarCount < 64 → u.me.pub.exhausted = false →
      u.frame.succ.getLsbD 0 = false →
      ∃ t, exec (.gbar rs1 e1) s = .next t ∧ s.goneOn t 4 1 ∧ s.keepsFrom u t 0 ∧ t.me.gbars = u.me.gbars) ∧
    (∀ (d : List Byte) (v : State), n = 2 → i < 2 → bad = false →
      let a := wordAt bs 8 + BitVec.ofNat 64 (4 * ((i + 1) % 2))
      a.toNat % 4 = 0 → u.fetchData a.toNat 4 true = (.data d, v) → v.permits v.cur (leNat d) = true →
      v.me.gbars.all (fun g => !(g.bid == bid)) = true → v.me.gbarCount < 64 → v.me.pub.exhausted = false →
      v.frame.succ.getLsbD 0 = false →
      ∃ t, exec (.gbar rs1 e1) s = .next t ∧ s.goneOn t 4 1 ∧ s.keepsFrom v t 0 ∧
        (∃ p ∈ t.egress, p.dst = leNat d ∧ p.cls = 5 ∧ p.body = .bar bid 0) ∧
        (∃ g ∈ t.me.gbars, g.bid = bid ∧ g.opened = true ∧ g.sent = 1 ∧ g.rcvd = 0))

/-- LDR and LDRW with no successor armed leave rd empty and a reservation, and ask the home or the scratchpad's core for
the bytes; the own scratchpad is read at once, in program order, and its reply is on its way; behind an acquire they wait
before their address is walked (R126, R150, R214, R232). -/
def Obligations.RemoteLoadsLeaveTheirRegisterEmpty : Prop :=
  ∀ (s : State) (rd rs1 : XReg) (e1 : BitVec 1) (u : State), s.clear false [rs1] rd = true →
    s.frame.succ.getLsbD 0 = false →
    let a := s.x rs1
    let w := s.wake [rs1] rd
    let loads := fun (i : Instr) (n : Nat) => a.toNat % n = 0 → w.carveHolds a.toNat = false →
      (w.walkWaits w.asker a.toNat = true → exec i s = .next (w.stall .acquire)) ∧
      (w.walkWaits w.asker a.toNat = false → u.me.acqs = [] → u.me.reserved < 16 →
      (∀ x, w.translate w.asker a.toNat n .r = (.glob x, u) → u.locked s.cur (.glob x) a.toNat n false = false →
        ∃ t, exec i s = .next t ∧ s.goneOn t 4 1 ∧ s.keepsFrom u t rd ∧ u.requested t (.ldr n) rd ∧
          ∃ p ∈ t.egress, p.dst = x.home ∧ p.cls = 0 ∧ p.body = .ldr u.me.nextId x.pa x.set n false) ∧
      (∀ e off, w.translate w.asker a.toNat n .r = (.spad e off, u) → clusterOf e = clusterOf s.cur → e < 65536 →
        s.cur < 65536 → off < 131072 → u.locked s.cur (.spad e off) a.toNat n false = false →
        (byArray a.toNat = false ∨ u.arrayBusy s.cur (s.epId e) = false) →
        ∃ t, exec i s = .next t ∧ s.goneOn t 4 1 ∧ s.keepsFrom u t rd ∧ u.requested t (.ldr n) rd ∧
          ∃ p ∈ tget t.inbox e [], p.dst = u.epId e ∧
            (e ≠ s.cur → p.body = .ldr u.me.nextId off 0 n true) ∧
            (e = s.cur → p.body = .ldrRep u.me.nextId off (BitVec.ofNat 64 (leNat (u.spadBytes e off n)))
              (u.anyPoison (arrayBase e + off) n))))
    loads (.ldr rd rs1 e1) 8 ∧ loads (.ldrw rd rs1 e1) 4

/-- TJMP goes to the entry that the index selects, relative to the table, and to the next word when the index is at
least the table's length; a target that is no multiple of 4 traps (R233). -/
def Obligations.TableJumpsCheckTheirIndex : Prop :=
  ∀ (s : State) (rs1 rs2 : XReg) (e1 e2 : BitVec 1) (l : List Byte) (u : State),
    s.clear false [rs1, rs2] 0 = true →
    let i := (s.x rs1).toNat
    let b := s.x rs2
    let w := s.wake [rs1, rs2] 0
    (b.toNat % 8 ≠ 0 → exec (.tjmp rs1 rs2 e1 e2) s = .next (w.trap 6 b)) ∧
    (b.toNat % 8 = 0 → w.fetchData b.toNat 8 true = (.data l, u) →
      (leNat l ≤ i → s.completes (.tjmp rs1 rs2 e1 e2) u (u.frame.pc + 4)) ∧
      (∀ (d : List Byte) (v : State), i < leNat l →
        u.fetchData (b + 8 + BitVec.ofNat 64 (4 * i)).toNat 4 true = (.data d, v) →
        let tgt := b + extend d true
        (tgt.toNat % 4 = 0 → s.completes (.tjmp rs1 rs2 e1 e2) v tgt) ∧
        (tgt.toNat % 4 ≠ 0 → exec (.tjmp rs1 rs2 e1 e2) s = .next (v.trap 7 tgt))))

/-- ONE at an instance whose result is known gives the governed instruction's destination that result and skips the
governed instruction; an instruction that R174 does not allow raises the bad-prefix trap, and a governed word that no
instruction has the illegal-instruction trap with that word as its value (R59, R172, R174, R417). -/
def Obligations.OneGivesItsTeamOneResult : Prop :=
  ∀ (s : State) (wd : BitVec 32) (u : State) (i : Instr) (rd : XReg) (o : OneInst) (v : Word),
    s.clear false [] 0 = true → s.me.breaksNext = false →
    (s.wake [] 0).fetch (s.frame.pc + 4) = (.word wd, u) →
    (∀ e, decode wd = .error e → exec .one s = .next (u.trap 1 (wd.zeroExtend 64))) ∧
    (decode wd = .ok i → governedRd i = none → exec .one s = .next (u.trap 2 (wordOf .one))) ∧
    (decode wd = .ok i → governedRd i = some 0 → exec .one s = .next (u.trap 2 (wordOf .one))) ∧
    (decode wd = .ok i → governedRd i = some rd → rd ≠ 0 → u.frame.isFull rd = true → u.frame.isBusy rd = false →
      u.me.bankWaits [] rd u.now = false →
      (u.cluster (clusterOf u.cur)).ones.find? (fun o => o.isNext u.me u.cur) = some o →
      o.result = some (v, false) → o.glob = none →
      ∃ t, exec .one s = .next t ∧ s.goneOn t 8 1 ∧ t.x rd = v ∧ s.keepsFrom u t rd ∧
        t.me.oneN = u.me.oneN + 1)

/-! ### Publication, fences, atomics, reductions and copies (chapters 06, 09, 12) -/

/-- REL stamps and streams the open span, or lets it wait behind a pending post; at the sequence limit it traps
(R140 to R142, R239). -/
def Obligations.ReleasesPublishTheOpenSpan : Prop :=
  ∀ s : State, s.clear false [] 0 = true →
    let w := s.wake [] 0
    let p := s.me.pub
    (p.exhausted = true → exec .rel s = .next (w.trap 24 (BitVec.ofNat 64 p.lseq))) ∧
    (p.exhausted = false → s.completesCk .rel (w.release s.cur) (s.frame.pc + 4)) ∧
    (p.exhausted = false → p.acts = [] → p.log.any (fun r => r.owner == .free) = true →
      ∃ t, exec .rel s = .next t ∧ s.goneOn t 4 1 ∧ t.me.pub.lseq = max p.lseq p.clk + 1 ∧
        t.me.pub.clk = max p.lseq p.clk + 1 ∧ t.me.pub.log.all (fun r => !(r.owner == .free)) = true ∧
        t.me.pub.opened = false)

/-- ACQ of a permitted endpoint, ACQM, ACQG and ACQV start an acquire of exactly the writers they name and go on, once
every earlier release of the core is stamped: until then they wait; the queries to the writers other than the core itself are
then on their way, and its own is held at itself. While an acquire is under way a load whose translation would walk, or
whose address is global, waits. A forbidden endpoint, a mask above eight bits and a group above 15 trap (R141, R149, R150,
R151, R240). -/
def Obligations.AcquiresAskTheirWriters : Prop :=
  (∀ (s : State) (rs1 : XReg) (e1 : BitVec 1),
    let asks := fun (i : Instr) (w : State) (ws : List (Nat × Option Nat)) (h : Option (Nat × Nat)) =>
      (s.me.pub.acts ≠ [] → exec i s = .next (w.stall .acquire)) ∧
      (s.me.pub.acts = [] →
        ∃ t, exec i s = .next t ∧ s.goneOn t 4 1 ∧ s.keepsBut t 0 ∧
          { id := s.me.nextId, got := [], waits := ws, horizon := h, sent := true } ∈ t.me.acqs ∧
          (∀ a ∈ t.me.acqs, a.id ≠ s.me.nextId → ∃ b ∈ s.me.acqs, b.id = a.id ∧ b.waits = a.waits) ∧
          (∀ e ∈ ws, e.1 ≠ s.epId s.cur →
            ∃ p ∈ t.egress, p.src = s.epId s.cur ∧ p.dst = e.1 ∧ p.cls = 0 ∧ p.body = .query s.me.nextId e.2) ∧
          (∀ e ∈ ws, e.1 = s.epId s.cur →
            ∃ q ∈ t.me.queries, q.src = e.1 ∧ q.id = s.me.nextId ∧ q.target = e.2.getD s.me.pub.lseq))
    (s.clear false [rs1] 0 = true →
      let w := s.wake [rs1] 0
      let e := (s.x rs1).toNat % 2 ^ 32
      let m := (s.x rs1).toNat
      (w.permits w.cur e = true → asks (.acq rs1 e1) w [(e, none)] none) ∧
      (w.permits w.cur e = false → exec (.acq rs1 e1) s = .next (w.trap 11 (BitVec.ofNat 64 e))) ∧
      (m < 256 → asks (.acqm rs1 e1) w
        (((maskCores m).filterMap (fun i => w.teamMember w.cur i)).map (fun k => (w.epId k, none))) none) ∧
      (256 ≤ m → exec (.acqm rs1 e1) s = .next (w.trap 1 (wordOf (.acqm rs1 e1)))) ∧
      (m ≤ 15 →
        let g := w.readNat (w.descTabb w.cur w.me.vdev + 0x200 + 8 * m) 8
        asks (.acqg rs1 e1) w (if rectHeight g = 0 then []
          else (List.range (groupSize g)).map (fun j => (w.epId (groupMember g j), none))) none) ∧
      (15 < m → exec (.acqg rs1 e1) s = .next (w.trap 1 (wordOf (.acqg rs1 e1))))) ∧
    (s.clear false [] 0 = true →
      let w := s.wake [] 0
      asks .acqv w [] (some (w.now, s.me.pub.clk)))) ∧
  (∀ (s t : State) (rd rs1 : XReg) (imm : BitVec 12) (x : Xlat), s.clear false [rs1] rd = true → s.me.acqs ≠ [] →
    let w := s.wake [rs1] rd
    let a := s.x rs1 + imm.signExtend 64
    let waits := fun (i : Instr) (n : Nat) => a.toNat % n = 0 → w.carveHolds a.toNat = false →
      (w.noWalk w.asker a.toNat = false → exec i s = .next (w.stall .acquire)) ∧
      (w.noWalk w.asker a.toNat = true → w.translate w.asker a.toNat n .r = (.glob x, t) →
        t.locked s.cur (.glob x) a.toNat n false = false → exec i s = .next (t.stall .acquire))
    waits (.lb rd rs1 imm) 1 ∧ waits (.lbu rd rs1 imm) 1 ∧ waits (.lh rd rs1 imm) 2 ∧ waits (.lhu rd rs1 imm) 2 ∧
    waits (.lw rd rs1 imm) 4 ∧ waits (.lwu rd rs1 imm) 4 ∧ waits (.ld rd rs1 imm) 8)

/-- A drain goes on when its path is quiet and waits otherwise; FENCE releases and goes on when its release is stamped and
all four paths are quiet, whatever its fields; FENCE.I releases, goes on when the release is acknowledged and drops the instruction lines
(R159, R205, R241; the lines are log entry 14's). -/
def Obligations.FencesAndDrainsWaitForTheirPaths : Prop :=
  ∀ (s : State) (fm : BitVec 1) (p q : BitVec 4), s.clear false [] 0 = true →
    let w := s.wake [] 0
    let pc4 := s.frame.pc + 4
    let drains := fun (i : Instr) (busy : Bool) =>
      (busy = false → s.completes i w pc4) ∧ (busy = true → exec i s = .next (w.stall .drain))
    drains .drainS (s.copyPending s.cur 0) ∧ drains .drainG (s.copyPending s.cur 1) ∧
    drains .drainR (s.copyPending s.cur 2) ∧ drains .drainK (s.kilnStorePending s.cur) ∧
    (s.me.pub.exhausted = false →
      let v := w.releaseOnce
      (v.me.pub.acts = [] → s.copyPending s.cur 0 = false → s.copyPending s.cur 1 = false → s.copyPending s.cur 2 = false →
        s.kilnStorePending s.cur = false → s.completesCk (.fence fm p q) v pc4) ∧
      (v.me.pub.acts = [] → v.me.pub.chMeets v.me.pub.lseq = true →
        s.completesCk .fenceI (v.onMe (fun c => { c with ilines := [] })) pc4))

/-- An ATOM on a global word of its size, with both rights granted, no lock, no acquire under way and a reservation
free, leaves rd empty and sends its operation to the word's home with the own unpublished records of the word; another
alignment traps (R157, R214, R242). -/
def Obligations.AtomicsGoToTheirHome : Prop :=
  ∀ (s : State) (rd rs1 rs2 rs3 : XReg) (e1 e2 : BitVec 1) (x : Xlat) (u : State),
    let a := s.x rs1
    let atom := fun (i : Instr) (srcs : List XReg) (n : Nat) (op : AtomOp) (v w : Word) =>
      s.clear false srcs rd = true →
      let k := s.wake srcs rd
      (a.toNat % n ≠ 0 → exec i s = .next (k.trap 6 a)) ∧
      (a.toNat % n = 0 → k.walkWaits k.asker a.toNat = true → exec i s = .next (k.stall .acquire)) ∧
      (a.toNat % n = 0 → k.walkWaits k.asker a.toNat = false → k.translate k.asker a.toNat n .rw = (.glob x, u) →
        u.locked s.cur (.glob x) a.toNat n true = false → u.me.acqs = [] → u.me.reserved < 16 →
        ∃ t, exec i s = .next t ∧ s.goneOn t 4 1 ∧ s.keepsFrom u t rd ∧ u.requested t (.atom n) rd ∧
          (∀ r ∈ t.me.pub.log, isCarried x r = false) ∧
          ∃ p ∈ t.egress, p.dst = x.home ∧ p.cls = 0 ∧
            ∃ rs, p.body = .atom u.me.nextId x.pa x.set n op v w u.me.pub.clk rs ∧
              (u.me.pub.log.any (fun r => r.spilled) = false → rs = u.me.pub.log.filter (isCarried x)))
    let op2 := fun (i : Instr) (n : Nat) (op : AtomOp) => atom i [rs1, rs2] n op (s.x rs2) 0
    op2 (.atomAdd rd rs1 rs2 e1 e2) 8 .add ∧ op2 (.atomAddW rd rs1 rs2 e1 e2) 4 .add ∧
    op2 (.atomAnd rd rs1 rs2 e1 e2) 8 .and ∧ op2 (.atomAndW rd rs1 rs2 e1 e2) 4 .and ∧
    op2 (.atomOr rd rs1 rs2 e1 e2) 8 .or ∧ op2 (.atomOrW rd rs1 rs2 e1 e2) 4 .or ∧
    op2 (.atomXor rd rs1 rs2 e1 e2) 8 .xor ∧ op2 (.atomXorW rd rs1 rs2 e1 e2) 4 .xor ∧
    op2 (.atomMin rd rs1 rs2 e1 e2) 8 .min ∧ op2 (.atomMinW rd rs1 rs2 e1 e2) 4 .min ∧
    op2 (.atomMax rd rs1 rs2 e1 e2) 8 .max ∧ op2 (.atomMaxW rd rs1 rs2 e1 e2) 4 .max ∧
    op2 (.atomMinu rd rs1 rs2 e1 e2) 8 .minu ∧ op2 (.atomMinuW rd rs1 rs2 e1 e2) 4 .minu ∧
    op2 (.atomMaxu rd rs1 rs2 e1 e2) 8 .maxu ∧ op2 (.atomMaxuW rd rs1 rs2 e1 e2) 4 .maxu ∧
    op2 (.atomSwap rd rs1 rs2 e1 e2) 8 .swap ∧ op2 (.atomSwapW rd rs1 rs2 e1 e2) 4 .swap ∧
    atom (.atomCas rd rs1 rs2 rs3) [rs1, rs2, rs3] 8 .cas (s.x rs2) (s.x rs3) ∧
    atom (.atomCasW rd rs1 rs2 rs3) [rs1, rs2, rs3] 4 .cas (s.x rs2) (s.x rs3)

/-- A RED on a global word sends its contribution to the word's home, on the reduction class inside the device's
reduction window and on the request class outside it, with no register written (R158, R243, R325). -/
def Obligations.ReductionsSendTheirContribution : Prop :=
  ∀ (s : State) (rs1 rs2 : XReg) (e1 e2 : BitVec 1) (x : Xlat) (u : State), s.clear false [rs1, rs2] 0 = true →
    let a := s.x rs1
    let k := s.wake [rs1, rs2] 0
    let red := fun (i : Instr) (n : Nat) (op : AtomOp) =>
      (a.toNat % n ≠ 0 → exec i s = .next (k.trap 6 a)) ∧
      (a.toNat % n = 0 → k.translate k.asker a.toNat n .rw = (.glob x, u) →
        u.locked s.cur (.glob x) a.toNat n true = false →
        ∃ t, exec i s = .next t ∧ s.goneOn t 4 1 ∧ s.keepsFrom u t 0 ∧
          ∃ p ∈ t.egress, p.dst = x.home ∧ p.cls = (if u.inWindow u.me.vdev x then 4 else 0) ∧
            ∃ q c l, p.body = .red x.pa x.set n op (s.x rs2) q (u.epId u.cur) 1 (u.inWindow u.me.vdev x) c l)
    red (.redAdd rs1 rs2 e1 e2) 8 .add ∧ red (.redAddW rs1 rs2 e1 e2) 4 .add ∧
    red (.redAddf rs1 rs2 e1 e2) 8 .addf ∧ red (.redAddfW rs1 rs2 e1 e2) 4 .addf ∧
    red (.redMin rs1 rs2 e1 e2) 8 .min ∧ red (.redMinW rs1 rs2 e1 e2) 4 .min ∧
    red (.redMax rs1 rs2 e1 e2) 8 .max ∧ red (.redMaxW rs1 rs2 e1 e2) 4 .max

/-- COPY, COPY2D and COPYB with no successor armed, ends that translate and room for a slot and its locks put the copy
into the cluster's engine with its rows and give its tag in rd; with no room they wait. A COPY or COPYB of no bytes
completes at once: rd holds its tag, and q4 of the frame's level too, or a register whose QPOP waits for it
(R133, R234, R244 to R247). That one of no bytes waits for no slot is the model's choice (log entry 69). -/
def Obligations.CopiesEnterTheEngine : Prop :=
  ∀ (s : State) (rd rs1 rs2 rs3 : XReg) (ts td : Target) (u v : State),
    s.clear false [rs1, rs2, rs3] rd = true → s.frame.succ.getLsbD 0 = false →
    let a := s.x rs1
    let b := s.x rs2
    let n := (s.x rs3).toNat
    let w := s.wake [rs1, rs2, rs3] rd
    let k := clusterOf s.cur
    let slots := fun (t : State) => ((t.cluster k).copies.filter (fun c => c.core == t.cur && !c.paused)).length
    let locks := fun (t : State) => (t.cluster k).liveLocks.length
    let tagged := fun (t from' : State) => s.goneOn t 4 1 ∧ s.keepsFrom from' t rd ∧
      (rd ≠ 0 → t.x rd = BitVec.ofNat 64 s.me.tag) ∧ t.me.tag = (s.me.tag + 1) % 65536
    -- `z` is the state after the translations
    let enters := fun (i : Instr) (z : State) (rows : List (Nat × Nat × Nat)) (members : List Nat) =>
      (8 ≤ slots z → exec i s = .next (z.stall .copySlot)) ∧
      (slots z < 8 → 30 < locks z → exec i s = .next (z.stall .locks)) ∧
      (slots z < 8 → locks z ≤ 30 → ∃ t, exec i s = .next t ∧ tagged t z ∧
        ∃ c ∈ (t.cluster k).copies, c.core = s.cur ∧ c.tag = s.me.tag ∧ c.rows = rows ∧ c.members = members ∧
          c.landed = 0 ∧ c.level = s.frame.level ∧
          ((t.cluster k).locks.filter (fun l => l.owner == 2 * c.id)).length ≥ 2)
    let done := fun (i : Instr) (z : State) => ∃ t, exec i s = .next t ∧ s.goneOn t 4 1 ∧
      (rd ≠ 0 → t.x rd = BitVec.ofNat 64 s.me.tag) ∧ t.me.tag = (s.me.tag + 1) % 65536 ∧
      (t.cluster k).copies = (z.cluster k).copies ∧ (t.cluster k).locks = (z.cluster k).locks ∧
      (s.me.popWaits s.frame.level 4 = false → tagged t z ∧ ∃ q, t.kset.q4 = q ++ [s.me.tag % 65536]) ∧
      (∀ p l, takeFirst (fun (p : Pop) => p.level == s.frame.level && p.q == 4) s.me.pops = some (p, l) →
        t.me.pops = l ∧ (p.fid = s.frame.fid → p.rd ≠ 0 → p.rd ≠ rd →
          t.frame.isFull p.rd = true ∧ t.frame.x p.rd = BitVec.ofNat 64 s.me.tag))
    let ends := fun (t : State) => t.translate t.asker a.toNat 1 .r = (ts, u) ∧ ts.copyable = true ∧
      u.translate u.asker b.toNat 1 .w = (td, v) ∧ td.copyable = true
    (n < 2 ^ 32 → n ≠ 0 → ends w → enters (.copy rd rs1 rs2 rs3) v [(a.toNat, b.toNat, n)] []) ∧
    (n = 0 → ends w → done (.copy rd rs1 rs2 rs3) v) ∧
    (2 ^ 32 ≤ n → exec (.copy rd rs1 rs2 rs3) s = .next (w.trap 1 (wordOf (.copy rd rs1 rs2 rs3)))) ∧
    (∀ (d0 d1 d2 d3 : List Byte) (u0 u1 u2 u3 : State),
      let c := s.x rs3
      let d := d0 ++ d1 ++ d2 ++ d3
      let rb := natAt d 0 4
      let rows := natAt d 4 4
      c.toNat % 8 = 0 → w.fetchData c.toNat 8 true = (.data d0, u0) →
      u0.fetchData (c + 8).toNat 8 true = (.data d1, u1) → u1.fetchData (c + 16).toNat 8 true = (.data d2, u2) →
      u2.fetchData (c + 24).toNat 8 true = (.data d3, u3) →
      rb ≠ 0 → rows ≠ 0 → rows ≤ 65535 → rb * rows < 2 ^ 32 → natAt d 24 8 = 0 → ends u3 →
      enters (.copy2d rd rs1 rs2 rs3) v
        ((List.range rows).map (fun j => (rowAddr a (wordAt d 8) j, rowAddr b (wordAt d 16) j, rb))) []) ∧
    (∀ m : List Nat, n < 2 ^ 40 → bitsOf n 32 8 ≠ 0 →
      (maskCores (bitsOf n 32 8)).map (fun i => w.teamMember w.cur i) = m.map some → b.toNat < 0x20000 →
      m.all (fun e => decide (b.toNat + bitsOf n 0 32 ≤ (w.core e).carve.spadSize)) = true →
      w.translate w.asker a.toNat 1 .r = (ts, u) → ts.copyable = true →
      (bitsOf n 0 32 ≠ 0 → enters (.copyb rd rs1 rs2 rs3) u [(a.toNat, b.toNat, bitsOf n 0 32)] m) ∧
      (bitsOf n 0 32 = 0 → done (.copyb rd rs1 rs2 rs3) u))

/-- CPCNT arms the byte counter at an aligned word of the own scratchpad and disarms it with rs1 = x0; COPYQ reads the
bytes landed of the core's copy with a tag, and all ones when there is none, in 3 cycles; PREF goes on whatever its
address, but for the wait that a translation asks, and asks for the sector only where the address is global, allowed,
aligned and unlocked (which bytes that means is log entry 22's); XINV in a supervisor frame drops exactly the named
device's cached translations that its operands name, from every core and cluster, once no request of the device waits to
be accepted by its first router; it waits for those that a dropped entry translated, and is illegal in a user frame and
for a word outside its fields (R237, R248, R250, R251, R363, R367). -/
def Obligations.CountersQueriesPrefetchesAndInvalidations : Prop :=
  (∀ (s : State) (rd rs1 : XReg) (e1 : BitVec 1),
     let a := s.x rs1
     let pc4 := s.frame.pc + 4
     (s.clear false [rs1] 0 = true →
       let w := s.wake [rs1] 0
       let i := Instr.cpcnt rs1 e1
       let pref := Instr.pref rs1 e1
       (rs1 = 0 → s.completes i (w.onFrame (fun f => { f with counter := none })) pc4) ∧
       (rs1 ≠ 0 → a.toNat % 4 ≠ 0 → exec i s = .next (w.trap 6 a)) ∧
       (rs1 ≠ 0 → a.toNat % 4 = 0 →
         (∀ off, a.toNat = 0x7E0000000000 + off → off + 4 ≤ s.me.carve.spadSize →
           s.completes i (w.onFrame (fun f => { f with counter := some off })) pc4) ∧
         (a.toNat < 0x7E0000000000 ∨ 0x7E0000000000 + s.me.carve.spadSize < a.toNat + 4 →
           exec i s = .next (w.trap 8 a))) ∧
       (∀ g u, w.translate w.asker a.toNat 1 .r = (g, u) →
         (g = .ats → exec pref s = .next (u.stall .fill)) ∧
         (∀ x, g = .glob x → a.toNat % 8 = 0 → u.locked s.cur (.glob x) a.toNat 1 false = false →
           s.completes pref ((u.onMe (fun c => { c with nextId := c.nextId + 1 })).askFill s.cur u.me.nextId x) pc4) ∧
         (∀ x, g = .glob x → a.toNat % 8 ≠ 0 ∨ u.locked s.cur (.glob x) a.toNat 1 false = true →
           s.completes pref u pc4) ∧
         (g ≠ .ats → (∀ x, g ≠ .glob x) → s.completes pref u pc4))) ∧
     (s.clear false [rs1] rd = true →
       let mine := fun (c : Copy) => c.core == s.cur && c.tag == a.toNat % 65536
       let landed := fun (c : Copy) => c.landed + ((c.flight.filter (fun f => f.landed)).map (fun f => f.n)).sum
       (∀ c, (s.cluster (clusterOf s.cur)).copies.find? mine = some c →
         s.completesIn (.copyq rd rs1 e1) ((s.wake [rs1] rd).setX rd (BitVec.ofNat 64 (landed c))) pc4 3) ∧
       ((s.cluster (clusterOf s.cur)).copies.find? mine = none →
         s.completesIn (.copyq rd rs1 e1) ((s.wake [rs1] rd).setX rd (BitVec.allOnes 64)) pc4 3))) ∧
  (∀ (s : State) (rs1 rs2 : XReg) (e1 e2 : BitVec 1), s.clear false [rs1, rs2] 0 = true →
     let w := s.wake [rs1, rs2] 0
     let n := (s.x rs2).toNat
     let v := n % 64
     let i := Instr.xinv rs1 rs2 e1 e2
     let gone := fun (e : TlbEntry) => e.vdev = v ∧ (n.testBit 8 = true ∨ (e.va ≤ (s.x rs1).toNat ∧ (s.x rs1).toNat < e.va + e.size))
     (s.frame.sup = false ∨ 512 ≤ n ∨ bitsOf n 6 2 ≠ 0 → exec i s = .next (w.trap 1 (wordOf i))) ∧
     (s.frame.sup = true → n < 512 → bitsOf n 6 2 = 0 →
       (s.egress.all (fun p => p.numbered || !(p.vdev == v)) = true →
         (∃ t, exec i s = .next t ∧ s.goneOn t 4 1 ∧ s.keepsBut t 0 ∧
           (∀ ep e, e ∈ (t.core ep).utlb ↔ e ∈ (s.core ep).utlb ∧ ¬ gone e) ∧
           (∀ k e, e ∈ (t.cluster k).tlb ↔ e ∈ (s.cluster k).tlb ∧ ¬ gone e))) ∧
       (∀ p ∈ s.egress, p.numbered = false → p.vdev = v → (∃ pa, p.pa? = some pa ∧ ∃ ep, ∃ e ∈ (s.core ep).utlb, gone e ∧
           e.base ≤ pa ∧ pa < e.base + e.size) →
         exec i s = .next (w.stall .xinv))))
/-! ### The kiln (chapters 10, 11) -/

/-- Vector and control commands without a check of their own enter the dispatch queue with the value of xs, where they
have one; floating vector commands enter it for FP32, BF16 and FP16, and a pending code of another format makes them
illegal. Nothing else of the core or of memory changes (R252, R257, R263, R265, R266, R269 to R274, R281, R292). -/
def Obligations.KilnCommandsEnterTheQueue : Prop :=
  (∀ (s : State) (vd vs1 vs2 : BitVec 3) (xs : XReg) (sz : BitVec 2) (n : BitVec 6),
     let enters := fun (i : Instr) => s.kilnClear i [] = true → s.entersKiln i 0
     let entersX := fun (i : Instr) => s.kilnClear i [xs] = true → s.entersKiln i (s.x xs)
     entersX (.vspl vd xs sz) ∧ enters (.vmv vd vs1) ∧ entersX (.vlane vd vs1 xs sz) ∧
     enters (.viadd vd vs1 vs2) ∧ enters (.visub vd vs1 vs2) ∧ enters (.vimul vd vs1 vs2) ∧
     enters (.vand vd vs1 vs2) ∧ enters (.vor vd vs1 vs2) ∧ enters (.vxor vd vs1 vs2) ∧
     enters (.vshl vd vs1 vs2) ∧ enters (.vshr vd vs1 vs2) ∧ enters (.vsra vd vs1 vs2) ∧
     enters (.viadds vd vs1 vs2) ∧ enters (.vsel vd vs1 vs2) ∧ enters (.vperm vd vs1 vs2 sz) ∧
     entersX (.vrot vd vs1 xs sz) ∧ enters (.vseed vs1) ∧ enters .lease ∧ enters .unlease ∧ enters .kzero ∧
     enters (.krow vd n) ∧ enters (.kputrow vs1 n)) ∧
  (∀ (s : State) (vd vs1 vs2 : BitVec 3) (sz : BitVec 2) (code : BitVec 1),
     let enters := fun (i : Instr) => s.kilnClear i [] = true →
       ((sz ≠ 3 ∨ s.frame.code1 ≤ 2) → s.entersKiln i 0) ∧
       (sz = 3 → 2 < s.frame.code1 → exec i s = .next ((s.wake [] 0).trap 1 (wordOf i)))
     enters (.vadd vd vs1 vs2 sz) ∧ enters (.vsub vd vs1 vs2 sz) ∧ enters (.vmul vd vs1 vs2 sz) ∧
     enters (.vfma vd vs1 vs2 sz) ∧ enters (.vmax vd vs1 vs2 sz) ∧ enters (.vmin vd vs1 vs2 sz) ∧
     enters (.vabs vd vs1 sz) ∧ enters (.vneg vd vs1 sz) ∧
     enters (.vcmpeq vd vs1 vs2 sz code) ∧ enters (.vcmplt vd vs1 vs2 sz code) ∧ enters (.vcmple vd vs1 vs2 sz code) ∧
     enters (.vsum vd vs1 sz code) ∧ enters (.vrmax vd vs1 sz code) ∧ enters (.vrmin vd vs1 sz code) ∧
     enters (.vexp2 vd vs1 sz) ∧ enters (.vrcp vd vs1 sz) ∧ enters (.vrsq vd vs1 sz) ∧ enters (.vlog2 vd vs1 sz))

/-- Commands that push a queue enter the dispatch queue while the queue has room for one more entry, VSPLQ while q0
holds an entry that no earlier command pops, and the conversions for pending formats and a part that R267 and R268
allow; otherwise each is illegal (R256, R268, R277). -/
def Obligations.QueueAndConversionCommandsAreChecked : Prop :=
  ∀ (s : State) (vd vs1 part : BitVec 3) (xs : XReg) (sz mode : BitVec 2) (ia : BitVec 2) (sato : BitVec 1),
    let checked := fun (i : Instr) (srcs : List XReg) (ok : Bool) (x : Word) => s.kilnClear i srcs = true →
      (ok = true → s.entersKiln i x) ∧
      (ok = false → exec i s = .next ((s.wake srcs 0).trap 1 (wordOf i)))
    let room1 := !s.pushFull 1
    checked (.vsplq vd sz) [] (decide (s.queued s.cur s.frame.level isVsplq < s.kset.q0.length)) 0 ∧
    checked (.voutq vs1 xs sz) [xs] room1 (s.x xs) ∧
    checked (.vbq vs1) [] (!s.pushFull 2) 0 ∧
    checked (.vcvt vd vs1 part sato mode) [] (cvtOk s.frame.code1 s.frame.code2 part false) 0 ∧
    checked (.vcvti vd vs1 part sato mode) [] (cvtOk s.frame.code1 s.frame.code2 part true) 0 ∧
    checked (.ringq ia) [] room1 0 ∧
    checked (.kscq 0) [] room1 0 ∧ checked (.kscq 1) [] true 0 ∧
    checked (.kchkq mode) [] room1 0 ∧
    checked (.kflg 0 0) [] room1 0 ∧ checked (.kflg xs 1) [xs] room1 (s.x xs)

/-- The kiln's memory commands with an aligned base in the own scratchpad enter the dispatch queue; a misaligned base
traps with cause 6 and a base outside the windows with cause 8 (R260, R264, R292). -/
def Obligations.KilnMemoryCommandsCheckTheirBase : Prop :=
  ∀ (s : State) (vd vs1 vs2 : BitVec 3) (xs : XReg) (sz : BitVec 2),
    let a := s.x xs
    let w := s.wake [xs] 0
    let mem := fun (i : Instr) (al n : Nat) => s.kilnClear i [xs] = true →
      (∀ off, a.toNat = 0x7E0000000000 + off → off % al = 0 → off < 131072 → off + n ≤ s.me.carve.spadSize →
        s.entersKiln i a) ∧
      (a.toNat % al ≠ 0 → exec i s = .next (w.trap 6 a)) ∧
      (a.toNat % al = 0 → a.toNat < 0x7E0000000000 → exec i s = .next (w.trap 8 a))
    let eb := (Fmt.ofCode (elemCode sz s.frame.code1)).width / 8
    mem (.vld vd xs) 4 128 ∧ mem (.vst vs1 xs) 4 128 ∧ mem (.vgth vd vs1 xs) 4 4 ∧ mem (.vsct vs1 vs2 xs) 4 4 ∧
    mem (.vlds vd vs1 xs sz) eb eb ∧ mem (.kld xs) 128 4096 ∧ mem (.kst xs) 128 4096

/-- KMMA, KMMAS, KMMAT and KMMAN complete where their two rings are different, defined and hold a tile, and for KMMAS the
level has a keeper or a frame that no queued KMMAS takes: the command enters the dispatch queue with the successor that
SUCC armed, if one is armed (that each of the four takes it is the model's choice, log entry 54), and takes one tile of each ring from the core's shadows. A ring that fails its check raises
the bad-ring trap with its number; KMMAS with neither keeper nor frame is illegal (R52, R220, R283, R287, R289, R293). -/
def Obligations.ProductsTakeTheirTiles : Prop :=
  ∀ (s : State) (ia ib : BitVec 2) (fa fb : BitVec 3) (mode : BitVec 2),
    let w := s.wake [] 0
    let badA := s.ringBad ia (1024 * tileWidth fa)
    let badB := s.ringBad ib (1024 * tileWidth fb)
    let hasFrame := bitOf s.keeper 2 || decide (s.queued s.cur s.frame.level isKmmas < s.kset.q3.length)
    let plain := s.frame.succ.getLsbD 0 = false
    -- the armed successor is read, well formed and given a spill entry
    let armed := fun (bs : List Byte) (u : State) => s.frame.succ.getLsbD 0 = true ∧
      w.recordAt (s.frame.succ &&& ~~~63#64).toNat = (.data bs, u) ∧ recordOk bs u.frame.sup = true ∧ u.me.spillFree = true
    let ringsOk := badA = false ∧ badB = false ∧ ia ≠ ib
    let bad := fun (i : Instr) => s.kilnClear i [] = true →
      (badA = true → exec i s = .next (w.trap 14 (ia.zeroExtend 64))) ∧
      (badA = false → (badB = true ∨ ia = ib) → exec i s = .next (w.trap 14 (ib.zeroExtend 64)))
    (s.kilnClear (.kmma ia ib fa fb mode) [] = true → ringsOk →
      (plain → s.entersProduct s (.kmma ia ib fa fb mode) ia ib none) ∧
      (∀ bs u, armed bs u → s.entersProduct u (.kmma ia ib fa fb mode) ia ib (some (u.capture bs)))) ∧
    (s.kilnClear (.kmmas ia ib fa fb mode) [] = true → ringsOk →
      (hasFrame = true →
        (plain → s.entersProduct s (.kmmas ia ib fa fb mode) ia ib none) ∧
        (∀ bs u, armed bs u → s.entersProduct u (.kmmas ia ib fa fb mode) ia ib (some (u.capture bs)))) ∧
      (hasFrame = false → exec (.kmmas ia ib fa fb mode) s = .next (w.trap 1 (wordOf (.kmmas ia ib fa fb mode))))) ∧
    (s.kilnClear (.kmmat ia ib fa fb mode) [] = true → ringsOk →
      (plain → s.entersProduct s (.kmmat ia ib fa fb mode) ia ib none) ∧
      (∀ bs u, armed bs u → s.entersProduct u (.kmmat ia ib fa fb mode) ia ib (some (u.capture bs)))) ∧
    (s.kilnClear (.kmman ia ib fa fb mode) [] = true → ringsOk →
      (plain → s.entersProduct s (.kmman ia ib fa fb mode) ia ib none) ∧
      (∀ bs u, armed bs u → s.entersProduct u (.kmman ia ib fa fb mode) ia ib (some (u.capture bs)))) ∧
    bad (.kmma ia ib fa fb mode) ∧ bad (.kmmas ia ib fa fb mode) ∧ bad (.kmmat ia ib fa fb mode) ∧
    bad (.kmman ia ib fa fb mode)

/-- RINGDEF of a valid record in the own scratchpad defines the core's shadow; RINGADV makes tiles available within the
ring; KEEP by the keeper of its level, to a quad core whose q3 has room, takes a scale tile of each ring, and by another
core or for a target above 3 is illegal; the solve commands of 1 to 32 rows enter the queue and others are illegal
(R282 to R285, R293, R296). -/
def Obligations.RingsKeepsAndSolvesAreChecked : Prop :=
  ∀ (s : State) (vd vs : BitVec 3) (xs : XReg) (ia ib : BitVec 2) (n : BitVec 6),
    let a := s.x xs
    let w := s.wake [xs] 0
    let queues := fun (i : Instr) (q : State → KCmd → Prop) =>
      ∃ t c, exec i s = .next t ∧ s.goneOn t 4 1 ∧ s.keepsBut t 0 ∧ t.me.dq = s.me.dq ++ [c] ∧ c.ins = i ∧
        c.level = s.frame.level ∧ q t c
    (∀ off r, s.kilnClear (.ringdef xs ia) [xs] = true → a.toNat = 0x7E0000000000 + off → off % 16 = 0 → off < 131072 →
      off + 16 ≤ s.me.carve.spadSize → s.locked s.cur (.spad s.cur off) a.toNat 16 false = false →
      s.anyPoison (arrayBase s.cur + off) 16 = false →
      ringOf (s.spadBytes s.cur off 16) s.me.carve.spadSize = some r →
      queues (.ringdef xs ia) (fun t _ => t.shadow ia = { base := r.base, tiles := r.tiles, tbytes := r.tbytes,
                                                          avail := (r.tail + 65536 - r.head) % 65536 })) ∧
    (s.kilnClear (.ringadv xs ia) [xs] = true →
      let h := s.shadow ia
      (h.tiles ≠ 0 → h.avail + a.toNat ≤ h.tiles →
        queues (.ringadv xs ia) (fun t c => c.x = a ∧ t.shadow ia = { h with avail := h.avail + a.toNat })) ∧
      (h.tiles = 0 ∨ h.tiles < h.avail + a.toNat →
        exec (.ringadv xs ia) s = .next (w.trap 14 (ia.zeroExtend 64)))) ∧
    (s.kilnClear (.keep xs ia ib) [xs] = true →
      let keeps := bitOf s.keeper 2 = true ∧ bitsOf s.keeper 0 2 = s.cur % 4
      let lvl := s.frame.level
      let room := s.kset.q3.length + s.queued s.cur lvl (isKeepTo a.toNat) + s.framesTo a.toNat lvl <
        2 + s.queued s.cur lvl isKmmas
      (keeps → a.toNat < 4 → (a.toNat = s.cur % 4 → room) →
        (s.ringBad ia 128 = false → s.ringBad ib 128 = false → ia ≠ ib →
          ∃ t c, exec (.keep xs ia ib) s = .next t ∧ s.goneOn t 4 1 ∧ s.keepsBut t 0 ∧
            t.me.dq = (s.me.dq ++ [c]).map (fun (k : KCmd) => { k with old := true }) ∧ c.ins = .keep xs ia ib ∧ c.level = lvl ∧
            c.target = a.toNat ∧
            t.shadow ia = { s.shadow ia with avail := (s.shadow ia).avail - 1 } ∧
            t.shadow ib = { s.shadow ib with avail := (s.shadow ib).avail - 1 } ∧
            ∀ r, r ≠ ia → r ≠ ib → t.shadow r = s.shadow r) ∧
        (s.ringBad ia 128 = true → exec (.keep xs ia ib) s = .next (w.trap 14 (ia.zeroExtend 64))) ∧
        (s.ringBad ia 128 = false → (s.ringBad ib 128 = true ∨ ia = ib) →
          exec (.keep xs ia ib) s = .next (w.trap 14 (ib.zeroExtend 64)))) ∧
      (¬ keeps ∨ 4 ≤ a.toNat ∨ (a.toNat = s.cur % 4 ∧ ¬ room) →
        exec (.keep xs ia ib) s = .next (w.trap 1 (wordOf (.keep xs ia ib))))) ∧
    (let solve := fun (i : Instr) (srcs : List XReg) (x : Word) => s.kilnClear i srcs = true →
        (n ≠ 0 → n.toNat ≤ 32 → s.entersKiln i x) ∧
        ((n = 0 ∨ 32 < n.toNat) → exec i s = .next ((s.wake srcs 0).trap 1 (wordOf i)))
     solve (.kfac n) [] 0 ∧ solve (.ktrsl vd vs n) [] 0 ∧ solve (.ktrsu vd vs n) [] 0 ∧ solve (.kmv vd vs n) [] 0 ∧
     solve (.kmvt vd vs n) [] 0 ∧ solve (.kdiag xs n) [xs] a)

/-- When the vector section issues a command whose operands hold no error, its destination takes the result of each
element, the other registers stay, the flags gather those of the elements, and the command leaves the queue: lane-wise integer
and logical operations, VIADDS, which saturates and sets SAT, selection, floating operations, comparisons and special
functions, each computed from its elements' values and rounded once, permutation and rotation, the conversions of modes NE
and TZ, and the reductions, combined in pairs up a tree (R253, R265 to R273, R115). That a result is written as the command
issues is the model's choice (log entry 16). -/
def Obligations.TheVectorSectionComputesLaneWise : Prop :=
  ∀ (s : State) (quad j : Nat) (c : KCmd) (vd vs1 vs2 part : BitVec 3) (xs : XReg) (sz : BitVec 2) (code sato : BitVec 1),
    let k := s.kiln quad
    let ep := quadCore quad j
    k.vecFree ≤ s.now → k.vecGated = false → (rotation k.lastVec).find? (fun j => s.vecRequest quad j) = some j →
    s.head ep = some c → (s.ksetOf ep c.level).bad = [] → c.bad = false →
    let old := s.ksetOf ep c.level
    let issues := fun (i : Instr) (q : KSet → Prop) => c.ins = i →
      ∃ t, exec (.kilnVectorIssue quad) s = .next t ∧ (t.core ep).run = (s.core ep).run ∧
        (∀ p, t.readByte p = s.readByte p) ∧ (∀ r, r ≠ vd → (t.ksetOf ep c.level).vr r = old.vr r) ∧
        (t.core ep).dq = (s.core ep).dq.drop 1 ∧ (t.kiln quad).lastVec = j ∧ (t.kiln quad).vecFree = s.after (4 * quad) 1 ∧
        q (t.ksetOf ep c.level)
    -- lanes of 32 bits
    let a := fun (e : Nat) => laneOf (old.vr vs1) e
    let b := fun (e : Nat) => laneOf (old.vr vs2) e
    let lanes := fun (n : KSet) (g : Nat → BitVec 32) => ∀ e, e < 32 → laneOf (n.vr vd) e = g e
    let computes := fun (i : Instr) (f : BitVec 32 → BitVec 32 → BitVec 32) =>
      issues i (fun n => lanes n (fun e => f (a e) (b e)) ∧ n.flags = old.flags)
    -- elements of the command's format
    let m := Fmt.ofCode (elemCode sz c.f1)
    let w := m.width
    let N := numEls w
    let raw := fun (r : BitVec 3) (e : Nat) => elOf (old.vr r) w e
    let val := fun (r : BitVec 3) (e : Nat) => m.dec false (raw r e)
    let elems := fun (n : KSet) (g : Nat → Nat) => ∀ e, e < N → elOf (n.vr vd) w e = g e % 2 ^ w
    let gathers := fun (n : KSet) (fs : Nat → BitVec 7) => ∀ b, b < 7 →
      n.flags.getLsbD b = (old.flags.getLsbD b || (List.range N).any (fun e => (fs e).getLsbD b))
    let floats := fun (i : Instr) (g : Nat → Fp) =>
      issues i (fun n => elems n (fun e => (m.result (g e)).1) ∧ gathers n (fun e => (m.result (g e)).2))
    let moves := fun (i : Instr) (g : Nat → Nat) => issues i (fun n => elems n g ∧ n.flags = old.flags)
    let compares := fun (i : Instr) (quiet : Bool) (fi : Int → Int → Bool) (ff : Fp → Fp → Bool) =>
      (sz = 0 ∧ code = 1 → issues i (fun n =>
        lanes n (fun e => if fi (a e).toInt (b e).toInt then BitVec.allOnes 32 else 0) ∧ n.flags = old.flags)) ∧
      (¬ (sz = 0 ∧ code = 1) → issues i (fun n =>
        elems n (fun e => if ff (val vs1 e) (val vs2 e) then 2 ^ w - 1 else 0) ∧
        gathers n (fun e => if !quiet && ((val vs1 e).isNan || (val vs2 e).isNan) then flINV else 0)))
    let reduces := fun (i : Instr) (fi : BitVec 32 → BitVec 32 → BitVec 32) (ff : Fp → Fp → Fp) =>
      (sz = 0 ∧ code = 1 → issues i (fun n => n.flags = old.flags ∧
        lanes n (fun e => if e = 0 then (treeUp fi 5 ((List.range 32).map a)).headD 0 else 0))) ∧
      (¬ (sz = 0 ∧ code = 1) → issues i (fun n =>
        elems n (fun e => if e = 0 then
          (treeUp (fun x y => (m.result (ff (m.dec false x) (m.dec false y))).1) (treeLevels N)
            ((List.range N).map (fun e => raw vs1 e))).headD 0 else 0)))
    let converts := fun (i : Instr) (md : Mode) =>
      let S := Fmt.ofCode c.f1
      let T := Fmt.ofCode c.f2
      let cs := numEls S.width
      let cd := numEls T.width
      let si := if cd < cs then part.toNat * cd else 0
      let ti := if cs < cd then part.toNat * cs else 0
      vd ≠ vs1 → part.toNat < max cs cd / min cs cd → issues i (fun n => ∀ e, e < cd →
        elOf (n.vr vd) T.width e =
          if ti ≤ e ∧ e < ti + min cs cd then
            (T.enc c.nxr md (sato == 1) (S.dec c.nxr (elOf (old.vr vs1) S.width (si + (e - ti))))).1 % 2 ^ T.width
          else elOf (old.vr vd) T.width e)
    computes (.viadd vd vs1 vs2) (fun x y => x + y) ∧ computes (.visub vd vs1 vs2) (fun x y => x - y) ∧
    computes (.vimul vd vs1 vs2) (fun x y => x * y) ∧ computes (.vand vd vs1 vs2) (fun x y => x &&& y) ∧
    computes (.vor vd vs1 vs2) (fun x y => x ||| y) ∧ computes (.vxor vd vs1 vs2) (fun x y => x ^^^ y) ∧
    computes (.vshl vd vs1 vs2) (fun x y => x <<< (y.toNat % 32)) ∧
    computes (.vshr vd vs1 vs2) (fun x y => x >>> (y.toNat % 32)) ∧
    computes (.vsra vd vs1 vs2) (fun x y => x.sshiftRight (y.toNat % 32)) ∧
    issues (.viadds vd vs1 vs2) (fun n =>
      let sum := fun (e : Nat) => (a e).toInt + (b e).toInt
      let fits := fun (e : Nat) => decide (-(2 ^ 31) ≤ sum e) && decide (sum e < 2 ^ 31)
      lanes n (fun e => if fits e then a e + b e else if 0 ≤ sum e then 0x7FFFFFFF else 0x80000000) ∧
      n.flags = if (List.range 32).all fits then old.flags else old.flags ||| 2) ∧
    issues (.vsel vd vs1 vs2) (fun n => n.flags = old.flags ∧
      lanes n (fun e => (laneOf (old.vr vd) e &&& a e) ||| (~~~laneOf (old.vr vd) e &&& b e))) ∧
    floats (.vadd vd vs1 vs2 sz) (fun e => (val vs1 e).add (val vs2 e)) ∧
    floats (.vsub vd vs1 vs2 sz) (fun e => (val vs1 e).add (val vs2 e).neg) ∧
    floats (.vmul vd vs1 vs2 sz) (fun e => (val vs1 e).mul (val vs2 e)) ∧
    floats (.vfma vd vs1 vs2 sz) (fun e => (val vd e).add ((val vs1 e).mul (val vs2 e))) ∧
    floats (.vmax vd vs1 vs2 sz) (fun e => (val vs1 e).max (val vs2 e)) ∧
    floats (.vmin vd vs1 vs2 sz) (fun e => (val vs1 e).min (val vs2 e)) ∧
    floats (.vabs vd vs1 sz) (fun e => (val vs1 e).abs) ∧ floats (.vneg vd vs1 sz) (fun e => (val vs1 e).neg) ∧
    floats (.vexp2 vd vs1 sz) (fun e => (val vs1 e).exp2) ∧ floats (.vrcp vd vs1 sz) (fun e => (val vs1 e).rcp) ∧
    floats (.vrsq vd vs1 sz) (fun e => (val vs1 e).rsqrt) ∧ floats (.vlog2 vd vs1 sz) (fun e => (val vs1 e).log2) ∧
    moves (.vperm vd vs1 vs2 sz) (fun e => raw vs1 (raw vs2 e % N)) ∧
    moves (.vrot vd vs1 xs sz) (fun e => raw vs1 ((e + c.x.toNat) % N)) ∧
    moves (.vspl vd xs sz) (fun _ => c.x.toNat) ∧ moves (.vlane vd vs1 xs sz) (fun _ => raw vs1 (c.x.toNat % N)) ∧
    compares (.vcmpeq vd vs1 vs2 sz code) true (fun x y => decide (x = y)) Fp.eq ∧
    compares (.vcmplt vd vs1 vs2 sz code) false (fun x y => decide (x < y)) Fp.lt ∧
    compares (.vcmple vd vs1 vs2 sz code) false (fun x y => decide (x ≤ y)) (fun x y => x.lt y || x.eq y) ∧
    reduces (.vsum vd vs1 sz code) (fun x y => x + y) Fp.add ∧
    reduces (.vrmax vd vs1 sz code) (fun x y => if x.toInt < y.toInt then y else x) Fp.max ∧
    reduces (.vrmin vd vs1 sz code) (fun x y => if y.toInt < x.toInt then y else x) Fp.min ∧
    converts (.vcvt vd vs1 part sato 0) .ne ∧ converts (.vcvt vd vs1 part sato 1) .tz ∧
    converts (.vcvti vd vs1 part sato 0) .ne ∧ converts (.vcvti vd vs1 part sato 1) .tz

/-- The array's own steps: the lease goes to the first requesting core once its gap has passed; the holder's KZERO issues,
to clear k0 when it retires 2 cycles on, and counts towards the firing; a LEASE's protection ends 64 cycles after the grant; an idle section that nothing
requests is gated (R278 to R281, R292, R376). -/
def Obligations.TheArrayIsLeasedAndIssues : Prop :=
  ∀ (s : State) (quad j lvl : Nat) (byL : Bool) (l : Lease) (c : KCmd),
    let k := s.kiln quad
    (k.lease = none → k.nextGrant ≤ s.now → k.matGated = false →
      (rotation k.lastHolder).findSome? (fun j => (s.matRequest quad j).map (fun r => (j, r))) = some (j, lvl, byL) →
      ∃ t, exec (.leaseGrant quad) s = .next t ∧ (t.kiln quad).lease =
        some { core := j, level := lvl, grantedAt := s.now, from' := s.after (4 * quad) 1, issued := 0, ending := false,
               byLease := byL }) ∧
    (k.lease = some l → k.matGated = false → l.ending = false → l.from' ≤ s.now → k.arrayFree ≤ s.now → c.level = l.level →
      s.head (quadCore quad l.core) = some c → c.ins = .kzero → (s.ksetOf (quadCore quad l.core) c.level).bad = [] →
      c.bad = false → s.slotOpen (quadCore quad l.core) = true → s.kReady (quadCore quad l.core) c = true →
      ∃ t f, exec (.matrixCommandIssue quad) s = .next t ∧ (t.kiln quad).flight = k.flight ++ [f] ∧ f.cmd = c ∧
        f.core = quadCore quad l.core ∧ f.due = s.after (quadCore quad l.core) 2 ∧ f.out = some { v := none, k0 := some [], flags := 0 } ∧
        t.ksetOf (quadCore quad l.core) c.level = s.ksetOf (quadCore quad l.core) c.level ∧
        (t.core (quadCore quad l.core)).dq = (s.core (quadCore quad l.core)).dq.drop 1 ∧
        (t.kiln quad).arrayFree = s.after (quadCore quad l.core) 1 ∧
        (t.kiln quad).lease = some { l with issued := l.issued + 1, ending := decide (64 ≤ l.issued + 1) }) ∧
    (k.lease = some l → l.byLease = true → s.passed (4 * quad) l.grantedAt 64 = true →
      ∃ t, exec (.leaseGrantTermExpiry quad) s = .next t ∧ (t.kiln quad).lease = some { l with byLease := false }) ∧
    (k.matIdleAt + 1024 ≤ s.now → k.flight.all (fun f => !isMatrix f.cmd.ins) = true →
      (List.range 4).all (fun j => (s.matRequest quad j).isNone) = true →
      ∃ t, exec (.kilnGate quad true) s = .next t ∧ (t.kiln quad).matGated = true) ∧
    (k.vecIdleAt + 1024 ≤ s.now → k.flight.all (fun f => isMatrix f.cmd.ins) = true →
      (List.range 4).all (fun j => !s.vecRequest quad j) = true →
      ∃ t, exec (.kilnGate quad false) s = .next t ∧ (t.kiln quad).vecGated = true)

/-- A command that is due retires and leaves the kiln: the results it computed are written, and its queue entry is pushed
to q1 unless a waiting QPOP takes it. A KMMA whose check passes adds to each element of k0 the exact sum of the 32 products of
its tiles' elements, rounded once, or stores the sum alone in mode 1, and pops both rings. A solve command writes the results
of its next step; a scale frame that is due enters its target's q3 while that has room (R110, R234, R278, R287, R288, R290, R293,
R297). -/
def Obligations.KilnCommandsRetireStepAndDeliver : Prop :=
  ∀ (s : State) (quad : Nat) (f : Flight) (v : Word) (r : FrameOut) (o : KOut),
    let k := s.kiln quad
    (k.flight = [f] → s.mayRetire k f = true → prodOf f.cmd.ins = none → isSolve f.cmd.ins = false → f.writes = [] →
      f.push = some (1, v) → (s.core f.core).pops = [] →
      ∃ t, exec (.kilnCommandRetire quad) s = .next t ∧ (t.kiln quad).flight = [] ∧
        (t.ksetOf f.core f.cmd.level).q1 = (s.ksetOf f.core f.cmd.level).q1 ++ [v]) ∧
    (k.flight = [f] → s.mayRetire k f = true → prodOf f.cmd.ins = none → isSolve f.cmd.ins = false → f.writes = [] →
      f.push = none → f.out = some o →
      ∃ t, exec (.kilnCommandRetire quad) s = .next t ∧ (t.kiln quad).flight = [] ∧
        t.ksetOf f.core f.cmd.level = o.write (s.ksetOf f.core f.cmd.level)) ∧
    (∀ (ia ib : BitVec 2) (fa fb : BitVec 3) (mode : BitVec 2) (p : Prod),
      f.cmd.ins = .kmma ia ib fa fb mode → prodOf f.cmd.ins = some p → ia ≠ ib → k.flight = [f] → s.mayRetire k f = true →
      k.upset = [] → f.cmd.succ = none →
      let old := s.ksetOf f.core f.cmd.level
      p.mismatch f.cmd.nxr f.tileA.toArray f.tileB.toArray [] old.ktol = false →
      let A := fun (i q : Nat) => (Fmt.ofCode fa.toNat).dec f.cmd.nxr (f.tileA.getD (32 * i + q) 0).toNat
      let B := fun (q j : Nat) => (Fmt.ofCode fb.toNat).dec f.cmd.nxr (f.tileB.getD (32 * q + j) 0).toNat
      let acc : Fmt := if Fmt.ofCode fa.toNat = .int8 then .int32 else .fp32
      let base := fun (i j : Nat) => if mode = 1 then Fp.zero else acc.dec false (old.k0At i j).toNat
      ∃ t, exec (.kilnCommandRetire quad) s = .next t ∧ (t.kiln quad).flight = [] ∧
        (∀ i j, i < 32 → j < 32 → (t.ksetOf f.core f.cmd.level).k0At i j =
          BitVec.ofNat 32 (acc.enc false .ne false ((base i j).add
            (fpSum ((List.range 32).map (fun q => (A i q).mul (B q j)))))).1) ∧
        (∀ r, r = ia ∨ r = ib → ((t.ksetOf f.core f.cmd.level).ring r).head = ((old.ring r).head + 1) % 65536) ∧
        (t.ksetOf f.core f.cmd.level).cmds = (old.cmds + 1) % 2 ^ 32) ∧
    (k.flight = [f] → isSolve f.cmd.ins = true → f.step + 1 < solveSteps f.cmd.ins → f.stepAt ≤ s.now →
      f.aborting = false → f.suspending = false →
      ∃ t, exec (.solveStepComplete quad) s = .next t ∧
        t.ksetOf f.core f.cmd.level = (s.ksetOf f.core f.cmd.level).solveStep f.cmd.ins f.step ∧
        (t.kiln quad).flight = [{ f with step := f.step + 1, stepAt := s.ownAfter f.core f.stepAt (solveTimes f.cmd.ins).2 }]) ∧
    (k.frames = [r] → r.at' ≤ s.now → (s.core (quadCore quad r.target)).vdev = r.vdev →
      (s.ksetOf (quadCore quad r.target) r.level).q3.length < 2 →
      ∃ t, exec (.scaleFrameDelivery quad) s = .next t ∧ (t.kiln quad).frames = [] ∧
        (t.ksetOf (quadCore quad r.target) r.level).q3 = (s.ksetOf (quadCore quad r.target) r.level).q3 ++ [r.frame])

/-! ### Hardware steps of a core -/

/-- Selection pushes the chosen record's frame with the registers of R38, unless a new carve-out is to be applied first; at
a boundary a pending step, watchpoint or kiln-check trap is taken, in that order (the late access fault of R124 before them
is log entry 48's); an expired deadline ends the running task, whose frame beneath runs again and whose successor is posted
(with the PSEQ of log entry 53),
and discards a record that has not started; ALIGN gives up with the 256th cycle of its wait, an idle bank goes into retention
after 32, the checkpoint timer takes a checkpoint, and a new carve-out is applied over the idle frame (R34, R37, R38, R53, R58,
R72, R124, R223, R368, R418). -/
def Obligations.CoresSelectTrapExpireAndKeepTime : Prop :=
  ∀ (s : State) (ep : Nat), s.stopped ep = false →
    let c := s.core ep
    let pushes := fun (i : Instr) (r : Ready) => ∃ t, exec i s = .next t ∧
      (t.core ep).run.level = r.task.prio ∧ (t.core ep).run.pc = r.task.pc ∧ (t.core ep).run.thr = r.task.prio ∧
      (t.core ep).run.x 10 = r.task.a0 ∧ (t.core ep).run.x 11 = r.task.a1 ∧ (t.core ep).run.x 12 = r.task.a2 ∧
      (t.core ep).run.x 13 = r.task.a3 ∧ (t.core ep).run.x 3 = c.csr.gpv ∧
      (t.core ep).run.x 2 = BitVec.ofNat 64 (0x7E0000000000 + (c.run.base - 64)) ∧
      (t.core ep).run.acq = some (r.task.origin, r.task.oseq) ∧
      (t.core ep).stack = { c.run with win := .loc } :: c.stack ∧
      (t.core ep).ready.all (fun q => !(q.stamp == r.stamp)) = true
    let raises := fun (done : Frame) (cause : Nat) (v : Word) => ∃ t, exec (.boundaryTrap ep) s = .next t ∧
      (s.cur = ep → s.trapMeets cause = false → t = (s.trapAt cause).trapWait ep) ∧
      (s.cur = ep → s.trapOpen cause = true → t.frame.level = 7 ∧ t.x 10 = BitVec.ofNat 64 (cause + 256) ∧ t.x 11 = v ∧
        t.x 12 = c.run.lastPc ∧ t.me.stack = { done with win := .loc } :: c.stack)
    (∀ r, c.carving = false → c.selectable s.now = true → c.selected s.now = some r → r.task.bad = false → c.fits r.task.frame = true →
      r.task.nxr = c.csr.corenxr → r.stamp < c.stampN → pushes (.pushFrame ep) r) ∧
    (∀ v, c.loads = [] → c.overdue s.now = false →
      (c.run.pendFault = some v →
        ∃ t, exec (.boundaryTrap ep) s = .next t ∧ (s.cur = ep → s.trapOpen 8 = true → t.frame.level = 7 ∧ t.x 11 = v)) ∧
      (c.run.pendFault = none →
        (c.run.pendStep = some v → raises { c.run with pendStep := none } 23 v) ∧
        (c.run.pendStep = none → c.run.pendWatch = some v → raises { c.run with pendWatch := none } 22 v) ∧
        (c.run.pendStep = none → c.run.pendWatch = none → c.run.pendChk = some v →
          raises { c.run with pendChk := none } 20 v))) ∧
    (∀ d f rest, c.loads = [] → c.run.dl = some d → d.expiry ≤ s.now → s.kilnBusy ep c.run.level = false →
      c.under = f :: rest → s.winBad ep f = false →
      ∃ t, exec (.deadlineExpiry ep) s = .next t ∧ (t.core ep).under = rest ∧
        (t.core ep).run = { f with win := .loc, regs := (t.core ep).run.regs } ∧
        (f.win ≠ .l2 → (t.core ep).run.regs = f.regs) ∧
        ∀ r, d.succ = some r → c.on = true → c.vdev = r.vdev → (s.vdevOf r.vdev).gen = r.gen →
          ∃ q ∈ (t.core ep).ready, q.task =
            { s.succRec ep { r with a0 := BitVec.ofNat 64 (if d.passed then 1 else d.reason),
                                    a1 := BitVec.ofNat 64 d.solves } c.pub.lseq with pseq := c.pseq }) ∧
    (∀ r, c.overdue s.now = false → c.ready.find? (fun q => q.expired s.now) = some r → r.latch = false →
      ∃ t, exec (.deadlineExpiry ep) s = .next t ∧ (t.core ep).run = c.run ∧
        (t.core ep).ready.all (fun q => !(q.stamp == r.stamp)) = true) ∧
    (∀ t0, c.alignAt = some t0 → s.passed ep t0 255 = true →
      ∃ t, exec (.alignTimeout ep) s = .next t ∧ (t.core ep).alignN = c.alignN + 1 ∧ (t.core ep).alignAt = none ∧
        (t.core ep).run.pc = c.run.pc + 4 ∧ (t.core ep).instret = c.instret + 1) ∧
    (∀ bank : Fin 4, c.bankAt[bank] + 32 ≤ s.now →
      ∃ t, exec (.bankRetention ep bank) s = .next t ∧
        t = s.setCore ep { c with bankRet := c.bankRet ||| BitVec.ofNat 4 (2 ^ bank.val) }) ∧
    (∀ k, c.ck = some k → s.passed ep k.takenAt c.csr.cki = true →
      ∃ t k', exec (.checkpointTimer ep) s = .next t ∧ (t.core ep).ck = some k' ∧ k'.frame = c.run ∧ k'.takenAt = s.now ∧
        k'.jour = [] ∧ k'.logNew = 0 ∧ t.now = s.after ep 1) ∧
    (∀ w, c.carveNew = some w → c.idle = true → c.pub.log = [] →
      ∃ t, exec (.carveOutApply ep) s = .next t ∧ (t.core ep).carve = w ∧ (t.core ep).carveNew = none ∧
        (t.core ep).l1 = [] ∧ (t.core ep).notes = [] ∧ (t.core ep).run.base = w.spadSize ∧
        ∀ x, c.carve.spadSize ≤ x → x < w.spadSize → t.readByte (arrayBase ep + x) = 0)

/-- What comes back to a core: a posted record takes its place, or is refused, and its status is answered; a status, a
remote load's or atomic's value, a fill, a scratchpad load's bytes and a ONE result fill their register in the frame that issued them; a refused
load fills it with the refusal's code, marked poison (R30, R31, R44, R59, R157, R201, R217, R218, R232, R437). -/
def Obligations.RepliesFillTheirRegister : Prop :=
  ∀ (s : State) (ep : Nat) (p : Pkt) (l : List Pkt) (r : Req) (rest : List Req),
    tget s.inbox ep [] = p :: l → (s.core ep).runs p.vdev = true →
    let c := s.core ep
    let answers := fun (t : State) (b : Body) =>
      ∃ a, (a ∈ t.egress ∨ a ∈ tget t.inbox (p.src % 65536) []) ∧ a.dst = p.src ∧ a.body = b
    let mine := fun (id : Nat) => takeFirst (fun (q : Req) => q.id == id) c.reqs = some (r, rest) ∧ r.rd ≠ 0 ∧
      r.fid = c.run.fid
    let fills := fun (i : Instr) (v : Word) => ∃ t, exec i s = .next t ∧ (t.core ep).run.x r.rd = v ∧
      (t.core ep).run.isFull r.rd = true ∧ (t.core ep).reqs = rest
    (∀ id rec' recvq, p.body = .post id rec' recvq →
      let room := s.current p && (if recvq then recvFree c.ready else slotFree c.ready)
      -- no other post of its cycle waits with it
      l.all (fun q => q.task?.isNone || !(q.arr == p.arr)) = true →
      (room = true → ∃ t, exec (.postArrival ep) s = .next t ∧ answers t (.postRep id true) ∧
        ∃ q ∈ (t.core ep).ready, q.task = rec' ∧ q.place = (if recvq then Place.recvq else Place.slot)) ∧
      (room = false → ∃ t, exec (.postArrival ep) s = .next t ∧ answers t (.postRep id false) ∧
        (t.core ep).ready = c.ready)) ∧
    (∀ id ok, p.body = .postRep id ok → mine id → fills (.postStatus ep) (BitVec.ofNat 64 ok.toNat)) ∧
    (∀ id pa v, p.body = .ldrRep id pa v false → mine id → r.succ = none → r.own.all Option.isNone = true →
      (r.kind = .ldr 8 → fills (.replyFill ep) v) ∧
      (r.kind = .ldr 4 → fills (.replyFill ep) ((v.setWidth 32 : BitVec 32).signExtend 64))) ∧
    (∀ id pa old new q, p.body = .atomRep id pa old new q false → mine id →
      (r.kind = .atom 8 → fills (.replyFill ep) old) ∧
      (r.kind = .atom 4 → fills (.replyFill ep) ((old.setWidth 32 : BitVec 32).signExtend 64))) ∧
    (∀ id pa data d, p.body = .fillRep id pa data [] → c.loads.find? (fun (d : Load) => d.id == id) = some d → d.own.all Option.isNone = true →
      d.buf = false → d.rd ≠ 0 → (d.n = 1 ∨ d.n = 2 ∨ d.n = 4 ∨ d.n = 8) →
      ∃ t, exec (.fillReply ep) s = .next t ∧
        (t.core ep).run.x d.rd = extend ((List.range d.n).map (fun i => data.getD (d.x.pa % 128 + i) 0)) d.signed ∧
        (t.core ep).loads = c.loads.filter (fun q => !(q.id == id)) ∧
        ((c.fills.find? (fun q => q.id == id)).any (fun q => !q.barred) = true → (t.core ep).l1Hit p.src pa = true)) ∧
    (∀ id bs d, p.body = .spadRep id bs false → c.loads.find? (fun (d : Load) => d.id == id) = some d → d.buf = false →
      d.rd ≠ 0 →
      ∃ t, exec (.fillReply ep) s = .next t ∧ (t.core ep).run.x d.rd = extend (bs.take d.n) d.signed ∧
        (t.core ep).loads = c.loads.filter (fun q => !(q.id == id))) ∧
    (∀ code id sub, (p.body = .nack code 1 id sub ∨ p.body = .nack code 2 id sub) → mine id → r.succ = none →
      ∃ t, exec (.refusalAtSender ep) s = .next t ∧ (t.core ep).run.x r.rd = BitVec.ofNat 64 (2 ^ 64 - 256 + code) ∧
        (t.core ep).run.isPois r.rd = true ∧ (t.core ep).reqs = rest) ∧
    (∀ cluster o os e es v,
      takeFirst (fun (q : OneInst) => q.result.isSome && q.follow.any (fun f => (s.core f.1).runs q.vdev))
        (s.cluster cluster).ones = some (o, os) →
      takeFirst (fun (f : Nat × Nat × BitVec 5) => (s.core f.1).runs o.vdev) o.follow = some (e, es) →
      o.result = some (v, false) → o.glob = none → e.2.2 ≠ 0 → e.2.1 = (s.core e.1).run.fid →
      ∃ t, exec (.oneResultFill cluster) s = .next t ∧ (t.core e.1).run.x e.2.2 = v ∧
        (t.cluster cluster).ones = (s.cluster cluster).ones.map (fun q => if q == o then { q with follow := es } else q))

/-- The register writes that the opcode table lists as steps act on their register of the current core: TEAMSTG, KTOL and
KFLOOR, SUCC, the withdrawals of TBCTL and GBSTAT, BKCFG, SGRECT, any register, and ERRCTL; a write that the register's
rule refuses traps as illegal (R77, R81, R83, R84, R207, R345, R358, R410, R429, R430). That such a step acts on the
current core without retiring an instruction, and a refused one has the word of a CSRRW as its trap value, is the model's
choice (log entry 30). -/
def Obligations.RegisterWriteStepsSetTheirRegister : Prop :=
  ∀ (s : State) (v : Word) (csr : BitVec 12),
    let c := s.me
    let illegal := fun (a : BitVec 12) => s.trap 1 (wordOf (.csrrw 0 0 a))
    let k := clusterOf s.cur
    let ks := tget c.sets c.run.level KSet.reset
    (exec (.succCsrWrite v) s = .next (s.onFrame (fun f => { f with succ := v &&& ~~~62#64 }))) ∧
    (s.kilnBusy s.cur s.frame.level = false →
      exec (.ktolKfloorWrite 0x808 v) s =
        .next (s.onMe (fun d => { d with sets := tset c.sets c.run.level { ks with ktol := ktolOf v } })) ∧
      exec (.ktolKfloorWrite 0x809 v) s =
        .next (s.onMe (fun d => { d with sets := tset c.sets c.run.level { ks with kfloor := kfloorOf v } }))) ∧
    (exec (.registerWrite 0x802 v) s =
      .next (s.onMe (fun d => { d with csr := { d.csr with holdm := v &&& ~~~1#64 } }))) ∧
    (exec (.registerWrite 0x803 v) s = .next (s.onFrame (fun f => { f with deadm := v.setWidth 32 &&& ~~~1#32 }))) ∧
    ((csrNamed csr.toNat = false ∨ csrReadOnly csr.toNat = true) →
      exec (.registerWrite csr v) s = .next (illegal csr)) ∧
    (s.frame.sup = false →
      exec (.teamstgWrite v) s = .next (illegal 0x5E3) ∧ exec (.bkcfgWrite v) s = .next (illegal 0x5D1) ∧
      exec (.sgrectWrite v) s = .next (illegal 0x5C9)) ∧
    (s.frame.sup = true →
      ((v.getLsbD 8 = false ∨ v.getLsbD (coreNo s.cur) = true) →
        exec (.teamstgWrite v) s = .next (s.onMe (fun d =>
          { d with csr := { d.csr with stgEn := v.getLsbD 8, stgMask := v.setWidth 8 } }))) ∧
      (v.getLsbD 8 = true → v.getLsbD (coreNo s.cur) = false → exec (.teamstgWrite v) s = .next (illegal 0x5E3)) ∧
      (let mine := fun (a : Arrival) => a.core == s.cur && a.vdev == c.vdev
       ∀ a, (s.cluster k).arr.find? mine = some a → c.on = true →
        ∃ t, exec .tbctlWithdraw s = .next t ∧ (t.cluster k).arr = (s.cluster k).arr.filter (fun b => !mine b) ∧
          t.me.spillRes = c.spillRes - a.succ.isSome.toNat) ∧
      (∀ g, c.gbOpen = some g →
        ∃ t, exec .gbstatWithdraw s = .next t ∧ t.me.gbars = c.gbars.filter (fun h => !(h.bid == g.bid))) ∧
      (let w := c.csr.bksel.toNat
       bkNames w = true → bkKind w ≠ 5 →
        let a := s.arb (bkKind w) (bkUnit w)
        let key := bucketKey (bkKind w) (bkVdev w) (bkClass w)
        let b := tget a.buckets key Bucket.reset
        let depth := max (arbMax (bkKind w)) (v.toNat / 2 ^ 16 % 2 ^ 16)
        ∃ t, exec (.bkcfgWrite v) s = .next t ∧
          (tget t.arbs (arbKey (bkKind w) (bkUnit w)) Arb.reset).enforcing = true ∧
          tget (tget t.arbs (arbKey (bkKind w) (bkUnit w)) Arb.reset).buckets key Bucket.reset =
            { rate := v.toNat % 2 ^ 16, depth := depth, lend := v.getLsbD 32, borrow := v.getLsbD 33,
              tok := min depth b.tok, fr := b.fr }) ∧
      (let r := v.toNat % 2 ^ 24
       let g := s.sag c.csr.sgsel
       v.getLsbD 63 = true → s.rectOk c.csr.sgsel r = true → (g.en = false ∨ r = g.rect) →
        exec (.sgrectWrite v) s = .next (s.onSag c.csr.sgsel (fun h => { h with en := true, rect := r })))) ∧
    (∃ t, exec (.errctlWrite v) s = .next t ∧
      t.mmioWord 0x025000000000 = v.toNat / 2 ^ 12 % 2 ^ 36 * 4096 + v.toNat % 32 ∧
      (v.getLsbD 0 = true → t.mmioWord 0x025000000008 = 0))

/-- The controller: boot ends in state 1 with the key tables zeroed, or in state 3; SETCHIP, RUN, FKEYW and MKEYW take
effect or are refused with their result; the key index is the argument's bits [9:0]; ATTEST reports over the caller's nonce; the firing gap, the guard bands and the
scrubber move as measured, each once in its period (R22, R373 to R378, R405, R408, R409). The order of SETCHIP's two refusals
is the model's choice (log entry 40). -/
def Obligations.TheControllerCarriesOutItsCommands : Prop :=
  ∀ (s : State),
    let arg := s.mmioWord 0x024000000040
    let done := fun (u : State) (r : Nat) => { u with nm := { u.nm with result := r, cmd := none } }
    (s.nm.st = 0 →
      (∃ t, exec (.powerOnBoot true) s = .next t ∧ t.nm.st = 1 ∧ t.mkeys = [] ∧ ∀ i, i ≠ 0 → tget t.fkeys i 0 = 0) ∧
      exec (.powerOnBoot false) s = .next { s with nm := { s.nm with st := 3 } }) ∧
    (s.nm.cmd = some 1 →
      (s.nm.st = 1 → arg % 2 ^ 16 ≠ 0xFFFF → exec .setchip s = .next (done { s with chip := arg % 2 ^ 16 } 0)) ∧
      (s.nm.st = 1 → arg % 2 ^ 16 = 0xFFFF → exec .setchip s = .next (done s 2)) ∧
      (s.nm.st ≠ 1 → exec .setchip s = .next (done s 3))) ∧
    (s.nm.cmd = some 2 →
      (s.nm.st = 1 → exec .run s = .next (done { s with nm := { s.nm with st := 2 } } 0)) ∧
      (s.nm.st ≠ 1 → exec .run s = .next (done s 3))) ∧
    (s.nm.cmd = some 3 →
      (arg % 1024 ≠ 0 →
        ∃ t, exec .fkeyw s = .next t ∧ t.nm.result = 0 ∧ t.nm.cmd = none ∧
          tget t.fkeys (arg % 1024) 0 = leNat (s.nmBytes 8 32) ∧ ∀ port, tget (t.sluice port).ivc (arg % 1024) 0 = 0) ∧
      (arg % 1024 = 0 → exec .fkeyw s = .next (done s 2))) ∧
    (s.nm.cmd = some 4 →
      exec .mkeyw s = .next (done { s with mkeys := tset s.mkeys (arg % 1024) (leNat (s.nmBytes 8 64)) } 0)) ∧
    (s.nm.cmd = some 5 →
      ∃ t, exec .attest s = .next t ∧ t.nm.result = 0 ∧ t.nm.cmd = none ∧ t.nmBytes 64 32 = s.nmBytes 0 32) ∧
    (∀ draw, s.now < s.nm.gapAt → exec (.gapMeasurement draw) s = .next s) ∧
    (∀ draw, s.nm.gapAt ≤ s.now → ∃ t, exec (.gapMeasurement draw) s = .next t ∧
      (2600 < draw → t.nm.gap = min 63 (s.nm.gap + 1)) ∧ (100 * draw < 95 * 2600 → t.nm.gap = s.nm.gap - 1) ∧
      (draw ≤ 2600 → 95 * 2600 ≤ 100 * draw → t.nm.gap = s.nm.gap) ∧
      t.nm.gapAt = s.now + 1024) ∧
    (∀ cluster band out, s.now < (s.cluster cluster).replanAt → exec (.coneReplan cluster band out) s = .next s) ∧
    (∀ cluster band out, (s.cluster cluster).replanAt ≤ s.now → ∃ t, exec (.coneReplan cluster band out) s = .next t ∧ (t.cluster cluster).band ≤ 60 ∧
      (t.cluster cluster).replanAt = s.now + hour ∧
      (t.cluster cluster).band ≤ (s.cluster cluster).band + 5 ∧
      (out = false → (t.cluster cluster).cstate = (s.cluster cluster).cstate) ∧
      (out = true → (s.cluster cluster).cstate ≤ 1 → (t.cluster cluster).cstate = (s.cluster cluster).cstate + 1)) ∧
    (∀ stack, s.now < tget s.nm.scrubAt stack 0 → exec (.dramScrub stack) s = .next s) ∧
    (∀ stack, tget s.nm.scrubAt stack 0 ≤ s.now → ∃ t, exec (.dramScrub stack) s = .next t ∧ (∀ e ∈ t.ecc, (8 * e.1) / 2 ^ 36 ≠ stack) ∧
      ∀ e ∈ s.ecc, (8 * e.1) / 2 ^ 36 = stack → e.2 = false → e.1 ∈ t.poison)

/-! ### The host's side and the dispatchers (chapters 13, 14) -/

/-- An enqueue waits for CXL ingress; one that passes it is answered unsupported when its record is not acceptable, waits
while the port is taken, is answered busy when its rate check fails, its device is in reset or the dispatcher's queue is full, and is otherwise queued at
the die of its entry once the port's arbiter grants it; other accesses to a port are
answered as R329 says, once ingress passes them (which device they are charged to is open, log entry 50); a dispatcher resolves its oldest record to a core and delivers it to a free slot with the next PSEQ; a report gives
each core's occupancy (R329 to R331, R333, R335, R336). -/
def Obligations.EnqueuedRecordsReachACore : Prop :=
  ∀ (s : State) (vf port die cluster : Nat) (bytes : List (BitVec 8)),
    let v := vf - 1
    let w := (Config.freeByte s.fresh).toNat % 64
    let n := 64 * ((Config.freeByte (s.fresh + 1)).toNat % 8)
    exec (.queuePortOtherAccess .pfDmwr) s = .next { s with hostOut := s.hostOut ++ [.unsupported] } ∧
    (∀ u, s.ingress w n = (true, u) →
      let tells := fun (a : PortAccess) (m : HostMsg) =>
        exec (.queuePortOtherAccess a) s = .next { u with fresh := u.fresh + 2, hostOut := u.hostOut ++ [m] }
      tells .otherDmwr .unsupported ∧ tells .read .zeros ∧
      exec (.queuePortOtherAccess .postedWrite) s = .next { u with fresh := u.fresh + 2, dropped := u.dropped + 1 }) ∧
    (∀ u, s.ingress w n = (false, u) → ∀ a, a ≠ .pfDmwr → exec (.queuePortOtherAccess a) s = .next u) ∧
    (∀ u, s.ingress v 128 = (false, u) → exec (.enqueue vf port bytes) s = .next u) ∧
    (∀ u, s.ingress v 128 = (true, u) →
      (vf = 0 ∨ 64 < vf ∨ 256 ≤ port ∨ bytes.length ≠ 128 ∨ u.enqOk v bytes = false →
        ∃ t, exec (.enqueue vf port bytes) s = .next t ∧ t.hostOut = u.hostOut ++ [.unsupported] ∧ t.disps = u.disps) ∧
      (1 ≤ vf → vf ≤ 64 → port < 256 → bytes.length = 128 → u.enqOk v bytes = true →
        let at' := entryDie ((u.entryOf v (Enq.ofBytes bytes).entry).getD 0)
        let room := (u.disp at').queue.length < 4096
        let enters := fun (t z : State) => exec (.enqueue vf port bytes) s = .next t ∧ t.hostOut = z.hostOut ++ [.enqueued] ∧
          ∃ e, (t.disp at').queue = (z.disp at').queue ++ [e] ∧ e.task = z.hostTask v bytes ∧ e.vdev = v ∧ e.chosen = none
        let granted := u.asks.contains { msgAsk 4 port v 1 with done := true }
        (granted = true → room → ∃ t, enters t u) ∧
        (granted = false → (u.arb 4 port).freeAt ≤ u.now →
          (u.portRate port v = false ∨ (u.vdevOf v).resetAt.isSome = true ∨ ¬ room →
            ∃ t, exec (.enqueue vf port bytes) s = .next t ∧ t.hostOut = u.hostOut ++ [.busy]) ∧
          (u.portRate port v = true → (u.vdevOf v).resetAt = none → room → ∀ z, u.passArb 4 port v 1 = (true, z) →
            ∃ t, enters t z)))) ∧
    (∀ e rest p, takeFirst (fun (q : DispEntry) => q.chosen.isNone) (s.disp die).queue = some (e, rest) →
      s.entryOf e.vdev e.entry = some p →
      (s.inDevice e.vdev (bitsOf p 0 6) (bitsOf p 6 5) = true →
        let m := s.member (s.disp die) e p
        ∃ t, exec (.dispatcherResolve die) s = .next t ∧ (t.disp die).queue.length = (s.disp die).queue.length ∧
          { e with chosen := some (epAt (bitsOf p 0 6) (bitsOf p 6 5) m) } ∈ (t.disp die).queue ∧
          (e.mode = 0 → m = e.core)) ∧
      (s.inDevice e.vdev (bitsOf p 0 6) (bitsOf p 6 5) = false →
        ∃ t, exec (.dispatcherResolve die) s = .next t ∧ (t.disp die).queue = rest)) ∧
    (∀ e ep, s.deliverable (s.disp die).queue [] = some e → e.chosen = some ep → (s.core ep).runs e.vdev = true →
      ∃ t r, exec (.dispatcherDelivery die) s = .next t ∧ r ∈ (t.core ep).ready ∧
        r.task = { e.task with pseq := (s.disp die).count } ∧ r.place = .slot ∧ r.pasid = e.pasid ∧ r.hseq = e.hseq ∧
        (t.disp die).queue = (s.disp die).queue.erase e ∧ (t.disp die).count = ((s.disp die).count + 1) % 2 ^ 32) ∧
    (∃ t, exec (.occupancyReport cluster) s = .next t ∧
      ∀ i, i < 8 → tget (t.cluster cluster).occ i 0 = (s.core (8 * cluster + i)).occupancy)

/-- The host reads memory at its home and writes it in the bytes' places; a snoop of a held host line delivers its bytes
and leaves it clean; an ATS response is cached, or asks for the page (its size of 4 KiB is the
model's choice, log entry 20); a page response posts its task (its a0, ORIGIN and PSEQ are the model's, log entries 38 and 53); an ATS invalidation
drops the page from every core's cache (R136, R366, R367). -/
def Obligations.TheHostReachesMemoryAndTranslations : Prop :=
  ∀ (s : State) (addr n : Nat) (bytes : List (BitVec 8)),
    (let h := s.hostHome addr
     hostBlock addr n = true → ∀ u, s.ingress h.2.2 n = (true, u) →
      let w := u.bring h.1 h.2.1 h.2.2 addr false
      (w.hasSector h.1 h.2.1 addr = true →
        ∃ t po, exec (.hostCxlMemRead addr n) s = .next t ∧ t.hostOut = w.hostOut ++ [.data (w.readBytes addr n) po] ∧
          ∀ i, i ∈ po ↔ i < n ∧ (i = 0 ∨ (addr + i) % 8 = 0) ∧ w.isPoison (addr + i) = true) ∧
      (w.hasSector h.1 h.2.1 addr = false → exec (.hostCxlMemRead addr n) s = .next (w.keepIngress h.2.2 n))) ∧
    (let k := bytes.length
     let h := s.hostHome addr
     hostBlock addr k = true → (wordPieces addr bytes 9).all (fun p => !s.wordLanding h.1 p.1) = true →
      s.latchBlocks h.1 addr = false → ∀ u, s.ingress h.2.2 k = (true, u) →
      let w := u.bring h.1 h.2.1 h.2.2 addr false
      (w.hasSector h.1 h.2.1 addr = false → exec (.hostCxlMemWrite addr bytes false) s = .next (w.keepIngress h.2.2 k)) ∧
      (w.hasSector h.1 h.2.1 addr = true → w.tellsHere h.1 addr →
        ∃ t, exec (.hostCxlMemWrite addr bytes false) s = .next t ∧
          (∀ i, i < k → t.readByte (addr + i) = bytes.getD i 0) ∧
          (∀ x, x < addr ∨ addr + k ≤ x → t.readByte x = w.readByte x))) ∧
    (∀ l u, s.lineOf addr = some l → inHost addr = true → s.ingress l.owner 64 = (true, u) → u.lineOf addr = some l →
      ∃ t b po, exec (.cxlCacheHostSnoop addr .data) s = .next t ∧
        t.hostOut = b ++ [.data (u.readBytes (addr - addr % 64) 64) po] ∧
        (∀ i, i ∈ po ↔ i < 64 ∧ i % 8 = 0 ∧ u.isPoison (addr - addr % 64 + i) = true) ∧
        t.lineOf addr = some { l with dirty := 0 }) ∧
    (∀ id r rest, takeFirst (fun (q : AtsReq) => q.id == id && !q.failed) s.ats = some (r, rest) →
      ∀ u, s.ingress r.vdev 64 = (true, u) →
      (∀ h perm, ∃ t e, exec (.atsResponse id (some h) perm) s = .next t ∧ t.ats = rest ∧ e ∈ (t.core r.core).utlb ∧
        e.vdev = r.vdev ∧ e.pasid = some r.pasid ∧ e.va = r.va - r.va % 4096 ∧
        e.ats = some (0x100000000000 + (h - h % 4096))) ∧
      ((s.pages.filter (fun q => q.vdev == r.vdev)).length < pageLimit → ∀ perm, ∃ t g b, exec (.atsResponse id none perm) s = .next t ∧ g ∈ t.pages ∧ g.va = r.va ∧ g.vdev = r.vdev ∧
        t.hostOut = b ++ [.pri g.grp r.vdev (r.va - r.va % 4096) r.pasid])) ∧
    (∀ grp code p rest, takeFirst (fun (q : PageReq) => q.grp == grp) s.pages = some (p, rest) →
      p.gen = (s.vdevOf p.vdev).gen → (s.core p.core).runs p.vdev = true → slotFree (s.core p.core).ready = true →
      ∀ u, s.ingress p.vdev 64 = (true, u) →
      (u.core p.core).runs p.vdev = true → (u.core p.core).away = false → slotFree (u.core p.core).ready = true →
      ∃ t q, exec (.pageResponse grp code) s = .next t ∧ t.pages = rest ∧ q ∈ (t.core p.core).ready ∧
        q.task = { u.pageRecord p code with pseq := (u.core p.core).pseq } ∧ q.place = .slot) ∧
    (∀ v va u, s.translatedWaits (fun e => e.ats.isSome && xinvDrops e v false va) = false → s.ingress v 64 = (true, u) →
      ∃ t, exec (.atsInvalidation v va) s = .next t ∧ t.hostOut = u.hostOut ++ [.invalidated v va] ∧
        ∀ ep, ∀ e ∈ (t.core ep).utlb, e.ats.isSome = true → xinvDrops e v false va = false)

/-! ### Publication, homes and the copy engine (chapters 05, 06, 12) -/

/-- A stale note is buffered for a held line, with room in the buffer, and is dropped for a line that is not held; an
invalidation drops its line; the directory port sends its latch, under the key of what caused it; an acknowledgement frees the log's head; queries, answers
and completed acquires move as R149 and R150 say; a completed acquire replays what it names and leaves of the others what is not superseded (log entry 47);
a horizon refresh takes the greatest CLK, asks the other chips of the device at an endpoint of each, which is the model's
choice (log entry 31), and ends at a VH below every unacknowledged seq; only a refresh begun after an ACQV completes it
(R144, R146, R148 to R151). -/
def Obligations.NotesAcquiresAndHorizonsMove : Prop :=
  ∀ (s : State) (ep : Nat) (p : Pkt) (l : List Pkt),
    let c := s.core ep
    (tget s.inbox ep [] = p :: l →
      (∀ w q a m d po lock, p.body = .note w q a m d po lock →
        let held := c.l1.any (fun x => x.home == p.src && x.line == a / 512)
        (held = true → c.notes.length < 256 →
          ∃ t, exec (.staleNote ep) s = .next t ∧ (t.core ep).l1 = c.l1 ∧ (t.core ep).notes = c.notes ++
            [{ writer := w, seq := q, home := p.src, addr := a, mask := m, data := d, pois := po }]) ∧
        (held = true → 256 ≤ c.notes.length →
          ∃ t, exec (.staleNote ep) s = .next t ∧
            (t.core ep).l1 = c.l1.filter (fun x => !(x.home == p.src && x.line == a / 512))) ∧
        (held = false → ∃ t, exec (.staleNote ep) s = .next t ∧ (t.core ep).l1 = c.l1 ∧ (t.core ep).notes = c.notes)) ∧
      (∀ line lock, p.body = .inval line lock →
        ∃ t, exec (.invalidation ep) s = .next t ∧
          (t.core ep).l1 = c.l1.filter (fun x => !(x.home == p.src && x.line == line)) ∧
          (t.core ep).notes = c.notes.filter (fun x => !(x.home == p.src && x.addr / 512 == line))) ∧
      (∀ addr seq r rest, p.body = .rcdAck addr seq → c.runs p.vdev = true → c.pub.log = r :: rest → r.addr = addr →
        r.owner = .stamped seq →
        ∃ t, exec (.recordAcknowledgement ep) s = .next t ∧
          (t.core ep).pub.log = rest.dropWhile (fun x => x.owner == .acked)) ∧
      (∀ id target, p.body = .query id target →
        ∃ t, exec (.acquireQuery ep) s = .next t ∧ (t.core ep).queries = c.queries ++
          [{ src := p.src, id := id, target := target.getD (c.pubOf p.vdev).lseq, vdev := p.vdev, fkey := p.fkey }]) ∧
      (∀ id target, p.body = .answer id target → c.runs p.vdev = true →
        ∃ t, exec (.acquireComplete ep) s = .next t ∧ (t.core ep).acqs = c.acqs.map (fun a =>
          if a.id = id then { a with got := a.got ++ [(p.src, target)],
                                     waits := a.waits.eraseP (fun w => w.1 == p.src) } else a))) ∧
    (∀ q rest, c.queries = q :: rest → s.dying ep q.vdev = false → (c.pubOf q.vdev).chMeets q.target = true →
      q.src ≠ s.epId ep →
      ∃ t a, exec (.acquireAnswer ep) s = .next t ∧ (t.core ep).queries = rest ∧
        (a ∈ t.egress ∨ a ∈ tget t.inbox (q.src % 65536) []) ∧ a.dst = q.src ∧ a.body = .answer q.id q.target) ∧
    (∀ a, tget s.inbox ep [] = [] → c.acqs = [a] → a.waits = [] → a.horizon = none →
      ∃ t, exec (.acquireComplete ep) s = .next t ∧ (t.core ep).acqs = [] ∧
        (t.core ep).pub.clk = max c.pub.clk (a.got.foldl (fun m w => max m w.2) 0) ∧
        let named := fun (n : Note) => a.got.any (fun w => n.writer == w.1 && decide (n.seq ≤ w.2))
        (c.notes.all (fun n => !named n) = true → (t.core ep).notes = c.notes ∧ (t.core ep).l1 = c.l1) ∧
        (∀ n, c.notes = [n] → named n = true → c.pub.log = [] → (t.core ep).notes = [] ∧
          (t.core ep).l1 = patchL1 c.l1 n.home n.addr n.mask n.data.toNat n.pois) ∧
        ∀ n ∈ (t.core ep).notes, ∃ m ∈ c.notes, named m = false ∧ n = { m with mask := n.mask }) ∧
    (∀ a begun clk b, tget s.inbox ep [] = [] → c.acqs = [a] → a.waits = [] → a.horizon = some (begun, clk) →
      (s.vdevOf c.vdev).refreshed = some b →
      (begun < b → clk ≤ (s.vdevOf c.vdev).vh →
        ∃ t, exec (.acquireComplete ep) s = .next t ∧ (t.core ep).acqs = [] ∧
          (t.core ep).pub.clk = max c.pub.clk (s.vdevOf c.vdev).vh) ∧
      (b ≤ begun → exec (.acquireComplete ep) s = .next s)) ∧
    (∀ slice target la, s.latches.find? (fun x => x.slice == slice) = some la →
      let sends := fun (i : Instr) (b : Body) =>
        ∃ t a, exec i s = .next t ∧ a ∈ t.egress ∧ a.dst = target ∧ a.cls = 3 ∧ a.body = b ∧ a.fkey = la.fkey
      (la.kind = 1 → sends (.directoryPortSendNote slice target)
        (.note la.writer la.seq la.addr la.mask la.data la.pois la.lock)) ∧
      (la.kind ≠ 1 → sends (.directoryPortSendNote slice target) (.inval la.line la.lock)) ∧
      sends (.directoryPortSendInvalidation slice target) (.inval la.line la.lock)) ∧
    (∀ v, (s.vdevOf v).launched = true → (s.vdevOf v).begun = none → (s.vdevOf v).refresh = none →
      (s.vdevOf v).refreshed = none →
      (s.peerChips v = [] →
        ∃ t top, exec (.vhRefresh v) s = .next t ∧ (t.vdevOf v).refresh = some (s.now, top) ∧
          ∀ e ∈ s.coresOf v, ((s.core e).pubOf v).clk ≤ top) ∧
      (s.peerChips v ≠ [] →
        ∃ t m, exec (.vhRefresh v) s = .next t ∧ (t.vdevOf v).begun = some (s.now, m) ∧
          (∀ e ∈ s.coresOf v, ((s.core e).pubOf v).clk ≤ m) ∧
          ∀ ch ∈ s.peerChips v, ∃ a ∈ t.egress, a.dst = ch * 65536 ∧ a.cls = 6 ∧ a.body = .horizon v 1 m)) ∧
    (∀ v b m l, (s.vdevOf v).begun = some (b, m) → s.reports v 1 = some l →
      ∃ t, exec (.vhRefresh v) s = .next t ∧ (t.vdevOf v).begun = none ∧
        (t.vdevOf v).refresh = some (b, l.foldl max m)) ∧
    (∀ v b top, (s.vdevOf v).refresh = some (b, top) → (s.vdevOf v).low = none → s.peerChips v = [] →
      ∃ t, exec (.vhRefreshComplete v) s = .next t ∧ (t.vdevOf v).refresh = none ∧ (t.vdevOf v).refreshed = some b ∧
        (t.vdevOf v).vh ≤ top ∧
        ∀ e ∈ s.coresOf v, ∀ q ∈ ((s.core e).pubOf v).outstanding, (t.vdevOf v).vh ≤ q - 1)

/-- A home with the line brought in, and not before: a fill registers its sharer and answers with the sector; a published record's bytes
win where its stamp is the greater and no copy's bytes stand; an atomic and a reduction write F(old) of the bytes as the
records that they carry leave them, with their stamp, and the atomic answers the old value; a remote load answers the bytes; a scratchpad access reads or writes exactly its bytes; a granted
write-back puts an evicted sector into memory (R126, R129, R143 to R145, R156 to R158, R232, R339). -/
def Obligations.HomesApplyWhatReachesThem : Prop :=
  ∀ (s : State) (home : Nat) (p : Pkt) (l : List Pkt), tget s.inbox home [] = p :: l → s.held = [] →
    (∀ q ∈ l, q.src = p.src) →
    let t0 : State := { s with inbox := tset s.inbox home l }
    let waits := fun (i : Instr) (u : State) => exec i s = .next (u.hold p)
    let answers := fun (t : State) (b : Body) => ∃ a ∈ t.egress, a.dst = p.src ∧ a.body = b
    (∀ id pa set, p.body = .fill id pa set →
      let u := t0.bring home set p.vdev pa false
      (u.hasSector home set pa = false → waits (.fillAtHome home) u) ∧
      ∀ ln, u.hasSector home set pa = true → u.lineOf pa = some ln →
      ln.sharers.contains p.src = false → ln.sharers.length < 4 →
      ∃ t po, exec (.fillAtHome home) s = .next t ∧
        answers t (.fillRep id (pa - pa % 128) (t.readBytes (pa - pa % 128) 128) po) ∧
        (∃ x ∈ t.l2, x.line = pa / 512 ∧ p.src ∈ x.sharers) ∧ ∀ a, t.readByte a = u.readByte a) ∧
    (∀ r seq, p.body = .rcd r → r.owner = .stamped seq → s.latchBlocks home r.addr = false →
      let u := t0.bring home r.set p.vdev r.addr false
      (u.hasSector home r.set r.addr = false → waits (.compaction home) u) ∧
      (u.hasSector home r.set r.addr = true →
      let wins := fun (i : Nat) => r.mask.getLsbD i && stampWins (seq, p.src) (u.stampAt home (r.addr + i)) &&
        (u.landingAt home (r.addr + i)).isNone
      u.tellsHere home r.addr →
      ∃ t, exec (.compaction home) s = .next t ∧
        (∀ i, i < 8 → wins i = true → t.readByte (r.addr + i) = r.data.extractLsb' (8 * i) 8 ∧
          t.stampAt home (r.addr + i) = (seq, p.src)) ∧
        (∀ a, (∀ i, i < 8 → wins i = true → a ≠ r.addr + i) → t.readByte a = u.readByte a) ∧
        (∀ ln, u.lineOf r.addr = some ln → ln.sharers = [] → ln.ovf = false → answers t (.rcdAck r.addr seq)))) ∧
    (∀ id pa set n op v w clk recs, p.body = .atom id pa set n op v w clk recs → pa % 8 + n ≤ 8 →
      s.wordLanding home pa = false → s.latchBlocks home pa = false →
      let u := t0.bring home set p.vdev pa false
      (u.hasSector home set pa = false → waits (.atomAtHome home) u) ∧
      (u.hasSector home set pa = true → u.tellsHere home pa →
      let q := max clk (u.wordSeq home pa) + 1
      let carried := recs.foldl (fun (x : State) r => (x.applyRecord home r.addr r.mask r.data r.pois (q, p.src)).1) u
      let old := carried.readNat pa n
      let new := op.eval n old (v.toNat % 2 ^ (8 * n)) (w.toNat % 2 ^ (8 * n))
      ∃ t po, exec (.atomAtHome home) s = .next t ∧ t.readNat pa n = new % 2 ^ (8 * n) ∧
        (¬ (op = .cas ∧ old ≠ v.toNat % 2 ^ (8 * n)) → 1 ≤ n → t.stampAt home pa = (q, p.src)) ∧
        answers t (.atomRep id pa (BitVec.ofNat 64 old) (BitVec.ofNat 64 new) q po))) ∧
    (∀ pa set n op v g e k window clk recs, p.body = .red pa set n op v g e k window clk recs → s.current p = true →
      pa % 8 + n ≤ 8 → s.wordLanding home pa = false → s.latchBlocks home pa = false →
      let u := t0.bring home set p.vdev pa false
      (u.hasSector home set pa = false → waits (.reductionAtHome home) u) ∧
      (u.hasSector home set pa = true → u.tellsHere home pa →
      let m := u.wordSeq home pa
      let q := if window then max g (m + 1) else max clk m + 1
      let who := if window then e else p.src
      let carried := recs.foldl (fun (x : State) r => (x.applyRecord home r.addr r.mask r.data r.pois (q, who)).1) u
      ∃ t, exec (.reductionAtHome home) s = .next t ∧
        t.readNat pa n = op.eval n (carried.readNat pa n) (v.toNat % 2 ^ (8 * n)) 0 % 2 ^ (8 * n) ∧
        (op ≠ .cas → 1 ≤ n → t.stampAt home pa = (q, who)))) ∧
    (∀ id pa set n, p.body = .ldr id pa set n false →
      let u := t0.bring home set p.vdev pa false
      (u.hasSector home set pa = false → waits (.remoteLoadAtTarget home) u) ∧
      (u.hasSector home set pa = true → ∃ t, exec (.remoteLoadAtTarget home) s = .next t ∧
        answers t (.ldrRep id pa (BitVec.ofNat 64 (u.readNat pa n)) (u.isPoison pa)))) ∧
    (∀ cp va pa set n, p.body = .chunkRead cp va pa set n false →
      let u := t0.bring home set p.vdev pa false
      (u.hasSector home set pa = false → waits (.remoteLoadAtTarget home) u) ∧
      (u.hasSector home set pa = true →
        ∃ t po, exec (.remoteLoadAtTarget home) s = .next t ∧ answers t (.chunkData cp va (u.readBytes pa n) po))) ∧
    (∀ cp va off set n, p.body = .chunkRead cp va off set n true → (s.core home).carving = false →
      ∃ t po, exec (.remoteLoadAtTarget home) s = .next t ∧
        answers t (.chunkData cp va (s.readBytes (arrayBase home + off) n) po)) ∧
    (∀ id off set n, p.body = .ldr id off set n true → (s.core home).carving = false →
      off + n ≤ (s.core home).carve.spadSize →
      ∃ t po, exec (.remoteLoadAtTarget home) s = .next t ∧
        answers t (.ldrRep id off (BitVec.ofNat 64 (leNat (s.spadBytes home off n))) po)) ∧
    (∀ id off n, p.body = .spadLoad id off n → (s.core home).carving = false →
      off + n ≤ (s.core home).carve.spadSize →
      (p.src / 65536 ≠ s.chip ∨ clusterOf p.src ≠ clusterOf home) →
      ∃ t po, exec (.scratchpadRemoteAccess home) s = .next t ∧
        answers t (.spadRep id (s.spadBytes home off n) po)) ∧
    (∀ id off n d, p.body = .spadLoad id off n → (s.core home).carving = false →
      off + n ≤ (s.core home).carve.spadSize → p.src / 65536 = s.chip → clusterOf p.src = clusterOf home →
      s.anyPoison (arrayBase home + off) n = false → p.src % 65536 ≠ home →
      (s.core (p.src % 65536)).loads = [d] → d.id = id → d.n = n → d.buf = false →
      ∃ t, exec (.scratchpadRemoteAccess home) s = .next t ∧ (t.core (p.src % 65536)).loads = [] ∧
        (d.rd ≠ 0 → (t.core (p.src % 65536)).run.x d.rd = extend (s.spadBytes home off n) d.signed)) ∧
    (∀ off n v, p.body = .spadStore off n v → (s.core home).carving = false → off + n ≤ (s.core home).carve.spadSize →
      let lo := arrayBase home + off
      ∃ t, exec (.scratchpadRemoteAccess home) s = .next t ∧
        (∀ i, i < n → t.readByte (lo + i) = v.extractLsb' (8 * i) 8) ∧
        ∀ a, a < lo ∨ lo + n ≤ a → t.readByte a = s.readByte a) ∧
    (∀ w r a, s.wb = [w] → w.slice = home →
      let unit := memQueue (128 * w.sector)
      (∀ x ∈ s.asksAt 1 unit, x.vdev ≠ w.owner) →
      (s.arb 1 unit).grant 1 s.now (s.arbReqs 1 unit) = some (r, a) → r.vdev = w.owner →
      ∃ t, exec (.writeBackGrant home) s = .next t ∧ t.wb = [] ∧
        ∀ i, i < 128 → Memory.read t.mem (128 * w.sector + i) = tget w.data i Memory.unwritten)

/-- The copy engine: a cluster's one copy issues its next chunk to the home or the scratchpad of its destination, the one by the request class and the other as it
was named; a COPYB issues a chunk to each member, each counted as one (log entry 74); a chunk
that lands is in its place and is acknowledged; an acknowledgement counts its bytes, adds them to an armed counter word and names its home; a stamp packet stamps the landed
bytes; a copy whose chunks are all acknowledged completes, its tag in q4, or first takes its seq and awaits its stamps; one of an
old generation takes none (R156, R249, R308 to R312). -/
def Obligations.CopiesIssueLandAndComplete : Prop :=
  ∀ (s : State) (k : Nat) (c : Copy) (p : Pkt) (l : List Pkt) (e : Nat),
    let answers := fun (t : State) (b : Body) =>
      ∃ a, (a ∈ t.egress ∨ a ∈ tget t.inbox (p.src % 65536) []) ∧ a.dst = p.src ∧ a.body = b
    ((s.cluster k).copies = [c] → clusterOf c.core = k → c.hasChunk = true → c.members = [] → c.flight.length < 64 →
      s.takeSource k = none →
      let s1 := s.onCluster k (fun d => { d with copyRR := (c.core % 8, c.tag) })
      let ask : Asker := { ep := c.core, vdev := c.vdev, pasid := c.pasid }
      ∀ src dst rem rows data pois u v, c.rows = (src, dst, rem) :: rows →
        let n := min rem (128 - dst % 128)
        let issued := fun (t : State) (f : Option (Nat × Nat) × Nat) =>
          exec (.chunkIssue k) s = .next t ∧ (t.cluster k).copies = [{ c with
            rows := restRows c.rows n, flight := c.flight ++ [{ no := 8 * c.nextNo, n := n, at' := f.1, dst := f.2 }],
            nextNo := c.nextNo + 1, srcs := [] }]
        s1.chunkSource k c src n = (.have' data pois, u) →
        (∀ x, u.translate ask dst n .w = (.glob x, v) →
          ∃ t, issued t (some (x.home, x.pa), x.home) ∧ ∃ a ∈ t.egress, a.dst = x.home ∧ a.cls = 0 ∧
            a.body = .chunk c.id (8 * c.nextNo) x.pa x.set data pois false) ∧
        (∀ m off, u.translate ask dst n .w = (.spad m off, v) →
          ∃ t, issued t (none, s.epId m) ∧ ∃ a, a.dst = s.epId m ∧ a.body = .chunk c.id (8 * c.nextNo) off 0 data pois true ∧
            (if byArray dst then a ∈ t.egress else a ∈ tget t.inbox (s.epId m % 65536) []))) ∧
    ((s.cluster k).copies = [c] → clusterOf c.core = k → c.hasChunk = true → c.members ≠ [] →
      c.flight.length + c.members.length ≤ 64 → s.takeSource k = none →
      let s1 := s.onCluster k (fun d => { d with copyRR := (c.core % 8, c.tag) })
      ∀ src dst rem rows data pois u, c.rows = (src, dst, rem) :: rows →
        let n := min rem (128 - dst % 128)
        s1.chunkSource k c src n = (.have' data pois, u) →
        ∃ t d, exec (.chunkIssue k) s = .next t ∧ (t.cluster k).copies = [d] ∧ d.rows = restRows c.rows n ∧
          d.nextNo = c.nextNo + 1 ∧ d.flight.length = c.flight.length + c.members.length ∧
          ∀ m ∈ c.members, ∃ a ∈ tget t.inbox (s.epId m % 65536) [], ∃ i, a.dst = s.epId m ∧
            a.body = .chunk c.id (8 * c.nextNo + i) dst 0 data pois true) ∧
    (tget s.inbox e [] = p :: l → s.held = [] → (∀ q ∈ l, q.src = p.src) →
      (∀ cp no off set data pois, p.body = .chunk cp no off set data pois true → (s.core e).carving = false →
        off + data.length ≤ (s.core e).carve.spadSize →
        let lo := arrayBase e + off
        ∃ t, exec (.chunkLanding e) s = .next t ∧ answers t (.chunkAck cp no data.length) ∧
          (∀ i, i < data.length → t.readByte (lo + i) = data.getD i 0) ∧
          ∀ a, a < lo ∨ lo + data.length ≤ a → t.readByte a = s.readByte a) ∧
      (∀ cp no pa set data pois, p.body = .chunk cp no pa set data pois false → s.latchBlocks e pa = false →
        let u := ({ s with inbox := tset s.inbox e l } : State).bring e set p.vdev pa (pa % 128 == 0 && data.length == 128)
        (u.hasSector e set pa = false → exec (.chunkLanding e) s = .next (u.hold p)) ∧
        (u.hasSector e set pa = true → u.tellsHere e pa →
        ∃ t, exec (.chunkLanding e) s = .next t ∧
          (∀ i, i < data.length → t.readByte (pa + i) = data.getD i 0 ∧
            t.landingAt e (pa + i) = some (landKey p.src cp)) ∧
          (∀ ln, u.lineOf pa = some ln → ln.sharers = [] → ln.ovf = false → answers t (.chunkAck cp no data.length)) ∧
          ∀ a, a < pa ∨ pa + data.length ≤ a → t.readByte a = u.readByte a)) ∧
      (∀ cp q ranges, p.body = .stampPkt cp q ranges →
        ∃ t, exec (.stampPacket e) s = .next t ∧ answers t (.stampAck cp q) ∧
          ∀ r ∈ ranges, ∀ a, r.1 ≤ a → a < r.1 + r.2 → s.landingAt e a = some (landKey p.src cp) →
            t.stampAt e a = (q, p.src) ∧ t.landingAt e a = none)) ∧
    (tget s.inbox (8 * k) [] = p :: l → ∀ no n f, p.body = .chunkAck c.id no n → (s.cluster k).copies = [c] →
      c.flight = [f] → f.no = no →
      ∃ t, exec (.chunkAcknowledgement k) s = .next t ∧
        (t.cluster k).copies = [{ c with flight := [], landed := c.landed + n,
                                         homes := c.homes ++ (f.at'.map (fun x => (x.1, x.2, n))).toList }] ∧
        (c.counter = none → ∀ a, t.readByte a = s.readByte a) ∧
        ∀ off, c.counter = some off → off + 4 ≤ 131072 →
          leNat (t.spadBytes c.core off 4) = (leNat (s.spadBytes c.core off 4) + n) % 2 ^ 32) ∧
    ((∀ i, i < 8 → tget s.inbox (8 * k + i) [] = []) → (s.cluster k).copies = [c] → c.flight = [] → c.rows = [] →
      c.srcs = [] → (s.core c.core).runs c.vdev = true →
      ((s.vdevOf c.vdev).gen ≠ c.gen → c.seq = none →
        ∃ t, exec (.copyCompletion k) s = .next t ∧ (t.cluster k).copies = [] ∧
          (t.core c.core).pub = (s.core c.core).pub) ∧
      ((s.vdevOf c.vdev).gen = c.gen → c.path ≠ 0 → c.silent = true → ∀ q, c.seq = some q → c.stamps = 0 →
        ∃ t, exec (.copyCompletion k) s = .next t ∧ (t.cluster k).copies = [] ∧
          (t.core c.core).pub.engine = (s.core c.core).pub.engine.erase q) ∧
      (c.seq = none → c.path = 0 → c.silent = false → c.succ = none → (s.vdevOf c.vdev).gen = c.gen → (s.core c.core).pops = [] →
        let q4 := (tget (s.core c.core).sets c.level KSet.reset).q4
        q4.length < 16 →
        ∃ t, exec (.copyCompletion k) s = .next t ∧ (t.cluster k).copies = [] ∧
          (tget (t.core c.core).sets c.level KSet.reset).q4 = q4 ++ [c.tag % 65536]) ∧
      (c.seq = none → c.path ≠ 0 → (s.vdevOf c.vdev).gen = c.gen →
        let q := (s.core c.core).pub.nextSeq
        ∃ t d, exec (.copyCompletion k) s = .next t ∧ (t.cluster k).copies = [d] ∧ d.seq = some q ∧
          (t.core c.core).pub.lseq = q ∧ (t.core c.core).pub.clk = q ∧
          (t.core c.core).pub.engine = (s.core c.core).pub.engine ++ [q] ∧
          ∀ h ∈ c.homes, ∃ a ∈ t.egress, a.dst = h.1 ∧ a.body = .stampPkt c.id q (c.rangesAt h.1)))

/-! ### The fabric, links and barriers between cores (chapters 12, 20) -/

/-- The mesh: a granted packet takes its pair's next number at its first router and moves one hop, or reaches the
interface of its endpoint; the packet whose number is next is delivered there; a number that never comes is skipped; a
sluice seals its packet under the key that its entry held as it was sent, with that entry's next invocation counter, and lets on
what opens; what does not open is dropped with a skip notice; a failed frame
is resent, and a port one of whose frames has failed 64 times goes down and leaves every route; a refund returns flits to their
bucket (R313 to R320, R323, R324, R339, R439, R447, R461). -/
def Obligations.PacketsMoveThroughTheFabric : Prop :=
  ∀ (s : State) (p : Pkt) (lp : LinkPkt) (l : List LinkPkt) (unit port ep : Nat) (r : ArbReq) (a : Arb),
    (let ps := s.asking (bitsOf unit 0 6 + 64 * bitsOf unit 6 5) (bitsOf unit 11 3)
     s.egress = [p] → ps = [p] → (s.arb 0 unit).grant 0 s.now (headReqs meshFlits [p] []) = some (r, a) →
      r.vdev = p.vdev → r.cls = p.cls →
      let n := tget s.sseqOut (pairKey p.src p.dst) 0
      let moved := fun (q : Pkt) =>
        (∀ i to', s.nextHop p = some (i, .router to') →
          ∃ t, exec (.arbiterGrant 0 unit) s = .next t ∧ t.egress = [{ q with pos := to' }]) ∧
        (∀ i, s.nextHop p = some (i, .home) → s.fenceStops p = false → (∀ x y z, p.body ≠ .skipNote x y z) →
          ∃ t, exec (.arbiterGrant 0 unit) s = .next t ∧ t.egress = [] ∧ t.net = s.net ++ [q])
      (p.numbered = true → p.dst / 65536 = s.chip → moved p) ∧
      (p.numbered = false → p.cls ≠ 7 → s.firstRouter p = 0 → moved { p with sseq := n, numbered := true })) ∧
    (s.net = [p] → p.dst = s.epId ep → s.skipped = [] → tget s.sseqIn (pairKey p.src p.dst) 0 = p.sseq →
      s.current p = true → (∀ lock, p.body ≠ .accept lock) → (∀ x y z, p.body ≠ .horizon x y z) →
      (∀ x y z w, p.body ≠ .mmioLoad x y z w) → (∀ x y z w, p.body ≠ .mmioStore x y z w) →
      let old := tget s.inbox (ep % 65536) []
      ∃ t, exec (.niDelivery ep) s = .next t ∧ t.net = [] ∧
        { p with arr := s.now } ∈ tget t.inbox (ep % 65536) [] ∧ (∀ q ∈ old, q ∈ tget t.inbox (ep % 65536) []) ∧
        ((∀ q ∈ old, q.arr ≠ s.now) → tget t.inbox (ep % 65536) [] = old ++ [{ p with arr := s.now }]) ∧
        tget t.sseqIn (pairKey p.src p.dst) 0 = (p.sseq + 1) % 2 ^ 32) ∧
    (∀ src dst q, s.skipped = [(pairKey src dst, q)] → tget s.sseqIn (pairKey src dst) 0 = q →
      ∃ t, exec (.skipNotice src dst q) s = .next t ∧ t.skipped = [] ∧
        tget t.sseqIn (pairKey src dst) 0 = (q + 1) % 2 ^ 32) ∧
    (let u := s.sluice port
     (u.queue = [p] → u.up = true → s.skipped = [] → p.cls ≠ 6 → (s.portOf p).isSome = true →
      (s.arb 2 port).grant 2 s.now (headReqs linkFlits [p] []) = some (r, a) → r.vdev = p.vdev → r.cls = p.cls →
      ∃ t k, exec (.sluiceEgress port) s = .next t ∧ t.linkOut = s.linkOut ++ [k] ∧ k.pkt.body = p.body ∧
        k.pkt.src = p.src ∧ k.pkt.dst = p.dst ∧ k.ivc = tget u.ivc p.fkey 0 ∧ k.port = port ∧ k.chip = s.chip ∧
        k.key = p.key ∧ k.header = linkHeader k.pkt k.ivc port ∧
        (t.sluice port).queue = [] ∧ (t.sluice port).unacked = u.unacked ++ [k] ∧
        tget (t.sluice port).ivc p.fkey 0 = (k.ivc + 1) % 2 ^ 72) ∧
     (u.up = true → u.unacked ≠ [] →
      ∃ t i, exec (.linkFrameResend port) s = .next t ∧ (t.sluice port).unacked = u.unacked ∧
        tget (t.sluice port).resends i 0 = tget u.resends i 0 + 1 ∧
        ∀ j, j ≠ i → tget (t.sluice port).resends j 0 = tget u.resends j 0) ∧
     (∀ i n, u.up = true → (i, n) ∈ u.resends → 64 ≤ n →
      ∃ t, exec (.portDown port) s = .next t ∧ (t.sluice port).up = false ∧ (t.sluice port).unacked = [] ∧
        (t.sluice port).queue = [] ∧ ∀ c, port ∉ t.ports c)) ∧
    (tget s.linkIn port [] = lp :: l →
      let c := lp.clear
      (s.opens lp = true → c.isQuiet = false → (∀ x y z, c.body ≠ .skipNote x y z) → c.cls ≠ 7 → s.firstRouter c = 0 →
        ∃ t, exec (.sluiceIngress port true) s = .next t ∧ tget t.linkIn port [] = l ∧
          t.egress = s.egress ++ [{ c with
            pos := sluiceRouter port, numbered := true, inPort := some port, link := some (lp.port, lp.flits) }]) ∧
      (∀ tag, tag = false ∨ s.opens lp = false → s.current c = false →
        ∃ t q, exec (.sluiceIngress port tag) s = .next t ∧ tget t.linkIn port [] = l ∧ t.egress = s.egress ++ [q] ∧
          q.dst = c.dst ∧ q.cls = 6 ∧ q.body = .skipNote c.src c.dst c.sseq ∧
          (t.sluice port).stale = (s.sluice port).stale + 1)) ∧
    (∀ vdev cls flits e, s.inbox = [(e, [p])] → p.body = .refund port vdev cls flits →
      let b := tget (s.arb 2 port).buckets (bucketKey 2 vdev cls) Bucket.reset
      ∃ t, exec (.genRefundNotice port vdev cls flits) s = .next t ∧ tget t.inbox e [] = [] ∧
        tget (tget t.arbs (arbKey 2 port) Arb.reset).buckets (bucketKey 2 vdev cls) Bucket.reset =
          { b with tok := min b.depth (b.tok + flits) })

/-- A notice of a round that the open arrival has not received sets its bit, and the arrival completes with the last
bit; a notice without an open arrival is held for the next one. ABORT ends an open arrival and is forwarded to every
member it notifies (R327, R328, R446). -/
def Obligations.BarrierNoticesAdvanceTheirArrival : Prop :=
  ∀ (s : State) (ep bid k : Nat) (p : Pkt) (l : List Pkt) (g : GBar), tget s.inbox ep [] = p :: l →
    (s.core ep).runs p.vdev = true →
    let c := s.core ep
    let heldOne := fun (t : State) (e : Nat × Bool) =>
      ∃ h, (t.core ep).gbars = [h] ∧ h.bid = bid ∧ h.opened = false ∧ h.held = [e]
    (p.body = .bar bid k → c.gbars = [] → c.gbarCount < 64 →
      ∃ t, exec (.barrierNotice ep) s = .next t ∧ heldOne t (k, false)) ∧
    (p.body = .abort bid → c.gbars = [] → c.gbarCount < 64 →
      ∃ t, exec (.abortNotice ep) s = .next t ∧ heldOne t (0, true)) ∧
    (c.gbars = [g] → g.bid = bid → g.opened = true → g.aborted = false →
      (p.body = .bar bid k → g.rcvd.getLsbD k = false → k < 16 → g.sent = rounds g.n →
        let got := fun (j : Nat) => j == k || g.rcvd.getLsbD j
        ((List.range (rounds g.n)).all got = false →
          ∃ t, exec (.barrierNotice ep) s = .next t ∧
            (t.core ep).gbars = [{ g with rcvd := g.rcvd ||| BitVec.ofNat 16 (2 ^ k) }]) ∧
        ((List.range (rounds g.n)).all got = true → g.held = [] → g.succ = none →
          ∃ t, exec (.barrierNotice ep) s = .next t ∧ (t.core ep).gbars = [])) ∧
      (p.body = .abort bid → g.held = [] → g.succ = none →
        ∃ t, exec (.abortNotice ep) s = .next t ∧ (t.core ep).gbars = [] ∧
          ∀ d ∈ g.peers, ∃ q ∈ t.egress, q.dst = d ∧ q.cls = 5 ∧ q.body = .abort bid))

/-- A saggar's turns: a slice that is over is followed by the next one at once where the rotation has one device, and by
a world switch where it has more; an idle slice ends early and its cycles become credit; a saggar hit by a class-3 event
is fenced and then, when quiet, contained; the fence then falls. A machine check of a core writes its error record, tells the
host, and makes it the class-3 event of the core's saggar, whose frames stay as they are (R348, R371, R401, R410, R441,
R442). -/
def Obligations.SaggarsTakeTurnsAndAreContained : Prop :=
  ∀ (s : State) (k v : Nat),
    let g := s.sag k
    let full := 1024 * tget g.weight v 0
    (g.en = true → g.hit = none → g.switching = false → g.running = some v →
      (g.sliceEnd ≤ s.now → s.nextDevice k = some v →
        ∃ t, exec (.sliceEnd k) s = .next t ∧ (t.sag k).running = some v ∧ (t.sag k).sliceStart = s.now ∧
          (t.sag k).sliceEnd = s.now + (full + tget g.credit v 0) ∧ tget (t.sag k).credit v 0 = 0) ∧
      (∀ w, g.sliceEnd ≤ s.now → s.nextDevice k = some w → w ≠ v →
        ∃ t, exec (.sliceEnd k) s = .next t ∧ (t.sag k).switching = true ∧ (t.sag k).running = some v) ∧
      (∀ t0, s.idleSince k = some t0 → t0 + 4096 ≤ s.now → s.now < g.sliceEnd → s.nextDevice k = some v →
        ∃ t, exec (.sliceEarlyEnd k) s = .next t ∧ (t.sag k).running = some v ∧
          (t.sag k).sliceEnd = s.now + (full + min full (tget g.credit v 0 + (g.sliceEnd - s.now))))) ∧
    (g.hit.isSome = true →
      (g.fenced = false → ∃ t, exec (.saggarContainment k) s = .next t ∧ (t.sag k).fenced = true) ∧
      (g.fenced = true → g.contained = false → s.quiescent k = true →
        ∃ t, exec (.saggarContainment k) s = .next t ∧ (t.sag k).contained = true ∧ (t.sag k).running = none)) ∧
    (g.fenced = true → g.contained = true →
      ∃ t, exec (.fenceFall k) s = .next t ∧ (t.sag k).fenced = false ∧ (t.sag k).contained = false ∧
        (t.sag k).hit = none) ∧
    (∀ ep src code addr detail pc : Nat, s.sagOf ep = some k → g.hit = none →
      let t := s.machineCheck ep src code addr detail pc
      (t.sag k).hit = some s.now ∧ (t.core ep).run = (s.core ep).run ∧
        t.hostOut = s.hostOut ++ [.msix none 0] ∧ t.now = s.now)

/-- A launch, a reset and a teardown take effect where they are legal: a launch starts a new generation, a reset starts
another and empties the dispatchers of the device, a teardown starts with a reset; the scan ends a reset and frees the old
generation's reservations; a marker is answered behind what it follows, and the last answer, or the timeout, ends the
teardown (R356, R444 to R448). -/
def Obligations.DevicesAreLaunchedResetAndTornDown : Prop :=
  ∀ (s : State) (v port : Nat) (lp : LinkPkt) (l : List LinkPkt), v < 64 →
    let d := s.vdevOf v
    (s.mayLaunch v = true →
      ∃ t, exec (.launch v) s = .next t ∧ (t.vdevOf v).launched = true ∧ (t.vdevOf v).gen = (d.gen + 1) % 1024 ∧
        (t.vdevOf v).vh = 0) ∧
    (d.launched = true → s.busy v = false →
      (∃ t, exec (.reset v) s = .next t ∧ (t.vdevOf v).gen = (d.gen + 1) % 1024 ∧ (t.vdevOf v).resetAt = some s.now ∧
        (t.vdevOf v).launched = true ∧ ∀ die, ∀ e ∈ (t.disp die).queue, e.vdev ≠ v) ∧
      (∃ t, exec (.teardown v) s = .next t ∧ (t.vdevOf v).gen = (d.gen + 1) % 1024 ∧
        (t.vdevOf v).resetAt = some s.now ∧ (t.vdevOf v).teardown = some [] ∧ (t.vdevOf v).downAt = s.now)) ∧
    (∀ t0, d.resetAt = some t0 → t0 + 2 ^ 17 ≤ s.now → d.teardown = none →
      (d.again = false →
        ∃ t, exec (.resetScan v) s = .next t ∧ (t.vdevOf v).resetAt = none ∧
          ∀ ep, ∀ r ∈ (t.core ep).reqs, r.vdev = v → r.gen = d.gen) ∧
      (d.again = true →
        ∃ t, exec (.resetScan v) s = .next t ∧ (t.vdevOf v).resetAt = some s.now ∧
          (t.vdevOf v).gen = (d.gen + 1) % 1024)) ∧
    (tget s.linkIn port [] = lp :: l →
      (∀ f w, lp.pkt.body = .quiet f w → s.opens lp = true →
        ∃ t q, exec (.quietMarker port) s = .next t ∧ tget t.linkIn port [] = l ∧
          (t.sluice port).queue = (s.sluice port).queue ++ [q] ∧ q.dst = lp.pkt.src ∧ q.cls = 6 ∧
          q.body = .quietAns f w) ∧
      (∀ f, lp.pkt.body = .quietAns f v → s.opens lp = true →
        (d.teardown = some [f] → d.resetAt = none →
          ∃ t, exec (.quietAnswer v port) s = .next t ∧ (t.vdevOf v).launched = false ∧ (t.vdevOf v).teardown = none) ∧
        (∀ ps, d.teardown = some ps → ps.filter (fun q => !(q == f)) ≠ [] →
          ∃ t, exec (.quietAnswer v port) s = .next t ∧
            (t.vdevOf v).teardown = some (ps.filter (fun q => !(q == f)))))) ∧
    (∀ ps, d.teardown = some ps → d.resetAt = none → d.downAt + 2 ^ 20 ≤ s.now →
      ∃ t, exec (.quietHandshakeTimeout v) s = .next t ∧ (t.vdevOf v).launched = false ∧ (t.vdevOf v).teardown = none)
end

