-- ==== Sys2Proof/Laws/Exec.lean ====
section
/-! SUPPORT. One equation for each arm of `exec`: the instruction runs its own meaning. -/

namespace Sys2Proof.Machine

variable (s : State)

theorem exec_lui (rd : BitVec 5) (imm : BitVec 20) : exec (.lui rd imm) s = execLui rd imm s := rfl
theorem exec_auipc (rd : BitVec 5) (imm : BitVec 20) : exec (.auipc rd imm) s = execAuipc rd imm s := rfl
theorem exec_jal (rd : BitVec 5) (imm : BitVec 20) : exec (.jal rd imm) s = execJal rd imm s := rfl
theorem exec_jalr (rd : BitVec 5) (rs1 : BitVec 5) (imm : BitVec 12) : exec (.jalr rd rs1 imm) s = execJalr rd rs1 imm s := rfl
theorem exec_beq (rs1 : BitVec 5) (rs2 : BitVec 5) (imm : BitVec 12) : exec (.beq rs1 rs2 imm) s = execBeq rs1 rs2 imm s := rfl
theorem exec_bne (rs1 : BitVec 5) (rs2 : BitVec 5) (imm : BitVec 12) : exec (.bne rs1 rs2 imm) s = execBne rs1 rs2 imm s := rfl
theorem exec_blt (rs1 : BitVec 5) (rs2 : BitVec 5) (imm : BitVec 12) : exec (.blt rs1 rs2 imm) s = execBlt rs1 rs2 imm s := rfl
theorem exec_bge (rs1 : BitVec 5) (rs2 : BitVec 5) (imm : BitVec 12) : exec (.bge rs1 rs2 imm) s = execBge rs1 rs2 imm s := rfl
theorem exec_bltu (rs1 : BitVec 5) (rs2 : BitVec 5) (imm : BitVec 12) : exec (.bltu rs1 rs2 imm) s = execBltu rs1 rs2 imm s := rfl
theorem exec_bgeu (rs1 : BitVec 5) (rs2 : BitVec 5) (imm : BitVec 12) : exec (.bgeu rs1 rs2 imm) s = execBgeu rs1 rs2 imm s := rfl
theorem exec_lb (rd : BitVec 5) (rs1 : BitVec 5) (imm : BitVec 12) : exec (.lb rd rs1 imm) s = execLb rd rs1 imm s := rfl
theorem exec_lh (rd : BitVec 5) (rs1 : BitVec 5) (imm : BitVec 12) : exec (.lh rd rs1 imm) s = execLh rd rs1 imm s := rfl
theorem exec_lw (rd : BitVec 5) (rs1 : BitVec 5) (imm : BitVec 12) : exec (.lw rd rs1 imm) s = execLw rd rs1 imm s := rfl
theorem exec_ld (rd : BitVec 5) (rs1 : BitVec 5) (imm : BitVec 12) : exec (.ld rd rs1 imm) s = execLd rd rs1 imm s := rfl
theorem exec_lbu (rd : BitVec 5) (rs1 : BitVec 5) (imm : BitVec 12) : exec (.lbu rd rs1 imm) s = execLbu rd rs1 imm s := rfl
theorem exec_lhu (rd : BitVec 5) (rs1 : BitVec 5) (imm : BitVec 12) : exec (.lhu rd rs1 imm) s = execLhu rd rs1 imm s := rfl
theorem exec_lwu (rd : BitVec 5) (rs1 : BitVec 5) (imm : BitVec 12) : exec (.lwu rd rs1 imm) s = execLwu rd rs1 imm s := rfl
theorem exec_sb (rs1 : BitVec 5) (rs2 : BitVec 5) (imm : BitVec 12) : exec (.sb rs1 rs2 imm) s = execSb rs1 rs2 imm s := rfl
theorem exec_sh (rs1 : BitVec 5) (rs2 : BitVec 5) (imm : BitVec 12) : exec (.sh rs1 rs2 imm) s = execSh rs1 rs2 imm s := rfl
theorem exec_sw (rs1 : BitVec 5) (rs2 : BitVec 5) (imm : BitVec 12) : exec (.sw rs1 rs2 imm) s = execSw rs1 rs2 imm s := rfl
theorem exec_sd (rs1 : BitVec 5) (rs2 : BitVec 5) (imm : BitVec 12) : exec (.sd rs1 rs2 imm) s = execSd rs1 rs2 imm s := rfl
theorem exec_addi (rd : BitVec 5) (rs1 : BitVec 5) (imm : BitVec 12) : exec (.addi rd rs1 imm) s = execAddi rd rs1 imm s := rfl
theorem exec_slti (rd : BitVec 5) (rs1 : BitVec 5) (imm : BitVec 12) : exec (.slti rd rs1 imm) s = execSlti rd rs1 imm s := rfl
theorem exec_sltiu (rd : BitVec 5) (rs1 : BitVec 5) (imm : BitVec 12) : exec (.sltiu rd rs1 imm) s = execSltiu rd rs1 imm s := rfl
theorem exec_xori (rd : BitVec 5) (rs1 : BitVec 5) (imm : BitVec 12) : exec (.xori rd rs1 imm) s = execXori rd rs1 imm s := rfl
theorem exec_ori (rd : BitVec 5) (rs1 : BitVec 5) (imm : BitVec 12) : exec (.ori rd rs1 imm) s = execOri rd rs1 imm s := rfl
theorem exec_andi (rd : BitVec 5) (rs1 : BitVec 5) (imm : BitVec 12) : exec (.andi rd rs1 imm) s = execAndi rd rs1 imm s := rfl
theorem exec_slli (rd : BitVec 5) (rs1 : BitVec 5) (sh : BitVec 6) : exec (.slli rd rs1 sh) s = execSlli rd rs1 sh s := rfl
theorem exec_srli (rd : BitVec 5) (rs1 : BitVec 5) (sh : BitVec 6) : exec (.srli rd rs1 sh) s = execSrli rd rs1 sh s := rfl
theorem exec_srai (rd : BitVec 5) (rs1 : BitVec 5) (sh : BitVec 6) : exec (.srai rd rs1 sh) s = execSrai rd rs1 sh s := rfl
theorem exec_addiw (rd : BitVec 5) (rs1 : BitVec 5) (imm : BitVec 12) : exec (.addiw rd rs1 imm) s = execAddiw rd rs1 imm s := rfl
theorem exec_slliw (rd : BitVec 5) (rs1 : BitVec 5) (sh : BitVec 5) : exec (.slliw rd rs1 sh) s = execSlliw rd rs1 sh s := rfl
theorem exec_srliw (rd : BitVec 5) (rs1 : BitVec 5) (sh : BitVec 5) : exec (.srliw rd rs1 sh) s = execSrliw rd rs1 sh s := rfl
theorem exec_sraiw (rd : BitVec 5) (rs1 : BitVec 5) (sh : BitVec 5) : exec (.sraiw rd rs1 sh) s = execSraiw rd rs1 sh s := rfl
theorem exec_add (rd : BitVec 5) (rs1 : BitVec 5) (rs2 : BitVec 5) : exec (.add rd rs1 rs2) s = execAdd rd rs1 rs2 s := rfl
theorem exec_sub (rd : BitVec 5) (rs1 : BitVec 5) (rs2 : BitVec 5) : exec (.sub rd rs1 rs2) s = execSub rd rs1 rs2 s := rfl
theorem exec_sll (rd : BitVec 5) (rs1 : BitVec 5) (rs2 : BitVec 5) : exec (.sll rd rs1 rs2) s = execSll rd rs1 rs2 s := rfl
theorem exec_slt (rd : BitVec 5) (rs1 : BitVec 5) (rs2 : BitVec 5) : exec (.slt rd rs1 rs2) s = execSlt rd rs1 rs2 s := rfl
theorem exec_sltu (rd : BitVec 5) (rs1 : BitVec 5) (rs2 : BitVec 5) : exec (.sltu rd rs1 rs2) s = execSltu rd rs1 rs2 s := rfl
theorem exec_xor (rd : BitVec 5) (rs1 : BitVec 5) (rs2 : BitVec 5) : exec (.xor rd rs1 rs2) s = execXor rd rs1 rs2 s := rfl
theorem exec_srl (rd : BitVec 5) (rs1 : BitVec 5) (rs2 : BitVec 5) : exec (.srl rd rs1 rs2) s = execSrl rd rs1 rs2 s := rfl
theorem exec_sra (rd : BitVec 5) (rs1 : BitVec 5) (rs2 : BitVec 5) : exec (.sra rd rs1 rs2) s = execSra rd rs1 rs2 s := rfl
theorem exec_or (rd : BitVec 5) (rs1 : BitVec 5) (rs2 : BitVec 5) : exec (.or rd rs1 rs2) s = execOr rd rs1 rs2 s := rfl
theorem exec_and (rd : BitVec 5) (rs1 : BitVec 5) (rs2 : BitVec 5) : exec (.and rd rs1 rs2) s = execAnd rd rs1 rs2 s := rfl
theorem exec_mul (rd : BitVec 5) (rs1 : BitVec 5) (rs2 : BitVec 5) : exec (.mul rd rs1 rs2) s = execMul rd rs1 rs2 s := rfl
theorem exec_mulh (rd : BitVec 5) (rs1 : BitVec 5) (rs2 : BitVec 5) : exec (.mulh rd rs1 rs2) s = execMulh rd rs1 rs2 s := rfl
theorem exec_mulhsu (rd : BitVec 5) (rs1 : BitVec 5) (rs2 : BitVec 5) : exec (.mulhsu rd rs1 rs2) s = execMulhsu rd rs1 rs2 s := rfl
theorem exec_mulhu (rd : BitVec 5) (rs1 : BitVec 5) (rs2 : BitVec 5) : exec (.mulhu rd rs1 rs2) s = execMulhu rd rs1 rs2 s := rfl
theorem exec_div (rd : BitVec 5) (rs1 : BitVec 5) (rs2 : BitVec 5) : exec (.div rd rs1 rs2) s = execDiv rd rs1 rs2 s := rfl
theorem exec_divu (rd : BitVec 5) (rs1 : BitVec 5) (rs2 : BitVec 5) : exec (.divu rd rs1 rs2) s = execDivu rd rs1 rs2 s := rfl
theorem exec_rem (rd : BitVec 5) (rs1 : BitVec 5) (rs2 : BitVec 5) : exec (.rem rd rs1 rs2) s = execRem rd rs1 rs2 s := rfl
theorem exec_remu (rd : BitVec 5) (rs1 : BitVec 5) (rs2 : BitVec 5) : exec (.remu rd rs1 rs2) s = execRemu rd rs1 rs2 s := rfl
theorem exec_addw (rd : BitVec 5) (rs1 : BitVec 5) (rs2 : BitVec 5) : exec (.addw rd rs1 rs2) s = execAddw rd rs1 rs2 s := rfl
theorem exec_subw (rd : BitVec 5) (rs1 : BitVec 5) (rs2 : BitVec 5) : exec (.subw rd rs1 rs2) s = execSubw rd rs1 rs2 s := rfl
theorem exec_sllw (rd : BitVec 5) (rs1 : BitVec 5) (rs2 : BitVec 5) : exec (.sllw rd rs1 rs2) s = execSllw rd rs1 rs2 s := rfl
theorem exec_srlw (rd : BitVec 5) (rs1 : BitVec 5) (rs2 : BitVec 5) : exec (.srlw rd rs1 rs2) s = execSrlw rd rs1 rs2 s := rfl
theorem exec_sraw (rd : BitVec 5) (rs1 : BitVec 5) (rs2 : BitVec 5) : exec (.sraw rd rs1 rs2) s = execSraw rd rs1 rs2 s := rfl
theorem exec_mulw (rd : BitVec 5) (rs1 : BitVec 5) (rs2 : BitVec 5) : exec (.mulw rd rs1 rs2) s = execMulw rd rs1 rs2 s := rfl
theorem exec_divw (rd : BitVec 5) (rs1 : BitVec 5) (rs2 : BitVec 5) : exec (.divw rd rs1 rs2) s = execDivw rd rs1 rs2 s := rfl
theorem exec_divuw (rd : BitVec 5) (rs1 : BitVec 5) (rs2 : BitVec 5) : exec (.divuw rd rs1 rs2) s = execDivuw rd rs1 rs2 s := rfl
theorem exec_remw (rd : BitVec 5) (rs1 : BitVec 5) (rs2 : BitVec 5) : exec (.remw rd rs1 rs2) s = execRemw rd rs1 rs2 s := rfl
theorem exec_remuw (rd : BitVec 5) (rs1 : BitVec 5) (rs2 : BitVec 5) : exec (.remuw rd rs1 rs2) s = execRemuw rd rs1 rs2 s := rfl
theorem exec_fence (fm : BitVec 1) (pred : BitVec 4) (succ : BitVec 4) : exec (.fence fm pred succ) s = execFence fm pred succ s := rfl
theorem exec_fenceI : exec (.fenceI) s = execFenceI s := rfl
theorem exec_ecall : exec (.ecall) s = execEcall s := rfl
theorem exec_ebreak : exec (.ebreak) s = execEbreak s := rfl
theorem exec_csrrw (rd : BitVec 5) (rs1 : BitVec 5) (csr : BitVec 12) : exec (.csrrw rd rs1 csr) s = execCsrrw rd rs1 csr s := rfl
theorem exec_csrrs (rd : BitVec 5) (rs1 : BitVec 5) (csr : BitVec 12) : exec (.csrrs rd rs1 csr) s = execCsrrs rd rs1 csr s := rfl
theorem exec_csrrc (rd : BitVec 5) (rs1 : BitVec 5) (csr : BitVec 12) : exec (.csrrc rd rs1 csr) s = execCsrrc rd rs1 csr s := rfl
theorem exec_csrrwi (rd : BitVec 5) (csr : BitVec 12) (zimm : BitVec 5) : exec (.csrrwi rd csr zimm) s = execCsrrwi rd csr zimm s := rfl
theorem exec_csrrsi (rd : BitVec 5) (csr : BitVec 12) (zimm : BitVec 5) : exec (.csrrsi rd csr zimm) s = execCsrrsi rd csr zimm s := rfl
theorem exec_csrrci (rd : BitVec 5) (csr : BitVec 12) (zimm : BitVec 5) : exec (.csrrci rd csr zimm) s = execCsrrci rd csr zimm s := rfl
theorem exec_tend : exec (.tend) s = execTend s := rfl
theorem exec_post (rd : BitVec 5) (rs1 : BitVec 5) (e1 : BitVec 1) : exec (.post rd rs1 e1) s = execPost rd rs1 e1 s := rfl
theorem exec_poste (rd : BitVec 5) (rs1 : BitVec 5) (rs2 : BitVec 5) (e1 : BitVec 1) (e2 : BitVec 1) : exec (.poste rd rs1 rs2 e1 e2) s = execPoste rd rs1 rs2 e1 e2 s := rfl
theorem exec_succ (rs1 : BitVec 5) (e1 : BitVec 1) : exec (.succ rs1 e1) s = execSucc rs1 e1 s := rfl
theorem exec_dlset (rs1 : BitVec 5) (rs2 : BitVec 5) (e1 : BitVec 1) (e2 : BitVec 1) : exec (.dlset rs1 rs2 e1 e2) s = execDlset rs1 rs2 e1 e2 s := rfl
theorem exec_dlclr : exec (.dlclr) s = execDlclr s := rfl
theorem exec_spawn (rd : BitVec 5) (rs1 : BitVec 5) (rs2 : BitVec 5) (e1 : BitVec 1) (e2 : BitVec 1) : exec (.spawn rd rs1 rs2 e1 e2) s = execSpawn rd rs1 rs2 e1 e2 s := rfl
theorem exec_claim (rs1 : BitVec 5) (e1 : BitVec 1) : exec (.claim rs1 e1) s = execClaim rs1 e1 s := rfl
theorem exec_unclaim (rs1 : BitVec 5) (e1 : BitVec 1) : exec (.unclaim rs1 e1) s = execUnclaim rs1 e1 s := rfl
theorem exec_hold (rs1 : BitVec 5) (e1 : BitVec 1) : exec (.hold rs1 e1) s = execHold rs1 e1 s := rfl
theorem exec_unhold (rs1 : BitVec 5) (e1 : BitVec 1) : exec (.unhold rs1 e1) s = execUnhold rs1 e1 s := rfl
theorem exec_holdm (rs1 : BitVec 5) (e1 : BitVec 1) : exec (.holdm rs1 e1) s = execHoldm rs1 e1 s := rfl
theorem exec_unholdm (rs1 : BitVec 5) (e1 : BitVec 1) : exec (.unholdm rs1 e1) s = execUnholdm rs1 e1 s := rfl
theorem exec_tbar : exec (.tbar) s = execTbar s := rfl
theorem exec_gbar (rs1 : BitVec 5) (e1 : BitVec 1) : exec (.gbar rs1 e1) s = execGbar rs1 e1 s := rfl
theorem exec_carve (rs1 : BitVec 5) (e1 : BitVec 1) : exec (.carve rs1 e1) s = execCarve rs1 e1 s := rfl
theorem exec_align : exec (.align) s = execAlign s := rfl
theorem exec_tbarq (rd : BitVec 5) : exec (.tbarq rd) s = execTbarq rd s := rfl
theorem exec_send (rd : BitVec 5) (rs1 : BitVec 5) (rs2 : BitVec 5) (e1 : BitVec 1) (e2 : BitVec 1) : exec (.send rd rs1 rs2 e1 e2) s = execSend rd rs1 rs2 e1 e2 s := rfl
theorem exec_ldr (rd : BitVec 5) (rs1 : BitVec 5) (e1 : BitVec 1) : exec (.ldr rd rs1 e1) s = execLdr rd rs1 e1 s := rfl
theorem exec_ldrw (rd : BitVec 5) (rs1 : BitVec 5) (e1 : BitVec 1) : exec (.ldrw rd rs1 e1) s = execLdrw rd rs1 e1 s := rfl
theorem exec_tjmp (rs1 : BitVec 5) (rs2 : BitVec 5) (e1 : BitVec 1) (e2 : BitVec 1) : exec (.tjmp rs1 rs2 e1 e2) s = execTjmp rs1 rs2 e1 e2 s := rfl
theorem exec_qpush (rs1 : BitVec 5) (e1 : BitVec 1) (q : BitVec 5) : exec (.qpush rs1 e1 q) s = execQpush rs1 e1 q s := rfl
theorem exec_qpop (rd : BitVec 5) (q : BitVec 5) : exec (.qpop rd q) s = execQpop rd q s := rfl
theorem exec_qlen (rd : BitVec 5) (q : BitVec 5) : exec (.qlen rd q) s = execQlen rd q s := rfl
theorem exec_one : exec (.one) s = execOne s := rfl
theorem exec_fmt (f1 : BitVec 3) (f2 : BitVec 3) : exec (.fmt f1 f2) s = execFmt f1 f2 s := rfl
theorem exec_tret : exec (.tret) s = execTret s := rfl
theorem exec_tkill : exec (.tkill) s = execTkill s := rfl
theorem exec_tfrd (rd : BitVec 5) (rs1 : BitVec 5) (e1 : BitVec 1) : exec (.tfrd rd rs1 e1) s = execTfrd rd rs1 e1 s := rfl
theorem exec_tfwr (rs1 : BitVec 5) (rs2 : BitVec 5) (e1 : BitVec 1) (e2 : BitVec 1) : exec (.tfwr rs1 rs2 e1 e2) s = execTfwr rs1 rs2 e1 e2 s := rfl
theorem exec_xinv (rs1 : BitVec 5) (rs2 : BitVec 5) (e1 : BitVec 1) (e2 : BitVec 1) : exec (.xinv rs1 rs2 e1 e2) s = execXinv rs1 rs2 e1 e2 s := rfl
theorem exec_ckpt : exec (.ckpt) s = execCkpt s := rfl
theorem exec_rel : exec (.rel) s = execRel s := rfl
theorem exec_acq (rs1 : BitVec 5) (e1 : BitVec 1) : exec (.acq rs1 e1) s = execAcq rs1 e1 s := rfl
theorem exec_acqm (rs1 : BitVec 5) (e1 : BitVec 1) : exec (.acqm rs1 e1) s = execAcqm rs1 e1 s := rfl
theorem exec_acqg (rs1 : BitVec 5) (e1 : BitVec 1) : exec (.acqg rs1 e1) s = execAcqg rs1 e1 s := rfl
theorem exec_acqv : exec (.acqv) s = execAcqv s := rfl
theorem exec_drainS : exec (.drainS) s = execDrainS s := rfl
theorem exec_drainG : exec (.drainG) s = execDrainG s := rfl
theorem exec_drainR : exec (.drainR) s = execDrainR s := rfl
theorem exec_drainK : exec (.drainK) s = execDrainK s := rfl
theorem exec_atomAdd (rd : BitVec 5) (rs1 : BitVec 5) (rs2 : BitVec 5) (e1 : BitVec 1) (e2 : BitVec 1) : exec (.atomAdd rd rs1 rs2 e1 e2) s = execAtomAdd rd rs1 rs2 e1 e2 s := rfl
theorem exec_atomAnd (rd : BitVec 5) (rs1 : BitVec 5) (rs2 : BitVec 5) (e1 : BitVec 1) (e2 : BitVec 1) : exec (.atomAnd rd rs1 rs2 e1 e2) s = execAtomAnd rd rs1 rs2 e1 e2 s := rfl
theorem exec_atomOr (rd : BitVec 5) (rs1 : BitVec 5) (rs2 : BitVec 5) (e1 : BitVec 1) (e2 : BitVec 1) : exec (.atomOr rd rs1 rs2 e1 e2) s = execAtomOr rd rs1 rs2 e1 e2 s := rfl
theorem exec_atomXor (rd : BitVec 5) (rs1 : BitVec 5) (rs2 : BitVec 5) (e1 : BitVec 1) (e2 : BitVec 1) : exec (.atomXor rd rs1 rs2 e1 e2) s = execAtomXor rd rs1 rs2 e1 e2 s := rfl
theorem exec_atomMin (rd : BitVec 5) (rs1 : BitVec 5) (rs2 : BitVec 5) (e1 : BitVec 1) (e2 : BitVec 1) : exec (.atomMin rd rs1 rs2 e1 e2) s = execAtomMin rd rs1 rs2 e1 e2 s := rfl
theorem exec_atomMax (rd : BitVec 5) (rs1 : BitVec 5) (rs2 : BitVec 5) (e1 : BitVec 1) (e2 : BitVec 1) : exec (.atomMax rd rs1 rs2 e1 e2) s = execAtomMax rd rs1 rs2 e1 e2 s := rfl
theorem exec_atomMinu (rd : BitVec 5) (rs1 : BitVec 5) (rs2 : BitVec 5) (e1 : BitVec 1) (e2 : BitVec 1) : exec (.atomMinu rd rs1 rs2 e1 e2) s = execAtomMinu rd rs1 rs2 e1 e2 s := rfl
theorem exec_atomMaxu (rd : BitVec 5) (rs1 : BitVec 5) (rs2 : BitVec 5) (e1 : BitVec 1) (e2 : BitVec 1) : exec (.atomMaxu rd rs1 rs2 e1 e2) s = execAtomMaxu rd rs1 rs2 e1 e2 s := rfl
theorem exec_atomSwap (rd : BitVec 5) (rs1 : BitVec 5) (rs2 : BitVec 5) (e1 : BitVec 1) (e2 : BitVec 1) : exec (.atomSwap rd rs1 rs2 e1 e2) s = execAtomSwap rd rs1 rs2 e1 e2 s := rfl
theorem exec_atomAddW (rd : BitVec 5) (rs1 : BitVec 5) (rs2 : BitVec 5) (e1 : BitVec 1) (e2 : BitVec 1) : exec (.atomAddW rd rs1 rs2 e1 e2) s = execAtomAddW rd rs1 rs2 e1 e2 s := rfl
theorem exec_atomAndW (rd : BitVec 5) (rs1 : BitVec 5) (rs2 : BitVec 5) (e1 : BitVec 1) (e2 : BitVec 1) : exec (.atomAndW rd rs1 rs2 e1 e2) s = execAtomAndW rd rs1 rs2 e1 e2 s := rfl
theorem exec_atomOrW (rd : BitVec 5) (rs1 : BitVec 5) (rs2 : BitVec 5) (e1 : BitVec 1) (e2 : BitVec 1) : exec (.atomOrW rd rs1 rs2 e1 e2) s = execAtomOrW rd rs1 rs2 e1 e2 s := rfl
theorem exec_atomXorW (rd : BitVec 5) (rs1 : BitVec 5) (rs2 : BitVec 5) (e1 : BitVec 1) (e2 : BitVec 1) : exec (.atomXorW rd rs1 rs2 e1 e2) s = execAtomXorW rd rs1 rs2 e1 e2 s := rfl
theorem exec_atomMinW (rd : BitVec 5) (rs1 : BitVec 5) (rs2 : BitVec 5) (e1 : BitVec 1) (e2 : BitVec 1) : exec (.atomMinW rd rs1 rs2 e1 e2) s = execAtomMinW rd rs1 rs2 e1 e2 s := rfl
theorem exec_atomMaxW (rd : BitVec 5) (rs1 : BitVec 5) (rs2 : BitVec 5) (e1 : BitVec 1) (e2 : BitVec 1) : exec (.atomMaxW rd rs1 rs2 e1 e2) s = execAtomMaxW rd rs1 rs2 e1 e2 s := rfl
theorem exec_atomMinuW (rd : BitVec 5) (rs1 : BitVec 5) (rs2 : BitVec 5) (e1 : BitVec 1) (e2 : BitVec 1) : exec (.atomMinuW rd rs1 rs2 e1 e2) s = execAtomMinuW rd rs1 rs2 e1 e2 s := rfl
theorem exec_atomMaxuW (rd : BitVec 5) (rs1 : BitVec 5) (rs2 : BitVec 5) (e1 : BitVec 1) (e2 : BitVec 1) : exec (.atomMaxuW rd rs1 rs2 e1 e2) s = execAtomMaxuW rd rs1 rs2 e1 e2 s := rfl
theorem exec_atomSwapW (rd : BitVec 5) (rs1 : BitVec 5) (rs2 : BitVec 5) (e1 : BitVec 1) (e2 : BitVec 1) : exec (.atomSwapW rd rs1 rs2 e1 e2) s = execAtomSwapW rd rs1 rs2 e1 e2 s := rfl
theorem exec_atomCas (rd : BitVec 5) (rs1 : BitVec 5) (rs2 : BitVec 5) (rs3 : BitVec 5) : exec (.atomCas rd rs1 rs2 rs3) s = execAtomCas rd rs1 rs2 rs3 s := rfl
theorem exec_atomCasW (rd : BitVec 5) (rs1 : BitVec 5) (rs2 : BitVec 5) (rs3 : BitVec 5) : exec (.atomCasW rd rs1 rs2 rs3) s = execAtomCasW rd rs1 rs2 rs3 s := rfl
theorem exec_redAdd (rs1 : BitVec 5) (rs2 : BitVec 5) (e1 : BitVec 1) (e2 : BitVec 1) : exec (.redAdd rs1 rs2 e1 e2) s = execRedAdd rs1 rs2 e1 e2 s := rfl
theorem exec_redAddf (rs1 : BitVec 5) (rs2 : BitVec 5) (e1 : BitVec 1) (e2 : BitVec 1) : exec (.redAddf rs1 rs2 e1 e2) s = execRedAddf rs1 rs2 e1 e2 s := rfl
theorem exec_redMin (rs1 : BitVec 5) (rs2 : BitVec 5) (e1 : BitVec 1) (e2 : BitVec 1) : exec (.redMin rs1 rs2 e1 e2) s = execRedMin rs1 rs2 e1 e2 s := rfl
theorem exec_redMax (rs1 : BitVec 5) (rs2 : BitVec 5) (e1 : BitVec 1) (e2 : BitVec 1) : exec (.redMax rs1 rs2 e1 e2) s = execRedMax rs1 rs2 e1 e2 s := rfl
theorem exec_redAddW (rs1 : BitVec 5) (rs2 : BitVec 5) (e1 : BitVec 1) (e2 : BitVec 1) : exec (.redAddW rs1 rs2 e1 e2) s = execRedAddW rs1 rs2 e1 e2 s := rfl
theorem exec_redAddfW (rs1 : BitVec 5) (rs2 : BitVec 5) (e1 : BitVec 1) (e2 : BitVec 1) : exec (.redAddfW rs1 rs2 e1 e2) s = execRedAddfW rs1 rs2 e1 e2 s := rfl
theorem exec_redMinW (rs1 : BitVec 5) (rs2 : BitVec 5) (e1 : BitVec 1) (e2 : BitVec 1) : exec (.redMinW rs1 rs2 e1 e2) s = execRedMinW rs1 rs2 e1 e2 s := rfl
theorem exec_redMaxW (rs1 : BitVec 5) (rs2 : BitVec 5) (e1 : BitVec 1) (e2 : BitVec 1) : exec (.redMaxW rs1 rs2 e1 e2) s = execRedMaxW rs1 rs2 e1 e2 s := rfl
theorem exec_copy (rd : BitVec 5) (rs1 : BitVec 5) (rs2 : BitVec 5) (rs3 : BitVec 5) : exec (.copy rd rs1 rs2 rs3) s = execCopy rd rs1 rs2 rs3 s := rfl
theorem exec_copy2d (rd : BitVec 5) (rs1 : BitVec 5) (rs2 : BitVec 5) (rs3 : BitVec 5) : exec (.copy2d rd rs1 rs2 rs3) s = execCopy2d rd rs1 rs2 rs3 s := rfl
theorem exec_copyb (rd : BitVec 5) (rs1 : BitVec 5) (rs2 : BitVec 5) (rs3 : BitVec 5) : exec (.copyb rd rs1 rs2 rs3) s = execCopyb rd rs1 rs2 rs3 s := rfl
theorem exec_cpcnt (rs1 : BitVec 5) (e1 : BitVec 1) : exec (.cpcnt rs1 e1) s = execCpcnt rs1 e1 s := rfl
theorem exec_copyq (rd : BitVec 5) (rs1 : BitVec 5) (e1 : BitVec 1) : exec (.copyq rd rs1 e1) s = execCopyq rd rs1 e1 s := rfl
theorem exec_pref (rs1 : BitVec 5) (e1 : BitVec 1) : exec (.pref rs1 e1) s = execPref rs1 e1 s := rfl
theorem exec_vspl (vd : BitVec 3) (xs : BitVec 5) (sz : BitVec 2) : exec (.vspl vd xs sz) s = execVspl vd xs sz s := rfl
theorem exec_vsplq (vd : BitVec 3) (sz : BitVec 2) : exec (.vsplq vd sz) s = execVsplq vd sz s := rfl
theorem exec_voutq (vs1 : BitVec 3) (xs : BitVec 5) (sz : BitVec 2) : exec (.voutq vs1 xs sz) s = execVoutq vs1 xs sz s := rfl
theorem exec_vmv (vd : BitVec 3) (vs1 : BitVec 3) : exec (.vmv vd vs1) s = execVmv vd vs1 s := rfl
theorem exec_vlane (vd : BitVec 3) (vs1 : BitVec 3) (xs : BitVec 5) (sz : BitVec 2) : exec (.vlane vd vs1 xs sz) s = execVlane vd vs1 xs sz s := rfl
theorem exec_vld (vd : BitVec 3) (xs : BitVec 5) : exec (.vld vd xs) s = execVld vd xs s := rfl
theorem exec_vst (vs1 : BitVec 3) (xs : BitVec 5) : exec (.vst vs1 xs) s = execVst vs1 xs s := rfl
theorem exec_vlds (vd : BitVec 3) (vs1 : BitVec 3) (xs : BitVec 5) (sz : BitVec 2) : exec (.vlds vd vs1 xs sz) s = execVlds vd vs1 xs sz s := rfl
theorem exec_vgth (vd : BitVec 3) (vs1 : BitVec 3) (xs : BitVec 5) : exec (.vgth vd vs1 xs) s = execVgth vd vs1 xs s := rfl
theorem exec_vsct (vs1 : BitVec 3) (vs2 : BitVec 3) (xs : BitVec 5) : exec (.vsct vs1 vs2 xs) s = execVsct vs1 vs2 xs s := rfl
theorem exec_vadd (vd : BitVec 3) (vs1 : BitVec 3) (vs2 : BitVec 3) (sz : BitVec 2) : exec (.vadd vd vs1 vs2 sz) s = execVadd vd vs1 vs2 sz s := rfl
theorem exec_vsub (vd : BitVec 3) (vs1 : BitVec 3) (vs2 : BitVec 3) (sz : BitVec 2) : exec (.vsub vd vs1 vs2 sz) s = execVsub vd vs1 vs2 sz s := rfl
theorem exec_vmul (vd : BitVec 3) (vs1 : BitVec 3) (vs2 : BitVec 3) (sz : BitVec 2) : exec (.vmul vd vs1 vs2 sz) s = execVmul vd vs1 vs2 sz s := rfl
theorem exec_vfma (vd : BitVec 3) (vs1 : BitVec 3) (vs2 : BitVec 3) (sz : BitVec 2) : exec (.vfma vd vs1 vs2 sz) s = execVfma vd vs1 vs2 sz s := rfl
theorem exec_vmax (vd : BitVec 3) (vs1 : BitVec 3) (vs2 : BitVec 3) (sz : BitVec 2) : exec (.vmax vd vs1 vs2 sz) s = execVmax vd vs1 vs2 sz s := rfl
theorem exec_vmin (vd : BitVec 3) (vs1 : BitVec 3) (vs2 : BitVec 3) (sz : BitVec 2) : exec (.vmin vd vs1 vs2 sz) s = execVmin vd vs1 vs2 sz s := rfl
theorem exec_vabs (vd : BitVec 3) (vs1 : BitVec 3) (sz : BitVec 2) : exec (.vabs vd vs1 sz) s = execVabs vd vs1 sz s := rfl
theorem exec_vneg (vd : BitVec 3) (vs1 : BitVec 3) (sz : BitVec 2) : exec (.vneg vd vs1 sz) s = execVneg vd vs1 sz s := rfl
theorem exec_viadd (vd : BitVec 3) (vs1 : BitVec 3) (vs2 : BitVec 3) : exec (.viadd vd vs1 vs2) s = execViadd vd vs1 vs2 s := rfl
theorem exec_visub (vd : BitVec 3) (vs1 : BitVec 3) (vs2 : BitVec 3) : exec (.visub vd vs1 vs2) s = execVisub vd vs1 vs2 s := rfl
theorem exec_vimul (vd : BitVec 3) (vs1 : BitVec 3) (vs2 : BitVec 3) : exec (.vimul vd vs1 vs2) s = execVimul vd vs1 vs2 s := rfl
theorem exec_vand (vd : BitVec 3) (vs1 : BitVec 3) (vs2 : BitVec 3) : exec (.vand vd vs1 vs2) s = execVand vd vs1 vs2 s := rfl
theorem exec_vor (vd : BitVec 3) (vs1 : BitVec 3) (vs2 : BitVec 3) : exec (.vor vd vs1 vs2) s = execVor vd vs1 vs2 s := rfl
theorem exec_vxor (vd : BitVec 3) (vs1 : BitVec 3) (vs2 : BitVec 3) : exec (.vxor vd vs1 vs2) s = execVxor vd vs1 vs2 s := rfl
theorem exec_vshl (vd : BitVec 3) (vs1 : BitVec 3) (vs2 : BitVec 3) : exec (.vshl vd vs1 vs2) s = execVshl vd vs1 vs2 s := rfl
theorem exec_vshr (vd : BitVec 3) (vs1 : BitVec 3) (vs2 : BitVec 3) : exec (.vshr vd vs1 vs2) s = execVshr vd vs1 vs2 s := rfl
theorem exec_vsra (vd : BitVec 3) (vs1 : BitVec 3) (vs2 : BitVec 3) : exec (.vsra vd vs1 vs2) s = execVsra vd vs1 vs2 s := rfl
theorem exec_viadds (vd : BitVec 3) (vs1 : BitVec 3) (vs2 : BitVec 3) : exec (.viadds vd vs1 vs2) s = execViadds vd vs1 vs2 s := rfl
theorem exec_vcvt (vd : BitVec 3) (vs1 : BitVec 3) (part : BitVec 3) (sato : BitVec 1) (mode : BitVec 2) : exec (.vcvt vd vs1 part sato mode) s = execVcvt vd vs1 part sato mode s := rfl
theorem exec_vcvti (vd : BitVec 3) (vs1 : BitVec 3) (part : BitVec 3) (sato : BitVec 1) (mode : BitVec 2) : exec (.vcvti vd vs1 part sato mode) s = execVcvti vd vs1 part sato mode s := rfl
theorem exec_vcmpeq (vd : BitVec 3) (vs1 : BitVec 3) (vs2 : BitVec 3) (sz : BitVec 2) (code : BitVec 1) : exec (.vcmpeq vd vs1 vs2 sz code) s = execVcmpeq vd vs1 vs2 sz code s := rfl
theorem exec_vcmplt (vd : BitVec 3) (vs1 : BitVec 3) (vs2 : BitVec 3) (sz : BitVec 2) (code : BitVec 1) : exec (.vcmplt vd vs1 vs2 sz code) s = execVcmplt vd vs1 vs2 sz code s := rfl
theorem exec_vcmple (vd : BitVec 3) (vs1 : BitVec 3) (vs2 : BitVec 3) (sz : BitVec 2) (code : BitVec 1) : exec (.vcmple vd vs1 vs2 sz code) s = execVcmple vd vs1 vs2 sz code s := rfl
theorem exec_vsel (vd : BitVec 3) (vs1 : BitVec 3) (vs2 : BitVec 3) : exec (.vsel vd vs1 vs2) s = execVsel vd vs1 vs2 s := rfl
theorem exec_vbq (vs1 : BitVec 3) : exec (.vbq vs1) s = execVbq vs1 s := rfl
theorem exec_vsum (vd : BitVec 3) (vs1 : BitVec 3) (sz : BitVec 2) (code : BitVec 1) : exec (.vsum vd vs1 sz code) s = execVsum vd vs1 sz code s := rfl
theorem exec_vrmax (vd : BitVec 3) (vs1 : BitVec 3) (sz : BitVec 2) (code : BitVec 1) : exec (.vrmax vd vs1 sz code) s = execVrmax vd vs1 sz code s := rfl
theorem exec_vrmin (vd : BitVec 3) (vs1 : BitVec 3) (sz : BitVec 2) (code : BitVec 1) : exec (.vrmin vd vs1 sz code) s = execVrmin vd vs1 sz code s := rfl
theorem exec_vperm (vd : BitVec 3) (vs1 : BitVec 3) (vs2 : BitVec 3) (sz : BitVec 2) : exec (.vperm vd vs1 vs2 sz) s = execVperm vd vs1 vs2 sz s := rfl
theorem exec_vrot (vd : BitVec 3) (vs1 : BitVec 3) (xs : BitVec 5) (sz : BitVec 2) : exec (.vrot vd vs1 xs sz) s = execVrot vd vs1 xs sz s := rfl
theorem exec_vexp2 (vd : BitVec 3) (vs1 : BitVec 3) (sz : BitVec 2) : exec (.vexp2 vd vs1 sz) s = execVexp2 vd vs1 sz s := rfl
theorem exec_vrcp (vd : BitVec 3) (vs1 : BitVec 3) (sz : BitVec 2) : exec (.vrcp vd vs1 sz) s = execVrcp vd vs1 sz s := rfl
theorem exec_vrsq (vd : BitVec 3) (vs1 : BitVec 3) (sz : BitVec 2) : exec (.vrsq vd vs1 sz) s = execVrsq vd vs1 sz s := rfl
theorem exec_vlog2 (vd : BitVec 3) (vs1 : BitVec 3) (sz : BitVec 2) : exec (.vlog2 vd vs1 sz) s = execVlog2 vd vs1 sz s := rfl
theorem exec_vseed (vs1 : BitVec 3) : exec (.vseed vs1) s = execVseed vs1 s := rfl
theorem exec_lease : exec (.lease) s = execLease s := rfl
theorem exec_unlease : exec (.unlease) s = execUnlease s := rfl
theorem exec_ringdef (xs : BitVec 5) (ia : BitVec 2) : exec (.ringdef xs ia) s = execRingdef xs ia s := rfl
theorem exec_ringq (ia : BitVec 2) : exec (.ringq ia) s = execRingq ia s := rfl
theorem exec_ringadv (xs : BitVec 5) (ia : BitVec 2) : exec (.ringadv xs ia) s = execRingadv xs ia s := rfl
theorem exec_kmma (ia : BitVec 2) (ib : BitVec 2) (fa : BitVec 3) (fb : BitVec 3) (mode : BitVec 2) : exec (.kmma ia ib fa fb mode) s = execKmma ia ib fa fb mode s := rfl
theorem exec_kmmas (ia : BitVec 2) (ib : BitVec 2) (fa : BitVec 3) (fb : BitVec 3) (mode : BitVec 2) : exec (.kmmas ia ib fa fb mode) s = execKmmas ia ib fa fb mode s := rfl
theorem exec_kmmat (ia : BitVec 2) (ib : BitVec 2) (fa : BitVec 3) (fb : BitVec 3) (mode : BitVec 2) : exec (.kmmat ia ib fa fb mode) s = execKmmat ia ib fa fb mode s := rfl
theorem exec_kmman (ia : BitVec 2) (ib : BitVec 2) (fa : BitVec 3) (fb : BitVec 3) (mode : BitVec 2) : exec (.kmman ia ib fa fb mode) s = execKmman ia ib fa fb mode s := rfl
theorem exec_kzero : exec (.kzero) s = execKzero s := rfl
theorem exec_kld (xs : BitVec 5) : exec (.kld xs) s = execKld xs s := rfl
theorem exec_kst (xs : BitVec 5) : exec (.kst xs) s = execKst xs s := rfl
theorem exec_krow (vd : BitVec 3) (n : BitVec 6) : exec (.krow vd n) s = execKrow vd n s := rfl
theorem exec_kputrow (vs : BitVec 3) (n : BitVec 6) : exec (.kputrow vs n) s = execKputrow vs n s := rfl
theorem exec_keep (xs : BitVec 5) (ia : BitVec 2) (ib : BitVec 2) : exec (.keep xs ia ib) s = execKeep xs ia ib s := rfl
theorem exec_kscq (mode : BitVec 2) : exec (.kscq mode) s = execKscq mode s := rfl
theorem exec_kfac (n : BitVec 6) : exec (.kfac n) s = execKfac n s := rfl
theorem exec_ktrsl (vd : BitVec 3) (vs : BitVec 3) (n : BitVec 6) : exec (.ktrsl vd vs n) s = execKtrsl vd vs n s := rfl
theorem exec_ktrsu (vd : BitVec 3) (vs : BitVec 3) (n : BitVec 6) : exec (.ktrsu vd vs n) s = execKtrsu vd vs n s := rfl
theorem exec_kmv (vd : BitVec 3) (vs : BitVec 3) (n : BitVec 6) : exec (.kmv vd vs n) s = execKmv vd vs n s := rfl
theorem exec_kmvt (vd : BitVec 3) (vs : BitVec 3) (n : BitVec 6) : exec (.kmvt vd vs n) s = execKmvt vd vs n s := rfl
theorem exec_kdiag (xs : BitVec 5) (n : BitVec 6) : exec (.kdiag xs n) s = execKdiag xs n s := rfl
theorem exec_kchkq (mode : BitVec 2) : exec (.kchkq mode) s = execKchkq mode s := rfl
theorem exec_kflg (xs : BitVec 5) (mode : BitVec 2) : exec (.kflg xs mode) s = execKflg xs mode s := rfl
theorem exec_powerOnBoot (ok : Bool) : exec (.powerOnBoot ok) s = execPowerOnBoot ok s := rfl
theorem exec_setchip : exec (.setchip) s = execSetchip s := rfl
theorem exec_run : exec (.run) s = execRun s := rfl
theorem exec_fkeyw : exec (.fkeyw) s = execFkeyw s := rfl
theorem exec_mkeyw : exec (.mkeyw) s = execMkeyw s := rfl
theorem exec_attest : exec (.attest) s = execAttest s := rfl
theorem exec_enqueue (vf port : Nat) (bytes : List (BitVec 8)) : exec (.enqueue vf port bytes) s = execEnqueue vf port bytes s := rfl
theorem exec_queuePortOtherAccess (a : PortAccess) : exec (.queuePortOtherAccess a) s = execQueuePortOtherAccess a s := rfl
theorem exec_dispatcherResolve (die : Nat) : exec (.dispatcherResolve die) s = execDispatcherResolve die s := rfl
theorem exec_dispatcherDelivery (die : Nat) : exec (.dispatcherDelivery die) s = execDispatcherDelivery die s := rfl
theorem exec_occupancyReport (cluster : Nat) : exec (.occupancyReport cluster) s = execOccupancyReport cluster s := rfl
theorem exec_pushFrame (ep : Nat) : exec (.pushFrame ep) s = execPushFrame ep s := rfl
theorem exec_boundaryTrap (ep : Nat) : exec (.boundaryTrap ep) s = execBoundaryTrap ep s := rfl
theorem exec_deadlineExpiry (ep : Nat) : exec (.deadlineExpiry ep) s = execDeadlineExpiry ep s := rfl
theorem exec_replyFill (ep : Nat) : exec (.replyFill ep) s = execReplyFill ep s := rfl
theorem exec_oneResultFill (cluster : Nat) : exec (.oneResultFill cluster) s = execOneResultFill cluster s := rfl
theorem exec_alignTimeout (ep : Nat) : exec (.alignTimeout ep) s = execAlignTimeout ep s := rfl
theorem exec_bankRetention (ep bank : Nat) : exec (.bankRetention ep bank) s = execBankRetention ep bank s := rfl
theorem exec_kilnVectorIssue (quad : Nat) : exec (.kilnVectorIssue quad) s = execKilnVectorIssue quad s := rfl
theorem exec_leaseGrant (quad : Nat) : exec (.leaseGrant quad) s = execLeaseGrant quad s := rfl
theorem exec_matrixCommandIssue (quad : Nat) : exec (.matrixCommandIssue quad) s = execMatrixCommandIssue quad s := rfl
theorem exec_kilnCommandRetire (quad : Nat) : exec (.kilnCommandRetire quad) s = execKilnCommandRetire quad s := rfl
theorem exec_solveStepComplete (quad : Nat) : exec (.solveStepComplete quad) s = execSolveStepComplete quad s := rfl
theorem exec_scaleFrameDelivery (quad : Nat) : exec (.scaleFrameDelivery quad) s = execScaleFrameDelivery quad s := rfl
theorem exec_kilnGate (quad : Nat) (matrix : Bool) : exec (.kilnGate quad matrix) s = execKilnGate quad matrix s := rfl
theorem exec_gapMeasurement (draw : Nat) : exec (.gapMeasurement draw) s = execGapMeasurement draw s := rfl
theorem exec_coneReplan (cluster band : Nat) (out : Bool) : exec (.coneReplan cluster band out) s = execConeReplan cluster band out s := rfl
theorem exec_dramScrub (stack : Nat) : exec (.dramScrub stack) s = execDramScrub stack s := rfl
theorem exec_errctlWrite (v : BitVec 64) : exec (.errctlWrite v) s = execErrctlWrite v s := rfl
theorem exec_checkpointTimer (ep : Nat) : exec (.checkpointTimer ep) s = execCheckpointTimer ep s := rfl
theorem exec_compaction (home : Nat) : exec (.compaction home) s = execCompaction home s := rfl
theorem exec_recordAcknowledgement (ep : Nat) : exec (.recordAcknowledgement ep) s = execRecordAcknowledgement ep s := rfl
theorem exec_staleNote (ep : Nat) : exec (.staleNote ep) s = execStaleNote ep s := rfl
theorem exec_invalidation (ep : Nat) : exec (.invalidation ep) s = execInvalidation ep s := rfl
theorem exec_directoryPortSendNote (slice target : Nat) : exec (.directoryPortSendNote slice target) s = execDirectoryPortSendNote slice target s := rfl
theorem exec_directoryPortSendInvalidation (slice target : Nat) : exec (.directoryPortSendInvalidation slice target) s = execDirectoryPortSendInvalidation slice target s := rfl
theorem exec_acquireQuery (ep : Nat) : exec (.acquireQuery ep) s = execAcquireQuery ep s := rfl
theorem exec_acquireAnswer (ep : Nat) : exec (.acquireAnswer ep) s = execAcquireAnswer ep s := rfl
theorem exec_acquireComplete (ep : Nat) : exec (.acquireComplete ep) s = execAcquireComplete ep s := rfl
theorem exec_vhRefresh (vdev : Nat) : exec (.vhRefresh vdev) s = execVhRefresh vdev s := rfl
theorem exec_vhRefreshComplete (vdev : Nat) : exec (.vhRefreshComplete vdev) s = execVhRefreshComplete vdev s := rfl
theorem exec_fillAtHome (home : Nat) : exec (.fillAtHome home) s = execFillAtHome home s := rfl
theorem exec_writeBackGrant (home : Nat) : exec (.writeBackGrant home) s = execWriteBackGrant home s := rfl
theorem exec_fillReply (ep : Nat) : exec (.fillReply ep) s = execFillReply ep s := rfl
theorem exec_atomAtHome (home : Nat) : exec (.atomAtHome home) s = execAtomAtHome home s := rfl
theorem exec_reductionAtHome (home : Nat) : exec (.reductionAtHome home) s = execReductionAtHome home s := rfl
theorem exec_remoteLoadAtTarget (ep : Nat) : exec (.remoteLoadAtTarget ep) s = execRemoteLoadAtTarget ep s := rfl
theorem exec_scratchpadRemoteAccess (ep : Nat) : exec (.scratchpadRemoteAccess ep) s = execScratchpadRemoteAccess ep s := rfl
theorem exec_chunkIssue (cluster : Nat) : exec (.chunkIssue cluster) s = execChunkIssue cluster s := rfl
theorem exec_chunkLanding (target : Nat) : exec (.chunkLanding target) s = execChunkLanding target s := rfl
theorem exec_chunkAcknowledgement (cluster : Nat) : exec (.chunkAcknowledgement cluster) s = execChunkAcknowledgement cluster s := rfl
theorem exec_stampPacket (home : Nat) : exec (.stampPacket home) s = execStampPacket home s := rfl
theorem exec_copyCompletion (cluster : Nat) : exec (.copyCompletion cluster) s = execCopyCompletion cluster s := rfl
theorem exec_postArrival (ep : Nat) : exec (.postArrival ep) s = execPostArrival ep s := rfl
theorem exec_postStatus (ep : Nat) : exec (.postStatus ep) s = execPostStatus ep s := rfl
theorem exec_arbiterGrant (kind unit : Nat) : exec (.arbiterGrant kind unit) s = execArbiterGrant kind unit s := rfl
theorem exec_niDelivery (ep : Nat) : exec (.niDelivery ep) s = execNiDelivery ep s := rfl
theorem exec_skipNotice (src dst seq : Nat) : exec (.skipNotice src dst seq) s = execSkipNotice src dst seq s := rfl
theorem exec_refusalAtSender (ep : Nat) : exec (.refusalAtSender ep) s = execRefusalAtSender ep s := rfl
theorem exec_sluiceEgress (port : Nat) : exec (.sluiceEgress port) s = execSluiceEgress port s := rfl
theorem exec_sluiceIngress (port : Nat) (tagOk : Bool) : exec (.sluiceIngress port tagOk) s = execSluiceIngress port tagOk s := rfl
theorem exec_linkFrameResend (port : Nat) : exec (.linkFrameResend port) s = execLinkFrameResend port s := rfl
theorem exec_portDown (port : Nat) : exec (.portDown port) s = execPortDown port s := rfl
theorem exec_barrierNotice (ep : Nat) : exec (.barrierNotice ep) s = execBarrierNotice ep s := rfl
theorem exec_abortNotice (ep : Nat) : exec (.abortNotice ep) s = execAbortNotice ep s := rfl
theorem exec_carveOutApply (ep : Nat) : exec (.carveOutApply ep) s = execCarveOutApply ep s := rfl
theorem exec_sliceEnd (sag : Nat) : exec (.sliceEnd sag) s = execSliceEnd sag s := rfl
theorem exec_sliceEarlyEnd (sag : Nat) : exec (.sliceEarlyEnd sag) s = execSliceEarlyEnd sag s := rfl
theorem exec_launch (vdev : Nat) : exec (.launch vdev) s = execLaunch vdev s := rfl
theorem exec_reset (vdev : Nat) : exec (.reset vdev) s = execReset vdev s := rfl
theorem exec_teardown (vdev : Nat) : exec (.teardown vdev) s = execTeardown vdev s := rfl
theorem exec_resetScan (vdev : Nat) : exec (.resetScan vdev) s = execResetScan vdev s := rfl
theorem exec_quietMarker (port : Nat) : exec (.quietMarker port) s = execQuietMarker port s := rfl
theorem exec_quietAnswer (vdev port : Nat) : exec (.quietAnswer vdev port) s = execQuietAnswer vdev port s := rfl
theorem exec_quietHandshakeTimeout (vdev : Nat) : exec (.quietHandshakeTimeout vdev) s = execQuietHandshakeTimeout vdev s := rfl
theorem exec_genRefundNotice (port vdev cls flits : Nat) : exec (.genRefundNotice port vdev cls flits) s = execGenRefundNotice port vdev cls flits s := rfl
theorem exec_saggarContainment (sag : Nat) : exec (.saggarContainment sag) s = execSaggarContainment sag s := rfl
theorem exec_fenceFall (sag : Nat) : exec (.fenceFall sag) s = execFenceFall sag s := rfl
theorem exec_atsResponse (id : Nat) (hpa : Option Nat) (perm : BitVec 3) : exec (.atsResponse id hpa perm) s = execAtsResponse id hpa perm s := rfl
theorem exec_pageResponse (grp code : Nat) : exec (.pageResponse grp code) s = execPageResponse grp code s := rfl
theorem exec_atsInvalidation (vdev va : Nat) : exec (.atsInvalidation vdev va) s = execAtsInvalidation vdev va s := rfl
theorem exec_hostCxlMemRead (addr n : Nat) : exec (.hostCxlMemRead addr n) s = execHostCxlMemRead addr n s := rfl
theorem exec_hostCxlMemWrite (addr : Nat) (bytes : List (BitVec 8)) (poison : Bool) : exec (.hostCxlMemWrite addr bytes poison) s = execHostCxlMemWrite addr bytes poison s := rfl
theorem exec_teamstgWrite (v : BitVec 64) : exec (.teamstgWrite v) s = execTeamstgWrite v s := rfl
theorem exec_ktolKfloorWrite (csr : BitVec 12) (v : BitVec 64) : exec (.ktolKfloorWrite csr v) s = execKtolKfloorWrite csr v s := rfl
theorem exec_succCsrWrite (v : BitVec 64) : exec (.succCsrWrite v) s = execSuccCsrWrite v s := rfl
theorem exec_tbctlWithdraw : exec (.tbctlWithdraw) s = execTbctlWithdraw s := rfl
theorem exec_gbstatWithdraw : exec (.gbstatWithdraw) s = execGbstatWithdraw s := rfl
theorem exec_bkcfgWrite (v : BitVec 64) : exec (.bkcfgWrite v) s = execBkcfgWrite v s := rfl
theorem exec_sgrectWrite (v : BitVec 64) : exec (.sgrectWrite v) s = execSgrectWrite v s := rfl
theorem exec_registerWrite (csr : BitVec 12) (v : BitVec 64) : exec (.registerWrite csr v) s = execRegisterWrite csr v s := rfl
theorem exec_illegalInstructionWord (w : BitVec 32) : exec (.illegalInstructionWord w) s = execIllegalInstructionWord w s := rfl
theorem exec_instructionFetchFault (addr : BitVec 64) : exec (.instructionFetchFault addr) s = execInstructionFetchFault addr s := rfl
theorem exec_leaseGrantTermExpiry (quad : Nat) : exec (.leaseGrantTermExpiry quad) s = execLeaseGrantTermExpiry quad s := rfl
theorem exec_cxlCacheHostSnoop (addr : Nat) (k : Snoop) : exec (.cxlCacheHostSnoop addr k) s = execCxlCacheHostSnoop addr k s := rfl

end Sys2Proof.Machine
end

