-- ==== Sys2Proof/Laws/State.lean ====
section
/-! SUPPORT. Lemmas of tables, of the accessors of State, and of what comes before and after an instruction's own
effect. -/

namespace Sys2Proof.Machine

/-! ### Tables -/

@[simp] theorem tfind_tset_same {α : Type} (t : Tbl α) (k : Nat) (v : α) : tfind (tset t k v) k = some v := by
  induction t with
  | nil => simp [tset, tfind]
  | cons e t ih =>
    obtain ⟨k', v'⟩ := e
    simp only [tset]
    split
    · simp [tfind]
    · split
      · simp [tfind]
      · simp [tfind, *]

theorem tfind_tset_other {α : Type} (t : Tbl α) (k j : Nat) (v : α) (h : j ≠ k) :
    tfind (tset t k v) j = tfind t j := by
  induction t with
  | nil => simp [tset, tfind, h]
  | cons e t ih =>
    obtain ⟨k', v'⟩ := e
    simp only [tset]
    split
    · simp [tfind, h]
    · split
      · rename_i h2; subst h2; simp [tfind, h]
      · simp only [tfind, ih]

@[simp] theorem tget_tset_same {α : Type} (t : Tbl α) (k : Nat) (v d : α) : tget (tset t k v) k d = v := by simp [tget]

theorem tget_tset_other {α : Type} (t : Tbl α) (k j : Nat) (v d : α) (h : j ≠ k) :
    tget (tset t k v) j d = tget t j d := by simp [tget, tfind_tset_other _ _ _ _ h]

@[simp] theorem tset_tset {α : Type} (t : Tbl α) (k : Nat) (v w : α) : tset (tset t k v) k w = tset t k w := by
  induction t with
  | nil => simp [tset]
  | cons e t ih =>
    obtain ⟨k', v'⟩ := e
    by_cases h1 : k < k'
    · simp [tset, h1]
    · by_cases h2 : k = k'
      · simp [tset, h2]
      · simp [tset, h1, h2, ih]

/-! ### Cores -/

@[simp] theorem core_setCore (s : State) (ep : Nat) (c : Core) : (s.setCore ep c).core ep = c := by
  simp [State.core, State.setCore]
theorem core_setCore_other (s : State) (ep e : Nat) (c : Core) (h : e ≠ ep) : (s.setCore ep c).core e = s.core e := by
  simp [State.core, State.setCore, tget_tset_other _ _ _ _ _ h]
@[simp] theorem setCore_setCore (s : State) (ep : Nat) (c d : Core) : (s.setCore ep c).setCore ep d = s.setCore ep d := by
  simp [State.setCore]
@[simp] theorem setCore_cur (s : State) (ep : Nat) (c : Core) : (s.setCore ep c).cur = s.cur := rfl
@[simp] theorem setCore_now (s : State) (ep : Nat) (c : Core) : (s.setCore ep c).now = s.now := rfl
@[simp] theorem setCore_mem (s : State) (ep : Nat) (c : Core) : (s.setCore ep c).mem = s.mem := rfl
@[simp] theorem onCore_core (s : State) (ep : Nat) (f : Core → Core) : (s.onCore ep f).core ep = f (s.core ep) := by
  simp [State.onCore]
@[simp] theorem onCore_cur (s : State) (ep : Nat) (f : Core → Core) : (s.onCore ep f).cur = s.cur := rfl
@[simp] theorem onCore_now (s : State) (ep : Nat) (f : Core → Core) : (s.onCore ep f).now = s.now := rfl
@[simp] theorem onCore_mem (s : State) (ep : Nat) (f : Core → Core) : (s.onCore ep f).mem = s.mem := rfl
@[simp] theorem onMe_cur (s : State) (f : Core → Core) : (s.onMe f).cur = s.cur := rfl
@[simp] theorem onMe_me (s : State) (f : Core → Core) : (s.onMe f).me = f s.me := by
  simp [State.onMe, State.me]
@[simp] theorem onMe_frame (s : State) (f : Core → Core) : (s.onMe f).frame = (f s.me).run := by simp [State.frame]
@[simp] theorem onFrame_me (s : State) (f : Frame → Frame) : (s.onFrame f).me = { s.me with run := f s.me.run } := by
  simp [State.onFrame]
@[simp] theorem onFrame_frame (s : State) (f : Frame → Frame) : (s.onFrame f).frame = f s.frame := by simp [State.frame]
@[simp] theorem onFrame_cur (s : State) (f : Frame → Frame) : (s.onFrame f).cur = s.cur := rfl
@[simp] theorem setX_frame (s : State) (r : XReg) (v : Word) : (s.setX r v).frame = s.frame.setX r v := by
  simp [State.setX]
@[simp] theorem setX_cur (s : State) (r : XReg) (v : Word) : (s.setX r v).cur = s.cur := rfl
@[simp] theorem tick_cur (s : State) (n : Nat) : (s.tick n).cur = s.cur := rfl
@[simp] theorem tick_me (s : State) (n : Nat) : (s.tick n).me = s.me := rfl
@[simp] theorem tick_frame (s : State) (n : Nat) : (s.tick n).frame = s.frame := rfl
@[simp] theorem tick_core (s : State) (n ep : Nat) : (s.tick n).core ep = s.core ep := rfl
@[simp] theorem tick_mem (s : State) (n : Nat) : (s.tick n).mem = s.mem := rfl
@[simp] theorem tick_now (s : State) (n : Nat) : (s.tick n).now = s.now + n := rfl
@[simp] theorem setCore_me (s : State) (c : Core) : (s.setCore s.cur c).me = c := by simp [State.me]

/-! ### Each field under the updates of one core, cluster, kiln, virtual device or saggar, and as time passes -/

@[simp] theorem setCore_clusters (s : State) (ep : Nat) (c : Core) : (s.setCore ep c).clusters = s.clusters := rfl
@[simp] theorem setCore_kilns (s : State) (ep : Nat) (c : Core) : (s.setCore ep c).kilns = s.kilns := rfl
@[simp] theorem setCore_l2 (s : State) (ep : Nat) (c : Core) : (s.setCore ep c).l2 = s.l2 := rfl
@[simp] theorem setCore_wb (s : State) (ep : Nat) (c : Core) : (s.setCore ep c).wb = s.wb := rfl
@[simp] theorem setCore_latches (s : State) (ep : Nat) (c : Core) : (s.setCore ep c).latches = s.latches := rfl
@[simp] theorem setCore_ackw (s : State) (ep : Nat) (c : Core) : (s.setCore ep c).ackw = s.ackw := rfl
@[simp] theorem setCore_held (s : State) (ep : Nat) (c : Core) : (s.setCore ep c).held = s.held := rfl
@[simp] theorem setCore_lcnt (s : State) (ep : Nat) (c : Core) : (s.setCore ep c).lcnt = s.lcnt := rfl
@[simp] theorem setCore_memKey (s : State) (ep : Nat) (c : Core) : (s.setCore ep c).memKey = s.memKey := rfl
@[simp] theorem setCore_poison (s : State) (ep : Nat) (c : Core) : (s.setCore ep c).poison = s.poison := rfl
@[simp] theorem setCore_ecc (s : State) (ep : Nat) (c : Core) : (s.setCore ep c).ecc = s.ecc := rfl
@[simp] theorem setCore_stamps (s : State) (ep : Nat) (c : Core) : (s.setCore ep c).stamps = s.stamps := rfl
@[simp] theorem setCore_landing (s : State) (ep : Nat) (c : Core) : (s.setCore ep c).landing = s.landing := rfl
@[simp] theorem setCore_mmio (s : State) (ep : Nat) (c : Core) : (s.setCore ep c).mmio = s.mmio := rfl
@[simp] theorem setCore_fkeys (s : State) (ep : Nat) (c : Core) : (s.setCore ep c).fkeys = s.fkeys := rfl
@[simp] theorem setCore_mkeys (s : State) (ep : Nat) (c : Core) : (s.setCore ep c).mkeys = s.mkeys := rfl
@[simp] theorem setCore_nm (s : State) (ep : Nat) (c : Core) : (s.setCore ep c).nm = s.nm := rfl
@[simp] theorem setCore_chip (s : State) (ep : Nat) (c : Core) : (s.setCore ep c).chip = s.chip := rfl
@[simp] theorem setCore_vdevs (s : State) (ep : Nat) (c : Core) : (s.setCore ep c).vdevs = s.vdevs := rfl
@[simp] theorem setCore_sags (s : State) (ep : Nat) (c : Core) : (s.setCore ep c).sags = s.sags := rfl
@[simp] theorem setCore_arbs (s : State) (ep : Nat) (c : Core) : (s.setCore ep c).arbs = s.arbs := rfl
@[simp] theorem setCore_disps (s : State) (ep : Nat) (c : Core) : (s.setCore ep c).disps = s.disps := rfl
@[simp] theorem setCore_egress (s : State) (ep : Nat) (c : Core) : (s.setCore ep c).egress = s.egress := rfl
@[simp] theorem setCore_net (s : State) (ep : Nat) (c : Core) : (s.setCore ep c).net = s.net := rfl
@[simp] theorem setCore_inbox (s : State) (ep : Nat) (c : Core) : (s.setCore ep c).inbox = s.inbox := rfl
@[simp] theorem setCore_sseqOut (s : State) (ep : Nat) (c : Core) : (s.setCore ep c).sseqOut = s.sseqOut := rfl
@[simp] theorem setCore_sseqIn (s : State) (ep : Nat) (c : Core) : (s.setCore ep c).sseqIn = s.sseqIn := rfl
@[simp] theorem setCore_skipped (s : State) (ep : Nat) (c : Core) : (s.setCore ep c).skipped = s.skipped := rfl
@[simp] theorem setCore_sluices (s : State) (ep : Nat) (c : Core) : (s.setCore ep c).sluices = s.sluices := rfl
@[simp] theorem setCore_linkOut (s : State) (ep : Nat) (c : Core) : (s.setCore ep c).linkOut = s.linkOut := rfl
@[simp] theorem setCore_linkIn (s : State) (ep : Nat) (c : Core) : (s.setCore ep c).linkIn = s.linkIn := rfl
@[simp] theorem setCore_hostOut (s : State) (ep : Nat) (c : Core) : (s.setCore ep c).hostOut = s.hostOut := rfl
@[simp] theorem setCore_pages (s : State) (ep : Nat) (c : Core) : (s.setCore ep c).pages = s.pages := rfl
@[simp] theorem setCore_ats (s : State) (ep : Nat) (c : Core) : (s.setCore ep c).ats = s.ats := rfl
@[simp] theorem setCore_shared (s : State) (ep : Nat) (c : Core) : (s.setCore ep c).shared = s.shared := rfl
@[simp] theorem setCore_dropped (s : State) (ep : Nat) (c : Core) : (s.setCore ep c).dropped = s.dropped := rfl
@[simp] theorem setCore_nextLock (s : State) (ep : Nat) (c : Core) : (s.setCore ep c).nextLock = s.nextLock := rfl
@[simp] theorem setCore_fresh (s : State) (ep : Nat) (c : Core) : (s.setCore ep c).fresh = s.fresh := rfl
@[simp] theorem setCore_farSpads (s : State) (ep : Nat) (c : Core) : (s.setCore ep c).farSpads = s.farSpads := rfl
@[simp] theorem setCore_farTabs (s : State) (ep : Nat) (c : Core) : (s.setCore ep c).farTabs = s.farTabs := rfl
@[simp] theorem setCore_phase (s : State) (ep : Nat) (c : Core) : (s.setCore ep c).phase = s.phase := rfl
@[simp] theorem setCore_phaseAt (s : State) (ep : Nat) (c : Core) : (s.setCore ep c).phaseAt = s.phaseAt := rfl
@[simp] theorem setCore_agenda (s : State) (ep : Nat) (c : Core) : (s.setCore ep c).agenda = s.agenda := rfl

@[simp] theorem onCluster_cores (s : State) (k : Nat) (f : Cluster → Cluster) : (s.onCluster k f).cores = s.cores := rfl
@[simp] theorem onCluster_kilns (s : State) (k : Nat) (f : Cluster → Cluster) : (s.onCluster k f).kilns = s.kilns := rfl
@[simp] theorem onCluster_l2 (s : State) (k : Nat) (f : Cluster → Cluster) : (s.onCluster k f).l2 = s.l2 := rfl
@[simp] theorem onCluster_wb (s : State) (k : Nat) (f : Cluster → Cluster) : (s.onCluster k f).wb = s.wb := rfl
@[simp] theorem onCluster_latches (s : State) (k : Nat) (f : Cluster → Cluster) : (s.onCluster k f).latches = s.latches := rfl
@[simp] theorem onCluster_ackw (s : State) (k : Nat) (f : Cluster → Cluster) : (s.onCluster k f).ackw = s.ackw := rfl
@[simp] theorem onCluster_held (s : State) (k : Nat) (f : Cluster → Cluster) : (s.onCluster k f).held = s.held := rfl
@[simp] theorem onCluster_lcnt (s : State) (k : Nat) (f : Cluster → Cluster) : (s.onCluster k f).lcnt = s.lcnt := rfl
@[simp] theorem onCluster_mem (s : State) (k : Nat) (f : Cluster → Cluster) : (s.onCluster k f).mem = s.mem := rfl
@[simp] theorem onCluster_memKey (s : State) (k : Nat) (f : Cluster → Cluster) : (s.onCluster k f).memKey = s.memKey := rfl
@[simp] theorem onCluster_poison (s : State) (k : Nat) (f : Cluster → Cluster) : (s.onCluster k f).poison = s.poison := rfl
@[simp] theorem onCluster_ecc (s : State) (k : Nat) (f : Cluster → Cluster) : (s.onCluster k f).ecc = s.ecc := rfl
@[simp] theorem onCluster_stamps (s : State) (k : Nat) (f : Cluster → Cluster) : (s.onCluster k f).stamps = s.stamps := rfl
@[simp] theorem onCluster_landing (s : State) (k : Nat) (f : Cluster → Cluster) : (s.onCluster k f).landing = s.landing := rfl
@[simp] theorem onCluster_mmio (s : State) (k : Nat) (f : Cluster → Cluster) : (s.onCluster k f).mmio = s.mmio := rfl
@[simp] theorem onCluster_fkeys (s : State) (k : Nat) (f : Cluster → Cluster) : (s.onCluster k f).fkeys = s.fkeys := rfl
@[simp] theorem onCluster_mkeys (s : State) (k : Nat) (f : Cluster → Cluster) : (s.onCluster k f).mkeys = s.mkeys := rfl
@[simp] theorem onCluster_nm (s : State) (k : Nat) (f : Cluster → Cluster) : (s.onCluster k f).nm = s.nm := rfl
@[simp] theorem onCluster_chip (s : State) (k : Nat) (f : Cluster → Cluster) : (s.onCluster k f).chip = s.chip := rfl
@[simp] theorem onCluster_vdevs (s : State) (k : Nat) (f : Cluster → Cluster) : (s.onCluster k f).vdevs = s.vdevs := rfl
@[simp] theorem onCluster_sags (s : State) (k : Nat) (f : Cluster → Cluster) : (s.onCluster k f).sags = s.sags := rfl
@[simp] theorem onCluster_arbs (s : State) (k : Nat) (f : Cluster → Cluster) : (s.onCluster k f).arbs = s.arbs := rfl
@[simp] theorem onCluster_disps (s : State) (k : Nat) (f : Cluster → Cluster) : (s.onCluster k f).disps = s.disps := rfl
@[simp] theorem onCluster_egress (s : State) (k : Nat) (f : Cluster → Cluster) : (s.onCluster k f).egress = s.egress := rfl
@[simp] theorem onCluster_net (s : State) (k : Nat) (f : Cluster → Cluster) : (s.onCluster k f).net = s.net := rfl
@[simp] theorem onCluster_inbox (s : State) (k : Nat) (f : Cluster → Cluster) : (s.onCluster k f).inbox = s.inbox := rfl
@[simp] theorem onCluster_sseqOut (s : State) (k : Nat) (f : Cluster → Cluster) : (s.onCluster k f).sseqOut = s.sseqOut := rfl
@[simp] theorem onCluster_sseqIn (s : State) (k : Nat) (f : Cluster → Cluster) : (s.onCluster k f).sseqIn = s.sseqIn := rfl
@[simp] theorem onCluster_skipped (s : State) (k : Nat) (f : Cluster → Cluster) : (s.onCluster k f).skipped = s.skipped := rfl
@[simp] theorem onCluster_sluices (s : State) (k : Nat) (f : Cluster → Cluster) : (s.onCluster k f).sluices = s.sluices := rfl
@[simp] theorem onCluster_linkOut (s : State) (k : Nat) (f : Cluster → Cluster) : (s.onCluster k f).linkOut = s.linkOut := rfl
@[simp] theorem onCluster_linkIn (s : State) (k : Nat) (f : Cluster → Cluster) : (s.onCluster k f).linkIn = s.linkIn := rfl
@[simp] theorem onCluster_hostOut (s : State) (k : Nat) (f : Cluster → Cluster) : (s.onCluster k f).hostOut = s.hostOut := rfl
@[simp] theorem onCluster_pages (s : State) (k : Nat) (f : Cluster → Cluster) : (s.onCluster k f).pages = s.pages := rfl
@[simp] theorem onCluster_ats (s : State) (k : Nat) (f : Cluster → Cluster) : (s.onCluster k f).ats = s.ats := rfl
@[simp] theorem onCluster_shared (s : State) (k : Nat) (f : Cluster → Cluster) : (s.onCluster k f).shared = s.shared := rfl
@[simp] theorem onCluster_dropped (s : State) (k : Nat) (f : Cluster → Cluster) : (s.onCluster k f).dropped = s.dropped := rfl
@[simp] theorem onCluster_nextLock (s : State) (k : Nat) (f : Cluster → Cluster) : (s.onCluster k f).nextLock = s.nextLock := rfl
@[simp] theorem onCluster_fresh (s : State) (k : Nat) (f : Cluster → Cluster) : (s.onCluster k f).fresh = s.fresh := rfl
@[simp] theorem onCluster_farSpads (s : State) (k : Nat) (f : Cluster → Cluster) : (s.onCluster k f).farSpads = s.farSpads := rfl
@[simp] theorem onCluster_farTabs (s : State) (k : Nat) (f : Cluster → Cluster) : (s.onCluster k f).farTabs = s.farTabs := rfl
@[simp] theorem onCluster_phase (s : State) (k : Nat) (f : Cluster → Cluster) : (s.onCluster k f).phase = s.phase := rfl
@[simp] theorem onCluster_phaseAt (s : State) (k : Nat) (f : Cluster → Cluster) : (s.onCluster k f).phaseAt = s.phaseAt := rfl
@[simp] theorem onCluster_agenda (s : State) (k : Nat) (f : Cluster → Cluster) : (s.onCluster k f).agenda = s.agenda := rfl
@[simp] theorem onCluster_cur (s : State) (k : Nat) (f : Cluster → Cluster) : (s.onCluster k f).cur = s.cur := rfl
@[simp] theorem onCluster_now (s : State) (k : Nat) (f : Cluster → Cluster) : (s.onCluster k f).now = s.now := rfl

@[simp] theorem onKiln_cores (s : State) (q : Nat) (f : Kiln → Kiln) : (s.onKiln q f).cores = s.cores := rfl
@[simp] theorem onKiln_clusters (s : State) (q : Nat) (f : Kiln → Kiln) : (s.onKiln q f).clusters = s.clusters := rfl
@[simp] theorem onKiln_l2 (s : State) (q : Nat) (f : Kiln → Kiln) : (s.onKiln q f).l2 = s.l2 := rfl
@[simp] theorem onKiln_wb (s : State) (q : Nat) (f : Kiln → Kiln) : (s.onKiln q f).wb = s.wb := rfl
@[simp] theorem onKiln_latches (s : State) (q : Nat) (f : Kiln → Kiln) : (s.onKiln q f).latches = s.latches := rfl
@[simp] theorem onKiln_ackw (s : State) (q : Nat) (f : Kiln → Kiln) : (s.onKiln q f).ackw = s.ackw := rfl
@[simp] theorem onKiln_held (s : State) (q : Nat) (f : Kiln → Kiln) : (s.onKiln q f).held = s.held := rfl
@[simp] theorem onKiln_lcnt (s : State) (q : Nat) (f : Kiln → Kiln) : (s.onKiln q f).lcnt = s.lcnt := rfl
@[simp] theorem onKiln_mem (s : State) (q : Nat) (f : Kiln → Kiln) : (s.onKiln q f).mem = s.mem := rfl
@[simp] theorem onKiln_memKey (s : State) (q : Nat) (f : Kiln → Kiln) : (s.onKiln q f).memKey = s.memKey := rfl
@[simp] theorem onKiln_poison (s : State) (q : Nat) (f : Kiln → Kiln) : (s.onKiln q f).poison = s.poison := rfl
@[simp] theorem onKiln_ecc (s : State) (q : Nat) (f : Kiln → Kiln) : (s.onKiln q f).ecc = s.ecc := rfl
@[simp] theorem onKiln_stamps (s : State) (q : Nat) (f : Kiln → Kiln) : (s.onKiln q f).stamps = s.stamps := rfl
@[simp] theorem onKiln_landing (s : State) (q : Nat) (f : Kiln → Kiln) : (s.onKiln q f).landing = s.landing := rfl
@[simp] theorem onKiln_mmio (s : State) (q : Nat) (f : Kiln → Kiln) : (s.onKiln q f).mmio = s.mmio := rfl
@[simp] theorem onKiln_fkeys (s : State) (q : Nat) (f : Kiln → Kiln) : (s.onKiln q f).fkeys = s.fkeys := rfl
@[simp] theorem onKiln_mkeys (s : State) (q : Nat) (f : Kiln → Kiln) : (s.onKiln q f).mkeys = s.mkeys := rfl
@[simp] theorem onKiln_nm (s : State) (q : Nat) (f : Kiln → Kiln) : (s.onKiln q f).nm = s.nm := rfl
@[simp] theorem onKiln_chip (s : State) (q : Nat) (f : Kiln → Kiln) : (s.onKiln q f).chip = s.chip := rfl
@[simp] theorem onKiln_vdevs (s : State) (q : Nat) (f : Kiln → Kiln) : (s.onKiln q f).vdevs = s.vdevs := rfl
@[simp] theorem onKiln_sags (s : State) (q : Nat) (f : Kiln → Kiln) : (s.onKiln q f).sags = s.sags := rfl
@[simp] theorem onKiln_arbs (s : State) (q : Nat) (f : Kiln → Kiln) : (s.onKiln q f).arbs = s.arbs := rfl
@[simp] theorem onKiln_disps (s : State) (q : Nat) (f : Kiln → Kiln) : (s.onKiln q f).disps = s.disps := rfl
@[simp] theorem onKiln_egress (s : State) (q : Nat) (f : Kiln → Kiln) : (s.onKiln q f).egress = s.egress := rfl
@[simp] theorem onKiln_net (s : State) (q : Nat) (f : Kiln → Kiln) : (s.onKiln q f).net = s.net := rfl
@[simp] theorem onKiln_inbox (s : State) (q : Nat) (f : Kiln → Kiln) : (s.onKiln q f).inbox = s.inbox := rfl
@[simp] theorem onKiln_sseqOut (s : State) (q : Nat) (f : Kiln → Kiln) : (s.onKiln q f).sseqOut = s.sseqOut := rfl
@[simp] theorem onKiln_sseqIn (s : State) (q : Nat) (f : Kiln → Kiln) : (s.onKiln q f).sseqIn = s.sseqIn := rfl
@[simp] theorem onKiln_skipped (s : State) (q : Nat) (f : Kiln → Kiln) : (s.onKiln q f).skipped = s.skipped := rfl
@[simp] theorem onKiln_sluices (s : State) (q : Nat) (f : Kiln → Kiln) : (s.onKiln q f).sluices = s.sluices := rfl
@[simp] theorem onKiln_linkOut (s : State) (q : Nat) (f : Kiln → Kiln) : (s.onKiln q f).linkOut = s.linkOut := rfl
@[simp] theorem onKiln_linkIn (s : State) (q : Nat) (f : Kiln → Kiln) : (s.onKiln q f).linkIn = s.linkIn := rfl
@[simp] theorem onKiln_hostOut (s : State) (q : Nat) (f : Kiln → Kiln) : (s.onKiln q f).hostOut = s.hostOut := rfl
@[simp] theorem onKiln_pages (s : State) (q : Nat) (f : Kiln → Kiln) : (s.onKiln q f).pages = s.pages := rfl
@[simp] theorem onKiln_ats (s : State) (q : Nat) (f : Kiln → Kiln) : (s.onKiln q f).ats = s.ats := rfl
@[simp] theorem onKiln_shared (s : State) (q : Nat) (f : Kiln → Kiln) : (s.onKiln q f).shared = s.shared := rfl
@[simp] theorem onKiln_dropped (s : State) (q : Nat) (f : Kiln → Kiln) : (s.onKiln q f).dropped = s.dropped := rfl
@[simp] theorem onKiln_nextLock (s : State) (q : Nat) (f : Kiln → Kiln) : (s.onKiln q f).nextLock = s.nextLock := rfl
@[simp] theorem onKiln_fresh (s : State) (q : Nat) (f : Kiln → Kiln) : (s.onKiln q f).fresh = s.fresh := rfl
@[simp] theorem onKiln_farSpads (s : State) (q : Nat) (f : Kiln → Kiln) : (s.onKiln q f).farSpads = s.farSpads := rfl
@[simp] theorem onKiln_farTabs (s : State) (q : Nat) (f : Kiln → Kiln) : (s.onKiln q f).farTabs = s.farTabs := rfl
@[simp] theorem onKiln_phase (s : State) (q : Nat) (f : Kiln → Kiln) : (s.onKiln q f).phase = s.phase := rfl
@[simp] theorem onKiln_phaseAt (s : State) (q : Nat) (f : Kiln → Kiln) : (s.onKiln q f).phaseAt = s.phaseAt := rfl
@[simp] theorem onKiln_agenda (s : State) (q : Nat) (f : Kiln → Kiln) : (s.onKiln q f).agenda = s.agenda := rfl
@[simp] theorem onKiln_cur (s : State) (q : Nat) (f : Kiln → Kiln) : (s.onKiln q f).cur = s.cur := rfl
@[simp] theorem onKiln_now (s : State) (q : Nat) (f : Kiln → Kiln) : (s.onKiln q f).now = s.now := rfl

@[simp] theorem onVdev_cores (s : State) (v : Nat) (f : VDev → VDev) : (s.onVdev v f).cores = s.cores := rfl
@[simp] theorem onVdev_clusters (s : State) (v : Nat) (f : VDev → VDev) : (s.onVdev v f).clusters = s.clusters := rfl
@[simp] theorem onVdev_kilns (s : State) (v : Nat) (f : VDev → VDev) : (s.onVdev v f).kilns = s.kilns := rfl
@[simp] theorem onVdev_l2 (s : State) (v : Nat) (f : VDev → VDev) : (s.onVdev v f).l2 = s.l2 := rfl
@[simp] theorem onVdev_wb (s : State) (v : Nat) (f : VDev → VDev) : (s.onVdev v f).wb = s.wb := rfl
@[simp] theorem onVdev_latches (s : State) (v : Nat) (f : VDev → VDev) : (s.onVdev v f).latches = s.latches := rfl
@[simp] theorem onVdev_ackw (s : State) (v : Nat) (f : VDev → VDev) : (s.onVdev v f).ackw = s.ackw := rfl
@[simp] theorem onVdev_held (s : State) (v : Nat) (f : VDev → VDev) : (s.onVdev v f).held = s.held := rfl
@[simp] theorem onVdev_lcnt (s : State) (v : Nat) (f : VDev → VDev) : (s.onVdev v f).lcnt = s.lcnt := rfl
@[simp] theorem onVdev_mem (s : State) (v : Nat) (f : VDev → VDev) : (s.onVdev v f).mem = s.mem := rfl
@[simp] theorem onVdev_memKey (s : State) (v : Nat) (f : VDev → VDev) : (s.onVdev v f).memKey = s.memKey := rfl
@[simp] theorem onVdev_poison (s : State) (v : Nat) (f : VDev → VDev) : (s.onVdev v f).poison = s.poison := rfl
@[simp] theorem onVdev_ecc (s : State) (v : Nat) (f : VDev → VDev) : (s.onVdev v f).ecc = s.ecc := rfl
@[simp] theorem onVdev_stamps (s : State) (v : Nat) (f : VDev → VDev) : (s.onVdev v f).stamps = s.stamps := rfl
@[simp] theorem onVdev_landing (s : State) (v : Nat) (f : VDev → VDev) : (s.onVdev v f).landing = s.landing := rfl
@[simp] theorem onVdev_mmio (s : State) (v : Nat) (f : VDev → VDev) : (s.onVdev v f).mmio = s.mmio := rfl
@[simp] theorem onVdev_fkeys (s : State) (v : Nat) (f : VDev → VDev) : (s.onVdev v f).fkeys = s.fkeys := rfl
@[simp] theorem onVdev_mkeys (s : State) (v : Nat) (f : VDev → VDev) : (s.onVdev v f).mkeys = s.mkeys := rfl
@[simp] theorem onVdev_nm (s : State) (v : Nat) (f : VDev → VDev) : (s.onVdev v f).nm = s.nm := rfl
@[simp] theorem onVdev_chip (s : State) (v : Nat) (f : VDev → VDev) : (s.onVdev v f).chip = s.chip := rfl
@[simp] theorem onVdev_sags (s : State) (v : Nat) (f : VDev → VDev) : (s.onVdev v f).sags = s.sags := rfl
@[simp] theorem onVdev_arbs (s : State) (v : Nat) (f : VDev → VDev) : (s.onVdev v f).arbs = s.arbs := rfl
@[simp] theorem onVdev_disps (s : State) (v : Nat) (f : VDev → VDev) : (s.onVdev v f).disps = s.disps := rfl
@[simp] theorem onVdev_egress (s : State) (v : Nat) (f : VDev → VDev) : (s.onVdev v f).egress = s.egress := rfl
@[simp] theorem onVdev_net (s : State) (v : Nat) (f : VDev → VDev) : (s.onVdev v f).net = s.net := rfl
@[simp] theorem onVdev_inbox (s : State) (v : Nat) (f : VDev → VDev) : (s.onVdev v f).inbox = s.inbox := rfl
@[simp] theorem onVdev_sseqOut (s : State) (v : Nat) (f : VDev → VDev) : (s.onVdev v f).sseqOut = s.sseqOut := rfl
@[simp] theorem onVdev_sseqIn (s : State) (v : Nat) (f : VDev → VDev) : (s.onVdev v f).sseqIn = s.sseqIn := rfl
@[simp] theorem onVdev_skipped (s : State) (v : Nat) (f : VDev → VDev) : (s.onVdev v f).skipped = s.skipped := rfl
@[simp] theorem onVdev_sluices (s : State) (v : Nat) (f : VDev → VDev) : (s.onVdev v f).sluices = s.sluices := rfl
@[simp] theorem onVdev_linkOut (s : State) (v : Nat) (f : VDev → VDev) : (s.onVdev v f).linkOut = s.linkOut := rfl
@[simp] theorem onVdev_linkIn (s : State) (v : Nat) (f : VDev → VDev) : (s.onVdev v f).linkIn = s.linkIn := rfl
@[simp] theorem onVdev_hostOut (s : State) (v : Nat) (f : VDev → VDev) : (s.onVdev v f).hostOut = s.hostOut := rfl
@[simp] theorem onVdev_pages (s : State) (v : Nat) (f : VDev → VDev) : (s.onVdev v f).pages = s.pages := rfl
@[simp] theorem onVdev_ats (s : State) (v : Nat) (f : VDev → VDev) : (s.onVdev v f).ats = s.ats := rfl
@[simp] theorem onVdev_shared (s : State) (v : Nat) (f : VDev → VDev) : (s.onVdev v f).shared = s.shared := rfl
@[simp] theorem onVdev_dropped (s : State) (v : Nat) (f : VDev → VDev) : (s.onVdev v f).dropped = s.dropped := rfl
@[simp] theorem onVdev_nextLock (s : State) (v : Nat) (f : VDev → VDev) : (s.onVdev v f).nextLock = s.nextLock := rfl
@[simp] theorem onVdev_fresh (s : State) (v : Nat) (f : VDev → VDev) : (s.onVdev v f).fresh = s.fresh := rfl
@[simp] theorem onVdev_farSpads (s : State) (v : Nat) (f : VDev → VDev) : (s.onVdev v f).farSpads = s.farSpads := rfl
@[simp] theorem onVdev_farTabs (s : State) (v : Nat) (f : VDev → VDev) : (s.onVdev v f).farTabs = s.farTabs := rfl
@[simp] theorem onVdev_phase (s : State) (v : Nat) (f : VDev → VDev) : (s.onVdev v f).phase = s.phase := rfl
@[simp] theorem onVdev_phaseAt (s : State) (v : Nat) (f : VDev → VDev) : (s.onVdev v f).phaseAt = s.phaseAt := rfl
@[simp] theorem onVdev_agenda (s : State) (v : Nat) (f : VDev → VDev) : (s.onVdev v f).agenda = s.agenda := rfl
@[simp] theorem onVdev_cur (s : State) (v : Nat) (f : VDev → VDev) : (s.onVdev v f).cur = s.cur := rfl
@[simp] theorem onVdev_now (s : State) (v : Nat) (f : VDev → VDev) : (s.onVdev v f).now = s.now := rfl

@[simp] theorem onSag_cores (s : State) (k : Nat) (f : Saggar → Saggar) : (s.onSag k f).cores = s.cores := rfl
@[simp] theorem onSag_clusters (s : State) (k : Nat) (f : Saggar → Saggar) : (s.onSag k f).clusters = s.clusters := rfl
@[simp] theorem onSag_kilns (s : State) (k : Nat) (f : Saggar → Saggar) : (s.onSag k f).kilns = s.kilns := rfl
@[simp] theorem onSag_l2 (s : State) (k : Nat) (f : Saggar → Saggar) : (s.onSag k f).l2 = s.l2 := rfl
@[simp] theorem onSag_wb (s : State) (k : Nat) (f : Saggar → Saggar) : (s.onSag k f).wb = s.wb := rfl
@[simp] theorem onSag_latches (s : State) (k : Nat) (f : Saggar → Saggar) : (s.onSag k f).latches = s.latches := rfl
@[simp] theorem onSag_ackw (s : State) (k : Nat) (f : Saggar → Saggar) : (s.onSag k f).ackw = s.ackw := rfl
@[simp] theorem onSag_held (s : State) (k : Nat) (f : Saggar → Saggar) : (s.onSag k f).held = s.held := rfl
@[simp] theorem onSag_lcnt (s : State) (k : Nat) (f : Saggar → Saggar) : (s.onSag k f).lcnt = s.lcnt := rfl
@[simp] theorem onSag_mem (s : State) (k : Nat) (f : Saggar → Saggar) : (s.onSag k f).mem = s.mem := rfl
@[simp] theorem onSag_memKey (s : State) (k : Nat) (f : Saggar → Saggar) : (s.onSag k f).memKey = s.memKey := rfl
@[simp] theorem onSag_poison (s : State) (k : Nat) (f : Saggar → Saggar) : (s.onSag k f).poison = s.poison := rfl
@[simp] theorem onSag_ecc (s : State) (k : Nat) (f : Saggar → Saggar) : (s.onSag k f).ecc = s.ecc := rfl
@[simp] theorem onSag_stamps (s : State) (k : Nat) (f : Saggar → Saggar) : (s.onSag k f).stamps = s.stamps := rfl
@[simp] theorem onSag_landing (s : State) (k : Nat) (f : Saggar → Saggar) : (s.onSag k f).landing = s.landing := rfl
@[simp] theorem onSag_mmio (s : State) (k : Nat) (f : Saggar → Saggar) : (s.onSag k f).mmio = s.mmio := rfl
@[simp] theorem onSag_fkeys (s : State) (k : Nat) (f : Saggar → Saggar) : (s.onSag k f).fkeys = s.fkeys := rfl
@[simp] theorem onSag_mkeys (s : State) (k : Nat) (f : Saggar → Saggar) : (s.onSag k f).mkeys = s.mkeys := rfl
@[simp] theorem onSag_nm (s : State) (k : Nat) (f : Saggar → Saggar) : (s.onSag k f).nm = s.nm := rfl
@[simp] theorem onSag_chip (s : State) (k : Nat) (f : Saggar → Saggar) : (s.onSag k f).chip = s.chip := rfl
@[simp] theorem onSag_vdevs (s : State) (k : Nat) (f : Saggar → Saggar) : (s.onSag k f).vdevs = s.vdevs := rfl
@[simp] theorem onSag_arbs (s : State) (k : Nat) (f : Saggar → Saggar) : (s.onSag k f).arbs = s.arbs := rfl
@[simp] theorem onSag_disps (s : State) (k : Nat) (f : Saggar → Saggar) : (s.onSag k f).disps = s.disps := rfl
@[simp] theorem onSag_egress (s : State) (k : Nat) (f : Saggar → Saggar) : (s.onSag k f).egress = s.egress := rfl
@[simp] theorem onSag_net (s : State) (k : Nat) (f : Saggar → Saggar) : (s.onSag k f).net = s.net := rfl
@[simp] theorem onSag_inbox (s : State) (k : Nat) (f : Saggar → Saggar) : (s.onSag k f).inbox = s.inbox := rfl
@[simp] theorem onSag_sseqOut (s : State) (k : Nat) (f : Saggar → Saggar) : (s.onSag k f).sseqOut = s.sseqOut := rfl
@[simp] theorem onSag_sseqIn (s : State) (k : Nat) (f : Saggar → Saggar) : (s.onSag k f).sseqIn = s.sseqIn := rfl
@[simp] theorem onSag_skipped (s : State) (k : Nat) (f : Saggar → Saggar) : (s.onSag k f).skipped = s.skipped := rfl
@[simp] theorem onSag_sluices (s : State) (k : Nat) (f : Saggar → Saggar) : (s.onSag k f).sluices = s.sluices := rfl
@[simp] theorem onSag_linkOut (s : State) (k : Nat) (f : Saggar → Saggar) : (s.onSag k f).linkOut = s.linkOut := rfl
@[simp] theorem onSag_linkIn (s : State) (k : Nat) (f : Saggar → Saggar) : (s.onSag k f).linkIn = s.linkIn := rfl
@[simp] theorem onSag_hostOut (s : State) (k : Nat) (f : Saggar → Saggar) : (s.onSag k f).hostOut = s.hostOut := rfl
@[simp] theorem onSag_pages (s : State) (k : Nat) (f : Saggar → Saggar) : (s.onSag k f).pages = s.pages := rfl
@[simp] theorem onSag_ats (s : State) (k : Nat) (f : Saggar → Saggar) : (s.onSag k f).ats = s.ats := rfl
@[simp] theorem onSag_shared (s : State) (k : Nat) (f : Saggar → Saggar) : (s.onSag k f).shared = s.shared := rfl
@[simp] theorem onSag_dropped (s : State) (k : Nat) (f : Saggar → Saggar) : (s.onSag k f).dropped = s.dropped := rfl
@[simp] theorem onSag_nextLock (s : State) (k : Nat) (f : Saggar → Saggar) : (s.onSag k f).nextLock = s.nextLock := rfl
@[simp] theorem onSag_fresh (s : State) (k : Nat) (f : Saggar → Saggar) : (s.onSag k f).fresh = s.fresh := rfl
@[simp] theorem onSag_farSpads (s : State) (k : Nat) (f : Saggar → Saggar) : (s.onSag k f).farSpads = s.farSpads := rfl
@[simp] theorem onSag_farTabs (s : State) (k : Nat) (f : Saggar → Saggar) : (s.onSag k f).farTabs = s.farTabs := rfl
@[simp] theorem onSag_phase (s : State) (k : Nat) (f : Saggar → Saggar) : (s.onSag k f).phase = s.phase := rfl
@[simp] theorem onSag_phaseAt (s : State) (k : Nat) (f : Saggar → Saggar) : (s.onSag k f).phaseAt = s.phaseAt := rfl
@[simp] theorem onSag_agenda (s : State) (k : Nat) (f : Saggar → Saggar) : (s.onSag k f).agenda = s.agenda := rfl
@[simp] theorem onSag_cur (s : State) (k : Nat) (f : Saggar → Saggar) : (s.onSag k f).cur = s.cur := rfl
@[simp] theorem onSag_now (s : State) (k : Nat) (f : Saggar → Saggar) : (s.onSag k f).now = s.now := rfl

@[simp] theorem tick_cores (s : State) (n : Nat) : (s.tick n).cores = s.cores := rfl
@[simp] theorem tick_clusters (s : State) (n : Nat) : (s.tick n).clusters = s.clusters := rfl
@[simp] theorem tick_kilns (s : State) (n : Nat) : (s.tick n).kilns = s.kilns := rfl
@[simp] theorem tick_l2 (s : State) (n : Nat) : (s.tick n).l2 = s.l2 := rfl
@[simp] theorem tick_wb (s : State) (n : Nat) : (s.tick n).wb = s.wb := rfl
@[simp] theorem tick_latches (s : State) (n : Nat) : (s.tick n).latches = s.latches := rfl
@[simp] theorem tick_ackw (s : State) (n : Nat) : (s.tick n).ackw = s.ackw := rfl
@[simp] theorem tick_held (s : State) (n : Nat) : (s.tick n).held = s.held := rfl
@[simp] theorem tick_lcnt (s : State) (n : Nat) : (s.tick n).lcnt = s.lcnt := rfl
@[simp] theorem tick_memKey (s : State) (n : Nat) : (s.tick n).memKey = s.memKey := rfl
@[simp] theorem tick_poison (s : State) (n : Nat) : (s.tick n).poison = s.poison := rfl
@[simp] theorem tick_ecc (s : State) (n : Nat) : (s.tick n).ecc = s.ecc := rfl
@[simp] theorem tick_stamps (s : State) (n : Nat) : (s.tick n).stamps = s.stamps := rfl
@[simp] theorem tick_landing (s : State) (n : Nat) : (s.tick n).landing = s.landing := rfl
@[simp] theorem tick_mmio (s : State) (n : Nat) : (s.tick n).mmio = s.mmio := rfl
@[simp] theorem tick_fkeys (s : State) (n : Nat) : (s.tick n).fkeys = s.fkeys := rfl
@[simp] theorem tick_mkeys (s : State) (n : Nat) : (s.tick n).mkeys = s.mkeys := rfl
@[simp] theorem tick_nm (s : State) (n : Nat) : (s.tick n).nm = s.nm := rfl
@[simp] theorem tick_chip (s : State) (n : Nat) : (s.tick n).chip = s.chip := rfl
@[simp] theorem tick_vdevs (s : State) (n : Nat) : (s.tick n).vdevs = s.vdevs := rfl
@[simp] theorem tick_sags (s : State) (n : Nat) : (s.tick n).sags = s.sags := rfl
@[simp] theorem tick_arbs (s : State) (n : Nat) : (s.tick n).arbs = s.arbs := rfl
@[simp] theorem tick_disps (s : State) (n : Nat) : (s.tick n).disps = s.disps := rfl
@[simp] theorem tick_egress (s : State) (n : Nat) : (s.tick n).egress = s.egress := rfl
@[simp] theorem tick_net (s : State) (n : Nat) : (s.tick n).net = s.net := rfl
@[simp] theorem tick_inbox (s : State) (n : Nat) : (s.tick n).inbox = s.inbox := rfl
@[simp] theorem tick_sseqOut (s : State) (n : Nat) : (s.tick n).sseqOut = s.sseqOut := rfl
@[simp] theorem tick_sseqIn (s : State) (n : Nat) : (s.tick n).sseqIn = s.sseqIn := rfl
@[simp] theorem tick_skipped (s : State) (n : Nat) : (s.tick n).skipped = s.skipped := rfl
@[simp] theorem tick_sluices (s : State) (n : Nat) : (s.tick n).sluices = s.sluices := rfl
@[simp] theorem tick_linkOut (s : State) (n : Nat) : (s.tick n).linkOut = s.linkOut := rfl
@[simp] theorem tick_linkIn (s : State) (n : Nat) : (s.tick n).linkIn = s.linkIn := rfl
@[simp] theorem tick_hostOut (s : State) (n : Nat) : (s.tick n).hostOut = s.hostOut := rfl
@[simp] theorem tick_pages (s : State) (n : Nat) : (s.tick n).pages = s.pages := rfl
@[simp] theorem tick_ats (s : State) (n : Nat) : (s.tick n).ats = s.ats := rfl
@[simp] theorem tick_shared (s : State) (n : Nat) : (s.tick n).shared = s.shared := rfl
@[simp] theorem tick_dropped (s : State) (n : Nat) : (s.tick n).dropped = s.dropped := rfl
@[simp] theorem tick_nextLock (s : State) (n : Nat) : (s.tick n).nextLock = s.nextLock := rfl
@[simp] theorem tick_fresh (s : State) (n : Nat) : (s.tick n).fresh = s.fresh := rfl
@[simp] theorem tick_farSpads (s : State) (n : Nat) : (s.tick n).farSpads = s.farSpads := rfl
@[simp] theorem tick_farTabs (s : State) (n : Nat) : (s.tick n).farTabs = s.farTabs := rfl
@[simp] theorem tick_phase (s : State) (n : Nat) : (s.tick n).phase = s.phase := rfl
@[simp] theorem tick_phaseAt (s : State) (n : Nat) : (s.tick n).phaseAt = s.phaseAt := rfl
@[simp] theorem tick_agenda (s : State) (n : Nat) : (s.tick n).agenda = s.agenda := rfl

@[simp] theorem setCore_fkeysOld (s : State) (ep : Nat) (c : Core) : (s.setCore ep c).fkeysOld = s.fkeysOld := rfl
@[simp] theorem setCore_asks (s : State) (ep : Nat) (c : Core) : (s.setCore ep c).asks = s.asks := rfl
@[simp] theorem onCluster_fkeysOld (s : State) (k : Nat) (f : Cluster → Cluster) : (s.onCluster k f).fkeysOld = s.fkeysOld := rfl
@[simp] theorem onCluster_asks (s : State) (k : Nat) (f : Cluster → Cluster) : (s.onCluster k f).asks = s.asks := rfl
@[simp] theorem onKiln_fkeysOld (s : State) (q : Nat) (f : Kiln → Kiln) : (s.onKiln q f).fkeysOld = s.fkeysOld := rfl
@[simp] theorem onKiln_asks (s : State) (q : Nat) (f : Kiln → Kiln) : (s.onKiln q f).asks = s.asks := rfl
@[simp] theorem onVdev_fkeysOld (s : State) (v : Nat) (f : VDev → VDev) : (s.onVdev v f).fkeysOld = s.fkeysOld := rfl
@[simp] theorem onVdev_asks (s : State) (v : Nat) (f : VDev → VDev) : (s.onVdev v f).asks = s.asks := rfl
@[simp] theorem onSag_fkeysOld (s : State) (k : Nat) (f : Saggar → Saggar) : (s.onSag k f).fkeysOld = s.fkeysOld := rfl
@[simp] theorem onSag_asks (s : State) (k : Nat) (f : Saggar → Saggar) : (s.onSag k f).asks = s.asks := rfl
@[simp] theorem tick_fkeysOld (s : State) (n : Nat) : (s.tick n).fkeysOld = s.fkeysOld := rfl
@[simp] theorem tick_asks (s : State) (n : Nat) : (s.tick n).asks = s.asks := rfl
theorem setCore_cores (s : State) (ep : Nat) (c : Core) : (s.setCore ep c).cores = tset s.cores ep c := rfl
@[simp] theorem onCluster_cluster (s : State) (k : Nat) (f : Cluster → Cluster) :
    (s.onCluster k f).cluster k = f (s.cluster k) := by simp [State.cluster, State.onCluster]
@[simp] theorem onKiln_kiln (s : State) (q : Nat) (f : Kiln → Kiln) : (s.onKiln q f).kiln q = f (s.kiln q) := by
  simp [State.kiln, State.onKiln]
@[simp] theorem onVdev_vdevOf (s : State) (v : Nat) (f : VDev → VDev) : (s.onVdev v f).vdevOf v = f (s.vdevOf v) := by
  simp [State.vdevOf, State.onVdev]
@[simp] theorem onSag_sag (s : State) (k : Nat) (f : Saggar → Saggar) : (s.onSag k f).sag k = f (s.sag k) := by
  simp [State.sag, State.onSag]

/-! ### Registers of a frame (R66, R70) -/

@[simp] theorem Frame.setX_pc (f : Frame) (r : XReg) (v : Word) : (f.setX r v).pc = f.pc := by
  unfold Frame.setX; split <;> rfl

theorem Frame.x_setX_zero (f : Frame) (v : Word) (r : XReg) : (f.setX 0 v).x r = f.x r := by simp [Frame.setX]

theorem regBit_getLsbD (r q : XReg) : (regBit r).getLsbD q.toNat = decide (q = r) := by
  revert r q; decide

/-- A register written reads as what was written; x0 reads 0 (R66). -/
theorem Frame.x_setX (f : Frame) (r : XReg) (v : Word) : (f.setX r v).x r = if r = 0 then 0 else v := by
  by_cases h : r = 0
  · subst h; rfl
  · have h' : ¬ r = 0#5 := h
    unfold Frame.x Frame.setX
    simp [h', regBit_getLsbD]

/-- Every other register keeps its value. -/
theorem Frame.x_setX_other (f : Frame) (r q : XReg) (v : Word) (h : q ≠ r) : (f.setX r v).x q = f.x q := by
  by_cases h0 : r = 0
  · subst h0; rfl
  · have h' : ¬ r = 0#5 := h0
    have hn : r.toNat ≠ q.toNat := fun e => h (BitVec.eq_of_toNat_eq e).symm
    unfold Frame.x Frame.setX
    simp [h', regBit_getLsbD, h, Vector.getElem_set, hn]

end Sys2Proof.Machine
end

