-- ==== Sys2Proof/Laws/Run.lean ====
section
/-! SUPPORT. What comes before and after an instruction's own effect: the gates of R417, waking banks, counting and
retirement, each said once. -/

namespace Sys2Proof.Machine

theorem ite_of {α : Sort _} {P : α → Prop} {c : Prop} [Decidable c] {a b : α} (ha : P a) (hb : P b) :
    P (if c then a else b) := by split <;> assumption

/-! ### Counting changes the core's counters and ready records alone (R379, R383) -/

/-- `d` is `c` but for event counters and ready records. -/
def Counted (c d : Core) : Prop := ∃ e r, d = { c with evs := e, ready := r }

/-- `t` is `u` with one core's counters moved on, at some time. -/
def CountedIn (u : State) (ep : Nat) (c : Core) (t : State) : Prop :=
  ∃ d n, Counted c d ∧ t = { u.setCore ep d with now := n }

theorem Counted.refl (c : Core) : Counted c c := ⟨c.evs, c.ready, rfl⟩

theorem CountedIn.setCore {u t : State} {ep : Nat} {c : Core} (h : CountedIn u ep c t) (e : Evs) (r : List Ready) :
    CountedIn u ep c (t.setCore ep { t.core ep with evs := e, ready := r }) := by
  obtain ⟨d, m, ⟨e', r', rfl⟩, rfl⟩ := h
  refine ⟨_, m, ⟨e, r, rfl⟩, ?_⟩
  simp [State.setCore, State.core]

theorem CountedIn.tick {u t : State} {ep : Nat} {c : Core} (h : CountedIn u ep c t) (k : Nat) :
    CountedIn u ep c (t.tick k) := by
  obtain ⟨d, m, hd, rfl⟩ := h
  exact ⟨d, m + k, hd, rfl⟩

theorem CountedIn.overflowPost {u t : State} {ep : Nat} {c : Core} (h : CountedIn u ep c t) :
    CountedIn u ep c (t.overflowPost ep) := by
  unfold State.overflowPost
  exact ite_of (P := CountedIn u ep c) h
    (ite_of (P := CountedIn u ep c) (h.setCore (t.core ep).evs _) (h.setCore _ (t.core ep).ready))

theorem CountedIn.countAt {u t : State} {ep : Nat} {c : Core} (h : CountedIn u ep c t) (lvl ev n : Nat) :
    CountedIn u ep c (t.countAt ep lvl ev n) := by
  have h1 := fun e => h.setCore e (t.core ep).ready
  unfold State.countAt
  exact ite_of (P := CountedIn u ep c) h
    (ite_of (P := CountedIn u ep c) (h1 _) (ite_of (P := CountedIn u ep c) (h1 _).overflowPost (h1 _)))

theorem CountedIn.count {u t : State} {ep : Nat} {c : Core} (h : CountedIn u ep c t) (ev n : Nat) :
    CountedIn u ep c (t.count ep ev n) := h.countAt _ ev n

theorem CountedIn.spend {u t : State} {ep : Nat} {c : Core} (h : CountedIn u ep c t) (n : Nat) :
    CountedIn u ep c (t.spend ep n) := by
  obtain ⟨d, m, hd, rfl⟩ := h
  exact CountedIn.count ⟨d, _, hd, rfl⟩ 1 n

/-! ### Retirement -/

/-- What a retirement leaves, whatever the step register that it compares with holds (R8, R87, R427). -/
theorem retireUnder_retires (u : State) (stepc : Word) (next : Word) (cost : Nat) :
    u.Retires (u.retireUnder stepc next cost) next := by
  unfold State.retireUnder
  simp only
  generalize hc : ({ u.me with run := _, instret := _, stalled := _, alignAt := _, again := _, got := _ } : Core) = c
  have h : CountedIn u u.cur c (u.setCore u.cur c) := ⟨c, u.now, .refl c, rfl⟩
  obtain ⟨d, n, ⟨e, r, rfl⟩, ht⟩ := (h.spend (u.me.time cost)).count 2 1
  rw [ht]
  subst hc
  constructor
  · simp [State.me, State.core, State.setCore]
  · simp [State.me, State.core, State.setCore]

/-- What a retirement leaves (R8, R87). -/
theorem retireTo_retires (u : State) (next : Word) (cost : Nat) : u.Retires (u.retireTo next cost) next :=
  retireUnder_retires u _ next cost

theorem retire_retires (u : State) (cost : Nat) : u.Retires (u.retire cost) (u.frame.pc + 4) :=
  retireTo_retires u _ cost

theorem Retires.cur {u t : State} {n : Word} (h : u.Retires t n) : t.cur = u.cur := by
  rw [h.2]; rfl

/-! ### The gates (R417) -/

/-- Marking banks as used changes their timers alone (R72). -/
theorem wake_eq (s : State) (srcs : List XReg) (dst : XReg) :
    ∃ b, s.wake srcs dst = s.setCore s.cur { s.me with bankAt := b } := ⟨_, rfl⟩

@[simp] theorem wake_cur (s : State) (srcs : List XReg) (dst : XReg) : (s.wake srcs dst).cur = s.cur := by
  rfl

theorem wake_me (s : State) (srcs : List XReg) (dst : XReg) :
    ∃ b, (s.wake srcs dst).me = { s.me with bankAt := b } := by
  obtain ⟨b, h⟩ := wake_eq s srcs dst
  exact ⟨b, by rw [h]; simp [State.me, State.core, State.setCore]⟩

@[simp] theorem wake_frame (s : State) (srcs : List XReg) (dst : XReg) : (s.wake srcs dst).frame = s.frame := by
  obtain ⟨b, h⟩ := wake_me s srcs dst
  simp [State.frame, h]

@[simp] theorem wake_x (s : State) (srcs : List XReg) (dst r : XReg) : (s.wake srcs dst).x r = s.x r := by
  simp [State.x]

/-- With nothing in its way, an instruction's own part runs on the state with its banks awake (R417). -/
theorem run_clear {s : State} {i : Instr} {srcs es : List XReg} {dst : XReg} {k : State → State}
    (h : s.clear (isPrefixed i) srcs dst = true) (he : ∀ r ∈ es, r ∈ srcs) :
    s.run i srcs es dst k = .next (k (s.wake srcs dst)) := by
  simp only [State.clear, Bool.and_eq_true, List.all_eq_true, beq_iff_eq, Bool.not_eq_true', List.mem_cons,
    forall_eq_or_imp, Option.isNone_iff_eq_none, Bool.not_eq_eq_eq_not, Bool.not_true] at h
  obtain ⟨⟨⟨⟨⟨⟨h1, h2⟩, h3⟩, h4⟩, h5, h6⟩, h7⟩, h8⟩ := h
  have g1 : s.startGate = .go s := by simp [State.startGate, h1]
  have g2 : s.checker = .go s := by simp [State.checker, h2]
  have g3 : s.fetchGate i = .go s := by simp [State.fetchGate, h3, h4]
  have e1 : es.find? (fun r => !s.frame.isFull r) = none := by
    simp only [List.find?_eq_none, Bool.not_eq_true', Bool.not_eq_false]
    exact fun r hr => (h6 r (he r hr)).1
  have e2 : (dst :: srcs).any (fun r => !s.frame.isFull r) = false := by
    simp only [List.any_eq_false, List.mem_cons, forall_eq_or_imp]
    exact ⟨by simp [h5], fun r hr => by simp [h6 r hr]⟩
  have e2' : (dst :: srcs).any (fun r => s.frame.isBusy r) = false := by
    simp only [List.any_eq_false, List.mem_cons, forall_eq_or_imp]
    exact ⟨by simp [h5], fun r hr => by simp [h6 r hr]⟩
  have e3 : srcs.find? (fun r => !s.frame.isLive r) = none := by
    simp only [List.find?_eq_none, Bool.not_eq_true', Bool.not_eq_false]
    exact fun r hr => (h7 r hr).1
  have e4 : srcs.find? (fun r => s.frame.isPois r) = none := by
    simp only [List.find?_eq_none]
    exact fun r hr => by simp [h7 r hr]
  have g4 : s.regGate srcs es dst = .go (s.wake srcs dst) := by
    simp only [State.regGate, State.bankGate, e1, e2, e2', e3, e4]
    simp [h8]
  have e5 : srcs.any (fun r => !(s.wake srcs dst).frame.isLive r) = false := by
    simp only [List.any_eq_false, wake_frame]
    exact fun r hr => by simp [h7 r hr]
  simp only [State.run, State.begin, g1, g2, g3, g4]
  rw [e5]; rfl

theorem eSrc_sub (r : XReg) (e : BitVec 1) : ∀ q ∈ eSrc r e, q = r := by
  unfold eSrc; split <;> simp

end Sys2Proof.Machine
end

