-- ==== Sys2Proof/Laws/Alu.lean ====
section
/-! SUPPORT. What the shared operations of the base integer instructions do, said once each. -/

namespace Sys2Proof.Machine

/-- An own part that ends in a retirement completes with the state it retires. -/
theorem completes_of_run {s u : State} {i : Instr} {srcs es : List XReg} {dst : XReg} {k : State → State}
    {next : Word} {cost : Nat} (he : exec i s = s.run i srcs es dst k)
    (hc : s.clear (isPrefixed i) srcs dst = true) (hs : ∀ r ∈ es, r ∈ srcs)
    (hk : k (s.wake srcs dst) = u.retireTo next cost) : s.completes i u next :=
  ⟨_, by rw [he, run_clear hc hs, hk], retireTo_retires u next cost⟩

theorem aluU_puts {s : State} {i : Instr} {rd : XReg} {f : State → Word} {v : Word} (he : exec i s = aluU i rd f s)
    (hc : s.clear (isPrefixed i) [] rd = true) (hv : f (s.wake [] rd) = v) : s.puts i [] rd v :=
  completes_of_run (cost := 1) he hc (by simp) (by simp [State.retire, hv])

theorem aluI_puts {s : State} {i : Instr} {rd rs1 : XReg} {f : Word → Word} {v : Word}
    (he : exec i s = aluI i rd rs1 f s) (hc : s.clear (isPrefixed i) [rs1] rd = true) (hv : f (s.x rs1) = v) :
    s.puts i [rs1] rd v :=
  completes_of_run (cost := 1) he hc (by simp) (by simp [State.retire, hv])

theorem aluR_puts {s : State} {i : Instr} {rd rs1 rs2 : XReg} {c : Nat} {f : Word → Word → Word} {v : Word}
    (he : exec i s = aluR i rd rs1 rs2 c f s) (hc : s.clear (isPrefixed i) [rs1, rs2] rd = true)
    (hv : f (s.x rs1) (s.x rs2) = v) : s.puts i [rs1, rs2] rd v :=
  completes_of_run (cost := c) he hc (by simp) (by simp [State.retire, hv])

/-- A branch whose condition holds and whose target is aligned. -/
theorem branch_taken {s : State} {i : Instr} {rs1 rs2 : XReg} {imm : BitVec 12} {c : Word → Word → Bool}
    (he : exec i s = branch i rs1 rs2 imm c s) (hc : s.clear (isPrefixed i) [rs1, rs2] 0 = true)
    (hb : c (s.x rs1) (s.x rs2) = true) (ha : (s.frame.pc + offB imm).toNat % 4 = 0) :
    s.completes i (s.wake [rs1, rs2] 0) (s.frame.pc + offB imm) :=
  completes_of_run (cost := 2) he hc (by simp) (by simp [hb, aligned4, ha, -BitVec.toNat_add])

/-- A branch whose condition holds and whose target is misaligned traps (R204). -/
theorem branch_traps {s : State} {i : Instr} {rs1 rs2 : XReg} {imm : BitVec 12} {c : Word → Word → Bool}
    (he : exec i s = branch i rs1 rs2 imm c s) (hc : s.clear (isPrefixed i) [rs1, rs2] 0 = true)
    (hb : c (s.x rs1) (s.x rs2) = true) (ha : (s.frame.pc + offB imm).toNat % 4 ≠ 0) :
    exec i s = .next ((s.wake [rs1, rs2] 0).trap 7 (s.frame.pc + offB imm)) := by
  rw [he]; simp only [branch]; rw [run_clear hc (by simp)]; simp [hb, aligned4, ha, -BitVec.toNat_add]

/-- A branch whose condition fails goes on. -/
theorem branch_not_taken {s : State} {i : Instr} {rs1 rs2 : XReg} {imm : BitVec 12} {c : Word → Word → Bool}
    (he : exec i s = branch i rs1 rs2 imm c s) (hc : s.clear (isPrefixed i) [rs1, rs2] 0 = true)
    (hb : c (s.x rs1) (s.x rs2) = false) : s.completes i (s.wake [rs1, rs2] 0) (s.frame.pc + 4) :=
  completes_of_run (cost := 1) he hc (by simp) (by simp [hb, State.retire])

end Sys2Proof.Machine
end

