-- ==== Sys2Proof/Laws/Encoding.lean ====
section
/-! SUPPORT. Fields of a word put together from its parts: what the decoder reads of what the encoder writes. -/

namespace Sys2Proof

/-- A field above the low part lies in the high part. -/
theorem field_append_high {m n : Nat} (x : BitVec m) (y : BitVec n) (a k : Nat) (h : n ≤ a) :
    (x ++ y).extractLsb' a k = x.extractLsb' (a - n) k := by
  ext i hi
  simp only [BitVec.getElem_extractLsb', BitVec.getLsbD_append]
  have : ¬ a + i < n := by omega
  rw [if_neg this]
  congr 1
  omega

/-- A field within the low part. -/
theorem field_append_low {m n : Nat} (x : BitVec m) (y : BitVec n) (a k : Nat) (h : a + k ≤ n) :
    (x ++ y).extractLsb' a k = y.extractLsb' a k := by
  ext i hi
  simp only [BitVec.getElem_extractLsb', BitVec.getLsbD_append]
  have : a + i < n := by omega
  rw [if_pos this]

/-- The whole is a field of itself. -/
theorem field_whole {n : Nat} (y : BitVec n) : y.extractLsb' 0 n = y := by
  ext i hi
  simp

/-- Two parts of an immediate next to one another. -/
theorem field_join {n : Nat} (y : BitVec n) (a j k : Nat) :
    y.extractLsb' (a + k) j ++ y.extractLsb' a k = y.extractLsb' a (j + k) := by
  ext i hi
  simp only [BitVec.getElem_extractLsb', BitVec.getElem_append]
  split
  · rfl
  · congr 1
    omega

/-- What a decoded word passes: the fields, and then the codes that its entry accepts. -/
theorem decode_ok {w : BitVec 32} {i : Instr} (h : decodeFields w = .ok i) (hw : i.wellFormed = true) :
    decode w = .ok i := by
  simp [decode, h, hw]

/-- The three lemmas read an instruction's word back: the pattern of a proof for one instruction. -/
theorem decodeFields_addi (rd rs1 : BitVec 5) (imm : BitVec 12) :
    decodeFields (imm ++ rs1 ++ 0#3 ++ rd ++ 19#7) = .ok (.addi rd rs1 imm) := by
  simp (disch := omega) only [decodeFields, decodeOpImm, funct3, field_append_high, field_append_low, field_whole,
    Nat.reduceSub]
  rfl

end Sys2Proof
end

