-- ==== Sys2Proof/Laws/Memory.lean ====
section
/-! SUPPORT. Laws of memory: its canonical form is kept by every memory operation, and a byte read after a write is the
byte written there, or the byte that was there before elsewhere. -/

namespace Sys2Proof.Machine

/-! ### Tables with a value for unlisted keys -/

@[simp] theorem tfind_tdel_same {α : Type} (t : Tbl α) (k : Nat) : tfind (tdel t k) k = none := by
  induction t with
  | nil => rfl
  | cons e t ih =>
    obtain ⟨k', v'⟩ := e
    by_cases h : k' = k
    · simpa [tdel, h] using ih
    · have h' : ¬ k = k' := fun x => h x.symm
      simpa [tdel, tfind, h, h'] using ih

theorem tfind_tdel_other {α : Type} (t : Tbl α) (k j : Nat) (h : j ≠ k) : tfind (tdel t k) j = tfind t j := by
  induction t with
  | nil => rfl
  | cons e t ih =>
    obtain ⟨k', v'⟩ := e
    by_cases h1 : k' = k
    · have h2 : ¬ j = k' := fun x => h (x.trans h1)
      simpa [tdel, tfind, h1, h2, h] using ih
    · by_cases h3 : j = k'
      · simp [tdel, tfind, h1, h3]
      · simpa [tdel, tfind, h1, h3] using ih

@[simp] theorem tget_tput_same {α : Type} [DecidableEq α] (t : Tbl α) (k : Nat) (v d : α) :
    tget (tput t k v d) k d = v := by
  unfold tput
  split
  · simp [tget, *]
  · simp

theorem tget_tput_other {α : Type} [DecidableEq α] (t : Tbl α) (k j : Nat) (v d : α) (h : j ≠ k) :
    tget (tput t k v d) j d = tget t j d := by
  unfold tput
  split
  · simp [tget, tfind_tdel_other _ _ _ h]
  · exact tget_tset_other _ _ _ _ _ h

/-- The canonical form, said of the entries. -/
theorem twf_iff {α : Type} [DecidableEq α] (d : α) (t : Tbl α) :
    twf d t = true ↔ (∀ e ∈ t, e.2 ≠ d) ∧ t.Pairwise (fun a b => a.1 < b.1) := by
  induction t with
  | nil => simp [twf]
  | cons e t ih =>
    obtain ⟨k, v⟩ := e
    cases t with
    | nil => simp [twf]
    | cons e' t =>
      obtain ⟨k', v'⟩ := e'
      simp only [twf, Bool.and_eq_true, decide_eq_true_eq, ih]
      constructor
      · rintro ⟨⟨hk, hv⟩, hd, hp⟩
        refine ⟨?_, List.pairwise_cons.2 ⟨?_, hp⟩⟩
        · intro e he
          rcases List.mem_cons.1 he with rfl | he
          · simpa using hv
          · exact hd e he
        · intro e he
          rcases List.mem_cons.1 he with rfl | he
          · exact hk
          · exact Nat.lt_trans hk ((List.pairwise_cons.1 hp).1 e he)
      · rintro ⟨hd, hp⟩
        obtain ⟨h1, h2⟩ := List.pairwise_cons.1 hp
        exact ⟨⟨h1 _ (List.mem_cons_self ..), by simpa using hd (k, v) (List.mem_cons_self ..)⟩,
          fun e he => hd e (List.mem_cons_of_mem _ he), h2⟩

theorem mem_tset {α : Type} (t : Tbl α) (k : Nat) (v : α) (e : Nat × α) (h : e ∈ tset t k v) : e = (k, v) ∨ e ∈ t := by
  induction t with
  | nil => simpa [tset] using h
  | cons a t ih =>
    obtain ⟨k', v'⟩ := a
    simp only [tset] at h
    split at h
    · simpa using h
    · split at h
      · rcases List.mem_cons.1 h with h | h
        · exact .inl h
        · exact .inr (List.mem_cons_of_mem _ h)
      · rcases List.mem_cons.1 h with h | h
        · exact .inr (h ▸ List.mem_cons_self ..)
        · rcases ih h with h | h
          · exact .inl h
          · exact .inr (List.mem_cons_of_mem _ h)

theorem tset_rising {α : Type} (t : Tbl α) (k : Nat) (v : α) (h : t.Pairwise (fun a b => a.1 < b.1)) :
    (tset t k v).Pairwise (fun a b => a.1 < b.1) := by
  induction t with
  | nil => simp [tset]
  | cons a t ih =>
    obtain ⟨k', v'⟩ := a
    obtain ⟨h1, h2⟩ := List.pairwise_cons.1 h
    simp only [tset]
    split
    · refine List.pairwise_cons.2 ⟨?_, h⟩
      intro e he
      rcases List.mem_cons.1 he with rfl | he
      · assumption
      · exact Nat.lt_trans ‹_› (h1 e he)
    · split
      · subst k'
        exact List.pairwise_cons.2 ⟨h1, h2⟩
      · refine List.pairwise_cons.2 ⟨?_, ih h2⟩
        intro e he
        rcases mem_tset _ _ _ _ he with rfl | he
        · have := ‹¬ k < k'›
          have := ‹¬ k = k'›
          show k' < k
          omega
        · exact h1 e he

/-- Setting a key keeps the canonical form. -/
theorem tput_wf {α : Type} [DecidableEq α] (t : Tbl α) (k : Nat) (v d : α) (h : twf d t = true) :
    twf d (tput t k v d) = true := by
  rw [twf_iff] at h ⊢
  unfold tput
  split
  · exact ⟨fun e he => h.1 e (List.mem_of_mem_filter he), h.2.filter _⟩
  · refine ⟨?_, tset_rising _ _ _ h.2⟩
    intro e he
    rcases mem_tset _ _ _ _ he with rfl | he
    · assumption
    · exact h.1 e he

/-! ### Memory -/

@[simp] theorem memory_wf_nil : Memory.wf [] = true := rfl

theorem memory_write_wf (m : List Host.Cell) (a : Nat) (b : Byte) (h : Memory.wf m = true) :
    Memory.wf (Memory.write m a b) = true := tput_wf _ _ _ _ h

@[simp] theorem memory_read_write_same (m : List Host.Cell) (a : Nat) (b : Byte) :
    Memory.read (Memory.write m a b) a = b := tget_tput_same _ _ _ _

theorem memory_read_write_other (m : List Host.Cell) (a p : Nat) (b : Byte) (h : p ≠ a) :
    Memory.read (Memory.write m a b) p = Memory.read m p := tget_tput_other _ _ _ _ _ h

/-- A sequence of memory operations that each keep the canonical form keeps it. -/
theorem memory_write_foldl_wf {β : Type} (l : List β) (f : List Host.Cell → β → List Host.Cell)
    (hf : ∀ m b, Memory.wf m = true → Memory.wf (f m b) = true) (m : List Host.Cell) (h : Memory.wf m = true) :
    Memory.wf (l.foldl f m) = true := by
  induction l generalizing m with
  | nil => exact h
  | cons a l ih => exact ih _ (hf _ _ h)

theorem writeByte_memOk (s : State) (pa : Nat) (b : Byte) (h : Memory.wf s.mem = true) :
    Memory.wf (s.writeByte pa b).mem = true := by
  unfold State.writeByte
  split
  · exact h
  · split
    · exact h
    · exact memory_write_wf _ _ _ h

theorem writeBytes_memOk (bs : List Byte) (s : State) (pa : Nat) (h : Memory.wf s.mem = true) :
    Memory.wf (s.writeBytes pa bs).mem = true := by
  induction bs generalizing s pa with
  | nil => exact h
  | cons b l ih => exact ih _ _ (writeByte_memOk _ _ _ h)

@[simp] theorem setPoison_mem (s : State) (pa : Nat) (p : Bool) : (s.setPoison pa p).mem = s.mem := by
  unfold State.setPoison
  dsimp only
  split <;> rfl

theorem foldl_mem {β : Type} (l : List β) (f : State → β → State) (hf : ∀ t b, (f t b).mem = t.mem) (s : State) :
    (l.foldl f s).mem = s.mem := by
  induction l generalizing s with
  | nil => rfl
  | cons a l ih => exact (ih _).trans (hf _ _)

@[simp] theorem clearWhole_mem (s : State) (pa n : Nat) : (s.clearWhole pa n).mem = s.mem := by
  refine foldl_mem _ _ (fun t i => ?_) _
  dsimp only
  split
  · exact setPoison_mem ..
  · rfl

theorem spadWrite_memOk (s : State) (ep off : Nat) (bs : List Byte) (h : Memory.wf s.mem = true) :
    Memory.wf (s.spadWrite ep off bs).mem = true := by
  unfold State.spadWrite
  rw [clearWhole_mem]
  exact writeBytes_memOk _ _ _ h

/-! ### A byte after a write -/

/-- Changing the first element with a property, to one that has it too, changes what is found first. -/
theorem find_mapFirst_same {α : Type} (l : List α) (p : α → Bool) (f : α → α) (hf : ∀ x, p (f x) = p x) :
    (mapFirst p f l).find? p = (l.find? p).map f := by
  induction l with
  | nil => rfl
  | cons a l ih =>
    unfold mapFirst
    by_cases h : p a
    · simp [h, hf]
    · simp [h, ih]

/-- What is found first by another property: as it was, or the changed element. -/
theorem find_mapFirst_other {α : Type} (l : List α) (p q : α → Bool) (f : α → α) (hq : ∀ x, q (f x) = q x) :
    (mapFirst p f l).find? q = l.find? q ∨ ∃ x, l.find? q = some x ∧ p x = true ∧ (mapFirst p f l).find? q = some (f x) := by
  induction l with
  | nil => exact .inl rfl
  | cons a l ih =>
    unfold mapFirst
    by_cases h : p a
    · by_cases h2 : q a
      · refine .inr ⟨a, ?_, h, ?_⟩
        · simp [h2]
        · simp [h, hq, h2]
      · left
        simp [h, hq, h2]
    · by_cases h2 : q a
      · left
        simp [h, h2]
      · simpa [h, h2] using ih

theorem find_map_sector (l : List WbSector) (p : Nat) (f : WbSector → WbSector) (hf : ∀ x : WbSector, (f x).sector = x.sector) :
    (l.map f).find? (fun x => x.sector == p) = (l.find? (fun x => x.sector == p)).map f := by
  rw [List.find?_map]
  congr 2
  funext x
  simp [hf]

/-- Reading a byte after a write of a byte. -/
theorem readByte_writeByte (s : State) (pa p : Nat) (b : Byte) :
    (s.writeByte pa b).readByte p = if p = pa then b else s.readByte p := by
  unfold State.writeByte
  split
  · rename_i hl
    unfold State.readByte State.l2Find
    dsimp only
    by_cases hp : p = pa
    · subst hp
      rw [find_mapFirst_same _ _ _ (by intro x; rfl), if_pos rfl]
      cases hf : s.l2.find? (fun x => x.holds p) with
      | none =>
        rw [List.find?_eq_none] at hf
        obtain ⟨x, hx, hy⟩ := List.any_eq_true.1 hl
        exact absurd hy (hf x hx)
      | some x => exact tget_tput_same _ _ _ _
    · rw [if_neg hp]
      rcases find_mapFirst_other s.l2 (fun x => x.holds pa) (fun x => x.holds p)
        (fun l => { l with data := tput l.data (pa % 512) b Memory.unwritten,
                           dirty := l.dirty ||| BitVec.ofNat 4 (2 ^ ((pa / 128) % 4)) }) (by intro x; rfl)
        with h | ⟨x, h1, h2, h3⟩
      · rw [h]; rfl
      · rw [h3, h1]
        have hx := List.find?_some (p := fun y : L2Line => y.holds p) h1
        have e1 : x.line = p / 512 := by simp only [L2Line.holds, Bool.and_eq_true, decide_eq_true_eq] at hx; exact hx.1
        have e2 : x.line = pa / 512 := by simp only [L2Line.holds, Bool.and_eq_true, decide_eq_true_eq] at h2; exact h2.1
        exact tget_tput_other _ _ _ _ _ (by omega)
  · rename_i hl
    have hn : ∀ x, s.l2.find? (fun y => y.holds p) = some x → p ≠ pa := by
      rintro x hx rfl
      exact hl (List.any_eq_true.2 ⟨x, List.mem_of_find?_eq_some hx, List.find?_some (p := fun y : L2Line => y.holds p) hx⟩)
    split
    · rename_i hw
      unfold State.readByte State.l2Find State.lowByte
      dsimp only
      cases hf : s.l2.find? (fun x => x.holds p) with
      | some x => simp [hn x hf]
      | none =>
        dsimp only
        rw [find_map_sector _ _ _ (by intro x; split <;> rfl)]
        cases hg : s.wb.find? (fun x => x.sector == p / 128) with
        | none =>
          have : p ≠ pa := by
            rintro rfl
            rw [List.find?_eq_none] at hg
            obtain ⟨x, hx, hy⟩ := List.any_eq_true.1 hw
            exact hg x hx hy
          simp [this]
        | some x =>
          have hx := List.find?_some hg
          simp only [Option.map_some]
          by_cases hp : p = pa
          · subst hp
            rw [if_pos hx, if_pos rfl]
            exact tget_tput_same _ _ _ _
          · rw [if_neg hp]
            split
            · rename_i hh
              have h1 : x.sector = p / 128 := by simpa using hx
              have h2 : x.sector = pa / 128 := by simpa using hh
              exact tget_tput_other _ _ _ _ _ (by omega)
            · rfl
    · rename_i hw
      unfold State.readByte State.l2Find State.lowByte
      dsimp only
      cases hf : s.l2.find? (fun x => x.holds p) with
      | some x => simp [hn x hf]
      | none =>
        dsimp only
        cases hg : s.wb.find? (fun x => x.sector == p / 128) with
        | some x =>
          have : p ≠ pa := by
            rintro rfl
            exact hw (List.any_eq_true.2 ⟨x, List.mem_of_find?_eq_some hg,
              List.find?_some (p := fun y : WbSector => y.sector == p / 128) hg⟩)
          simp [this]
        | none =>
          by_cases hp : p = pa
          · subst hp
            simp
          · simp only [if_neg hp]
            exact memory_read_write_other _ _ _ _ hp

/-- A write of bytes leaves every byte outside them. -/
theorem readByte_writeBytes_outside (bs : List Byte) (s : State) (pa p : Nat) (h : p < pa ∨ pa + bs.length ≤ p) :
    (s.writeBytes pa bs).readByte p = s.readByte p := by
  induction bs generalizing s pa with
  | nil => rfl
  | cons b l ih =>
    simp only [List.length_cons] at h
    show ((s.writeByte pa b).writeBytes (pa + 1) l).readByte p = s.readByte p
    rw [ih _ _ (by omega), readByte_writeByte, if_neg (by omega)]

/-- A write of bytes leaves the i-th byte at the i-th address. -/
theorem readByte_writeBytes_inside (bs : List Byte) (s : State) (pa i : Nat) (h : i < bs.length) :
    (s.writeBytes pa bs).readByte (pa + i) = bs[i] := by
  induction bs generalizing s pa i with
  | nil => simp at h
  | cons b l ih =>
    show ((s.writeByte pa b).writeBytes (pa + 1) l).readByte (pa + i) = _
    cases i with
    | zero => rw [readByte_writeBytes_outside _ _ _ _ (by omega), Nat.add_zero, readByte_writeByte, if_pos rfl]; rfl
    | succ i =>
      have := ih (s.writeByte pa b) (pa + 1) i (by simpa using h)
      simpa [Nat.add_comm, Nat.add_left_comm, Nat.add_assoc] using this

end Sys2Proof.Machine
end

