-- ==== Sys2Proof/Laws/MemoryKept.lean ====
section
/-! SUPPORT. Every operation of the model keeps memory in its canonical form: one lemma for each operation and each
meaning that answers a state, in the order in which they call one another. A lemma `memOk_f` says it of what f answers;
`memOk_f_eq` says it of the state named in an equation for f's answer. -/

namespace Sys2Proof.Machine

/-! ### What it says of each kind of answer -/

/-- Every next state of an outcome has its memory in canonical form. -/
structure OutOk (o : Out) : Prop where
  of : ∀ t, o = .next t → t.memOk

/-- The state that a gate hands on has its memory in canonical form. -/
def StartOk : Start → Prop
  | .done t => t.memOk
  | .go t => t.memOk

/-- A property of the value of an option, if there is one. -/
structure OptOk {α : Type} (P : α → Prop) (o : Option α) : Prop where
  of : ∀ a, o = some a → P a

theorem outOk_next {t : State} (h : t.memOk) : OutOk (.next t) := ⟨fun _ e => Host.Outcome.next.inj e ▸ h⟩
theorem outOk_fault (f : Fault) : OutOk (.fault f) := ⟨fun _ e => nomatch e⟩
theorem outOk_refused (r : Refusal) : OutOk (.refused r) := ⟨fun _ e => nomatch e⟩
theorem outOk_ite {c : Prop} [Decidable c] {a b : Out} (ha : OutOk a) (hb : OutOk b) : OutOk (if c then a else b) := by
  split <;> assumption
theorem memOk_ite {c : Prop} [Decidable c] {a b : State} (ha : a.memOk) (hb : b.memOk) : State.memOk (if c then a else b) := by
  split <;> assumption
theorem startOk_done {t : State} (h : t.memOk) : StartOk (.done t) := h
theorem startOk_go {t : State} (h : t.memOk) : StartOk (.go t) := h
theorem startOk_ite {c : Prop} [Decidable c] {a b : Start} (ha : StartOk a) (hb : StartOk b) : StartOk (if c then a else b) := by
  split <;> assumption
theorem optOk_none {α : Type} {P : α → Prop} : OptOk P none := ⟨fun _ e => nomatch e⟩
theorem optOk_some {α : Type} {P : α → Prop} {a : α} (h : P a) : OptOk P (some a) := ⟨fun _ e => Option.some.inj e ▸ h⟩
theorem optOk_ite {α : Type} {P : α → Prop} {c : Prop} [Decidable c] {a b : Option α} (ha : OptOk P a) (hb : OptOk P b) :
    OptOk P (if c then a else b) := by
  split <;> assumption
/-- The state that a register write answers with has its memory in canonical form. -/
def WrittenOk : Written → Prop
  | .ok t => t.memOk
  | _ => True

theorem writtenOk_ok {t : State} (h : t.memOk) : WrittenOk (.ok t) := h
theorem writtenOk_wait {w : Wait} : WrittenOk (.wait w) := trivial
theorem writtenOk_illegal : WrittenOk .illegal := trivial
theorem writtenOk_ite {c : Prop} [Decidable c] {a b : Written} (ha : WrittenOk a) (hb : WrittenOk b) :
    WrittenOk (if c then a else b) := by
  split <;> assumption
theorem optOk_map_mem {α : Type} {P : α → Prop} {o : Option State} {g : State → α} (h : OptOk State.memOk o)
    (hg : ∀ t, t.memOk → P (g t)) : OptOk P (o.map g) :=
  ⟨fun a e => by
    obtain ⟨t, h1, rfl⟩ := Option.map_eq_some_iff.1 e
    exact hg t (h.of t h1)⟩
theorem optOk_map_snd {α β : Type} {P : α → Prop} {o : Option (β × State)} {g : β × State → α}
    (h : OptOk (fun r => r.2.memOk) o) (hg : ∀ t, t.2.memOk → P (g t)) : OptOk P (o.map g) :=
  ⟨fun a e => by
    obtain ⟨t, h1, rfl⟩ := Option.map_eq_some_iff.1 e
    exact hg t (h.of t h1)⟩
theorem optOk_map_any {α β : Type} {P : α → Prop} {o : Option β} {g : β → α} (hg : ∀ t, P (g t)) : OptOk P (o.map g) :=
  ⟨fun a e => by
    obtain ⟨t, h1, rfl⟩ := Option.map_eq_some_iff.1 e
    exact hg t⟩
theorem optOk_findSome {α β : Type} {P : α → Prop} {l : List β} {f : β → Option α} (h : ∀ i, OptOk P (f i)) :
    OptOk P (l.findSome? f) :=
  ⟨fun a e => by
    obtain ⟨i, _, h2⟩ := List.exists_of_findSome?_eq_some e
    exact (h i).of a h2⟩
theorem optOk_bind {α : Type} {P : α → Prop} {o : Option State} {g : State → Option α} (h : OptOk State.memOk o)
    (hg : ∀ t, t.memOk → OptOk P (g t)) : OptOk P (o.bind g) :=
  ⟨fun a e => by
    obtain ⟨t, h1, h2⟩ := Option.bind_eq_some_iff.1 e
    exact (hg t (h.of t h1)).of a h2⟩
theorem optOk_orElse {α : Type} {P : α → Prop} {o : Option α} {g : Unit → Option α} (h : OptOk P o)
    (hg : ∀ u, OptOk P (g u)) : OptOk P (o.orElse g) :=
  ⟨fun a e => by
    cases o with
    | none => exact (hg ()).of a e
    | some b => exact h.of a e⟩
theorem memOk_getD {o : Option State} {d : State} (h : OptOk State.memOk o) (hd : d.memOk) : State.memOk (o.getD d) := by
  cases o with
  | none => exact hd
  | some t => exact h.of t rfl
theorem memOk_of_some {o : Option State} {t : State} (e : o = some t) (h : OptOk State.memOk o) : t.memOk := h.of t e
theorem memOk_of_some_snd {α : Type} {o : Option (α × State)} {a : α} {t : State} (e : o = some (a, t))
    (h : OptOk (fun r => r.2.memOk) o) : t.memOk := h.of _ e
theorem memOk_of_some_fst {α : Type} {o : Option (State × α)} {r : State × α} (e : o = some r)
    (h : OptOk (fun r => r.1.memOk) o) : r.1.memOk := h.of _ e
theorem memOk_of_next {o : Out} {t : State} (e : o = .next t) (h : OutOk o) : t.memOk := h.of t e
theorem memOk_foldl {β : Type} {l : List β} {f : State → β → State} {s : State} (hf : ∀ t b, t.memOk → (f t b).memOk)
    (h : s.memOk) : State.memOk (l.foldl f s) := by
  induction l generalizing s with
  | nil => exact h
  | cons a l ih => exact ih (hf _ _ h)

theorem memOk_mk {x_cores x_clusters x_kilns x_l2 x_wb x_latches x_ackw x_held x_lcnt x_mem x_memKey x_poison
    x_ecc x_stamps x_landing x_mmio x_fkeys x_fkeysOld x_mkeys x_nm x_chip x_vdevs x_sags x_arbs x_disps
    x_egress x_net x_inbox x_sseqOut x_sseqIn x_skipped x_sluices x_linkOut x_linkIn x_hostOut x_pages x_ats
    x_shared x_dropped x_asks x_nextLock x_fresh x_farSpads x_farTabs x_phase x_phaseAt x_agenda x_cur x_now} :
    State.memOk (State.mk x_cores x_clusters x_kilns x_l2 x_wb x_latches x_ackw x_held x_lcnt x_mem x_memKey
    x_poison x_ecc x_stamps x_landing x_mmio x_fkeys x_fkeysOld x_mkeys x_nm x_chip x_vdevs x_sags x_arbs
    x_disps x_egress x_net x_inbox x_sseqOut x_sseqIn x_skipped x_sluices x_linkOut x_linkIn x_hostOut x_pages
    x_ats x_shared x_dropped x_asks x_nextLock x_fresh x_farSpads x_farTabs x_phase x_phaseAt x_agenda x_cur
    x_now) ↔
      Memory.wf x_mem = true := Iff.rfl
theorem wf_of_memOk {X : State} (h : X.memOk) : Memory.wf X.mem = true := h


/-! ### The operations -/

theorem memOk_State_setCore {a0 a1 a2} (h1 : State.memOk a0) :
    State.memOk (State.setCore a0 a1 a2) := by
  unfold State.setCore
  try dsimp only
  repeat' first
    | with_reducible assumption | intro _
    | (with_reducible first | apply memOk_ite | apply wf_of_memOk | apply memOk_foldl)
    | simp only [memOk_mk] | split | dsimp only

theorem memOk_State_onCore {a0 a1 a2} (h1 : State.memOk a0) :
    State.memOk (State.onCore a0 a1 a2) := by
  unfold State.onCore
  try dsimp only
  repeat' first
    | with_reducible assumption | intro _
    | (with_reducible first | apply memOk_ite | apply wf_of_memOk | apply memOk_foldl | apply memOk_State_setCore)
    | simp only [memOk_mk] | split | dsimp only

theorem memOk_State_onMe {a0 a1} (h1 : State.memOk a0) :
    State.memOk (State.onMe a0 a1) := by
  unfold State.onMe
  try dsimp only
  repeat' first
    | with_reducible assumption | intro _
    | (with_reducible first | apply memOk_ite | apply wf_of_memOk | apply memOk_foldl | apply memOk_State_onCore)
    | simp only [memOk_mk] | split | dsimp only

theorem memOk_State_onFrame {a0 a1} (h1 : State.memOk a0) :
    State.memOk (State.onFrame a0 a1) := by
  unfold State.onFrame
  try dsimp only
  repeat' first
    | with_reducible assumption | intro _
    | (with_reducible first | apply memOk_ite | apply wf_of_memOk | apply memOk_foldl | apply memOk_State_onMe)
    | simp only [memOk_mk] | split | dsimp only

theorem memOk_State_overflowPost {a0 a1} (h1 : State.memOk a0) :
    State.memOk (State.overflowPost a0 a1) := by
  unfold State.overflowPost
  try dsimp only
  repeat' first
    | with_reducible assumption | intro _
    | (with_reducible first | apply memOk_ite | apply wf_of_memOk | apply memOk_foldl | apply memOk_State_setCore)
    | simp only [memOk_mk] | split | dsimp only

theorem memOk_State_countAt {a0 a1 a2 a3 a4} (h1 : State.memOk a0) :
    State.memOk (State.countAt a0 a1 a2 a3 a4) := by
  unfold State.countAt
  try dsimp only
  repeat' first
    | with_reducible assumption | intro _
    | (with_reducible first
        | apply memOk_ite | apply wf_of_memOk | apply memOk_foldl | apply memOk_State_setCore
        | apply memOk_State_overflowPost)
    | simp only [memOk_mk] | split | dsimp only

theorem memOk_State_count {a0 a1 a2 a3} (h1 : State.memOk a0) :
    State.memOk (State.count a0 a1 a2 a3) := by
  unfold State.count
  try dsimp only
  repeat' first
    | with_reducible assumption | intro _
    | (with_reducible first | apply memOk_ite | apply wf_of_memOk | apply memOk_foldl | apply memOk_State_countAt)
    | simp only [memOk_mk] | split | dsimp only

theorem memOk_State_spend {a0 a1 a2} (h1 : State.memOk a0) :
    State.memOk (State.spend a0 a1 a2) := by
  unfold State.spend
  try dsimp only
  repeat' first
    | with_reducible assumption | intro _
    | (with_reducible first | apply memOk_ite | apply wf_of_memOk | apply memOk_foldl | apply memOk_State_count)
    | simp only [memOk_mk] | split | dsimp only

theorem memOk_State_stall {a0 a1} (h1 : State.memOk a0) :
    State.memOk (State.stall a0 a1) := by
  unfold State.stall
  try dsimp only
  repeat' first
    | with_reducible assumption | intro _
    | (with_reducible first
        | apply memOk_ite | apply wf_of_memOk | apply memOk_foldl | apply memOk_State_spend | apply memOk_State_onMe
        | apply memOk_State_count)
    | simp only [memOk_mk] | split | dsimp only

theorem memOk_State_send {a0 a1} (h1 : State.memOk a0) :
    State.memOk (State.send a0 a1) := by
  unfold State.send
  try dsimp only
  repeat' first
    | with_reducible assumption | intro _
    | (with_reducible first | apply memOk_ite | apply wf_of_memOk | apply memOk_foldl)
    | simp only [memOk_mk] | split | dsimp only

theorem memOk_State_sendQueries {a0 a1 a2} (h1 : State.memOk a0) :
    State.memOk (State.sendQueries a0 a1 a2) := by
  unfold State.sendQueries
  try dsimp only
  repeat' first
    | with_reducible assumption | intro _
    | (with_reducible first
        | apply memOk_ite | apply wf_of_memOk | apply memOk_foldl | apply memOk_State_onCore | apply memOk_State_send)
    | simp only [memOk_mk] | split | dsimp only

theorem memOk_State_queriesLeave {a0 a1} (h1 : State.memOk a0) :
    State.memOk (State.queriesLeave a0 a1) := by
  unfold State.queriesLeave
  try dsimp only
  repeat' first
    | with_reducible assumption | intro _
    | (with_reducible first | apply memOk_ite | apply wf_of_memOk | apply memOk_foldl | apply memOk_State_sendQueries)
    | simp only [memOk_mk] | split | dsimp only

theorem memOk_State_startAcquire {a0 a1 a2 a3 a4} (h1 : State.memOk a0) :
    State.memOk (State.startAcquire a0 a1 a2 a3 a4) := by
  unfold State.startAcquire
  try dsimp only
  repeat' first
    | with_reducible assumption | intro _
    | (with_reducible first
        | apply memOk_ite | apply wf_of_memOk | apply memOk_foldl | apply memOk_State_queriesLeave
        | apply memOk_State_onCore)
    | simp only [memOk_mk] | split | dsimp only

theorem memOk_State_startGate {a0} (h1 : State.memOk a0) :
    StartOk ((State.startGate a0)) := by
  unfold State.startGate
  try dsimp only
  repeat' first
    | with_reducible assumption | intro _
    | (with_reducible first
        | apply memOk_ite | apply wf_of_memOk | apply startOk_ite | apply startOk_done | apply startOk_go
        | apply memOk_foldl | apply memOk_State_onFrame | apply memOk_State_stall | apply memOk_State_startAcquire)
    | simp only [memOk_mk] | split | dsimp only

theorem memOk_State_startGate_eq {a0} {t} (e : State.startGate a0 = .done t) (h1 : State.memOk a0) : State.memOk t := by
  have := @memOk_State_startGate a0 h1
  rwa [e] at this
theorem memOk_State_startGate_eq2 {a0} {t} (e : State.startGate a0 = .go t) (h1 : State.memOk a0) : State.memOk t := by
  have := @memOk_State_startGate a0 h1
  rwa [e] at this

theorem memOk_State_setMmio {a0 a1 a2} (h1 : State.memOk a0) :
    State.memOk (State.setMmio a0 a1 a2) := by
  unfold State.setMmio
  try dsimp only
  repeat' first
    | with_reducible assumption | intro _
    | (with_reducible first | apply memOk_ite | apply wf_of_memOk | apply memOk_foldl)
    | simp only [memOk_mk] | split | dsimp only

theorem memOk_State_writeBytes {a0 a1 a2} (h1 : State.memOk a0) :
    State.memOk (State.writeBytes a0 a1 a2) := writeBytes_memOk _ _ _ h1

theorem memOk_State_report {a0 a1} (h1 : State.memOk a0) :
    State.memOk (State.report a0 a1) := by
  unfold State.report
  try dsimp only
  repeat' first
    | with_reducible assumption | intro _
    | (with_reducible first
        | apply memOk_ite | apply wf_of_memOk | apply memOk_foldl | apply memOk_State_setMmio
        | apply memOk_State_writeBytes)
    | simp only [memOk_mk] | split | dsimp only

theorem memOk_State_mergeHit {a0 a1} (h1 : State.memOk a0) :
    State.memOk (State.mergeHit a0 a1) := by
  unfold State.mergeHit
  try dsimp only
  repeat' first
    | with_reducible assumption | intro _
    | (with_reducible first | apply memOk_ite | apply wf_of_memOk | apply memOk_foldl | apply memOk_State_writeBytes)
    | simp only [memOk_mk] | split | dsimp only

theorem memOk_State_onSag {a0 a1 a2} (h1 : State.memOk a0) :
    State.memOk (State.onSag a0 a1 a2) := by
  unfold State.onSag
  try dsimp only
  repeat' first
    | with_reducible assumption | intro _
    | (with_reducible first | apply memOk_ite | apply wf_of_memOk | apply memOk_foldl)
    | simp only [memOk_mk] | split | dsimp only

theorem memOk_State_machineCheck {a0 a1 a2 a3 a4 a5 a6} (h1 : State.memOk a0) :
    State.memOk (State.machineCheck a0 a1 a2 a3 a4 a5 a6) := by
  unfold State.machineCheck
  try dsimp only
  repeat' first
    | with_reducible assumption | intro _
    | (with_reducible first
        | apply memOk_ite | apply wf_of_memOk | apply memOk_foldl | apply memOk_State_report
        | apply memOk_State_mergeHit | apply memOk_State_onSag)
    | simp only [memOk_mk] | split | dsimp only

theorem memOk_State_checker {a0} (h1 : State.memOk a0) :
    StartOk ((State.checker a0)) := by
  unfold State.checker
  try dsimp only
  repeat' first
    | with_reducible assumption | intro _
    | (with_reducible first
        | apply memOk_ite | apply wf_of_memOk | apply startOk_ite | apply startOk_done | apply startOk_go
        | apply memOk_foldl | apply memOk_State_machineCheck | apply memOk_State_onMe | apply memOk_State_spend
        | apply memOk_State_report)
    | simp only [memOk_mk] | split | dsimp only

theorem memOk_State_checker_eq {a0} {t} (e : State.checker a0 = .done t) (h1 : State.memOk a0) : State.memOk t := by
  have := @memOk_State_checker a0 h1
  rwa [e] at this
theorem memOk_State_checker_eq2 {a0} {t} (e : State.checker a0 = .go t) (h1 : State.memOk a0) : State.memOk t := by
  have := @memOk_State_checker a0 h1
  rwa [e] at this

theorem memOk_State_touch {a0 a1 a2 a3} (h1 : State.memOk a0) :
    State.memOk (State.touch a0 a1 a2 a3) := by
  unfold State.touch
  try dsimp only
  repeat' first
    | with_reducible assumption | intro _
    | (with_reducible first | apply memOk_ite | apply wf_of_memOk | apply memOk_foldl)
    | simp only [memOk_mk] | split | dsimp only

theorem memOk_State_lcount {a0 a1 a2 a3} (h1 : State.memOk a0) :
    State.memOk (State.lcount a0 a1 a2 a3) := by
  unfold State.lcount
  try dsimp only
  repeat' first
    | with_reducible assumption | intro _
    | (with_reducible first
        | apply memOk_ite | apply wf_of_memOk | apply memOk_foldl | apply memOk_State_onCore
        | apply memOk_State_overflowPost)
    | simp only [memOk_mk] | split | dsimp only

theorem memOk_State_hostPoison {a0 a1 a2 a3} (h1 : State.memOk a0) :
    State.memOk (State.hostPoison a0 a1 a2 a3) := by
  unfold State.hostPoison
  try dsimp only
  repeat' first
    | with_reducible assumption | intro _
    | (with_reducible first | apply memOk_ite | apply wf_of_memOk | apply memOk_foldl | apply memOk_State_report)
    | simp only [memOk_mk] | split | dsimp only

theorem memOk_State_readEcc {a0 a1 a2} (h1 : State.memOk a0) :
    State.memOk (State.readEcc a0 a1 a2) := by
  unfold State.readEcc
  try dsimp only
  repeat' first
    | with_reducible assumption | intro _
    | (with_reducible first | apply memOk_ite | apply wf_of_memOk | apply memOk_foldl | apply memOk_State_report)
    | simp only [memOk_mk] | split | dsimp only

theorem memOk_State_tell {a0 a1 a2 a3 a4} (h1 : State.memOk a0) :
    State.memOk (State.tell a0 a1 a2 a3 a4) := by
  unfold State.tell
  try dsimp only
  repeat' first
    | with_reducible assumption | intro _
    | (with_reducible first | apply memOk_ite | apply wf_of_memOk | apply memOk_foldl | apply memOk_State_send)
    | simp only [memOk_mk] | split | dsimp only

theorem memOk_State_scanEcc {a0 a1 a2 a3} (h1 : State.memOk a0) :
    State.memOk (State.scanEcc a0 a1 a2 a3) := by
  unfold State.scanEcc
  try dsimp only
  repeat' first
    | with_reducible assumption | intro _
    | (with_reducible first | apply memOk_ite | apply wf_of_memOk | apply memOk_foldl | apply memOk_State_readEcc)
    | simp only [memOk_mk] | split | dsimp only

theorem memOk_State_readEntry {a0 a1 a2} (h1 : State.memOk a0) :
    State.memOk (State.readEntry a0 a1 a2) := by
  unfold State.readEntry
  try dsimp only
  repeat' first
    | with_reducible assumption | intro _
    | (with_reducible first
        | apply memOk_ite | apply wf_of_memOk | apply memOk_foldl | apply memOk_State_scanEcc
        | apply memOk_State_machineCheck)
    | simp only [memOk_mk] | split | dsimp only

theorem memOk_State_rekey {a0 a1 a2} (h1 : State.memOk a0) :
    State.memOk (State.rekey a0 a1 a2) := by
  unfold State.rekey
  try dsimp only
  repeat' first
    | with_reducible assumption | intro _
    | (with_reducible first
        | apply memOk_ite | apply wf_of_memOk | apply memory_write_wf | apply memory_write_foldl_wf | apply outOk_next
        | apply outOk_ite | apply startOk_ite | apply startOk_done | apply startOk_go | apply writtenOk_ite
        | apply writtenOk_ok | apply writtenOk_wait | apply writtenOk_illegal | apply optOk_none | apply optOk_some
        | apply optOk_ite | apply optOk_map_mem | apply optOk_map_snd | apply optOk_map_any | apply optOk_findSome
        | apply optOk_bind | apply optOk_orElse | apply memOk_getD | apply memOk_foldl)
    | exact outOk_fault _ | exact outOk_refused _
    | with_reducible refine memOk_of_next (by assumption) ?_
    | with_reducible refine memOk_of_some_snd (by assumption) ?_
    | with_reducible refine memOk_of_some (by assumption) ?_
    | with_reducible refine memOk_of_some_fst (by assumption) ?_
    | simp only [memOk_mk] | split | dsimp only

theorem memOk_State_writeKeyed {a0 a1 a2 a3} (h1 : State.memOk a0) :
    State.memOk (State.writeKeyed a0 a1 a2 a3) := by
  unfold State.writeKeyed
  try dsimp only
  repeat' first
    | with_reducible assumption | intro _
    | (with_reducible first
        | apply memOk_ite | apply wf_of_memOk | apply memOk_foldl | apply memOk_State_writeBytes
        | apply memOk_State_rekey)
    | simp only [memOk_mk] | split | dsimp only

theorem memOk_State_saveReady {a0 a1 a2 a3 a4} (h1 : State.memOk a0) :
    State.memOk (State.saveReady a0 a1 a2 a3 a4) := by
  unfold State.saveReady
  try dsimp only
  repeat' first
    | with_reducible assumption | intro _
    | (with_reducible first | apply memOk_ite | apply wf_of_memOk | apply memOk_foldl | apply memOk_State_writeKeyed)
    | simp only [memOk_mk] | split | dsimp only

theorem memOk_State_putSaved {a0 a1 a2 a3} (h1 : State.memOk a0) :
    State.memOk (State.putSaved a0 a1 a2 a3) := by
  unfold State.putSaved
  try dsimp only
  repeat' first
    | with_reducible assumption | intro _
    | (with_reducible first
        | apply memOk_ite | apply wf_of_memOk | apply memOk_foldl | apply memOk_State_saveReady
        | apply memOk_State_onCore)
    | simp only [memOk_mk] | split | dsimp only

theorem memOk_State_hwPost {a0 a1 a2 a3 a4 a5} (h1 : State.memOk a0) :
    State.memOk (State.hwPost a0 a1 a2 a3 a4 a5) := by
  unfold State.hwPost
  try dsimp only
  repeat' first
    | with_reducible assumption | intro _
    | (with_reducible first
        | apply memOk_ite | apply wf_of_memOk | apply memOk_foldl | apply memOk_State_setCore
        | apply memOk_State_putSaved)
    | simp only [memOk_mk] | split | dsimp only

theorem memOk_State_finishAckw {a0} (h1 : State.memOk a0) :
    State.memOk (State.finishAckw a0) := by
  unfold State.finishAckw
  try dsimp only
  repeat' first
    | with_reducible assumption | intro _
    | (with_reducible first | apply memOk_ite | apply wf_of_memOk | apply memOk_foldl)
    | simp only [memOk_mk] | split | dsimp only

theorem memOk_State_freeLatch {a0 a1} (h1 : State.memOk a0) :
    State.memOk (State.freeLatch a0 a1) := by
  unfold State.freeLatch
  try dsimp only
  repeat' first
    | with_reducible assumption | intro _
    | (with_reducible first | apply memOk_ite | apply wf_of_memOk | apply memOk_foldl | apply memOk_State_finishAckw)
    | simp only [memOk_mk] | split | dsimp only

theorem memOk_State_latchPost {a0 a1 a2 a3 a4 a5 a6} (h1 : State.memOk a0) :
    State.memOk (State.latchPost a0 a1 a2 a3 a4 a5 a6) := by
  unfold State.latchPost
  try dsimp only
  repeat' first
    | with_reducible assumption | intro _
    | (with_reducible first
        | apply memOk_ite | apply wf_of_memOk | apply memOk_foldl | apply memOk_State_readEntry
        | apply memOk_State_hwPost | apply memOk_State_freeLatch)
    | simp only [memOk_mk] | split | dsimp only

theorem memOk_State_evict {a0 a1} (h1 : State.memOk a0) :
    State.memOk (State.evict a0 a1) := by
  unfold State.evict
  try dsimp only
  repeat' first
    | with_reducible assumption | intro _
    | (with_reducible first
        | apply memOk_ite | apply wf_of_memOk | apply memOk_foldl | apply memOk_State_tell
        | apply memOk_State_latchPost)
    | simp only [memOk_mk] | split | dsimp only

theorem memOk_State_putSector {a0 a1 a2 a3 a4 a5} (h1 : State.memOk a0) :
    State.memOk (State.putSector a0 a1 a2 a3 a4 a5) := by
  unfold State.putSector
  try dsimp only
  repeat' first
    | with_reducible assumption | intro _
    | (with_reducible first
        | apply memOk_ite | apply wf_of_memOk | apply memOk_foldl | apply memOk_State_hostPoison
        | apply memOk_State_readEcc | apply memOk_State_evict | apply memOk_State_lcount)
    | simp only [memOk_mk] | split | dsimp only

theorem memOk_State_setArb {a0 a1 a2 a3} (h1 : State.memOk a0) :
    State.memOk (State.setArb a0 a1 a2 a3) := by
  unfold State.setArb
  try dsimp only
  repeat' first
    | with_reducible assumption | intro _
    | (with_reducible first | apply memOk_ite | apply wf_of_memOk | apply memOk_foldl)
    | simp only [memOk_mk] | split | dsimp only

theorem memOk_State_makeFill {a0 a1 a2} (h1 : State.memOk a0) :
    State.memOk (State.makeFill a0 a1 a2) := by
  unfold State.makeFill
  try dsimp only
  repeat' first
    | with_reducible assumption | intro _
    | (with_reducible first
        | apply memOk_ite | apply wf_of_memOk | apply memOk_foldl | apply memOk_State_putSector
        | apply memOk_State_lcount)
    | simp only [memOk_mk] | split | dsimp only

theorem memOk_State_writeBack {a0 a1} (h1 : State.memOk a0) :
    State.memOk (State.writeBack a0 a1) := by
  unfold State.writeBack
  try dsimp only
  repeat' first
    | with_reducible assumption | intro _
    | (with_reducible first
        | apply memOk_ite | apply wf_of_memOk | apply memory_write_wf | apply memory_write_foldl_wf | apply outOk_next
        | apply outOk_ite | apply startOk_ite | apply startOk_done | apply startOk_go | apply writtenOk_ite
        | apply writtenOk_ok | apply writtenOk_wait | apply writtenOk_illegal | apply optOk_none | apply optOk_some
        | apply optOk_ite | apply optOk_map_mem | apply optOk_map_snd | apply optOk_map_any | apply optOk_findSome
        | apply optOk_bind | apply optOk_orElse | apply memOk_getD | apply memOk_foldl | apply memOk_State_lcount)
    | exact outOk_fault _ | exact outOk_refused _
    | with_reducible refine memOk_of_next (by assumption) ?_
    | with_reducible refine memOk_of_some_snd (by assumption) ?_
    | with_reducible refine memOk_of_some (by assumption) ?_
    | with_reducible refine memOk_of_some_fst (by assumption) ?_
    | simp only [memOk_mk] | split | dsimp only

theorem memOk_State_arbGrant {a0 a1 a2} (h1 : State.memOk a0) :
    State.memOk (State.arbGrant a0 a1 a2) := by
  unfold State.arbGrant
  try dsimp only
  repeat' first
    | with_reducible assumption | intro _
    | (with_reducible first
        | apply memOk_ite | apply wf_of_memOk | apply memOk_foldl | apply memOk_State_setArb
        | apply memOk_State_makeFill | apply memOk_State_writeBack)
    | simp only [memOk_mk] | split | dsimp only

theorem memOk_State_ask {a0 a1} (h1 : State.memOk a0) :
    State.memOk (State.ask a0 a1) := by
  unfold State.ask
  try dsimp only
  repeat' first
    | with_reducible assumption | intro _
    | (with_reducible first | apply memOk_ite | apply wf_of_memOk | apply memOk_foldl)
    | simp only [memOk_mk] | split | dsimp only

theorem memOk_State_bring {a0 a1 a2 a3 a4 a5} (h1 : State.memOk a0) :
    State.memOk (State.bring a0 a1 a2 a3 a4 a5) := by
  unfold State.bring
  try dsimp only
  repeat' first
    | with_reducible assumption | intro _
    | (with_reducible first
        | apply memOk_ite | apply wf_of_memOk | apply memOk_foldl | apply memOk_State_touch | apply memOk_State_lcount
        | apply memOk_State_putSector | apply memOk_State_arbGrant | apply memOk_State_ask)
    | simp only [memOk_mk] | split | dsimp only

theorem memOk_State_reach {a0 a1 a2} (h1 : State.memOk a0) :
    State.memOk ((State.reach a0 a1 a2)).2 := by
  unfold State.reach
  try dsimp only
  repeat' first
    | with_reducible assumption | intro _
    | (with_reducible first | apply memOk_ite | apply wf_of_memOk | apply memOk_foldl | apply memOk_State_bring)
    | simp only [memOk_mk] | split | dsimp only

theorem memOk_State_reach_eq {a0 a1 a2} {c1 t} (e : State.reach a0 a1 a2 = (c1, t)) (h1 : State.memOk a0)
    : State.memOk t := by
  have := @memOk_State_reach a0 a1 a2 h1
  rwa [e] at this

theorem memOk_State_trapReady {a0 a1 a2} (h1 : State.memOk a0) :
    State.memOk ((State.trapReady a0 a1 a2)).2 := by
  unfold State.trapReady
  try dsimp only
  repeat' first
    | with_reducible assumption | intro _
    | (with_reducible first | apply memOk_ite | apply wf_of_memOk | apply memOk_foldl | apply memOk_State_reach)
    | with_reducible refine memOk_State_reach_eq (by assumption) ?_
    | simp only [memOk_mk] | split | dsimp only

theorem memOk_State_trapReady_eq {a0 a1 a2} {c1 t} (e : State.trapReady a0 a1 a2 = (c1, t)) (h1 : State.memOk a0)
    : State.memOk t := by
  have := @memOk_State_trapReady a0 a1 a2 h1
  rwa [e] at this

theorem memOk_State_spillWindow {a0 a1 a2} (h1 : State.memOk a0) :
    State.memOk (State.spillWindow a0 a1 a2) := by
  unfold State.spillWindow
  try dsimp only
  repeat' first
    | with_reducible assumption | intro _
    | (with_reducible first | apply memOk_ite | apply wf_of_memOk | apply memOk_foldl | apply memOk_State_writeKeyed)
    | simp only [memOk_mk] | split | dsimp only

theorem memOk_State_revokeOne {a0 a1} (h1 : State.memOk a0) :
    State.memOk (State.revokeOne a0 a1) := by
  unfold State.revokeOne
  try dsimp only
  repeat' first
    | with_reducible assumption | intro _
    | (with_reducible first
        | apply memOk_ite | apply wf_of_memOk | apply memOk_foldl | apply memOk_State_onCore
        | apply memOk_State_spillWindow)
    | simp only [memOk_mk] | split | dsimp only

theorem memOk_State_cover {a0 a1} (h1 : State.memOk a0) :
    State.memOk (State.cover a0 a1) := by
  unfold State.cover
  try dsimp only
  repeat' first
    | with_reducible assumption | intro _
    | (with_reducible first
        | apply memOk_ite | apply wf_of_memOk | apply memOk_foldl | apply memOk_State_onCore | apply memOk_State_spend
        | apply memOk_State_revokeOne | apply memOk_State_spillWindow)
    | simp only [memOk_mk] | split | dsimp only

theorem memOk_State_onKiln {a0 a1 a2} (h1 : State.memOk a0) :
    State.memOk (State.onKiln a0 a1 a2) := by
  unfold State.onKiln
  try dsimp only
  repeat' first
    | with_reducible assumption | intro _
    | (with_reducible first | apply memOk_ite | apply wf_of_memOk | apply memOk_foldl)
    | simp only [memOk_mk] | split | dsimp only

theorem memOk_State_checkpoint {a0 a1} (h1 : State.memOk a0) :
    State.memOk (State.checkpoint a0 a1) := by
  unfold State.checkpoint
  try dsimp only
  repeat' first
    | with_reducible assumption | intro _
    | (with_reducible first
        | apply memOk_ite | apply wf_of_memOk | apply memOk_foldl | apply memOk_State_onCore
        | apply memOk_State_onKiln)
    | simp only [memOk_mk] | split | dsimp only

theorem memOk_State_setPoison {a0 a1 a2} (h1 : State.memOk a0) :
    State.memOk (State.setPoison a0 a1 a2) := by
  unfold State.setPoison
  try dsimp only
  repeat' first
    | with_reducible assumption | intro _
    | (with_reducible first | apply memOk_ite | apply wf_of_memOk | apply memOk_foldl)
    | simp only [memOk_mk] | split | dsimp only

theorem memOk_State_clearWhole {a0 a1 a2} (h1 : State.memOk a0) :
    State.memOk (State.clearWhole a0 a1 a2) := by
  unfold State.clearWhole
  try dsimp only
  repeat' first
    | with_reducible assumption | intro _
    | (with_reducible first | apply memOk_ite | apply wf_of_memOk | apply memOk_foldl | apply memOk_State_setPoison)
    | simp only [memOk_mk] | split | dsimp only

theorem memOk_State_spadWrite {a0 a1 a2 a3} (h1 : State.memOk a0) :
    State.memOk (State.spadWrite a0 a1 a2 a3) := by
  unfold State.spadWrite
  try dsimp only
  repeat' first
    | with_reducible assumption | intro _
    | (with_reducible first
        | apply memOk_ite | apply wf_of_memOk | apply memOk_foldl | apply memOk_State_clearWhole
        | apply memOk_State_writeBytes)
    | simp only [memOk_mk] | split | dsimp only

theorem memOk_State_putFrame {a0 a1 a2 a3} (h1 : State.memOk a0) :
    State.memOk (State.putFrame a0 a1 a2 a3) := by
  unfold State.putFrame
  try dsimp only
  repeat' first
    | with_reducible assumption | intro _
    | (with_reducible first
        | apply memOk_ite | apply wf_of_memOk | apply memOk_foldl | apply memOk_State_cover | apply memOk_State_onCore
        | apply memOk_State_count | apply memOk_State_checkpoint | apply memOk_State_spadWrite)
    | simp only [memOk_mk] | split | dsimp only

theorem memOk_State_enterTrap {a0 a1 a2 a3 a4 a5} (h1 : State.memOk a0) :
    State.memOk (State.enterTrap a0 a1 a2 a3 a4 a5) := by
  unfold State.enterTrap
  try dsimp only
  repeat' first
    | with_reducible assumption | intro _
    | (with_reducible first
        | apply memOk_ite | apply wf_of_memOk | apply memOk_foldl | apply memOk_State_machineCheck
        | apply memOk_State_putFrame)
    | simp only [memOk_mk] | split | dsimp only

theorem memOk_State_trapWait {a0 a1} (h1 : State.memOk a0) :
    State.memOk (State.trapWait a0 a1) := by
  unfold State.trapWait
  try dsimp only
  repeat' first
    | with_reducible assumption | intro _
    | (with_reducible first
        | apply memOk_ite | apply wf_of_memOk | apply memOk_foldl | apply memOk_State_spend
        | apply memOk_State_onCore)
    | simp only [memOk_mk] | split | dsimp only

theorem memOk_State_takeTrap {a0 a1 a2 a3 a4 a5} (h1 : State.memOk a0) :
    State.memOk (State.takeTrap a0 a1 a2 a3 a4 a5) := by
  unfold State.takeTrap
  try dsimp only
  repeat' first
    | with_reducible assumption | intro _
    | (with_reducible first
        | apply memOk_ite | apply wf_of_memOk | apply memOk_foldl | apply memOk_State_trapReady
        | apply memOk_State_enterTrap | apply memOk_State_trapWait)
    | with_reducible refine memOk_State_trapReady_eq (by assumption) ?_
    | simp only [memOk_mk] | split | dsimp only

theorem memOk_State_trap {a0 a1 a2} (h1 : State.memOk a0) :
    State.memOk (State.trap a0 a1 a2) := by
  unfold State.trap
  try dsimp only
  repeat' first
    | with_reducible assumption | intro _
    | (with_reducible first | apply memOk_ite | apply wf_of_memOk | apply memOk_foldl | apply memOk_State_takeTrap)
    | simp only [memOk_mk] | split | dsimp only

theorem memOk_State_fetchGate {a0 a1} (h1 : State.memOk a0) :
    StartOk ((State.fetchGate a0 a1)) := by
  unfold State.fetchGate
  try dsimp only
  repeat' first
    | with_reducible assumption | intro _
    | (with_reducible first
        | apply memOk_ite | apply wf_of_memOk | apply startOk_ite | apply startOk_done | apply startOk_go
        | apply memOk_foldl | apply memOk_State_trap)
    | simp only [memOk_mk] | split | dsimp only

theorem memOk_State_fetchGate_eq {a0 a1} {t} (e : State.fetchGate a0 a1 = .done t) (h1 : State.memOk a0)
    : State.memOk t := by
  have := @memOk_State_fetchGate a0 a1 h1
  rwa [e] at this
theorem memOk_State_fetchGate_eq2 {a0 a1} {t} (e : State.fetchGate a0 a1 = .go t) (h1 : State.memOk a0)
    : State.memOk t := by
  have := @memOk_State_fetchGate a0 a1 h1
  rwa [e] at this

theorem memOk_State_consumeReg {a0 a1} (h1 : State.memOk a0) :
    State.memOk (State.consumeReg a0 a1) := by
  unfold State.consumeReg
  try dsimp only
  repeat' first
    | with_reducible assumption | intro _
    | (with_reducible first | apply memOk_ite | apply wf_of_memOk | apply memOk_foldl | apply memOk_State_machineCheck)
    | simp only [memOk_mk] | split | dsimp only

theorem memOk_State_rouse {a0 a1 a2} (h1 : State.memOk a0) :
    State.memOk (State.rouse a0 a1 a2) := by
  unfold State.rouse
  try dsimp only
  repeat' first
    | with_reducible assumption | intro _
    | (with_reducible first | apply memOk_ite | apply wf_of_memOk | apply memOk_foldl | apply memOk_State_setCore)
    | simp only [memOk_mk] | split | dsimp only

theorem memOk_State_wake {a0 a1 a2} (h1 : State.memOk a0) :
    State.memOk (State.wake a0 a1 a2) := by
  unfold State.wake
  try dsimp only
  repeat' first
    | with_reducible assumption | intro _
    | (with_reducible first | apply memOk_ite | apply wf_of_memOk | apply memOk_foldl | apply memOk_State_setCore)
    | simp only [memOk_mk] | split | dsimp only

theorem memOk_State_bankGate {a0 a1 a2} (h1 : State.memOk a0) :
    StartOk ((State.bankGate a0 a1 a2)) := by
  unfold State.bankGate
  try dsimp only
  repeat' first
    | with_reducible assumption | intro _
    | (with_reducible first
        | apply memOk_ite | apply wf_of_memOk | apply startOk_ite | apply startOk_done | apply startOk_go
        | apply memOk_foldl | apply memOk_State_stall | apply memOk_State_rouse | apply memOk_State_wake)
    | simp only [memOk_mk] | split | dsimp only

theorem memOk_State_bankGate_eq {a0 a1 a2} {t} (e : State.bankGate a0 a1 a2 = .done t) (h1 : State.memOk a0)
    : State.memOk t := by
  have := @memOk_State_bankGate a0 a1 a2 h1
  rwa [e] at this
theorem memOk_State_bankGate_eq2 {a0 a1 a2} {t} (e : State.bankGate a0 a1 a2 = .go t) (h1 : State.memOk a0)
    : State.memOk t := by
  have := @memOk_State_bankGate a0 a1 a2 h1
  rwa [e] at this

theorem memOk_State_regGate {a0 a1 a2 a3} (h1 : State.memOk a0) :
    StartOk ((State.regGate a0 a1 a2 a3)) := by
  unfold State.regGate
  try dsimp only
  repeat' first
    | with_reducible assumption | intro _
    | (with_reducible first
        | apply memOk_ite | apply wf_of_memOk | apply startOk_ite | apply startOk_done | apply startOk_go
        | apply memOk_foldl | apply memOk_State_trap | apply memOk_State_stall | apply memOk_State_consumeReg
        | apply memOk_State_bankGate)
    | with_reducible refine memOk_State_bankGate_eq (by assumption) ?_
    | with_reducible refine memOk_State_bankGate_eq2 (by assumption) ?_
    | simp only [memOk_mk] | split | dsimp only

theorem memOk_State_regGate_eq {a0 a1 a2 a3} {t} (e : State.regGate a0 a1 a2 a3 = .done t) (h1 : State.memOk a0)
    : State.memOk t := by
  have := @memOk_State_regGate a0 a1 a2 a3 h1
  rwa [e] at this
theorem memOk_State_regGate_eq2 {a0 a1 a2 a3} {t} (e : State.regGate a0 a1 a2 a3 = .go t) (h1 : State.memOk a0)
    : State.memOk t := by
  have := @memOk_State_regGate a0 a1 a2 a3 h1
  rwa [e] at this

theorem memOk_State_begin {a0 a1 a2 a3 a4} (h1 : State.memOk a0) :
    StartOk ((State.begin a0 a1 a2 a3 a4)) := by
  unfold State.begin
  try dsimp only
  repeat' first
    | with_reducible assumption | intro _
    | (with_reducible first
        | apply memOk_ite | apply wf_of_memOk | apply startOk_ite | apply startOk_done | apply startOk_go
        | apply memOk_foldl | apply memOk_State_startGate | apply memOk_State_checker | apply memOk_State_fetchGate
        | apply memOk_State_regGate)
    | with_reducible refine memOk_State_startGate_eq (by assumption) ?_
    | with_reducible refine memOk_State_checker_eq (by assumption) ?_
    | with_reducible refine memOk_State_fetchGate_eq (by assumption) ?_
    | with_reducible refine memOk_State_regGate_eq (by assumption) ?_
    | with_reducible refine memOk_State_startGate_eq2 (by assumption) ?_
    | with_reducible refine memOk_State_checker_eq2 (by assumption) ?_
    | with_reducible refine memOk_State_fetchGate_eq2 (by assumption) ?_
    | with_reducible refine memOk_State_regGate_eq2 (by assumption) ?_
    | simp only [memOk_mk] | split | dsimp only

theorem memOk_State_begin_eq {a0 a1 a2 a3 a4} {t} (e : State.begin a0 a1 a2 a3 a4 = .done t) (h1 : State.memOk a0)
    : State.memOk t := by
  have := @memOk_State_begin a0 a1 a2 a3 a4 h1
  rwa [e] at this
theorem memOk_State_begin_eq2 {a0 a1 a2 a3 a4} {t} (e : State.begin a0 a1 a2 a3 a4 = .go t) (h1 : State.memOk a0)
    : State.memOk t := by
  have := @memOk_State_begin a0 a1 a2 a3 a4 h1
  rwa [e] at this

theorem memOk_State_afterDead {a0 a1} (h1 : State.memOk a0) (h2 : State.memOk a1) :
    State.memOk (State.afterDead a0 a1) := by
  unfold State.afterDead
  try dsimp only
  repeat' first
    | with_reducible assumption | intro _
    | (with_reducible first | apply memOk_ite | apply wf_of_memOk | apply memOk_foldl | apply memOk_State_onMe)
    | simp only [memOk_mk] | split | dsimp only

theorem memOk_State_run {a0 a1 a2 a3 a4 a5} (h1 : State.memOk a0) (h6 : ∀ b0, State.memOk b0 → State.memOk (a5 b0)) :
    OutOk ((State.run a0 a1 a2 a3 a4 a5)) := by
  unfold State.run
  try dsimp only
  repeat' first
    | with_reducible assumption | intro _
    | (with_reducible first
        | apply memOk_ite | apply wf_of_memOk | apply outOk_next | apply outOk_ite | apply memOk_foldl
        | apply memOk_State_begin | apply memOk_State_afterDead | apply h6)
    | with_reducible refine memOk_State_begin_eq (by assumption) ?_
    | with_reducible refine memOk_State_begin_eq2 (by assumption) ?_
    | simp only [memOk_mk] | split | dsimp only

theorem memOk_State_illegal {a0 a1} (h1 : State.memOk a0) :
    State.memOk (State.illegal a0 a1) := by
  unfold State.illegal
  try dsimp only
  repeat' first
    | with_reducible assumption | intro _
    | (with_reducible first | apply memOk_ite | apply wf_of_memOk | apply memOk_foldl | apply memOk_State_trap)
    | simp only [memOk_mk] | split | dsimp only

theorem memOk_State_retireUnder {a0 a1 a2 a3} (h1 : State.memOk a0) :
    State.memOk (State.retireUnder a0 a1 a2 a3) := by
  unfold State.retireUnder
  try dsimp only
  repeat' first
    | with_reducible assumption | intro _
    | (with_reducible first
        | apply memOk_ite | apply wf_of_memOk | apply memOk_foldl | apply memOk_State_setCore
        | apply memOk_State_count | apply memOk_State_spend)
    | simp only [memOk_mk] | split | dsimp only

theorem memOk_State_retireTo {a0 a1 a2} (h1 : State.memOk a0) :
    State.memOk (State.retireTo a0 a1 a2) := by
  unfold State.retireTo
  try dsimp only
  repeat' first
    | with_reducible assumption | intro _
    | (with_reducible first | apply memOk_ite | apply wf_of_memOk | apply memOk_foldl | apply memOk_State_retireUnder)
    | simp only [memOk_mk] | split | dsimp only

theorem memOk_State_retire {a0 a1} (h1 : State.memOk a0) :
    State.memOk (State.retire a0 a1) := by
  unfold State.retire
  try dsimp only
  repeat' first
    | with_reducible assumption | intro _
    | (with_reducible first | apply memOk_ite | apply wf_of_memOk | apply memOk_foldl | apply memOk_State_retireTo)
    | simp only [memOk_mk] | split | dsimp only

theorem memOk_State_setX {a0 a1 a2} (h1 : State.memOk a0) :
    State.memOk (State.setX a0 a1 a2) := by
  unfold State.setX
  try dsimp only
  repeat' first
    | with_reducible assumption | intro _
    | (with_reducible first | apply memOk_ite | apply wf_of_memOk | apply memOk_foldl | apply memOk_State_onFrame)
    | simp only [memOk_mk] | split | dsimp only

theorem memOk_execTfrd {a0 a1 a2 a3} (h4 : State.memOk a3) :
    OutOk ((execTfrd a0 a1 a2 a3)) := by
  unfold execTfrd
  try dsimp only
  repeat' first
    | with_reducible assumption | intro _
    | (with_reducible first
        | apply memOk_ite | apply wf_of_memOk | apply outOk_next | apply outOk_ite | apply memOk_foldl
        | apply memOk_State_run | apply memOk_State_illegal | apply memOk_State_retire | apply memOk_State_setX)
    | simp only [memOk_mk] | split | dsimp only

theorem memOk_execFmt {a0 a1 a2} (h3 : State.memOk a2) :
    OutOk ((execFmt a0 a1 a2)) := by
  unfold execFmt
  try dsimp only
  repeat' first
    | with_reducible assumption | intro _
    | (with_reducible first
        | apply memOk_ite | apply wf_of_memOk | apply outOk_next | apply outOk_ite | apply memOk_foldl
        | apply memOk_State_run | apply memOk_State_retire | apply memOk_State_onFrame)
    | simp only [memOk_mk] | split | dsimp only

theorem memOk_State_runKiln {a0 a1 a2 a3} (h1 : State.memOk a0) (h4 : ∀ b0, State.memOk b0 → State.memOk (a3 b0)) :
    OutOk ((State.runKiln a0 a1 a2 a3)) := by
  unfold State.runKiln
  try dsimp only
  repeat' first
    | with_reducible assumption | intro _
    | (with_reducible first
        | apply memOk_ite | apply wf_of_memOk | apply outOk_next | apply outOk_ite | apply memOk_foldl
        | apply memOk_State_startGate | apply memOk_State_checker | apply memOk_State_fetchGate
        | apply memOk_State_stall | apply memOk_State_regGate | apply memOk_State_afterDead | apply h4)
    | with_reducible refine memOk_State_startGate_eq (by assumption) ?_
    | with_reducible refine memOk_State_checker_eq (by assumption) ?_
    | with_reducible refine memOk_State_fetchGate_eq (by assumption) ?_
    | with_reducible refine memOk_State_regGate_eq (by assumption) ?_
    | with_reducible refine memOk_State_startGate_eq2 (by assumption) ?_
    | with_reducible refine memOk_State_checker_eq2 (by assumption) ?_
    | with_reducible refine memOk_State_fetchGate_eq2 (by assumption) ?_
    | with_reducible refine memOk_State_regGate_eq2 (by assumption) ?_
    | simp only [memOk_mk] | split | dsimp only

theorem memOk_State_enterWith {a0 a1 a2 a3 a4 a5 a6} (h1 : State.memOk a0) :
    State.memOk (State.enterWith a0 a1 a2 a3 a4 a5 a6) := by
  unfold State.enterWith
  try dsimp only
  repeat' first
    | with_reducible assumption | intro _
    | (with_reducible first
        | apply memOk_ite | apply wf_of_memOk | apply memOk_foldl | apply memOk_State_onMe | apply memOk_State_onFrame
        | apply memOk_State_retire)
    | simp only [memOk_mk] | split | dsimp only

theorem memOk_State_enterKiln {a0 a1 a2 a3 a4 a5} (h1 : State.memOk a0) :
    State.memOk (State.enterKiln a0 a1 a2 a3 a4 a5) := by
  unfold State.enterKiln
  try dsimp only
  repeat' first
    | with_reducible assumption | intro _
    | (with_reducible first | apply memOk_ite | apply wf_of_memOk | apply memOk_foldl | apply memOk_State_enterWith)
    | simp only [memOk_mk] | split | dsimp only

theorem memOk_State_ckCycle {a0 a1} (h1 : State.memOk a0) :
    State.memOk (State.ckCycle a0 a1) := by
  unfold State.ckCycle
  try dsimp only
  repeat' first
    | with_reducible assumption | intro _
    | (with_reducible first
        | apply memOk_ite | apply wf_of_memOk | apply memOk_foldl | apply memOk_State_spend
        | apply memOk_State_checkpoint)
    | simp only [memOk_mk] | split | dsimp only

theorem memOk_State_enterMem {a0 a1 a2 a3 a4 a5} (h1 : State.memOk a0) :
    State.memOk (State.enterMem a0 a1 a2 a3 a4 a5) := by
  unfold State.enterMem
  try dsimp only
  repeat' first
    | with_reducible assumption | intro _
    | (with_reducible first
        | apply memOk_ite | apply wf_of_memOk | apply memOk_foldl | apply memOk_State_trap
        | apply memOk_State_enterKiln | apply memOk_State_ckCycle)
    | simp only [memOk_mk] | split | dsimp only

theorem memOk_execVlds {a0 a1 a2 a3 a4} (h5 : State.memOk a4) :
    OutOk ((execVlds a0 a1 a2 a3 a4)) := by
  unfold execVlds
  try dsimp only
  repeat' first
    | with_reducible assumption | intro _
    | (with_reducible first
        | apply memOk_ite | apply wf_of_memOk | apply outOk_next | apply outOk_ite | apply memOk_foldl
        | apply memOk_State_runKiln | apply memOk_State_enterMem)
    | simp only [memOk_mk] | split | dsimp only

theorem memOk_State_askFill {a0 a1 a2 a3} (h1 : State.memOk a0) :
    State.memOk (State.askFill a0 a1 a2 a3) := by
  unfold State.askFill
  try dsimp only
  repeat' first
    | with_reducible assumption | intro _
    | (with_reducible first
        | apply memOk_ite | apply wf_of_memOk | apply memOk_foldl | apply memOk_State_send | apply memOk_State_onCore)
    | simp only [memOk_mk] | split | dsimp only

theorem memOk_State_hostMem {a0 a1 a2} (h1 : State.memOk a0) :
    State.memOk (State.hostMem a0 a1 a2) := by
  unfold State.hostMem
  try dsimp only
  repeat' first
    | with_reducible assumption | intro _
    | (with_reducible first
        | apply memOk_ite | apply wf_of_memOk | apply memOk_foldl | apply memOk_State_clearWhole
        | apply memOk_State_writeBytes)
    | simp only [memOk_mk] | split | dsimp only

theorem memOk_aluR {a0 a1 a2 a3 a4 a5 a6} (h7 : State.memOk a6) :
    OutOk ((aluR a0 a1 a2 a3 a4 a5 a6)) := by
  unfold aluR
  try dsimp only
  repeat' first
    | with_reducible assumption | intro _
    | (with_reducible first
        | apply memOk_ite | apply wf_of_memOk | apply outOk_next | apply outOk_ite | apply memOk_foldl
        | apply memOk_State_run | apply memOk_State_retire | apply memOk_State_setX)
    | simp only [memOk_mk] | split | dsimp only

theorem memOk_execMulhsu {a0 a1 a2 a3} (h4 : State.memOk a3) :
    OutOk ((execMulhsu a0 a1 a2 a3)) := by
  unfold execMulhsu
  try dsimp only
  repeat' first
    | with_reducible assumption | intro _
    | (with_reducible first
        | apply memOk_ite | apply wf_of_memOk | apply outOk_next | apply outOk_ite | apply memOk_foldl
        | apply memOk_aluR)
    | simp only [memOk_mk] | split | dsimp only

theorem memOk_execGenRefundNotice {a0 a1 a2 a3 a4} (h5 : State.memOk a4) :
    OutOk ((execGenRefundNotice a0 a1 a2 a3 a4)) := by
  unfold execGenRefundNotice
  try dsimp only
  repeat' first
    | with_reducible assumption | intro _
    | (with_reducible first
        | apply memOk_ite | apply wf_of_memOk | apply outOk_next | apply outOk_ite | apply memOk_foldl
        | apply memOk_State_setArb)
    | simp only [memOk_mk] | split | dsimp only

theorem memOk_State_plainKiln {a0 a1 a2} (h1 : State.memOk a0) :
    State.memOk (State.plainKiln a0 a1 a2) := by
  unfold State.plainKiln
  try dsimp only
  repeat' first
    | with_reducible assumption | intro _
    | (with_reducible first | apply memOk_ite | apply wf_of_memOk | apply memOk_foldl | apply memOk_State_enterKiln)
    | simp only [memOk_mk] | split | dsimp only

theorem memOk_execVisub {a0 a1 a2 a3} (h4 : State.memOk a3) :
    OutOk ((execVisub a0 a1 a2 a3)) := by
  unfold execVisub
  try dsimp only
  repeat' first
    | with_reducible assumption | intro _
    | (with_reducible first
        | apply memOk_ite | apply wf_of_memOk | apply outOk_next | apply outOk_ite | apply memOk_foldl
        | apply memOk_State_runKiln | apply memOk_State_plainKiln)
    | simp only [memOk_mk] | split | dsimp only

theorem memOk_State_uncover {a0 a1} (h1 : State.memOk a0) :
    State.memOk (State.uncover a0 a1) := by
  unfold State.uncover
  try dsimp only
  repeat' first
    | with_reducible assumption | intro _
    | (with_reducible first
        | apply memOk_ite | apply wf_of_memOk | apply memOk_foldl | apply memOk_State_machineCheck
        | apply memOk_State_setCore | apply memOk_State_freeLatch | apply memOk_State_checkpoint
        | apply memOk_State_spend)
    | simp only [memOk_mk] | split | dsimp only

theorem memOk_State_popFrame {a0 a1} (h1 : State.memOk a0) :
    State.memOk (State.popFrame a0 a1) := by
  unfold State.popFrame
  try dsimp only
  repeat' first
    | with_reducible assumption | intro _
    | (with_reducible first
        | apply memOk_ite | apply wf_of_memOk | apply memOk_foldl | apply memOk_State_uncover
        | apply memOk_State_onKiln)
    | simp only [memOk_mk] | split | dsimp only

theorem memOk_execTkill {a0} (h1 : State.memOk a0) :
    OutOk ((execTkill a0)) := by
  unfold execTkill
  try dsimp only
  repeat' first
    | with_reducible assumption | intro _
    | (with_reducible first
        | apply memOk_ite | apply wf_of_memOk | apply outOk_next | apply outOk_ite | apply memOk_foldl
        | apply memOk_State_run | apply memOk_State_illegal | apply memOk_State_stall | apply memOk_State_popFrame
        | apply memOk_State_retire)
    | simp only [memOk_mk] | split | dsimp only

theorem memOk_State_badRing {a0 a1} (h1 : State.memOk a0) :
    State.memOk (State.badRing a0 a1) := by
  unfold State.badRing
  try dsimp only
  repeat' first
    | with_reducible assumption | intro _
    | (with_reducible first | apply memOk_ite | apply wf_of_memOk | apply memOk_foldl | apply memOk_State_trap)
    | simp only [memOk_mk] | split | dsimp only

theorem memOk_State_onCluster {a0 a1 a2} (h1 : State.memOk a0) :
    State.memOk (State.onCluster a0 a1 a2) := by
  unfold State.onCluster
  try dsimp only
  repeat' first
    | with_reducible assumption | intro _
    | (with_reducible first | apply memOk_ite | apply wf_of_memOk | apply memOk_foldl)
    | simp only [memOk_mk] | split | dsimp only

theorem memOk_State_cache {a0 a1 a2} (h1 : State.memOk a0) :
    State.memOk (State.cache a0 a1 a2) := by
  unfold State.cache
  try dsimp only
  repeat' first
    | with_reducible assumption | intro _
    | (with_reducible first
        | apply memOk_ite | apply wf_of_memOk | apply memOk_foldl | apply memOk_State_onCluster
        | apply memOk_State_onCore)
    | simp only [memOk_mk] | split | dsimp only

theorem memOk_State_lookup {a0 a1 a2 a3 a4} (h1 : State.memOk a0) :
    State.memOk ((State.lookup a0 a1 a2 a3 a4)).2 := by
  unfold State.lookup
  try dsimp only
  repeat' first
    | with_reducible assumption | intro _
    | (with_reducible first
        | apply memOk_ite | apply wf_of_memOk | apply memOk_foldl | apply memOk_State_onCore
        | apply memOk_State_cache)
    | simp only [memOk_mk] | split | dsimp only

theorem memOk_State_lookup_eq {a0 a1 a2 a3 a4} {c1 t} (e : State.lookup a0 a1 a2 a3 a4 = (c1, t))
    (h1 : State.memOk a0) : State.memOk t := by
  have := @memOk_State_lookup a0 a1 a2 a3 a4 h1
  rwa [e] at this

theorem memOk_State_reachWalk {a0 a1 a2 a3 a4 a5} (h1 : State.memOk a0) :
    State.memOk ((State.reachWalk a0 a1 a2 a3 a4 a5)).2 := by
  induction a3 generalizing a0 a1 a2 a4 a5 with
  | zero => exact h1
  | succ n ih =>
    unfold State.reachWalk
    try dsimp only
    repeat' first
      | with_reducible assumption
      | (with_reducible first | apply ih | apply memOk_ite | apply wf_of_memOk | apply memOk_State_reach)
      | intro _
      | exact h7 _ _ (by assumption)
      | simp only [memOk_mk]
      | split
      | dsimp only

theorem memOk_State_reachWalk_eq {a0 a1 a2 a3 a4 a5} {c1 t} (e : State.reachWalk a0 a1 a2 a3 a4 a5 = (c1, t))
    (h1 : State.memOk a0) : State.memOk t := by
  have := @memOk_State_reachWalk a0 a1 a2 a3 a4 a5 h1
  rwa [e] at this

theorem memOk_State_translate {a0 a1 a2 a3 a4} (h1 : State.memOk a0) :
    State.memOk ((State.translate a0 a1 a2 a3 a4)).2 := by
  unfold State.translate
  try dsimp only
  repeat' first
    | with_reducible assumption | intro _
    | (with_reducible first
        | apply memOk_ite | apply wf_of_memOk | apply memOk_foldl | apply memOk_State_lookup
        | apply memOk_State_reachWalk)
    | with_reducible refine memOk_State_lookup_eq (by assumption) ?_
    | with_reducible refine memOk_State_reachWalk_eq (by assumption) ?_
    | simp only [memOk_mk] | split | dsimp only

theorem memOk_State_translate_eq {a0 a1 a2 a3 a4} {c1 t} (e : State.translate a0 a1 a2 a3 a4 = (c1, t))
    (h1 : State.memOk a0) : State.memOk t := by
  have := @memOk_State_translate a0 a1 a2 a3 a4 h1
  rwa [e] at this

theorem memOk_State_consume {a0 a1} (h1 : State.memOk a0) :
    State.memOk (State.consume a0 a1) := by
  unfold State.consume
  try dsimp only
  repeat' first
    | with_reducible assumption | intro _
    | (with_reducible first | apply memOk_ite | apply wf_of_memOk | apply memOk_foldl | apply memOk_State_machineCheck)
    | simp only [memOk_mk] | split | dsimp only

theorem memOk_State_lockTrap {a0 a1} (h1 : State.memOk a0) :
    State.memOk (State.lockTrap a0 a1) := by
  unfold State.lockTrap
  try dsimp only
  repeat' first
    | with_reducible assumption | intro _
    | (with_reducible first
        | apply memOk_ite | apply wf_of_memOk | apply memOk_foldl | apply memOk_State_trapReady
        | apply memOk_State_enterTrap | apply memOk_State_count | apply memOk_State_trapWait)
    | with_reducible refine memOk_State_trapReady_eq (by assumption) ?_
    | simp only [memOk_mk] | split | dsimp only

theorem memOk_State_withData {a0 a1 a2 a3} (h1 : State.memOk a0) (h3 : State.memOk (a2).2)
    (h4 : ∀ b0 b1, State.memOk b1 → State.memOk (a3 b0 b1)) :
    State.memOk (State.withData a0 a1 a2 a3) := by
  unfold State.withData
  try dsimp only
  repeat' first
    | with_reducible assumption | intro _
    | (with_reducible first
        | apply memOk_ite | apply wf_of_memOk | apply memOk_foldl | apply memOk_State_lockTrap
        | apply memOk_State_trap | apply memOk_State_consume | apply memOk_State_stall | apply h4)
    | simp only [memOk_mk] | split | dsimp only

theorem memOk_State_l1Touch {a0 a1 a2 a3} (h1 : State.memOk a0) :
    State.memOk (State.l1Touch a0 a1 a2 a3) := by
  unfold State.l1Touch
  try dsimp only
  repeat' first
    | with_reducible assumption | intro _
    | (with_reducible first | apply memOk_ite | apply wf_of_memOk | apply memOk_foldl | apply memOk_State_onCore)
    | simp only [memOk_mk] | split | dsimp only

theorem memOk_State_globGet {a0 a1 a2 a3} (h1 : State.memOk a0) :
    State.memOk ((State.globGet a0 a1 a2 a3)).2 := by
  unfold State.globGet
  try dsimp only
  repeat' first
    | with_reducible assumption | intro _
    | (with_reducible first
        | apply memOk_ite | apply wf_of_memOk | apply memOk_foldl | apply memOk_State_l1Touch
        | apply memOk_State_askFill | apply memOk_State_onCore)
    | simp only [memOk_mk] | split | dsimp only

theorem memOk_State_globGet_eq {a0 a1 a2 a3} {c1 t} (e : State.globGet a0 a1 a2 a3 = (c1, t)) (h1 : State.memOk a0)
    : State.memOk t := by
  have := @memOk_State_globGet a0 a1 a2 a3 h1
  rwa [e] at this

theorem memOk_State_farGet {a0 a1 a2 a3 a4 a5} (h1 : State.memOk a0) :
    State.memOk ((State.farGet a0 a1 a2 a3 a4 a5)).2 := by
  unfold State.farGet
  try dsimp only
  repeat' first
    | with_reducible assumption | intro _
    | (with_reducible first
        | apply memOk_ite | apply wf_of_memOk | apply memOk_foldl | apply memOk_State_send | apply memOk_State_onMe)
    | simp only [memOk_mk] | split | dsimp only

theorem memOk_State_farGet_eq {a0 a1 a2 a3 a4 a5} {c1 t} (e : State.farGet a0 a1 a2 a3 a4 a5 = (c1, t))
    (h1 : State.memOk a0) : State.memOk t := by
  have := @memOk_State_farGet a0 a1 a2 a3 a4 a5 h1
  rwa [e] at this

theorem memOk_State_fetchFor {a0 a1 a2 a3 a4} (h1 : State.memOk a0) :
    State.memOk ((State.fetchFor a0 a1 a2 a3 a4)).2 := by
  unfold State.fetchFor
  try dsimp only
  repeat' first
    | with_reducible assumption | intro _
    | (with_reducible first
        | apply memOk_ite | apply wf_of_memOk | apply memOk_foldl | apply memOk_State_translate
        | apply memOk_State_globGet | apply memOk_State_farGet)
    | with_reducible refine memOk_State_translate_eq (by assumption) ?_
    | with_reducible refine memOk_State_globGet_eq (by assumption) ?_
    | with_reducible refine memOk_State_farGet_eq (by assumption) ?_
    | simp only [memOk_mk] | split | dsimp only

theorem memOk_State_fetchFor_eq {a0 a1 a2 a3 a4} {c1 t} (e : State.fetchFor a0 a1 a2 a3 a4 = (c1, t))
    (h1 : State.memOk a0) : State.memOk t := by
  have := @memOk_State_fetchFor a0 a1 a2 a3 a4 h1
  rwa [e] at this

theorem memOk_State_fetchData {a0 a1 a2 a3} (h1 : State.memOk a0) :
    State.memOk ((State.fetchData a0 a1 a2 a3)).2 := by
  unfold State.fetchData
  try dsimp only
  repeat' first
    | with_reducible assumption | intro _
    | (with_reducible first | apply memOk_ite | apply wf_of_memOk | apply memOk_foldl | apply memOk_State_fetchFor)
    | with_reducible refine memOk_State_fetchFor_eq (by assumption) ?_
    | simp only [memOk_mk] | split | dsimp only

theorem memOk_State_fetchData_eq {a0 a1 a2 a3} {c1 t} (e : State.fetchData a0 a1 a2 a3 = (c1, t))
    (h1 : State.memOk a0) : State.memOk t := by
  have := @memOk_State_fetchData a0 a1 a2 a3 h1
  rwa [e] at this

theorem memOk_State_recordAt {a0 a1} (h1 : State.memOk a0) :
    State.memOk ((State.recordAt a0 a1)).2 := by
  unfold State.recordAt
  try dsimp only
  repeat' first
    | with_reducible assumption | intro _
    | (with_reducible first | apply memOk_ite | apply wf_of_memOk | apply memOk_foldl | apply memOk_State_fetchData)
    | with_reducible refine memOk_State_fetchData_eq (by assumption) ?_
    | simp only [memOk_mk] | split | dsimp only

theorem memOk_State_recordAt_eq {a0 a1} {c1 t} (e : State.recordAt a0 a1 = (c1, t)) (h1 : State.memOk a0)
    : State.memOk t := by
  have := @memOk_State_recordAt a0 a1 h1
  rwa [e] at this

theorem memOk_State_withSucc {a0 a1} (h1 : State.memOk a0) (h2 : ∀ b0 b1, State.memOk b1 → State.memOk (a1 b0 b1)) :
    State.memOk (State.withSucc a0 a1) := by
  unfold State.withSucc
  try dsimp only
  repeat' first
    | with_reducible assumption | intro _
    | (with_reducible first
        | apply memOk_ite | apply wf_of_memOk | apply memOk_foldl | apply memOk_State_withData
        | apply memOk_State_recordAt | apply memOk_State_trap | apply memOk_State_stall | apply memOk_State_onMe
        | apply h2)
    | with_reducible refine memOk_State_recordAt_eq (by assumption) ?_
    | simp only [memOk_mk] | split | dsimp only

theorem memOk_State_fillReg {a0 a1 a2 a3 a4 a5} (h1 : State.memOk a0) :
    State.memOk (State.fillReg a0 a1 a2 a3 a4 a5) := by
  unfold State.fillReg
  try dsimp only
  repeat' first
    | with_reducible assumption | intro _
    | (with_reducible first
        | apply memOk_ite | apply wf_of_memOk | apply memOk_foldl | apply memOk_State_onCore
        | apply memOk_State_setPoison | apply memOk_State_writeKeyed)
    | simp only [memOk_mk] | split | dsimp only

theorem memOk_State_pushQ {a0 a1 a2 a3 a4} (h1 : State.memOk a0) :
    State.memOk (State.pushQ a0 a1 a2 a3 a4) := by
  unfold State.pushQ
  try dsimp only
  repeat' first
    | with_reducible assumption | intro _
    | (with_reducible first
        | apply memOk_ite | apply wf_of_memOk | apply memOk_foldl | apply memOk_State_fillReg
        | apply memOk_State_onCore)
    | simp only [memOk_mk] | split | dsimp only

theorem memOk_State_retireCk {a0 a1} (h1 : State.memOk a0) :
    State.memOk (State.retireCk a0 a1) := by
  unfold State.retireCk
  try dsimp only
  repeat' first
    | with_reducible assumption | intro _
    | (with_reducible first
        | apply memOk_ite | apply wf_of_memOk | apply memOk_foldl | apply memOk_State_ckCycle
        | apply memOk_State_retire)
    | simp only [memOk_mk] | split | dsimp only

theorem memOk_State_freeSpill {a0 a1 a2} (h1 : State.memOk a0) :
    State.memOk (State.freeSpill a0 a1 a2) := by
  unfold State.freeSpill
  try dsimp only
  repeat' first
    | with_reducible assumption | intro _
    | (with_reducible first | apply memOk_ite | apply wf_of_memOk | apply memOk_foldl | apply memOk_State_onCore)
    | simp only [memOk_mk] | split | dsimp only

theorem memOk_State_postSucc {a0 a1 a2 a3} (h1 : State.memOk a0) :
    State.memOk (State.postSucc a0 a1 a2 a3) := by
  unfold State.postSucc
  try dsimp only
  repeat' first
    | with_reducible assumption | intro _
    | (with_reducible first
        | apply memOk_ite | apply wf_of_memOk | apply memOk_foldl | apply memOk_State_hwPost
        | apply memOk_State_freeSpill)
    | simp only [memOk_mk] | split | dsimp only

theorem memOk_State_issueCopy {a0 a1} (h1 : State.memOk a0) :
    State.memOk (State.issueCopy a0 a1) := by
  unfold State.issueCopy
  try dsimp only
  repeat' first
    | with_reducible assumption | intro _
    | (with_reducible first
        | apply memOk_ite | apply wf_of_memOk | apply memOk_foldl | apply memOk_State_stall
        | apply memOk_State_withSucc | apply memOk_State_setX | apply memOk_State_onMe | apply memOk_State_pushQ
        | apply memOk_State_retireCk | apply memOk_State_postSucc | apply memOk_State_onCluster)
    | simp only [memOk_mk] | split | dsimp only

theorem memOk_execCopyb {a0 a1 a2 a3 a4} (h5 : State.memOk a4) :
    OutOk ((execCopyb a0 a1 a2 a3 a4)) := by
  unfold execCopyb
  try dsimp only
  repeat' first
    | with_reducible assumption | intro _
    | (with_reducible first
        | apply memOk_ite | apply wf_of_memOk | apply outOk_next | apply outOk_ite | apply memOk_foldl
        | apply memOk_State_run | apply memOk_State_illegal | apply memOk_State_trap | apply memOk_State_translate
        | apply memOk_State_consume | apply memOk_State_stall | apply memOk_State_issueCopy)
    | with_reducible refine memOk_State_translate_eq (by assumption) ?_
    | simp only [memOk_mk] | split | dsimp only

theorem memOk_State_kilnRecord {a0 a1 a2 a3 a4 a5} (h1 : State.memOk a0) :
    State.memOk (State.kilnRecord a0 a1 a2 a3 a4 a5) := by
  unfold State.kilnRecord
  try dsimp only
  repeat' first
    | with_reducible assumption | intro _
    | (with_reducible first | apply memOk_ite | apply wf_of_memOk | apply memOk_foldl | apply memOk_State_report)
    | simp only [memOk_mk] | split | dsimp only

theorem memOk_State_onSet {a0 a1 a2 a3} (h1 : State.memOk a0) :
    State.memOk (State.onSet a0 a1 a2 a3) := by
  unfold State.onSet
  try dsimp only
  repeat' first
    | with_reducible assumption | intro _
    | (with_reducible first | apply memOk_ite | apply wf_of_memOk | apply memOk_foldl | apply memOk_State_onCore)
    | simp only [memOk_mk] | split | dsimp only

theorem memOk_State_popTiles {a0 a1 a2 a3} (h1 : State.memOk a0) :
    State.memOk (State.popTiles a0 a1 a2 a3) := by
  unfold State.popTiles
  try dsimp only
  repeat' first
    | with_reducible assumption | intro _
    | (with_reducible first
        | apply memOk_ite | apply wf_of_memOk | apply memOk_foldl | apply memOk_State_onCluster
        | apply memOk_State_onSet)
    | simp only [memOk_mk] | split | dsimp only

theorem memOk_State_postPass {a0 a1 a2} (h1 : State.memOk a0) :
    State.memOk (State.postPass a0 a1 a2) := by
  unfold State.postPass
  try dsimp only
  repeat' first
    | with_reducible assumption | intro _
    | (with_reducible first | apply memOk_ite | apply wf_of_memOk | apply memOk_foldl | apply memOk_State_postSucc)
    | simp only [memOk_mk] | split | dsimp only

theorem memOk_State_land {a0 a1 a2} (h1 : State.memOk a0) :
    State.memOk (State.land a0 a1 a2) := by
  unfold State.land
  try dsimp only
  repeat' first
    | with_reducible assumption | intro _
    | (with_reducible first | apply memOk_ite | apply wf_of_memOk | apply memOk_foldl | apply memOk_State_onKiln)
    | simp only [memOk_mk] | split | dsimp only

theorem memOk_State_kilnCheck {a0 a1 a2} (h1 : State.memOk a0) :
    State.memOk (State.kilnCheck a0 a1 a2) := by
  unfold State.kilnCheck
  try dsimp only
  repeat' first
    | with_reducible assumption | intro _
    | (with_reducible first | apply memOk_ite | apply wf_of_memOk | apply memOk_foldl | apply memOk_State_onCore)
    | simp only [memOk_mk] | split | dsimp only

theorem memOk_State_retireProduct {a0 a1 a2 a3} (h1 : State.memOk a0) :
    State.memOk (State.retireProduct a0 a1 a2 a3) := by
  unfold State.retireProduct
  try dsimp only
  repeat' first
    | with_reducible assumption | intro _
    | (with_reducible first
        | apply memOk_ite | apply wf_of_memOk | apply memOk_foldl | apply memOk_State_onKiln
        | apply memOk_State_countAt | apply memOk_State_kilnRecord | apply memOk_State_onSet
        | apply memOk_State_popTiles | apply memOk_State_postPass | apply memOk_State_land
        | apply memOk_State_kilnCheck)
    | simp only [memOk_mk] | split | dsimp only

theorem memOk_State_makeRoom {a0 a1} (h1 : State.memOk a0) :
    State.memOk ((State.makeRoom a0 a1)).1 := by
  unfold State.makeRoom
  try dsimp only
  repeat' first
    | with_reducible assumption | intro _
    | (with_reducible first | apply memOk_ite | apply wf_of_memOk | apply memOk_foldl | apply memOk_State_checkpoint)
    | simp only [memOk_mk] | split | dsimp only

theorem memOk_State_makeRoom_eq {a0 a1} {c1 t} (e : State.makeRoom a0 a1 = (t, c1)) (h1 : State.memOk a0)
    : State.memOk t := by
  have := @memOk_State_makeRoom a0 a1 h1
  rwa [e] at this

theorem memOk_State_clearPairs {a0 a1 a2} (h1 : State.memOk a0) :
    State.memOk (State.clearPairs a0 a1 a2) := by
  fun_induction State.clearPairs a0 a1 a2 with
  | case1 s a b l ih =>
    apply ih
    split
    · exact memOk_State_setPoison h1
    · exact h1
  | case2 s l _ => exact h1

theorem memOk_State_journal {a0 a1 a2 a3} (h1 : State.memOk a0) :
    State.memOk (State.journal a0 a1 a2 a3) := by
  unfold State.journal
  try dsimp only
  repeat' first
    | with_reducible assumption | intro _
    | (with_reducible first | apply memOk_ite | apply wf_of_memOk | apply memOk_foldl | apply memOk_State_onCore)
    | simp only [memOk_mk] | split | dsimp only

theorem memOk_State_kwrite {a0 a1 a2 a3 a4} (h1 : State.memOk a0) :
    State.memOk (State.kwrite a0 a1 a2 a3 a4) := by
  unfold State.kwrite
  try dsimp only
  repeat' first
    | with_reducible assumption | intro _
    | (with_reducible first
        | apply memOk_ite | apply wf_of_memOk | apply memOk_foldl | apply memOk_State_onSet | apply memOk_State_onCore
        | apply memOk_State_journal | apply memOk_State_spadWrite)
    | simp only [memOk_mk] | split | dsimp only

theorem memOk_State_pushKept {a0 a1 a2 a3 a4} (h1 : State.memOk a0) :
    State.memOk (State.pushKept a0 a1 a2 a3 a4) := by
  unfold State.pushKept
  try dsimp only
  repeat' first
    | with_reducible assumption | intro _
    | (with_reducible first
        | apply memOk_ite | apply wf_of_memOk | apply memOk_foldl | apply memOk_State_pushQ
        | apply memOk_State_onCore)
    | simp only [memOk_mk] | split | dsimp only

theorem memOk_State_countSolve {a0 a1 a2} (h1 : State.memOk a0) :
    State.memOk (State.countSolve a0 a1 a2) := by
  unfold State.countSolve
  try dsimp only
  repeat' first
    | with_reducible assumption | intro _
    | (with_reducible first | apply memOk_ite | apply wf_of_memOk | apply memOk_foldl | apply memOk_State_onCore)
    | simp only [memOk_mk] | split | dsimp only

theorem memOk_State_retireFlight {a0 a1 a2} (h1 : State.memOk a0) :
    State.memOk (State.retireFlight a0 a1 a2) := by
  unfold State.retireFlight
  try dsimp only
  repeat' first
    | with_reducible assumption | intro _
    | (with_reducible first
        | apply memOk_ite | apply wf_of_memOk | apply memOk_foldl | apply memOk_State_retireProduct
        | apply memOk_State_makeRoom | apply memOk_State_land | apply memOk_State_onSet | apply memOk_State_clearPairs
        | apply memOk_State_kwrite | apply memOk_State_pushKept | apply memOk_State_pushQ
        | apply memOk_State_countSolve)
    | with_reducible refine memOk_State_makeRoom_eq (by assumption) ?_
    | simp only [memOk_mk] | split | dsimp only

theorem memOk_aluI {a0 a1 a2 a3 a4} (h5 : State.memOk a4) :
    OutOk ((aluI a0 a1 a2 a3 a4)) := by
  unfold aluI
  try dsimp only
  repeat' first
    | with_reducible assumption | intro _
    | (with_reducible first
        | apply memOk_ite | apply wf_of_memOk | apply outOk_next | apply outOk_ite | apply memOk_foldl
        | apply memOk_State_run | apply memOk_State_retire | apply memOk_State_setX)
    | simp only [memOk_mk] | split | dsimp only

theorem memOk_execSltiu {a0 a1 a2 a3} (h4 : State.memOk a3) :
    OutOk ((execSltiu a0 a1 a2 a3)) := by
  unfold execSltiu
  try dsimp only
  repeat' first
    | with_reducible assumption | intro _
    | (with_reducible first
        | apply memOk_ite | apply wf_of_memOk | apply outOk_next | apply outOk_ite | apply memOk_foldl
        | apply memOk_aluI)
    | simp only [memOk_mk] | split | dsimp only

theorem memOk_State_nmDone {a0 a1} (h1 : State.memOk a0) :
    State.memOk (State.nmDone a0 a1) := by
  unfold State.nmDone
  try dsimp only
  repeat' first
    | with_reducible assumption | intro _
    | (with_reducible first | apply memOk_ite | apply wf_of_memOk | apply memOk_foldl)
    | simp only [memOk_mk] | split | dsimp only

theorem memOk_execSetchip {a0} (h1 : State.memOk a0) :
    OutOk ((execSetchip a0)) := by
  unfold execSetchip
  try dsimp only
  repeat' first
    | with_reducible assumption | intro _
    | (with_reducible first
        | apply memOk_ite | apply wf_of_memOk | apply outOk_next | apply outOk_ite | apply memOk_foldl
        | apply memOk_State_nmDone)
    | simp only [memOk_mk] | split | dsimp only

theorem memOk_State_deliver {a0 a1 a2} (h1 : State.memOk a0) :
    State.memOk (State.deliver a0 a1 a2) := by
  unfold State.deliver
  try dsimp only
  repeat' first
    | with_reducible assumption | intro _
    | (with_reducible first | apply memOk_ite | apply wf_of_memOk | apply memOk_foldl)
    | simp only [memOk_mk] | split | dsimp only

theorem memOk_State_sendSpad {a0 a1 a2 a3} (h1 : State.memOk a0) :
    State.memOk (State.sendSpad a0 a1 a2 a3) := by
  unfold State.sendSpad
  try dsimp only
  repeat' first
    | with_reducible assumption | intro _
    | (with_reducible first
        | apply memOk_ite | apply wf_of_memOk | apply memOk_foldl | apply memOk_State_deliver
        | apply memOk_State_send)
    | simp only [memOk_mk] | split | dsimp only

theorem memOk_State_dropReady {a0 a1 a2} (h1 : State.memOk a0) :
    State.memOk (State.dropReady a0 a1 a2) := by
  unfold State.dropReady
  try dsimp only
  repeat' first
    | with_reducible assumption | intro _
    | (with_reducible first | apply memOk_ite | apply wf_of_memOk | apply memOk_foldl | apply memOk_State_onCore)
    | simp only [memOk_mk] | split | dsimp only

theorem memOk_State_preempt {a0 a1 a2} (h1 : State.memOk a0) :
    State.memOk (State.preempt a0 a1 a2) := by
  unfold State.preempt
  try dsimp only
  repeat' first
    | with_reducible assumption | intro _
    | (with_reducible first
        | apply memOk_ite | apply wf_of_memOk | apply memOk_foldl | apply memOk_State_onCore
        | apply memOk_State_onKiln)
    | simp only [memOk_mk] | split | dsimp only

theorem memOk_State_start {a0 a1 a2} (h1 : State.memOk a0) :
    State.memOk (State.start a0 a1 a2) := by
  unfold State.start
  try dsimp only
  repeat' first
    | with_reducible assumption | intro _
    | (with_reducible first
        | apply memOk_ite | apply wf_of_memOk | apply memOk_foldl | apply memOk_State_spend
        | apply memOk_State_dropReady | apply memOk_State_putFrame | apply memOk_State_preempt
        | apply memOk_State_enterTrap)
    | simp only [memOk_mk] | split | dsimp only

theorem memOk_State_takePkt {a0 a1 a2} (h1 : State.memOk a0) :
    OptOk (fun r => State.memOk (r).2) ((State.takePkt a0 a1 a2)) := by
  unfold State.takePkt
  try dsimp only
  repeat' first
    | with_reducible assumption | intro _
    | (with_reducible first
        | apply memOk_ite | apply wf_of_memOk | apply optOk_none | apply optOk_some | apply optOk_ite
        | apply optOk_map_mem | apply optOk_map_snd | apply optOk_map_any | apply optOk_findSome | apply optOk_bind
        | apply optOk_orElse | apply memOk_getD | apply memOk_foldl)
    | with_reducible refine memOk_of_next (by assumption) ?_
    | with_reducible refine memOk_of_some_snd (by assumption) ?_
    | with_reducible refine memOk_of_some (by assumption) ?_
    | with_reducible refine memOk_of_some_fst (by assumption) ?_
    | simp only [memOk_mk] | split | dsimp only

theorem memOk_State_takePkt_eq {a0 a1 a2} {c1 t} (e : State.takePkt a0 a1 a2 = some (c1, t)) (h1 : State.memOk a0)
    : State.memOk t :=
  (@memOk_State_takePkt a0 a1 a2 h1).of _ e
theorem memOk_State_takePkt_eq2 {a0 a1 a2} {r} (e : State.takePkt a0 a1 a2 = some r)
    (h1 : State.memOk a0) : State.memOk (r).2 :=
  (@memOk_State_takePkt a0 a1 a2 h1).of _ e

theorem memOk_State_writeCtx {a0 a1 a2 a3 a4} (h1 : State.memOk a0) :
    State.memOk (State.writeCtx a0 a1 a2 a3 a4) := by
  unfold State.writeCtx
  try dsimp only
  repeat' first
    | with_reducible assumption | intro _
    | (with_reducible first | apply memOk_ite | apply wf_of_memOk | apply memOk_foldl | apply memOk_State_writeKeyed)
    | simp only [memOk_mk] | split | dsimp only

theorem memOk_State_saveLive {a0 a1 a2 a3} (h1 : State.memOk a0) :
    State.memOk (State.saveLive a0 a1 a2 a3) := by
  unfold State.saveLive
  try dsimp only
  repeat' first
    | with_reducible assumption | intro _
    | (with_reducible first
        | apply memOk_ite | apply wf_of_memOk | apply memOk_foldl | apply memOk_State_writeCtx
        | apply memOk_State_saveReady)
    | simp only [memOk_mk] | split | dsimp only

theorem memOk_State_asDevice {a0 a1 a2 a3} (h1 : State.memOk a0) (h4 : ∀ b0, State.memOk b0 → State.memOk (a3 b0)) :
    State.memOk (State.asDevice a0 a1 a2 a3) := by
  unfold State.asDevice
  try dsimp only
  repeat' first
    | with_reducible assumption | intro _
    | (with_reducible first
        | apply memOk_ite | apply wf_of_memOk | apply memOk_foldl | apply memOk_State_setCore
        | apply memOk_State_saveLive | apply h4)
    | simp only [memOk_mk] | split | dsimp only

theorem memOk_execRecordAcknowledgement {a0 a1} (h2 : State.memOk a1) :
    OutOk ((execRecordAcknowledgement a0 a1)) := by
  unfold execRecordAcknowledgement
  try dsimp only
  repeat' first
    | with_reducible assumption | intro _
    | (with_reducible first
        | apply memOk_ite | apply wf_of_memOk | apply outOk_next | apply outOk_ite | apply optOk_none
        | apply optOk_some | apply optOk_ite | apply optOk_map_mem | apply optOk_map_snd | apply optOk_map_any
        | apply optOk_findSome | apply optOk_bind | apply optOk_orElse | apply memOk_getD | apply memOk_foldl
        | apply memOk_State_takePkt | apply memOk_State_asDevice | apply memOk_State_onCore)
    | with_reducible refine memOk_State_takePkt_eq (by assumption) ?_
    | with_reducible refine memOk_State_takePkt_eq2 (by assumption) ?_
    | with_reducible refine memOk_of_next (by assumption) ?_
    | with_reducible refine memOk_of_some_snd (by assumption) ?_
    | with_reducible refine memOk_of_some (by assumption) ?_
    | with_reducible refine memOk_of_some_fst (by assumption) ?_
    | simp only [memOk_mk] | split | dsimp only

theorem memOk_execSub {a0 a1 a2 a3} (h4 : State.memOk a3) :
    OutOk ((execSub a0 a1 a2 a3)) := by
  unfold execSub
  try dsimp only
  repeat' first
    | with_reducible assumption | intro _
    | (with_reducible first
        | apply memOk_ite | apply wf_of_memOk | apply outOk_next | apply outOk_ite | apply memOk_foldl
        | apply memOk_aluR)
    | simp only [memOk_mk] | split | dsimp only

theorem memOk_State_onSluice {a0 a1 a2} (h1 : State.memOk a0) :
    State.memOk (State.onSluice a0 a1 a2) := by
  unfold State.onSluice
  try dsimp only
  repeat' first
    | with_reducible assumption | intro _
    | (with_reducible first | apply memOk_ite | apply wf_of_memOk | apply memOk_foldl)
    | simp only [memOk_mk] | split | dsimp only

theorem memOk_execLinkFrameResend {a0 a1} (h2 : State.memOk a1) :
    OutOk ((execLinkFrameResend a0 a1)) := by
  unfold execLinkFrameResend
  try dsimp only
  repeat' first
    | with_reducible assumption | intro _
    | (with_reducible first
        | apply memOk_ite | apply wf_of_memOk | apply outOk_next | apply outOk_ite | apply memOk_foldl
        | apply memOk_State_onSluice)
    | simp only [memOk_mk] | split | dsimp only

theorem memOk_State_abortSolve {a0 a1 a2} (h1 : State.memOk a0) :
    State.memOk (State.abortSolve a0 a1 a2) := by
  unfold State.abortSolve
  try dsimp only
  repeat' first
    | with_reducible assumption | intro _
    | (with_reducible first
        | apply memOk_ite | apply wf_of_memOk | apply memOk_foldl | apply memOk_State_onCore | apply memOk_State_land
        | apply memOk_State_onSet)
    | simp only [memOk_mk] | split | dsimp only

theorem memOk_execSltu {a0 a1 a2 a3} (h4 : State.memOk a3) :
    OutOk ((execSltu a0 a1 a2 a3)) := by
  unfold execSltu
  try dsimp only
  repeat' first
    | with_reducible assumption | intro _
    | (with_reducible first
        | apply memOk_ite | apply wf_of_memOk | apply outOk_next | apply outOk_ite | apply memOk_foldl
        | apply memOk_aluR)
    | simp only [memOk_mk] | split | dsimp only

theorem memOk_execDivuw {a0 a1 a2 a3} (h4 : State.memOk a3) :
    OutOk ((execDivuw a0 a1 a2 a3)) := by
  unfold execDivuw
  try dsimp only
  repeat' first
    | with_reducible assumption | intro _
    | (with_reducible first
        | apply memOk_ite | apply wf_of_memOk | apply outOk_next | apply outOk_ite | apply memOk_foldl
        | apply memOk_aluR)
    | simp only [memOk_mk] | split | dsimp only

theorem memOk_State_freeReq {a0 a1 a2 a3} (h1 : State.memOk a0) :
    State.memOk (State.freeReq a0 a1 a2 a3) := by
  unfold State.freeReq
  try dsimp only
  repeat' first
    | with_reducible assumption | intro _
    | (with_reducible first | apply memOk_ite | apply wf_of_memOk | apply memOk_foldl | apply memOk_State_onCore)
    | simp only [memOk_mk] | split | dsimp only

theorem memOk_State_atomAddr {a0 a1 a2 a3} (h1 : State.memOk a0)
    (h4 : ∀ b0 b1, State.memOk b1 → State.memOk (a3 b0 b1)) :
    State.memOk (State.atomAddr a0 a1 a2 a3) := by
  unfold State.atomAddr
  try dsimp only
  repeat' first
    | with_reducible assumption | intro _
    | (with_reducible first
        | apply memOk_ite | apply wf_of_memOk | apply memOk_foldl | apply memOk_State_trap
        | apply memOk_State_translate | apply memOk_State_consume | apply memOk_State_stall
        | apply memOk_State_lockTrap | apply h4)
    | with_reducible refine memOk_State_translate_eq (by assumption) ?_
    | simp only [memOk_mk] | split | dsimp only

theorem memOk_State_takeCarried {a0 a1 a2} (h1 : State.memOk a0) :
    State.memOk ((State.takeCarried a0 a1 a2)).2 := by
  unfold State.takeCarried
  try dsimp only
  repeat' first
    | with_reducible assumption | intro _
    | (with_reducible first | apply memOk_ite | apply wf_of_memOk | apply memOk_foldl | apply memOk_State_onCore)
    | simp only [memOk_mk] | split | dsimp only

theorem memOk_State_takeCarried_eq {a0 a1 a2} {c1 t} (e : State.takeCarried a0 a1 a2 = (c1, t)) (h1 : State.memOk a0)
    : State.memOk t := by
  have := @memOk_State_takeCarried a0 a1 a2 h1
  rwa [e] at this

theorem memOk_State_watch {a0 a1 a2 a3} (h1 : State.memOk a0) :
    State.memOk (State.watch a0 a1 a2 a3) := by
  unfold State.watch
  try dsimp only
  repeat' first
    | with_reducible assumption | intro _
    | (with_reducible first | apply memOk_ite | apply wf_of_memOk | apply memOk_foldl | apply memOk_State_onFrame)
    | simp only [memOk_mk] | split | dsimp only

theorem memOk_State_atom {a0 a1 a2 a3 a4 a5 a6} (h1 : State.memOk a0) :
    State.memOk (State.atom a0 a1 a2 a3 a4 a5 a6) := by
  unfold State.atom
  try dsimp only
  repeat' first
    | with_reducible assumption | intro _
    | (with_reducible first
        | apply memOk_ite | apply wf_of_memOk | apply memOk_foldl | apply memOk_State_stall
        | apply memOk_State_atomAddr | apply memOk_State_takeCarried | apply memOk_State_onMe
        | apply memOk_State_retireCk | apply memOk_State_watch | apply memOk_State_send)
    | with_reducible refine memOk_State_takeCarried_eq (by assumption) ?_
    | simp only [memOk_mk] | split | dsimp only

theorem memOk_execKchkq {a0 a1} (h2 : State.memOk a1) :
    OutOk ((execKchkq a0 a1)) := by
  unfold execKchkq
  try dsimp only
  repeat' first
    | with_reducible assumption | intro _
    | (with_reducible first
        | apply memOk_ite | apply wf_of_memOk | apply outOk_next | apply outOk_ite | apply memOk_foldl
        | apply memOk_State_runKiln | apply memOk_State_illegal | apply memOk_State_plainKiln)
    | simp only [memOk_mk] | split | dsimp only

theorem memOk_State_refusedReq {a0 a1 a2 a3} (h1 : State.memOk a0) :
    State.memOk (State.refusedReq a0 a1 a2 a3) := by
  unfold State.refusedReq
  try dsimp only
  repeat' first
    | with_reducible assumption | intro _
    | (with_reducible first
        | apply memOk_ite | apply wf_of_memOk | apply memOk_foldl | apply memOk_State_fillReg
        | apply memOk_State_onCore | apply memOk_State_postSucc)
    | simp only [memOk_mk] | split | dsimp only

theorem memOk_State_stream {a0 a1 a2} (h1 : State.memOk a0) :
    State.memOk (State.stream a0 a1 a2) := by
  unfold State.stream
  try dsimp only
  repeat' first
    | with_reducible assumption | intro _
    | (with_reducible first | apply memOk_ite | apply wf_of_memOk | apply memOk_foldl | apply memOk_State_send)
    | simp only [memOk_mk] | split | dsimp only

theorem memOk_State_stampOwner {a0 a1 a2 a3} (h1 : State.memOk a0) :
    State.memOk (State.stampOwner a0 a1 a2 a3) := by
  unfold State.stampOwner
  try dsimp only
  repeat' first
    | with_reducible assumption | intro _
    | (with_reducible first
        | apply memOk_ite | apply wf_of_memOk | apply memOk_foldl | apply memOk_State_onCore
        | apply memOk_State_stream)
    | simp only [memOk_mk] | split | dsimp only

theorem memOk_State_settleActs {a0 a1 a2} (h1 : State.memOk a0) :
    State.memOk (State.settleActs a0 a1 a2) := by
  induction a2 generalizing a0 a1 with
  | zero => exact h1
  | succ n ih =>
    unfold State.settleActs
    try dsimp only
    repeat' first
      | with_reducible assumption
      | (with_reducible first | apply ih | apply memOk_ite | apply wf_of_memOk | apply memOk_State_onCore | apply memOk_State_stampOwner)
      | intro _
      | exact h7 _ _ (by assumption)
      | simp only [memOk_mk]
      | split
      | dsimp only

theorem memOk_State_settle {a0 a1 a2 a3} (h1 : State.memOk a0) :
    State.memOk (State.settle a0 a1 a2 a3) := by
  unfold State.settle
  try dsimp only
  repeat' first
    | with_reducible assumption | intro _
    | (with_reducible first
        | apply memOk_ite | apply wf_of_memOk | apply memOk_foldl | apply memOk_State_onCore
        | apply memOk_State_queriesLeave | apply memOk_State_settleActs)
    | simp only [memOk_mk] | split | dsimp only

theorem memOk_State_statusBack {a0 a1 a2 a3} (h1 : State.memOk a0) :
    State.memOk (State.statusBack a0 a1 a2 a3) := by
  unfold State.statusBack
  try dsimp only
  repeat' first
    | with_reducible assumption | intro _
    | (with_reducible first
        | apply memOk_ite | apply wf_of_memOk | apply memOk_foldl | apply memOk_State_fillReg
        | apply memOk_State_onCore | apply memOk_State_count | apply memOk_State_settle)
    | simp only [memOk_mk] | split | dsimp only

theorem memOk_State_gbarTry {a0 a1 a2} (h1 : State.memOk a0) :
    State.memOk (State.gbarTry a0 a1 a2) := by
  unfold State.gbarTry
  try dsimp only
  repeat' first
    | with_reducible assumption | intro _
    | (with_reducible first
        | apply memOk_ite | apply wf_of_memOk | apply memOk_foldl | apply memOk_State_onCore
        | apply memOk_State_postSucc)
    | simp only [memOk_mk] | split | dsimp only

theorem memOk_State_sendNotice {a0 a1 a2 a3 a4 a5} (h1 : State.memOk a0) :
    State.memOk (State.sendNotice a0 a1 a2 a3 a4 a5) := by
  unfold State.sendNotice
  try dsimp only
  repeat' first
    | with_reducible assumption | intro _
    | (with_reducible first | apply memOk_ite | apply wf_of_memOk | apply memOk_foldl | apply memOk_State_send)
    | simp only [memOk_mk] | split | dsimp only

theorem memOk_State_gbarAbort {a0 a1 a2} (h1 : State.memOk a0) :
    State.memOk (State.gbarAbort a0 a1 a2) := by
  unfold State.gbarAbort
  try dsimp only
  repeat' first
    | with_reducible assumption | intro _
    | (with_reducible first | apply memOk_ite | apply wf_of_memOk | apply memOk_foldl | apply memOk_State_sendNotice)
    | simp only [memOk_mk] | split | dsimp only

theorem memOk_State_abortOpen {a0 a1 a2 a3} (h1 : State.memOk a0) :
    State.memOk (State.abortOpen a0 a1 a2 a3) := by
  unfold State.abortOpen
  try dsimp only
  repeat' first
    | with_reducible assumption | intro _
    | (with_reducible first
        | apply memOk_ite | apply wf_of_memOk | apply memOk_foldl | apply memOk_State_onCore
        | apply memOk_State_gbarTry | apply memOk_State_gbarAbort)
    | simp only [memOk_mk] | split | dsimp only

theorem memOk_State_oneGot {a0 a1 a2 a3 a4} (h1 : State.memOk a0) :
    State.memOk (State.oneGot a0 a1 a2 a3 a4) := by
  unfold State.oneGot
  try dsimp only
  repeat' first
    | with_reducible assumption | intro _
    | (with_reducible first | apply memOk_ite | apply wf_of_memOk | apply memOk_foldl | apply memOk_State_onCluster)
    | simp only [memOk_mk] | split | dsimp only

theorem memOk_State_refusedLoad {a0 a1 a2 a3} (h1 : State.memOk a0) :
    State.memOk (State.refusedLoad a0 a1 a2 a3) := by
  unfold State.refusedLoad
  try dsimp only
  repeat' first
    | with_reducible assumption | intro _
    | (with_reducible first
        | apply memOk_ite | apply wf_of_memOk | apply memOk_foldl | apply memOk_State_onCore
        | apply memOk_State_oneGot)
    | simp only [memOk_mk] | split | dsimp only

theorem memOk_execRefusalAtSender {a0 a1} (h2 : State.memOk a1) :
    OutOk ((execRefusalAtSender a0 a1)) := by
  unfold execRefusalAtSender
  try dsimp only
  repeat' first
    | with_reducible assumption | intro _
    | (with_reducible first
        | apply memOk_ite | apply wf_of_memOk | apply outOk_next | apply outOk_ite | apply optOk_none
        | apply optOk_some | apply optOk_ite | apply optOk_map_mem | apply optOk_map_snd | apply optOk_map_any
        | apply optOk_findSome | apply optOk_bind | apply optOk_orElse | apply memOk_getD | apply memOk_foldl
        | apply memOk_State_takePkt | apply memOk_State_asDevice | apply memOk_State_refusedReq
        | apply memOk_State_statusBack | apply memOk_State_onCluster | apply memOk_State_abortOpen
        | apply memOk_State_onCore | apply memOk_State_refusedLoad | apply memOk_State_report)
    | with_reducible refine memOk_State_takePkt_eq (by assumption) ?_
    | with_reducible refine memOk_State_takePkt_eq2 (by assumption) ?_
    | with_reducible refine memOk_of_next (by assumption) ?_
    | with_reducible refine memOk_of_some_snd (by assumption) ?_
    | with_reducible refine memOk_of_some (by assumption) ?_
    | with_reducible refine memOk_of_some_fst (by assumption) ?_
    | simp only [memOk_mk] | split | dsimp only

theorem memOk_State_passArb {a0 a1 a2 a3 a4} (h1 : State.memOk a0) :
    State.memOk ((State.passArb a0 a1 a2 a3 a4)).2 := by
  unfold State.passArb
  try dsimp only
  repeat' first
    | with_reducible assumption | intro _
    | (with_reducible first
        | apply memOk_ite | apply wf_of_memOk | apply memOk_foldl | apply memOk_State_arbGrant
        | apply memOk_State_ask)
    | simp only [memOk_mk] | split | dsimp only

theorem memOk_State_passArb_eq {a0 a1 a2 a3 a4} {c1 t} (e : State.passArb a0 a1 a2 a3 a4 = (c1, t))
    (h1 : State.memOk a0) : State.memOk t := by
  have := @memOk_State_passArb a0 a1 a2 a3 a4 h1
  rwa [e] at this

theorem memOk_State_onVdev {a0 a1 a2} (h1 : State.memOk a0) :
    State.memOk (State.onVdev a0 a1 a2) := by
  unfold State.onVdev
  try dsimp only
  repeat' first
    | with_reducible assumption | intro _
    | (with_reducible first | apply memOk_ite | apply wf_of_memOk | apply memOk_foldl)
    | simp only [memOk_mk] | split | dsimp only

theorem memOk_State_abortArrivals {a0 a1 a2} (h1 : State.memOk a0) :
    State.memOk (State.abortArrivals a0 a1 a2) := by
  unfold State.abortArrivals
  try dsimp only
  repeat' first
    | with_reducible assumption | intro _
    | (with_reducible first
        | apply memOk_ite | apply wf_of_memOk | apply memOk_foldl | apply memOk_State_asDevice
        | apply memOk_State_gbarAbort)
    | simp only [memOk_mk] | split | dsimp only

theorem memOk_State_endCollectives {a0 a1} (h1 : State.memOk a0) :
    State.memOk (State.endCollectives a0 a1) := by
  unfold State.endCollectives
  try dsimp only
  repeat' first
    | with_reducible assumption | intro _
    | (with_reducible first | apply memOk_ite | apply wf_of_memOk | apply memOk_foldl | apply memOk_State_abortArrivals)
    | simp only [memOk_mk] | split | dsimp only

theorem memOk_State_clearDebug {a0 a1} (h1 : State.memOk a0) :
    State.memOk (State.clearDebug a0 a1) := by
  unfold State.clearDebug
  try dsimp only
  repeat' first
    | with_reducible assumption | intro _
    | (with_reducible first | apply memOk_ite | apply wf_of_memOk | apply memOk_foldl)
    | simp only [memOk_mk] | split | dsimp only

theorem memOk_State_saveBlock {a0 a1 a2 a3 a4} (h1 : State.memOk a0) :
    State.memOk (State.saveBlock a0 a1 a2 a3 a4) := by
  unfold State.saveBlock
  try dsimp only
  repeat' first
    | with_reducible assumption | intro _
    | (with_reducible first
        | apply memOk_ite | apply wf_of_memOk | apply memOk_foldl | apply memOk_State_writeCtx
        | apply memOk_State_saveLive | apply memOk_State_clearWhole)
    | simp only [memOk_mk] | split | dsimp only

theorem memOk_State_movePoison {a0 a1 a2 a3} (h1 : State.memOk a0) :
    State.memOk (State.movePoison a0 a1 a2 a3) := by
  unfold State.movePoison
  try dsimp only
  repeat' first
    | with_reducible assumption | intro _
    | (with_reducible first | apply memOk_ite | apply wf_of_memOk | apply memOk_foldl | apply memOk_State_setPoison)
    | simp only [memOk_mk] | split | dsimp only

theorem memOk_State_initBlock {a0 a1 a2 a3} (h1 : State.memOk a0) :
    State.memOk (State.initBlock a0 a1 a2 a3) := by
  unfold State.initBlock
  try dsimp only
  repeat' first
    | with_reducible assumption | intro _
    | (with_reducible first
        | apply memOk_ite | apply wf_of_memOk | apply memOk_foldl | apply memOk_State_scanEcc
        | apply memOk_State_saveBlock | apply memOk_State_writeCtx | apply memOk_State_movePoison)
    | simp only [memOk_mk] | split | dsimp only

theorem memOk_State_loadSliceCounters {a0 a1 a2} (h1 : State.memOk a0) :
    State.memOk (State.loadSliceCounters a0 a1 a2) := by
  unfold State.loadSliceCounters
  try dsimp only
  repeat' first
    | with_reducible assumption | intro _
    | (with_reducible first | apply memOk_ite | apply wf_of_memOk | apply memOk_foldl)
    | simp only [memOk_mk] | split | dsimp only

theorem memOk_State_expireKiln {a0 a1 a2} (h1 : State.memOk a0) :
    State.memOk (State.expireKiln a0 a1 a2) := by
  unfold State.expireKiln
  try dsimp only
  repeat' first
    | with_reducible assumption | intro _
    | (with_reducible first
        | apply memOk_ite | apply wf_of_memOk | apply memOk_foldl | apply memOk_State_onKiln | apply memOk_State_onSet
        | apply memOk_State_abortSolve | apply memOk_State_onCore)
    | simp only [memOk_mk] | split | dsimp only

theorem memOk_State_lateTasks {a0 a1} (h1 : State.memOk a0) :
    State.memOk (State.lateTasks a0 a1) := by
  unfold State.lateTasks
  try dsimp only
  repeat' first
    | with_reducible assumption | intro _
    | (with_reducible first
        | apply memOk_ite | apply wf_of_memOk | apply memOk_foldl | apply memOk_State_onCore
        | apply memOk_State_expireKiln)
    | simp only [memOk_mk] | split | dsimp only

theorem memOk_State_loadCore {a0 a1 a2 a3} (h1 : State.memOk a0) :
    State.memOk (State.loadCore a0 a1 a2 a3) := by
  unfold State.loadCore
  try dsimp only
  repeat' first
    | with_reducible assumption | intro _
    | (with_reducible first
        | apply memOk_ite | apply wf_of_memOk | apply memOk_foldl | apply memOk_State_scanEcc
        | apply memOk_State_setCore | apply memOk_State_loadSliceCounters | apply memOk_State_movePoison
        | apply memOk_State_spadWrite | apply memOk_State_checkpoint | apply memOk_State_lateTasks
        | apply memOk_State_machineCheck)
    | simp only [memOk_mk] | split | dsimp only

theorem memOk_State_dropLease {a0 a1} (h1 : State.memOk a0) :
    State.memOk (State.dropLease a0 a1) := by
  unfold State.dropLease
  try dsimp only
  repeat' first
    | with_reducible assumption | intro _
    | (with_reducible first | apply memOk_ite | apply wf_of_memOk | apply memOk_foldl | apply memOk_State_onKiln)
    | simp only [memOk_mk] | split | dsimp only

theorem memOk_State_unloadCore {a0 a1} (h1 : State.memOk a0) :
    State.memOk (State.unloadCore a0 a1) := by
  unfold State.unloadCore
  try dsimp only
  repeat' first
    | with_reducible assumption | intro _
    | (with_reducible first
        | apply memOk_ite | apply wf_of_memOk | apply memOk_foldl | apply memOk_State_onKiln
        | apply memOk_State_onCore | apply memOk_State_onCluster | apply memOk_State_dropLease)
    | simp only [memOk_mk] | split | dsimp only

theorem memOk_State_freshContexts {a0 a1} (h1 : State.memOk a0) :
    State.memOk (State.freshContexts a0 a1) := by
  unfold State.freshContexts
  try dsimp only
  repeat' first
    | with_reducible assumption | intro _
    | (with_reducible first
        | apply memOk_ite | apply wf_of_memOk | apply memOk_foldl | apply memOk_State_freeLatch
        | apply memOk_State_onCore | apply memOk_State_initBlock | apply memOk_State_loadCore
        | apply memOk_State_unloadCore)
    | simp only [memOk_mk] | split | dsimp only

theorem memOk_State_resetDevice {a0 a1} (h1 : State.memOk a0) :
    State.memOk (State.resetDevice a0 a1) := by
  unfold State.resetDevice
  try dsimp only
  repeat' first
    | with_reducible assumption | intro _
    | (with_reducible first
        | apply memOk_ite | apply wf_of_memOk | apply memOk_foldl | apply memOk_State_endCollectives
        | apply memOk_State_onVdev | apply memOk_State_clearDebug | apply memOk_State_freshContexts)
    | simp only [memOk_mk] | split | dsimp only

theorem memOk_State_startReset {a0 a1} (h1 : State.memOk a0) :
    State.memOk (State.startReset a0 a1) := by
  unfold State.startReset
  try dsimp only
  repeat' first
    | with_reducible assumption | intro _
    | (with_reducible first
        | apply memOk_ite | apply wf_of_memOk | apply memOk_foldl | apply memOk_State_onVdev
        | apply memOk_State_resetDevice)
    | simp only [memOk_mk] | split | dsimp only

theorem memOk_State_sramRecord {a0 a1 a2 a3 a4 a5} (h1 : State.memOk a0) :
    State.memOk (State.sramRecord a0 a1 a2 a3 a4 a5) := by
  unfold State.sramRecord
  try dsimp only
  repeat' first
    | with_reducible assumption | intro _
    | (with_reducible first | apply memOk_ite | apply wf_of_memOk | apply memOk_foldl | apply memOk_State_report)
    | simp only [memOk_mk] | split | dsimp only

theorem memOk_State_sramError {a0 a1 a2} (h1 : State.memOk a0) :
    State.memOk (State.sramError a0 a1 a2) := by
  unfold State.sramError
  try dsimp only
  repeat' first
    | with_reducible assumption | intro _
    | (with_reducible first
        | apply memOk_ite | apply wf_of_memOk | apply memOk_foldl | apply memOk_State_setPoison
        | apply memOk_State_sramRecord | apply memOk_State_onCore)
    | simp only [memOk_mk] | split | dsimp only

theorem memOk_State_nmcmd {a0 a1} (h1 : State.memOk a0) :
    State.memOk (State.nmcmd a0 a1) := by
  unfold State.nmcmd
  try dsimp only
  repeat' first
    | with_reducible assumption | intro _
    | (with_reducible first | apply memOk_ite | apply wf_of_memOk | apply memOk_foldl)
    | simp only [memOk_mk] | split | dsimp only

theorem memOk_State_errctl {a0 a1 a2} (h1 : State.memOk a0) :
    State.memOk (State.errctl a0 a1 a2) := by
  unfold State.errctl
  try dsimp only
  repeat' first
    | with_reducible assumption | intro _
    | (with_reducible first | apply memOk_ite | apply wf_of_memOk | apply memOk_foldl | apply memOk_State_setMmio)
    | simp only [memOk_mk] | split | dsimp only

theorem memOk_State_dirPort {a0 a1 a2 a3} (h1 : State.memOk a0) :
    State.memOk (State.dirPort a0 a1 a2 a3) := by
  unfold State.dirPort
  try dsimp only
  repeat' first
    | with_reducible assumption | intro _
    | (with_reducible first | apply memOk_ite | apply wf_of_memOk | apply memOk_foldl | apply memOk_State_send)
    | simp only [memOk_mk] | split | dsimp only

theorem memOk_State_mmioWrite {a0 a1 a2 a3 a4} (h1 : State.memOk a0) :
    State.memOk (State.mmioWrite a0 a1 a2 a3 a4) := by
  unfold State.mmioWrite
  try dsimp only
  repeat' first
    | with_reducible assumption | intro _
    | (with_reducible first
        | apply memOk_ite | apply wf_of_memOk | apply memOk_foldl | apply memOk_State_setMmio
        | apply memOk_State_nmcmd | apply memOk_State_errctl | apply memOk_State_onKiln | apply memOk_State_dirPort)
    | simp only [memOk_mk] | split | dsimp only

theorem memOk_State_ownSpadStore {a0 a1 a2} (h1 : State.memOk a0) :
    State.memOk (State.ownSpadStore a0 a1 a2) := by
  unfold State.ownSpadStore
  try dsimp only
  repeat' first
    | with_reducible assumption | intro _
    | (with_reducible first
        | apply memOk_ite | apply wf_of_memOk | apply memOk_foldl | apply memOk_State_ckCycle
        | apply memOk_State_spadWrite | apply memOk_State_journal)
    | simp only [memOk_mk] | split | dsimp only

theorem memOk_State_writeExt {a0 a1 a2 a3 a4} (h1 : State.memOk a0) :
    State.memOk (State.writeExt a0 a1 a2 a3 a4) := by
  induction a4 generalizing a0 a1 a2 a3 with
  | nil => exact h1
  | cons r rs ih =>
    unfold State.writeExt
    try dsimp only
    repeat' first
      | with_reducible assumption
      | (with_reducible first | apply ih | apply memOk_ite | apply wf_of_memOk | apply memOk_State_writeKeyed)
      | intro _
      | exact h7 _ _ (by assumption)
      | simp only [memOk_mk]
      | split
      | dsimp only

theorem memOk_State_spillLog {a0 a1 a2} (h1 : State.memOk a0) :
    State.memOk (State.spillLog a0 a1 a2) := by
  unfold State.spillLog
  try dsimp only
  repeat' first
    | with_reducible assumption | intro _
    | (with_reducible first
        | apply memOk_ite | apply wf_of_memOk | apply memOk_foldl | apply memOk_State_writeExt
        | apply memOk_State_onCore)
    | simp only [memOk_mk] | split | dsimp only

theorem memOk_State_logStore {a0 a1 a2 a3 a4} (h1 : State.memOk a0) :
    State.memOk (State.logStore a0 a1 a2 a3 a4) := by
  unfold State.logStore
  try dsimp only
  repeat' first
    | with_reducible assumption | intro _
    | (with_reducible first
        | apply memOk_ite | apply wf_of_memOk | apply memOk_foldl | apply memOk_State_spillLog
        | apply memOk_State_onCore)
    | simp only [memOk_mk] | split | dsimp only

theorem memOk_State_store {a0 a1 a2 a3} (h1 : State.memOk a0) :
    State.memOk (State.store a0 a1 a2 a3) := by
  unfold State.store
  try dsimp only
  repeat' first
    | with_reducible assumption | intro _
    | (with_reducible first
        | apply memOk_ite | apply wf_of_memOk | apply memOk_foldl | apply memOk_State_trap | apply memOk_State_stall
        | apply memOk_State_translate | apply memOk_State_consume | apply memOk_State_retire | apply memOk_State_watch
        | apply memOk_State_mmioWrite | apply memOk_State_send | apply memOk_State_lockTrap
        | apply memOk_State_ownSpadStore | apply memOk_State_sendSpad | apply memOk_State_ckCycle
        | apply memOk_State_logStore)
    | with_reducible refine memOk_State_translate_eq (by assumption) ?_
    | simp only [memOk_mk] | split | dsimp only

theorem memOk_storeI {a0 a1 a2 a3 a4 a5} (h6 : State.memOk a5) :
    OutOk ((storeI a0 a1 a2 a3 a4 a5)) := by
  unfold storeI
  try dsimp only
  repeat' first
    | with_reducible assumption | intro _
    | (with_reducible first
        | apply memOk_ite | apply wf_of_memOk | apply outOk_next | apply outOk_ite | apply memOk_foldl
        | apply memOk_State_run | apply memOk_State_store)
    | simp only [memOk_mk] | split | dsimp only

theorem memOk_execSd {a0 a1 a2 a3} (h4 : State.memOk a3) :
    OutOk ((execSd a0 a1 a2 a3)) := by
  unfold execSd
  try dsimp only
  repeat' first
    | with_reducible assumption | intro _
    | (with_reducible first
        | apply memOk_ite | apply wf_of_memOk | apply outOk_next | apply outOk_ite | apply memOk_foldl
        | apply memOk_storeI)
    | simp only [memOk_mk] | split | dsimp only

theorem memOk_execVlane {a0 a1 a2 a3 a4} (h5 : State.memOk a4) :
    OutOk ((execVlane a0 a1 a2 a3 a4)) := by
  unfold execVlane
  try dsimp only
  repeat' first
    | with_reducible assumption | intro _
    | (with_reducible first
        | apply memOk_ite | apply wf_of_memOk | apply outOk_next | apply outOk_ite | apply memOk_foldl
        | apply memOk_State_runKiln | apply memOk_State_plainKiln)
    | simp only [memOk_mk] | split | dsimp only

theorem memOk_State_tellHost {a0 a1} (h1 : State.memOk a0) :
    State.memOk (State.tellHost a0 a1) := by
  unfold State.tellHost
  try dsimp only
  repeat' first
    | with_reducible assumption | intro _
    | (with_reducible first | apply memOk_ite | apply wf_of_memOk | apply memOk_foldl)
    | simp only [memOk_mk] | split | dsimp only

theorem memOk_State_pfRead {a0 a1 a2} (h1 : State.memOk a0) :
    State.memOk (State.pfRead a0 a1 a2) := by
  unfold State.pfRead
  try dsimp only
  repeat' first
    | with_reducible assumption | intro _
    | (with_reducible first | apply memOk_ite | apply wf_of_memOk | apply memOk_foldl | apply memOk_State_tellHost)
    | simp only [memOk_mk] | split | dsimp only

theorem memOk_State_ingress {a0 a1 a2} (h1 : State.memOk a0) :
    State.memOk ((State.ingress a0 a1 a2)).2 := by
  unfold State.ingress
  try dsimp only
  repeat' first
    | with_reducible assumption | intro _
    | (with_reducible first | apply memOk_ite | apply wf_of_memOk | apply memOk_foldl | apply memOk_State_passArb)
    | with_reducible refine memOk_State_passArb_eq (by assumption) ?_
    | simp only [memOk_mk] | split | dsimp only

theorem memOk_State_ingress_eq {a0 a1 a2} {c1 t} (e : State.ingress a0 a1 a2 = (c1, t)) (h1 : State.memOk a0)
    : State.memOk t := by
  have := @memOk_State_ingress a0 a1 a2 h1
  rwa [e] at this

theorem memOk_State_through {a0 a1 a2 a3} (h1 : State.memOk a0) (h4 : ∀ b0, State.memOk b0 → State.memOk (a3 b0)) :
    State.memOk (State.through a0 a1 a2 a3) := by
  unfold State.through
  try dsimp only
  repeat' first
    | with_reducible assumption | intro _
    | (with_reducible first
        | apply memOk_ite | apply wf_of_memOk | apply memOk_foldl | apply memOk_State_ingress | apply h4)
    | with_reducible refine memOk_State_ingress_eq (by assumption) ?_
    | simp only [memOk_mk] | split | dsimp only

theorem memOk_State_beginSlice {a0 a1 a2} (h1 : State.memOk a0) :
    State.memOk (State.beginSlice a0 a1 a2) := by
  unfold State.beginSlice
  try dsimp only
  repeat' first
    | with_reducible assumption | intro _
    | (with_reducible first | apply memOk_ite | apply wf_of_memOk | apply memOk_foldl | apply memOk_State_onSag)
    | simp only [memOk_mk] | split | dsimp only

theorem memOk_State_resume {a0 a1 a2} (h1 : State.memOk a0) :
    State.memOk (State.resume a0 a1 a2) := by
  unfold State.resume
  try dsimp only
  repeat' first
    | with_reducible assumption | intro _
    | (with_reducible first
        | apply memOk_ite | apply wf_of_memOk | apply memOk_foldl | apply memOk_State_beginSlice
        | apply memOk_State_onCluster)
    | simp only [memOk_mk] | split | dsimp only

theorem memOk_State_writeByte {a0 a1 a2} (h1 : State.memOk a0) :
    State.memOk (State.writeByte a0 a1 a2) := writeByte_memOk _ _ _ h1

theorem memOk_State_restoreSector {a0 a1 a2 a3 a4} (h1 : State.memOk a0) :
    State.memOk (State.restoreSector a0 a1 a2 a3 a4) := by
  unfold State.restoreSector
  try dsimp only
  repeat' first
    | with_reducible assumption | intro _
    | (with_reducible first | apply memOk_ite | apply wf_of_memOk | apply memOk_foldl | apply memOk_State_writeByte)
    | simp only [memOk_mk] | split | dsimp only

theorem memOk_State_rollbackPoison {a0 a1 a2} (h1 : State.memOk a0) :
    State.memOk (State.rollbackPoison a0 a1 a2) := by
  unfold State.rollbackPoison
  try dsimp only
  repeat' first
    | with_reducible assumption | intro _
    | (with_reducible first
        | apply memOk_ite | apply wf_of_memOk | apply memOk_foldl | apply memOk_State_setPoison
        | apply memOk_State_machineCheck)
    | simp only [memOk_mk] | split | dsimp only

theorem memOk_State_rollback {a0 a1} (h1 : State.memOk a0) :
    State.memOk (State.rollback a0 a1) := by
  unfold State.rollback
  try dsimp only
  repeat' first
    | with_reducible assumption | intro _
    | (with_reducible first
        | apply memOk_ite | apply wf_of_memOk | apply memOk_foldl | apply memOk_State_onCore
        | apply memOk_State_restoreSector | apply memOk_State_onCluster | apply memOk_State_rollbackPoison)
    | simp only [memOk_mk] | split | dsimp only

theorem memOk_State_saveCore {a0 a1} (h1 : State.memOk a0) :
    State.memOk (State.saveCore a0 a1) := by
  unfold State.saveCore
  try dsimp only
  repeat' first
    | with_reducible assumption | intro _
    | (with_reducible first
        | apply memOk_ite | apply wf_of_memOk | apply memOk_foldl | apply memOk_State_rollback
        | apply memOk_State_saveBlock | apply memOk_State_writeExt | apply memOk_State_unloadCore
        | apply memOk_State_onCore | apply memOk_State_movePoison)
    | simp only [memOk_mk] | split | dsimp only

theorem memOk_State_enterDevice {a0 a1 a2} (h1 : State.memOk a0) :
    State.memOk (State.enterDevice a0 a1 a2) := by
  unfold State.enterDevice
  try dsimp only
  repeat' first
    | with_reducible assumption | intro _
    | (with_reducible first
        | apply memOk_ite | apply wf_of_memOk | apply memOk_foldl | apply memOk_State_loadCore
        | apply memOk_State_onCluster)
    | simp only [memOk_mk] | split | dsimp only

theorem memOk_State_switchTo {a0 a1 a2} (h1 : State.memOk a0) :
    State.memOk (State.switchTo a0 a1 a2) := by
  unfold State.switchTo
  try dsimp only
  repeat' first
    | with_reducible assumption | intro _
    | (with_reducible first
        | apply memOk_ite | apply wf_of_memOk | apply memOk_foldl | apply memOk_State_saveCore
        | apply memOk_State_beginSlice | apply memOk_State_enterDevice | apply memOk_State_onSag)
    | simp only [memOk_mk] | split | dsimp only

theorem memOk_State_endSlice {a0 a1} (h1 : State.memOk a0) :
    State.memOk (State.endSlice a0 a1) := by
  unfold State.endSlice
  try dsimp only
  repeat' first
    | with_reducible assumption | intro _
    | (with_reducible first
        | apply memOk_ite | apply wf_of_memOk | apply memOk_foldl | apply memOk_State_resume
        | apply memOk_State_switchTo | apply memOk_State_onSag | apply memOk_State_beginSlice
        | apply memOk_State_onCluster)
    | simp only [memOk_mk] | split | dsimp only

theorem memOk_execCkpt {a0} (h1 : State.memOk a0) :
    OutOk ((execCkpt a0)) := by
  unfold execCkpt
  try dsimp only
  repeat' first
    | with_reducible assumption | intro _
    | (with_reducible first
        | apply memOk_ite | apply wf_of_memOk | apply outOk_next | apply outOk_ite | apply memOk_foldl
        | apply memOk_State_run | apply memOk_State_checkpoint | apply memOk_State_retire)
    | simp only [memOk_mk] | split | dsimp only

theorem memOk_State_writeSucc {a0 a1} (h1 : State.memOk a0) :
    State.memOk (State.writeSucc a0 a1) := by
  unfold State.writeSucc
  try dsimp only
  repeat' first
    | with_reducible assumption | intro _
    | (with_reducible first | apply memOk_ite | apply wf_of_memOk | apply memOk_foldl | apply memOk_State_onFrame)
    | simp only [memOk_mk] | split | dsimp only

theorem memOk_State_writeK {a0 a1 a2} (h1 : State.memOk a0) :
    WrittenOk ((State.writeK a0 a1 a2)) := by
  unfold State.writeK
  try dsimp only
  repeat' first
    | with_reducible assumption | intro _
    | (with_reducible first
        | apply memOk_ite | apply wf_of_memOk | apply writtenOk_ite | apply writtenOk_ok | apply writtenOk_wait
        | apply writtenOk_illegal | apply memOk_foldl | apply memOk_State_onMe)
    | simp only [memOk_mk] | split | dsimp only

theorem memOk_State_writeK_eq {a0 a1 a2} {t} (e : State.writeK a0 a1 a2 = .ok t) (h1 : State.memOk a0)
    : State.memOk t := by
  have := @memOk_State_writeK a0 a1 a2 h1
  rwa [e] at this

theorem memOk_State_writeSgrect {a0 a1} (h1 : State.memOk a0) :
    WrittenOk ((State.writeSgrect a0 a1)) := by
  unfold State.writeSgrect
  try dsimp only
  repeat' first
    | with_reducible assumption | intro _
    | (with_reducible first
        | apply memOk_ite | apply wf_of_memOk | apply writtenOk_ite | apply writtenOk_ok | apply writtenOk_wait
        | apply writtenOk_illegal | apply memOk_foldl | apply memOk_State_onSag)
    | simp only [memOk_mk] | split | dsimp only

theorem memOk_State_writeSgrect_eq {a0 a1} {t} (e : State.writeSgrect a0 a1 = .ok t) (h1 : State.memOk a0)
    : State.memOk t := by
  have := @memOk_State_writeSgrect a0 a1 h1
  rwa [e] at this

theorem memOk_State_launchDevice {a0 a1} (h1 : State.memOk a0) :
    State.memOk (State.launchDevice a0 a1) := by
  unfold State.launchDevice
  try dsimp only
  repeat' first
    | with_reducible assumption | intro _
    | (with_reducible first
        | apply memOk_ite | apply wf_of_memOk | apply memOk_foldl | apply memOk_State_onVdev
        | apply memOk_State_clearDebug | apply memOk_State_freshContexts)
    | simp only [memOk_mk] | split | dsimp only

theorem memOk_State_teardownDevice {a0 a1} (h1 : State.memOk a0) :
    State.memOk (State.teardownDevice a0 a1) := by
  unfold State.teardownDevice
  try dsimp only
  repeat' first
    | with_reducible assumption | intro _
    | (with_reducible first
        | apply memOk_ite | apply wf_of_memOk | apply memOk_foldl | apply memOk_State_onVdev
        | apply memOk_State_resetDevice)
    | simp only [memOk_mk] | split | dsimp only

theorem memOk_State_writeVdctl {a0 a1} (h1 : State.memOk a0) :
    WrittenOk ((State.writeVdctl a0 a1)) := by
  unfold State.writeVdctl
  try dsimp only
  repeat' first
    | with_reducible assumption | intro _
    | (with_reducible first
        | apply memOk_ite | apply wf_of_memOk | apply writtenOk_ite | apply writtenOk_ok | apply writtenOk_wait
        | apply writtenOk_illegal | apply memOk_foldl | apply memOk_State_launchDevice | apply memOk_State_resetDevice
        | apply memOk_State_teardownDevice)
    | simp only [memOk_mk] | split | dsimp only

theorem memOk_State_writeVdctl_eq {a0 a1} {t} (e : State.writeVdctl a0 a1 = .ok t) (h1 : State.memOk a0)
    : State.memOk t := by
  have := @memOk_State_writeVdctl a0 a1 h1
  rwa [e] at this

theorem memOk_State_writeBkcfg {a0 a1} (h1 : State.memOk a0) :
    State.memOk (State.writeBkcfg a0 a1) := by
  unfold State.writeBkcfg
  try dsimp only
  repeat' first
    | with_reducible assumption | intro _
    | (with_reducible first | apply memOk_ite | apply wf_of_memOk | apply memOk_foldl | apply memOk_State_setArb)
    | simp only [memOk_mk] | split | dsimp only

theorem memOk_State_writeSlwt {a0 a1} (h1 : State.memOk a0) :
    State.memOk (State.writeSlwt a0 a1) := by
  unfold State.writeSlwt
  try dsimp only
  repeat' first
    | with_reducible assumption | intro _
    | (with_reducible first | apply memOk_ite | apply wf_of_memOk | apply memOk_foldl | apply memOk_State_onSag)
    | simp only [memOk_mk] | split | dsimp only

theorem memOk_State_writeTbctl {a0 a1} (h1 : State.memOk a0) :
    State.memOk (State.writeTbctl a0 a1) := by
  unfold State.writeTbctl
  try dsimp only
  repeat' first
    | with_reducible assumption | intro _
    | (with_reducible first
        | apply memOk_ite | apply wf_of_memOk | apply memOk_foldl | apply memOk_State_onCluster
        | apply memOk_State_freeSpill)
    | simp only [memOk_mk] | split | dsimp only

theorem memOk_State_writeGbstat {a0 a1} (h1 : State.memOk a0) :
    State.memOk (State.writeGbstat a0 a1) := by
  unfold State.writeGbstat
  try dsimp only
  repeat' first
    | with_reducible assumption | intro _
    | (with_reducible first
        | apply memOk_ite | apply wf_of_memOk | apply memOk_foldl | apply memOk_State_onMe
        | apply memOk_State_freeSpill)
    | simp only [memOk_mk] | split | dsimp only

theorem memOk_State_writeTeamstg {a0 a1} (h1 : State.memOk a0) :
    WrittenOk ((State.writeTeamstg a0 a1)) := by
  unfold State.writeTeamstg
  try dsimp only
  repeat' first
    | with_reducible assumption | intro _
    | (with_reducible first
        | apply memOk_ite | apply wf_of_memOk | apply writtenOk_ite | apply writtenOk_ok | apply writtenOk_wait
        | apply writtenOk_illegal | apply memOk_foldl | apply memOk_State_onMe)
    | simp only [memOk_mk] | split | dsimp only

theorem memOk_State_writeTeamstg_eq {a0 a1} {t} (e : State.writeTeamstg a0 a1 = .ok t) (h1 : State.memOk a0)
    : State.memOk t := by
  have := @memOk_State_writeTeamstg a0 a1 h1
  rwa [e] at this

theorem memOk_State_csrWrite {a0 a1 a2} (h1 : State.memOk a0) :
    WrittenOk ((State.csrWrite a0 a1 a2)) := by
  unfold State.csrWrite
  try dsimp only
  repeat' first
    | with_reducible assumption | intro _
    | (with_reducible first
        | apply memOk_ite | apply wf_of_memOk | apply writtenOk_ite | apply writtenOk_ok | apply writtenOk_wait
        | apply writtenOk_illegal | apply memOk_foldl | apply memOk_State_onMe | apply memOk_State_onFrame
        | apply memOk_State_writeSucc | apply memOk_State_writeK | apply memOk_State_onKiln
        | apply memOk_State_writeSgrect | apply memOk_State_writeVdctl | apply memOk_State_writeBkcfg
        | apply memOk_State_onVdev | apply memOk_State_writeSlwt | apply memOk_State_writeTbctl
        | apply memOk_State_writeGbstat | apply memOk_State_writeTeamstg)
    | with_reducible refine memOk_State_writeK_eq (by assumption) ?_
    | with_reducible refine memOk_State_writeSgrect_eq (by assumption) ?_
    | with_reducible refine memOk_State_writeVdctl_eq (by assumption) ?_
    | with_reducible refine memOk_State_writeTeamstg_eq (by assumption) ?_
    | simp only [memOk_mk] | split | dsimp only

theorem memOk_State_csrWrite_eq {a0 a1 a2} {t} (e : State.csrWrite a0 a1 a2 = .ok t) (h1 : State.memOk a0)
    : State.memOk t := by
  have := @memOk_State_csrWrite a0 a1 a2 h1
  rwa [e] at this

theorem memOk_State_csrStep {a0 a1 a2} (h1 : State.memOk a0) :
    State.memOk (State.csrStep a0 a1 a2) := by
  unfold State.csrStep
  try dsimp only
  repeat' first
    | with_reducible assumption | intro _
    | (with_reducible first
        | apply memOk_ite | apply wf_of_memOk | apply memOk_foldl | apply memOk_State_illegal
        | apply memOk_State_csrWrite | apply memOk_State_stall)
    | with_reducible refine memOk_State_csrWrite_eq (by assumption) ?_
    | simp only [memOk_mk] | split | dsimp only

theorem memOk_execGbstatWithdraw {a0} (h1 : State.memOk a0) :
    OutOk ((execGbstatWithdraw a0)) := by
  unfold execGbstatWithdraw
  try dsimp only
  repeat' first
    | with_reducible assumption | intro _
    | (with_reducible first
        | apply memOk_ite | apply wf_of_memOk | apply outOk_next | apply outOk_ite | apply memOk_foldl
        | apply memOk_State_csrStep)
    | simp only [memOk_mk] | split | dsimp only

theorem memOk_State_takeHeld {a0 a1 a2} (h1 : State.memOk a0) :
    OptOk (fun r => State.memOk (r).2) ((State.takeHeld a0 a1 a2)) := by
  unfold State.takeHeld
  try dsimp only
  repeat' first
    | with_reducible assumption | intro _
    | (with_reducible first
        | apply memOk_ite | apply wf_of_memOk | apply optOk_none | apply optOk_some | apply optOk_ite
        | apply optOk_map_mem | apply optOk_map_snd | apply optOk_map_any | apply optOk_findSome | apply optOk_bind
        | apply optOk_orElse | apply memOk_getD | apply memOk_foldl)
    | with_reducible refine memOk_of_next (by assumption) ?_
    | with_reducible refine memOk_of_some_snd (by assumption) ?_
    | with_reducible refine memOk_of_some (by assumption) ?_
    | with_reducible refine memOk_of_some_fst (by assumption) ?_
    | simp only [memOk_mk] | split | dsimp only

theorem memOk_State_takeHeld_eq {a0 a1 a2} {c1 t} (e : State.takeHeld a0 a1 a2 = some (c1, t)) (h1 : State.memOk a0)
    : State.memOk t :=
  (@memOk_State_takeHeld a0 a1 a2 h1).of _ e
theorem memOk_State_takeHeld_eq2 {a0 a1 a2} {r} (e : State.takeHeld a0 a1 a2 = some r)
    (h1 : State.memOk a0) : State.memOk (r).2 :=
  (@memOk_State_takeHeld a0 a1 a2 h1).of _ e

theorem memOk_State_takeHome {a0 a1 a2} (h1 : State.memOk a0) :
    OptOk (fun r => State.memOk (r).2) ((State.takeHome a0 a1 a2)) := by
  unfold State.takeHome
  try dsimp only
  repeat' first
    | with_reducible assumption | intro _
    | (with_reducible first
        | apply memOk_ite | apply wf_of_memOk | apply optOk_none | apply optOk_some | apply optOk_ite
        | apply optOk_map_mem | apply optOk_map_snd | apply optOk_map_any | apply optOk_findSome | apply optOk_bind
        | apply optOk_orElse | apply memOk_getD | apply memOk_foldl)
    | with_reducible refine memOk_of_next (by assumption) ?_
    | with_reducible refine memOk_of_some_snd (by assumption) ?_
    | with_reducible refine memOk_of_some (by assumption) ?_
    | with_reducible refine memOk_of_some_fst (by assumption) ?_
    | simp only [memOk_mk] | split | dsimp only

theorem memOk_State_takeHome_eq {a0 a1 a2} {c1 t} (e : State.takeHome a0 a1 a2 = some (c1, t)) (h1 : State.memOk a0)
    : State.memOk t :=
  (@memOk_State_takeHome a0 a1 a2 h1).of _ e
theorem memOk_State_takeHome_eq2 {a0 a1 a2} {r} (e : State.takeHome a0 a1 a2 = some r)
    (h1 : State.memOk a0) : State.memOk (r).2 :=
  (@memOk_State_takeHome a0 a1 a2 h1).of _ e

theorem memOk_State_hold {a0 a1} (h1 : State.memOk a0) :
    State.memOk (State.hold a0 a1) := by
  unfold State.hold
  try dsimp only
  repeat' first
    | with_reducible assumption | intro _
    | (with_reducible first | apply memOk_ite | apply wf_of_memOk | apply memOk_foldl)
    | simp only [memOk_mk] | split | dsimp only

theorem memOk_State_applyRecord {a0 a1 a2 a3 a4 a5 a6} (h1 : State.memOk a0) :
    State.memOk ((State.applyRecord a0 a1 a2 a3 a4 a5 a6)).1 := by
  unfold State.applyRecord
  try dsimp only
  repeat' first
    | with_reducible assumption | intro _
    | (with_reducible first
        | apply memOk_ite | apply wf_of_memOk | apply memOk_foldl | apply memOk_State_writeByte
        | apply memOk_State_setPoison)
    | simp only [memOk_mk] | split | dsimp only

theorem memOk_State_applyRecord_eq {a0 a1 a2 a3 a4 a5 a6} {c1 t}
    (e : State.applyRecord a0 a1 a2 a3 a4 a5 a6 = (t, c1)) (h1 : State.memOk a0) : State.memOk t := by
  have := @memOk_State_applyRecord a0 a1 a2 a3 a4 a5 a6 h1
  rwa [e] at this

theorem memOk_State_putStamped {a0 a1 a2 a3 a4 a5} (h1 : State.memOk a0) :
    State.memOk (State.putStamped a0 a1 a2 a3 a4 a5) := by
  unfold State.putStamped
  try dsimp only
  repeat' first
    | with_reducible assumption | intro _
    | (with_reducible first | apply memOk_ite | apply wf_of_memOk | apply memOk_foldl | apply memOk_State_writeByte)
    | simp only [memOk_mk] | split | dsimp only

theorem memOk_State_publish {a0 a1 a2 a3 a4 a5 a6 a7} (h1 : State.memOk a0) :
    State.memOk (State.publish a0 a1 a2 a3 a4 a5 a6 a7) := by
  unfold State.publish
  try dsimp only
  repeat' first
    | with_reducible assumption | intro _
    | (with_reducible first
        | apply memOk_ite | apply wf_of_memOk | apply memOk_foldl | apply memOk_State_send | apply memOk_State_tell
        | apply memOk_State_latchPost | apply memOk_State_finishAckw)
    | simp only [memOk_mk] | split | dsimp only

theorem memOk_State_publishWrite {a0 a1 a2 a3 a4 a5 a6 a7 a8 a9 a10} (h1 : State.memOk a0) :
    State.memOk (State.publishWrite a0 a1 a2 a3 a4 a5 a6 a7 a8 a9 a10) := by
  unfold State.publishWrite
  try dsimp only
  repeat' first
    | with_reducible assumption | intro _
    | (with_reducible first | apply memOk_ite | apply wf_of_memOk | apply memOk_foldl | apply memOk_State_publish)
    | simp only [memOk_mk] | split | dsimp only

theorem memOk_State_atomStep {a0 a1 a2 a3 a4 a5 a6 a7 a8 a9 a10} (h1 : State.memOk a0) :
    State.memOk ((State.atomStep a0 a1 a2 a3 a4 a5 a6 a7 a8 a9 a10)).2 := by
  unfold State.atomStep
  try dsimp only
  repeat' first
    | with_reducible assumption | intro _
    | (with_reducible first
        | apply memOk_ite | apply wf_of_memOk | apply memOk_foldl | apply memOk_State_applyRecord
        | apply memOk_State_putStamped | apply memOk_State_setPoison | apply memOk_State_publishWrite)
    | with_reducible refine memOk_State_applyRecord_eq (by assumption) ?_
    | simp only [memOk_mk] | split | dsimp only

theorem memOk_State_atomStep_eq {a0 a1 a2 a3 a4 a5 a6 a7 a8 a9 a10} {c1 c2 c3 c4 t}
    (e : State.atomStep a0 a1 a2 a3 a4 a5 a6 a7 a8 a9 a10 = ((c1, (c2, (c3, c4))), t)) (h1 : State.memOk a0)
    : State.memOk t := by
  have := @memOk_State_atomStep a0 a1 a2 a3 a4 a5 a6 a7 a8 a9 a10 h1
  rwa [e] at this

theorem memOk_execAtomAtHome {a0 a1} (h2 : State.memOk a1) :
    OutOk ((execAtomAtHome a0 a1)) := by
  unfold execAtomAtHome
  try dsimp only
  repeat' first
    | with_reducible assumption | intro _
    | (with_reducible first
        | apply memOk_ite | apply wf_of_memOk | apply outOk_next | apply outOk_ite | apply optOk_none
        | apply optOk_some | apply optOk_ite | apply optOk_map_mem | apply optOk_map_snd | apply optOk_map_any
        | apply optOk_findSome | apply optOk_bind | apply optOk_orElse | apply memOk_getD | apply memOk_foldl
        | apply memOk_State_takeHeld | apply memOk_State_takeHome | apply memOk_State_hold | apply memOk_State_bring
        | apply memOk_State_atomStep | apply memOk_State_send)
    | with_reducible refine memOk_State_takeHeld_eq (by assumption) ?_
    | with_reducible refine memOk_State_takeHome_eq (by assumption) ?_
    | with_reducible refine memOk_State_atomStep_eq (by assumption) ?_
    | with_reducible refine memOk_State_takeHeld_eq2 (by assumption) ?_
    | with_reducible refine memOk_State_takeHome_eq2 (by assumption) ?_
    | with_reducible refine memOk_of_next (by assumption) ?_
    | with_reducible refine memOk_of_some_snd (by assumption) ?_
    | with_reducible refine memOk_of_some (by assumption) ?_
    | with_reducible refine memOk_of_some_fst (by assumption) ?_
    | simp only [memOk_mk] | split | dsimp only

theorem memOk_State_kilnConsume {a0 a1 a2 a3} (h1 : State.memOk a0) :
    State.memOk (State.kilnConsume a0 a1 a2 a3) := by
  unfold State.kilnConsume
  try dsimp only
  repeat' first
    | with_reducible assumption | intro _
    | (with_reducible first | apply memOk_ite | apply wf_of_memOk | apply memOk_foldl | apply memOk_State_machineCheck)
    | simp only [memOk_mk] | split | dsimp only

theorem memOk_State_useSet {a0 a1 a2 a3} (h1 : State.memOk a0) (h4 : ∀ b0, State.memOk b0 → State.memOk (a3 b0)) :
    State.memOk (State.useSet a0 a1 a2 a3) := by
  unfold State.useSet
  try dsimp only
  repeat' first
    | with_reducible assumption | intro _
    | (with_reducible first
        | apply memOk_ite | apply wf_of_memOk | apply memOk_foldl | apply memOk_State_kilnConsume
        | apply memOk_State_onCore | apply h4)
    | simp only [memOk_mk] | split | dsimp only

theorem memOk_State_snapshot {a0 a1 a2} (h1 : State.memOk a0) :
    State.memOk (State.snapshot a0 a1 a2) := by
  unfold State.snapshot
  try dsimp only
  repeat' first
    | with_reducible assumption | intro _
    | (with_reducible first | apply memOk_ite | apply wf_of_memOk | apply memOk_foldl | apply memOk_State_onCore)
    | simp only [memOk_mk] | split | dsimp only

theorem memOk_State_fly {a0 a1 a2} (h1 : State.memOk a0) :
    State.memOk (State.fly a0 a1 a2) := by
  unfold State.fly
  try dsimp only
  repeat' first
    | with_reducible assumption | intro _
    | (with_reducible first | apply memOk_ite | apply wf_of_memOk | apply memOk_foldl | apply memOk_State_onKiln)
    | simp only [memOk_mk] | split | dsimp only

theorem memOk_State_dropHead {a0 a1} (h1 : State.memOk a0) :
    State.memOk (State.dropHead a0 a1) := by
  unfold State.dropHead
  try dsimp only
  repeat' first
    | with_reducible assumption | intro _
    | (with_reducible first | apply memOk_ite | apply wf_of_memOk | apply memOk_foldl | apply memOk_State_onCore)
    | simp only [memOk_mk] | split | dsimp only

theorem memOk_State_issueProduct {a0 a1 a2 a3 a4} (h1 : State.memOk a0) :
    State.memOk (State.issueProduct a0 a1 a2 a3 a4) := by
  unfold State.issueProduct
  try dsimp only
  repeat' first
    | with_reducible assumption | intro _
    | (with_reducible first
        | apply memOk_ite | apply wf_of_memOk | apply memOk_foldl | apply memOk_State_kilnConsume
        | apply memOk_State_onSet | apply memOk_State_snapshot | apply memOk_State_onCluster | apply memOk_State_fly
        | apply memOk_State_dropHead)
    | simp only [memOk_mk] | split | dsimp only

theorem memOk_State_issueSolve {a0 a1 a2 a3} (h1 : State.memOk a0) :
    State.memOk (State.issueSolve a0 a1 a2 a3) := by
  unfold State.issueSolve
  try dsimp only
  repeat' first
    | with_reducible assumption | intro _
    | (with_reducible first
        | apply memOk_ite | apply wf_of_memOk | apply memOk_foldl | apply memOk_State_onSet
        | apply memOk_State_snapshot | apply memOk_State_onKiln | apply memOk_State_fly | apply memOk_State_dropHead)
    | simp only [memOk_mk] | split | dsimp only

theorem memOk_State_issueMat {a0 a1 a2 a3} (h1 : State.memOk a0) :
    State.memOk (State.issueMat a0 a1 a2 a3) := by
  unfold State.issueMat
  try dsimp only
  repeat' first
    | with_reducible assumption | intro _
    | (with_reducible first
        | apply memOk_ite | apply wf_of_memOk | apply memOk_foldl | apply memOk_State_issueProduct
        | apply memOk_State_onKiln | apply memOk_State_issueSolve | apply memOk_State_kilnConsume
        | apply memOk_State_fly | apply memOk_State_dropHead | apply memOk_State_snapshot)
    | simp only [memOk_mk] | split | dsimp only

theorem memOk_execMatrixCommandIssue {a0 a1} (h2 : State.memOk a1) :
    OutOk ((execMatrixCommandIssue a0 a1)) := by
  unfold execMatrixCommandIssue
  try dsimp only
  repeat' first
    | with_reducible assumption | intro _
    | (with_reducible first
        | apply memOk_ite | apply wf_of_memOk | apply outOk_next | apply outOk_ite | apply memOk_foldl
        | apply memOk_State_onKiln | apply memOk_State_useSet | apply memOk_State_issueMat)
    | simp only [memOk_mk] | split | dsimp only

theorem memOk_aluU {a0 a1 a2 a3} (h4 : State.memOk a3) :
    OutOk ((aluU a0 a1 a2 a3)) := by
  unfold aluU
  try dsimp only
  repeat' first
    | with_reducible assumption | intro _
    | (with_reducible first
        | apply memOk_ite | apply wf_of_memOk | apply outOk_next | apply outOk_ite | apply memOk_foldl
        | apply memOk_State_run | apply memOk_State_retire | apply memOk_State_setX)
    | simp only [memOk_mk] | split | dsimp only

theorem memOk_execLui {a0 a1 a2} (h3 : State.memOk a2) :
    OutOk ((execLui a0 a1 a2)) := by
  unfold execLui
  try dsimp only
  repeat' first
    | with_reducible assumption | intro _
    | (with_reducible first
        | apply memOk_ite | apply wf_of_memOk | apply outOk_next | apply outOk_ite | apply memOk_foldl
        | apply memOk_aluU)
    | simp only [memOk_mk] | split | dsimp only

theorem memOk_execAddi {a0 a1 a2 a3} (h4 : State.memOk a3) :
    OutOk ((execAddi a0 a1 a2 a3)) := by
  unfold execAddi
  try dsimp only
  repeat' first
    | with_reducible assumption | intro _
    | (with_reducible first
        | apply memOk_ite | apply wf_of_memOk | apply outOk_next | apply outOk_ite | apply memOk_foldl
        | apply memOk_aluI)
    | simp only [memOk_mk] | split | dsimp only

theorem memOk_execSlti {a0 a1 a2 a3} (h4 : State.memOk a3) :
    OutOk ((execSlti a0 a1 a2 a3)) := by
  unfold execSlti
  try dsimp only
  repeat' first
    | with_reducible assumption | intro _
    | (with_reducible first
        | apply memOk_ite | apply wf_of_memOk | apply outOk_next | apply outOk_ite | apply memOk_foldl
        | apply memOk_aluI)
    | simp only [memOk_mk] | split | dsimp only

theorem memOk_execXori {a0 a1 a2 a3} (h4 : State.memOk a3) :
    OutOk ((execXori a0 a1 a2 a3)) := by
  unfold execXori
  try dsimp only
  repeat' first
    | with_reducible assumption | intro _
    | (with_reducible first
        | apply memOk_ite | apply wf_of_memOk | apply outOk_next | apply outOk_ite | apply memOk_foldl
        | apply memOk_aluI)
    | simp only [memOk_mk] | split | dsimp only

theorem memOk_execOri {a0 a1 a2 a3} (h4 : State.memOk a3) :
    OutOk ((execOri a0 a1 a2 a3)) := by
  unfold execOri
  try dsimp only
  repeat' first
    | with_reducible assumption | intro _
    | (with_reducible first
        | apply memOk_ite | apply wf_of_memOk | apply outOk_next | apply outOk_ite | apply memOk_foldl
        | apply memOk_aluI)
    | simp only [memOk_mk] | split | dsimp only

theorem memOk_execAndi {a0 a1 a2 a3} (h4 : State.memOk a3) :
    OutOk ((execAndi a0 a1 a2 a3)) := by
  unfold execAndi
  try dsimp only
  repeat' first
    | with_reducible assumption | intro _
    | (with_reducible first
        | apply memOk_ite | apply wf_of_memOk | apply outOk_next | apply outOk_ite | apply memOk_foldl
        | apply memOk_aluI)
    | simp only [memOk_mk] | split | dsimp only

theorem memOk_execAddiw {a0 a1 a2 a3} (h4 : State.memOk a3) :
    OutOk ((execAddiw a0 a1 a2 a3)) := by
  unfold execAddiw
  try dsimp only
  repeat' first
    | with_reducible assumption | intro _
    | (with_reducible first
        | apply memOk_ite | apply wf_of_memOk | apply outOk_next | apply outOk_ite | apply memOk_foldl
        | apply memOk_aluI)
    | simp only [memOk_mk] | split | dsimp only

theorem memOk_execSlli {a0 a1 a2 a3} (h4 : State.memOk a3) :
    OutOk ((execSlli a0 a1 a2 a3)) := by
  unfold execSlli
  try dsimp only
  repeat' first
    | with_reducible assumption | intro _
    | (with_reducible first
        | apply memOk_ite | apply wf_of_memOk | apply outOk_next | apply outOk_ite | apply memOk_foldl
        | apply memOk_aluI)
    | simp only [memOk_mk] | split | dsimp only

theorem memOk_execSrli {a0 a1 a2 a3} (h4 : State.memOk a3) :
    OutOk ((execSrli a0 a1 a2 a3)) := by
  unfold execSrli
  try dsimp only
  repeat' first
    | with_reducible assumption | intro _
    | (with_reducible first
        | apply memOk_ite | apply wf_of_memOk | apply outOk_next | apply outOk_ite | apply memOk_foldl
        | apply memOk_aluI)
    | simp only [memOk_mk] | split | dsimp only

theorem memOk_execSrai {a0 a1 a2 a3} (h4 : State.memOk a3) :
    OutOk ((execSrai a0 a1 a2 a3)) := by
  unfold execSrai
  try dsimp only
  repeat' first
    | with_reducible assumption | intro _
    | (with_reducible first
        | apply memOk_ite | apply wf_of_memOk | apply outOk_next | apply outOk_ite | apply memOk_foldl
        | apply memOk_aluI)
    | simp only [memOk_mk] | split | dsimp only

theorem memOk_execSlliw {a0 a1 a2 a3} (h4 : State.memOk a3) :
    OutOk ((execSlliw a0 a1 a2 a3)) := by
  unfold execSlliw
  try dsimp only
  repeat' first
    | with_reducible assumption | intro _
    | (with_reducible first
        | apply memOk_ite | apply wf_of_memOk | apply outOk_next | apply outOk_ite | apply memOk_foldl
        | apply memOk_aluI)
    | simp only [memOk_mk] | split | dsimp only

theorem memOk_execSrliw {a0 a1 a2 a3} (h4 : State.memOk a3) :
    OutOk ((execSrliw a0 a1 a2 a3)) := by
  unfold execSrliw
  try dsimp only
  repeat' first
    | with_reducible assumption | intro _
    | (with_reducible first
        | apply memOk_ite | apply wf_of_memOk | apply outOk_next | apply outOk_ite | apply memOk_foldl
        | apply memOk_aluI)
    | simp only [memOk_mk] | split | dsimp only

theorem memOk_execSraiw {a0 a1 a2 a3} (h4 : State.memOk a3) :
    OutOk ((execSraiw a0 a1 a2 a3)) := by
  unfold execSraiw
  try dsimp only
  repeat' first
    | with_reducible assumption | intro _
    | (with_reducible first
        | apply memOk_ite | apply wf_of_memOk | apply outOk_next | apply outOk_ite | apply memOk_foldl
        | apply memOk_aluI)
    | simp only [memOk_mk] | split | dsimp only

theorem memOk_execAdd {a0 a1 a2 a3} (h4 : State.memOk a3) :
    OutOk ((execAdd a0 a1 a2 a3)) := by
  unfold execAdd
  try dsimp only
  repeat' first
    | with_reducible assumption | intro _
    | (with_reducible first
        | apply memOk_ite | apply wf_of_memOk | apply outOk_next | apply outOk_ite | apply memOk_foldl
        | apply memOk_aluR)
    | simp only [memOk_mk] | split | dsimp only

theorem memOk_execSll {a0 a1 a2 a3} (h4 : State.memOk a3) :
    OutOk ((execSll a0 a1 a2 a3)) := by
  unfold execSll
  try dsimp only
  repeat' first
    | with_reducible assumption | intro _
    | (with_reducible first
        | apply memOk_ite | apply wf_of_memOk | apply outOk_next | apply outOk_ite | apply memOk_foldl
        | apply memOk_aluR)
    | simp only [memOk_mk] | split | dsimp only

theorem memOk_execSlt {a0 a1 a2 a3} (h4 : State.memOk a3) :
    OutOk ((execSlt a0 a1 a2 a3)) := by
  unfold execSlt
  try dsimp only
  repeat' first
    | with_reducible assumption | intro _
    | (with_reducible first
        | apply memOk_ite | apply wf_of_memOk | apply outOk_next | apply outOk_ite | apply memOk_foldl
        | apply memOk_aluR)
    | simp only [memOk_mk] | split | dsimp only

theorem memOk_execXor {a0 a1 a2 a3} (h4 : State.memOk a3) :
    OutOk ((execXor a0 a1 a2 a3)) := by
  unfold execXor
  try dsimp only
  repeat' first
    | with_reducible assumption | intro _
    | (with_reducible first
        | apply memOk_ite | apply wf_of_memOk | apply outOk_next | apply outOk_ite | apply memOk_foldl
        | apply memOk_aluR)
    | simp only [memOk_mk] | split | dsimp only

theorem memOk_execSrl {a0 a1 a2 a3} (h4 : State.memOk a3) :
    OutOk ((execSrl a0 a1 a2 a3)) := by
  unfold execSrl
  try dsimp only
  repeat' first
    | with_reducible assumption | intro _
    | (with_reducible first
        | apply memOk_ite | apply wf_of_memOk | apply outOk_next | apply outOk_ite | apply memOk_foldl
        | apply memOk_aluR)
    | simp only [memOk_mk] | split | dsimp only

theorem memOk_execSra {a0 a1 a2 a3} (h4 : State.memOk a3) :
    OutOk ((execSra a0 a1 a2 a3)) := by
  unfold execSra
  try dsimp only
  repeat' first
    | with_reducible assumption | intro _
    | (with_reducible first
        | apply memOk_ite | apply wf_of_memOk | apply outOk_next | apply outOk_ite | apply memOk_foldl
        | apply memOk_aluR)
    | simp only [memOk_mk] | split | dsimp only

theorem memOk_execOr {a0 a1 a2 a3} (h4 : State.memOk a3) :
    OutOk ((execOr a0 a1 a2 a3)) := by
  unfold execOr
  try dsimp only
  repeat' first
    | with_reducible assumption | intro _
    | (with_reducible first
        | apply memOk_ite | apply wf_of_memOk | apply outOk_next | apply outOk_ite | apply memOk_foldl
        | apply memOk_aluR)
    | simp only [memOk_mk] | split | dsimp only

theorem memOk_execAnd {a0 a1 a2 a3} (h4 : State.memOk a3) :
    OutOk ((execAnd a0 a1 a2 a3)) := by
  unfold execAnd
  try dsimp only
  repeat' first
    | with_reducible assumption | intro _
    | (with_reducible first
        | apply memOk_ite | apply wf_of_memOk | apply outOk_next | apply outOk_ite | apply memOk_foldl
        | apply memOk_aluR)
    | simp only [memOk_mk] | split | dsimp only

theorem memOk_execMul {a0 a1 a2 a3} (h4 : State.memOk a3) :
    OutOk ((execMul a0 a1 a2 a3)) := by
  unfold execMul
  try dsimp only
  repeat' first
    | with_reducible assumption | intro _
    | (with_reducible first
        | apply memOk_ite | apply wf_of_memOk | apply outOk_next | apply outOk_ite | apply memOk_foldl
        | apply memOk_aluR)
    | simp only [memOk_mk] | split | dsimp only

theorem memOk_execMulh {a0 a1 a2 a3} (h4 : State.memOk a3) :
    OutOk ((execMulh a0 a1 a2 a3)) := by
  unfold execMulh
  try dsimp only
  repeat' first
    | with_reducible assumption | intro _
    | (with_reducible first
        | apply memOk_ite | apply wf_of_memOk | apply outOk_next | apply outOk_ite | apply memOk_foldl
        | apply memOk_aluR)
    | simp only [memOk_mk] | split | dsimp only

theorem memOk_execMulhu {a0 a1 a2 a3} (h4 : State.memOk a3) :
    OutOk ((execMulhu a0 a1 a2 a3)) := by
  unfold execMulhu
  try dsimp only
  repeat' first
    | with_reducible assumption | intro _
    | (with_reducible first
        | apply memOk_ite | apply wf_of_memOk | apply outOk_next | apply outOk_ite | apply memOk_foldl
        | apply memOk_aluR)
    | simp only [memOk_mk] | split | dsimp only

theorem memOk_execDiv {a0 a1 a2 a3} (h4 : State.memOk a3) :
    OutOk ((execDiv a0 a1 a2 a3)) := by
  unfold execDiv
  try dsimp only
  repeat' first
    | with_reducible assumption | intro _
    | (with_reducible first
        | apply memOk_ite | apply wf_of_memOk | apply outOk_next | apply outOk_ite | apply memOk_foldl
        | apply memOk_aluR)
    | simp only [memOk_mk] | split | dsimp only

theorem memOk_execDivu {a0 a1 a2 a3} (h4 : State.memOk a3) :
    OutOk ((execDivu a0 a1 a2 a3)) := by
  unfold execDivu
  try dsimp only
  repeat' first
    | with_reducible assumption | intro _
    | (with_reducible first
        | apply memOk_ite | apply wf_of_memOk | apply outOk_next | apply outOk_ite | apply memOk_foldl
        | apply memOk_aluR)
    | simp only [memOk_mk] | split | dsimp only

theorem memOk_execRem {a0 a1 a2 a3} (h4 : State.memOk a3) :
    OutOk ((execRem a0 a1 a2 a3)) := by
  unfold execRem
  try dsimp only
  repeat' first
    | with_reducible assumption | intro _
    | (with_reducible first
        | apply memOk_ite | apply wf_of_memOk | apply outOk_next | apply outOk_ite | apply memOk_foldl
        | apply memOk_aluR)
    | simp only [memOk_mk] | split | dsimp only

theorem memOk_execRemu {a0 a1 a2 a3} (h4 : State.memOk a3) :
    OutOk ((execRemu a0 a1 a2 a3)) := by
  unfold execRemu
  try dsimp only
  repeat' first
    | with_reducible assumption | intro _
    | (with_reducible first
        | apply memOk_ite | apply wf_of_memOk | apply outOk_next | apply outOk_ite | apply memOk_foldl
        | apply memOk_aluR)
    | simp only [memOk_mk] | split | dsimp only

theorem memOk_execAddw {a0 a1 a2 a3} (h4 : State.memOk a3) :
    OutOk ((execAddw a0 a1 a2 a3)) := by
  unfold execAddw
  try dsimp only
  repeat' first
    | with_reducible assumption | intro _
    | (with_reducible first
        | apply memOk_ite | apply wf_of_memOk | apply outOk_next | apply outOk_ite | apply memOk_foldl
        | apply memOk_aluR)
    | simp only [memOk_mk] | split | dsimp only

theorem memOk_execSubw {a0 a1 a2 a3} (h4 : State.memOk a3) :
    OutOk ((execSubw a0 a1 a2 a3)) := by
  unfold execSubw
  try dsimp only
  repeat' first
    | with_reducible assumption | intro _
    | (with_reducible first
        | apply memOk_ite | apply wf_of_memOk | apply outOk_next | apply outOk_ite | apply memOk_foldl
        | apply memOk_aluR)
    | simp only [memOk_mk] | split | dsimp only

theorem memOk_execSllw {a0 a1 a2 a3} (h4 : State.memOk a3) :
    OutOk ((execSllw a0 a1 a2 a3)) := by
  unfold execSllw
  try dsimp only
  repeat' first
    | with_reducible assumption | intro _
    | (with_reducible first
        | apply memOk_ite | apply wf_of_memOk | apply outOk_next | apply outOk_ite | apply memOk_foldl
        | apply memOk_aluR)
    | simp only [memOk_mk] | split | dsimp only

theorem memOk_execSrlw {a0 a1 a2 a3} (h4 : State.memOk a3) :
    OutOk ((execSrlw a0 a1 a2 a3)) := by
  unfold execSrlw
  try dsimp only
  repeat' first
    | with_reducible assumption | intro _
    | (with_reducible first
        | apply memOk_ite | apply wf_of_memOk | apply outOk_next | apply outOk_ite | apply memOk_foldl
        | apply memOk_aluR)
    | simp only [memOk_mk] | split | dsimp only

theorem memOk_execSraw {a0 a1 a2 a3} (h4 : State.memOk a3) :
    OutOk ((execSraw a0 a1 a2 a3)) := by
  unfold execSraw
  try dsimp only
  repeat' first
    | with_reducible assumption | intro _
    | (with_reducible first
        | apply memOk_ite | apply wf_of_memOk | apply outOk_next | apply outOk_ite | apply memOk_foldl
        | apply memOk_aluR)
    | simp only [memOk_mk] | split | dsimp only

theorem memOk_execMulw {a0 a1 a2 a3} (h4 : State.memOk a3) :
    OutOk ((execMulw a0 a1 a2 a3)) := by
  unfold execMulw
  try dsimp only
  repeat' first
    | with_reducible assumption | intro _
    | (with_reducible first
        | apply memOk_ite | apply wf_of_memOk | apply outOk_next | apply outOk_ite | apply memOk_foldl
        | apply memOk_aluR)
    | simp only [memOk_mk] | split | dsimp only

theorem memOk_execDivw {a0 a1 a2 a3} (h4 : State.memOk a3) :
    OutOk ((execDivw a0 a1 a2 a3)) := by
  unfold execDivw
  try dsimp only
  repeat' first
    | with_reducible assumption | intro _
    | (with_reducible first
        | apply memOk_ite | apply wf_of_memOk | apply outOk_next | apply outOk_ite | apply memOk_foldl
        | apply memOk_aluR)
    | simp only [memOk_mk] | split | dsimp only

theorem memOk_execRemw {a0 a1 a2 a3} (h4 : State.memOk a3) :
    OutOk ((execRemw a0 a1 a2 a3)) := by
  unfold execRemw
  try dsimp only
  repeat' first
    | with_reducible assumption | intro _
    | (with_reducible first
        | apply memOk_ite | apply wf_of_memOk | apply outOk_next | apply outOk_ite | apply memOk_foldl
        | apply memOk_aluR)
    | simp only [memOk_mk] | split | dsimp only

theorem memOk_execRemuw {a0 a1 a2 a3} (h4 : State.memOk a3) :
    OutOk ((execRemuw a0 a1 a2 a3)) := by
  unfold execRemuw
  try dsimp only
  repeat' first
    | with_reducible assumption | intro _
    | (with_reducible first
        | apply memOk_ite | apply wf_of_memOk | apply outOk_next | apply outOk_ite | apply memOk_foldl
        | apply memOk_aluR)
    | simp only [memOk_mk] | split | dsimp only

theorem memOk_State_retireWrite {a0 a1 a2} (h1 : State.memOk a0) (h2 : State.memOk a1) :
    State.memOk (State.retireWrite a0 a1 a2) := by
  unfold State.retireWrite
  try dsimp only
  repeat' first
    | with_reducible assumption | intro _
    | (with_reducible first
        | apply memOk_ite | apply wf_of_memOk | apply memOk_foldl | apply memOk_State_onMe
        | apply memOk_State_retireUnder)
    | simp only [memOk_mk] | split | dsimp only

theorem memOk_csrOp {a0 a1 a2 a3 a4} (h5 : State.memOk a4) :
    State.memOk (csrOp a0 a1 a2 a3 a4) := by
  unfold csrOp
  try dsimp only
  repeat' first
    | with_reducible assumption | intro _
    | (with_reducible first
        | apply memOk_ite | apply wf_of_memOk | apply memOk_foldl | apply memOk_State_illegal
        | apply memOk_State_stall | apply memOk_State_retire | apply memOk_State_setX | apply memOk_State_csrWrite
        | apply memOk_State_retireWrite)
    | with_reducible refine memOk_State_csrWrite_eq (by assumption) ?_
    | simp only [memOk_mk] | split | dsimp only

theorem memOk_execCsrrs {a0 a1 a2 a3} (h4 : State.memOk a3) :
    OutOk ((execCsrrs a0 a1 a2 a3)) := by
  unfold execCsrrs
  try dsimp only
  repeat' first
    | with_reducible assumption | intro _
    | (with_reducible first
        | apply memOk_ite | apply wf_of_memOk | apply outOk_next | apply outOk_ite | apply memOk_foldl
        | apply memOk_State_run | apply memOk_csrOp)
    | simp only [memOk_mk] | split | dsimp only

theorem memOk_execCsrrc {a0 a1 a2 a3} (h4 : State.memOk a3) :
    OutOk ((execCsrrc a0 a1 a2 a3)) := by
  unfold execCsrrc
  try dsimp only
  repeat' first
    | with_reducible assumption | intro _
    | (with_reducible first
        | apply memOk_ite | apply wf_of_memOk | apply outOk_next | apply outOk_ite | apply memOk_foldl
        | apply memOk_State_run | apply memOk_csrOp)
    | simp only [memOk_mk] | split | dsimp only

theorem memOk_execCsrrsi {a0 a1 a2 a3} (h4 : State.memOk a3) :
    OutOk ((execCsrrsi a0 a1 a2 a3)) := by
  unfold execCsrrsi
  try dsimp only
  repeat' first
    | with_reducible assumption | intro _
    | (with_reducible first
        | apply memOk_ite | apply wf_of_memOk | apply outOk_next | apply outOk_ite | apply memOk_foldl
        | apply memOk_State_run | apply memOk_csrOp)
    | simp only [memOk_mk] | split | dsimp only

theorem memOk_execCsrrci {a0 a1 a2 a3} (h4 : State.memOk a3) :
    OutOk ((execCsrrci a0 a1 a2 a3)) := by
  unfold execCsrrci
  try dsimp only
  repeat' first
    | with_reducible assumption | intro _
    | (with_reducible first
        | apply memOk_ite | apply wf_of_memOk | apply outOk_next | apply outOk_ite | apply memOk_foldl
        | apply memOk_State_run | apply memOk_csrOp)
    | simp only [memOk_mk] | split | dsimp only

theorem memOk_execQlen {a0 a1 a2} (h3 : State.memOk a2) :
    OutOk ((execQlen a0 a1 a2)) := by
  unfold execQlen
  try dsimp only
  repeat' first
    | with_reducible assumption | intro _
    | (with_reducible first
        | apply memOk_ite | apply wf_of_memOk | apply outOk_next | apply outOk_ite | apply memOk_foldl
        | apply memOk_State_run | apply memOk_State_illegal | apply memOk_State_retire | apply memOk_State_setX)
    | simp only [memOk_mk] | split | dsimp only

theorem memOk_governedExec {a0 a1} (h2 : State.memOk a1) :
    OutOk ((governedExec a0 a1)) := by
  unfold governedExec
  try dsimp only
  repeat' first
    | with_reducible assumption | intro _
    | (with_reducible first
        | apply memOk_ite | apply wf_of_memOk | apply outOk_next | apply outOk_ite | apply memOk_foldl
        | apply memOk_execLui | apply memOk_aluU | apply memOk_execAddi | apply memOk_execSlti | apply memOk_execSltiu
        | apply memOk_execXori | apply memOk_execOri | apply memOk_execAndi | apply memOk_execAddiw
        | apply memOk_execSlli | apply memOk_execSrli | apply memOk_execSrai | apply memOk_execSlliw
        | apply memOk_execSrliw | apply memOk_execSraiw | apply memOk_execAdd | apply memOk_execSub
        | apply memOk_execSll | apply memOk_execSlt | apply memOk_execSltu | apply memOk_execXor | apply memOk_execSrl
        | apply memOk_execSra | apply memOk_execOr | apply memOk_execAnd | apply memOk_execMul | apply memOk_execMulh
        | apply memOk_execMulhsu | apply memOk_execMulhu | apply memOk_execDiv | apply memOk_execDivu
        | apply memOk_execRem | apply memOk_execRemu | apply memOk_execAddw | apply memOk_execSubw
        | apply memOk_execSllw | apply memOk_execSrlw | apply memOk_execSraw | apply memOk_execMulw
        | apply memOk_execDivw | apply memOk_execDivuw | apply memOk_execRemw | apply memOk_execRemuw
        | apply memOk_execCsrrs | apply memOk_execCsrrc | apply memOk_execCsrrsi | apply memOk_execCsrrci
        | apply memOk_execQlen)
    | simp only [memOk_mk] | split | dsimp only

theorem memOk_execCopyq {a0 a1 a2 a3} (h4 : State.memOk a3) :
    OutOk ((execCopyq a0 a1 a2 a3)) := by
  unfold execCopyq
  try dsimp only
  repeat' first
    | with_reducible assumption | intro _
    | (with_reducible first
        | apply memOk_ite | apply wf_of_memOk | apply outOk_next | apply outOk_ite | apply memOk_foldl
        | apply memOk_State_run | apply memOk_State_retire | apply memOk_State_setX)
    | simp only [memOk_mk] | split | dsimp only

theorem memOk_State_red {a0 a1 a2 a3 a4} (h1 : State.memOk a0) :
    State.memOk (State.red a0 a1 a2 a3 a4) := by
  unfold State.red
  try dsimp only
  repeat' first
    | with_reducible assumption | intro _
    | (with_reducible first
        | apply memOk_ite | apply wf_of_memOk | apply memOk_foldl | apply memOk_State_atomAddr
        | apply memOk_State_onMe | apply memOk_State_send | apply memOk_State_takeCarried | apply memOk_State_retireCk
        | apply memOk_State_watch)
    | with_reducible refine memOk_State_takeCarried_eq (by assumption) ?_
    | simp only [memOk_mk] | split | dsimp only

theorem memOk_execClaim {a0 a1 a2} (h3 : State.memOk a2) :
    OutOk ((execClaim a0 a1 a2)) := by
  unfold execClaim
  try dsimp only
  repeat' first
    | with_reducible assumption | intro _
    | (with_reducible first
        | apply memOk_ite | apply wf_of_memOk | apply outOk_next | apply outOk_ite | apply memOk_foldl
        | apply memOk_State_run | apply memOk_State_trap | apply memOk_State_retire | apply memOk_State_onFrame)
    | simp only [memOk_mk] | split | dsimp only

theorem memOk_State_dropFar {a0 a1} (h1 : State.memOk a0) :
    State.memOk (State.dropFar a0 a1) := by
  unfold State.dropFar
  try dsimp only
  repeat' first
    | with_reducible assumption | intro _
    | (with_reducible first | apply memOk_ite | apply wf_of_memOk | apply memOk_foldl | apply memOk_State_deliver)
    | simp only [memOk_mk] | split | dsimp only

theorem memOk_State_refuse {a0 a1 a2} (h1 : State.memOk a0) :
    State.memOk (State.refuse a0 a1 a2) := by
  unfold State.refuse
  try dsimp only
  repeat' first
    | with_reducible assumption | intro _
    | (with_reducible first | apply memOk_ite | apply wf_of_memOk | apply memOk_foldl | apply memOk_State_send)
    | simp only [memOk_mk] | split | dsimp only

theorem memOk_State_unreachable {a0 a1} (h1 : State.memOk a0) :
    State.memOk (State.unreachable a0 a1) := by
  unfold State.unreachable
  try dsimp only
  repeat' first
    | with_reducible assumption | intro _
    | (with_reducible first
        | apply memOk_ite | apply wf_of_memOk | apply memOk_foldl | apply memOk_State_dropFar
        | apply memOk_State_refuse)
    | simp only [memOk_mk] | split | dsimp only

theorem memOk_State_applySkips {a0 a1 a2} (h1 : State.memOk a0) :
    State.memOk (State.applySkips a0 a1 a2) := by
  induction a2 generalizing a0 a1 with
  | zero => exact h1
  | succ n ih =>
    unfold State.applySkips
    try dsimp only
    repeat' first
      | with_reducible assumption
      | (with_reducible first | apply ih | apply memOk_ite | apply wf_of_memOk)
      | intro _
      | exact h7 _ _ (by assumption)
      | simp only [memOk_mk]
      | split
      | dsimp only

theorem memOk_State_release {a0 a1} (h1 : State.memOk a0) :
    State.memOk (State.release a0 a1) := by
  unfold State.release
  try dsimp only
  repeat' first
    | with_reducible assumption | intro _
    | (with_reducible first
        | apply memOk_ite | apply wf_of_memOk | apply memOk_foldl | apply memOk_State_onCore
        | apply memOk_State_stampOwner)
    | simp only [memOk_mk] | split | dsimp only

theorem memOk_State_onOne {a0 a1} (h1 : State.memOk a0) :
    State.memOk (State.onOne a0 a1) := by
  unfold State.onOne
  try dsimp only
  repeat' first
    | with_reducible assumption | intro _
    | (with_reducible first | apply memOk_ite | apply wf_of_memOk | apply memOk_foldl | apply memOk_State_onCluster)
    | simp only [memOk_mk] | split | dsimp only

theorem memOk_State_oneAsk {a0 a1 a2 a3 a4 a5} (h1 : State.memOk a0)
    (h6 : ∀ b0 b1, State.memOk b1 → State.memOk (a5 b0 b1)) :
    State.memOk (State.oneAsk a0 a1 a2 a3 a4 a5) := by
  unfold State.oneAsk
  try dsimp only
  repeat' first
    | with_reducible assumption | intro _
    | (with_reducible first
        | apply memOk_ite | apply wf_of_memOk | apply memOk_foldl | apply memOk_State_stall | apply memOk_State_onMe
        | apply memOk_State_onOne | apply h6)
    | simp only [memOk_mk] | split | dsimp only

theorem memOk_State_startLoad {a0 a1 a2 a3 a4 a5 a6} (h1 : State.memOk a0)
    (h7 : ∀ b0 b1, State.memOk b1 → State.memOk (a6 b0 b1)) :
    State.memOk (State.startLoad a0 a1 a2 a3 a4 a5 a6) := by
  unfold State.startLoad
  try dsimp only
  repeat' first
    | with_reducible assumption | intro _
    | (with_reducible first
        | apply memOk_ite | apply wf_of_memOk | apply memOk_foldl | apply memOk_State_stall | apply memOk_State_onMe
        | apply memOk_State_retire | apply memOk_State_watch | apply h7)
    | simp only [memOk_mk] | split | dsimp only

theorem memOk_State_load {a0 a1 a2 a3 a4} (h1 : State.memOk a0) :
    State.memOk (State.load a0 a1 a2 a3 a4) := by
  unfold State.load
  try dsimp only
  repeat' first
    | with_reducible assumption | intro _
    | (with_reducible first
        | apply memOk_ite | apply wf_of_memOk | apply memOk_foldl | apply memOk_State_trap | apply memOk_State_stall
        | apply memOk_State_translate | apply memOk_State_consume | apply memOk_State_retire | apply memOk_State_watch
        | apply memOk_State_setX | apply memOk_State_startLoad | apply memOk_State_send | apply memOk_State_lockTrap
        | apply memOk_State_sendSpad | apply memOk_State_l1Touch | apply memOk_State_askFill)
    | with_reducible refine memOk_State_translate_eq (by assumption) ?_
    | simp only [memOk_mk] | split | dsimp only

theorem memOk_State_floatKiln {a0 a1 a2} (h1 : State.memOk a0) :
    State.memOk (State.floatKiln a0 a1 a2) := by
  unfold State.floatKiln
  try dsimp only
  repeat' first
    | with_reducible assumption | intro _
    | (with_reducible first
        | apply memOk_ite | apply wf_of_memOk | apply memOk_foldl | apply memOk_State_illegal
        | apply memOk_State_plainKiln)
    | simp only [memOk_mk] | split | dsimp only

theorem memOk_execVmax {a0 a1 a2 a3 a4} (h5 : State.memOk a4) :
    OutOk ((execVmax a0 a1 a2 a3 a4)) := by
  unfold execVmax
  try dsimp only
  repeat' first
    | with_reducible assumption | intro _
    | (with_reducible first
        | apply memOk_ite | apply wf_of_memOk | apply outOk_next | apply outOk_ite | apply memOk_foldl
        | apply memOk_State_runKiln | apply memOk_State_floatKiln)
    | simp only [memOk_mk] | split | dsimp only

theorem memOk_drain {a0 a1 a2} (h3 : State.memOk a2) :
    OutOk ((drain a0 a1 a2)) := by
  unfold drain
  try dsimp only
  repeat' first
    | with_reducible assumption | intro _
    | (with_reducible first
        | apply memOk_ite | apply wf_of_memOk | apply outOk_next | apply outOk_ite | apply memOk_foldl
        | apply memOk_State_run | apply memOk_State_stall | apply memOk_State_retire)
    | simp only [memOk_mk] | split | dsimp only

theorem memOk_State_scanDevice {a0 a1} (h1 : State.memOk a0) :
    State.memOk (State.scanDevice a0 a1) := by
  unfold State.scanDevice
  try dsimp only
  repeat' first
    | with_reducible assumption | intro _
    | (with_reducible first | apply memOk_ite | apply wf_of_memOk | apply memOk_foldl)
    | simp only [memOk_mk] | split | dsimp only

theorem memOk_State_endTeardown {a0 a1} (h1 : State.memOk a0) :
    State.memOk (State.endTeardown a0 a1) := by
  unfold State.endTeardown
  try dsimp only
  repeat' first
    | with_reducible assumption | intro _
    | (with_reducible first
        | apply memOk_ite | apply wf_of_memOk | apply memOk_foldl | apply memOk_State_scanDevice
        | apply memOk_State_freeLatch | apply memOk_State_unloadCore | apply memOk_State_onCore
        | apply memOk_State_onVdev)
    | simp only [memOk_mk] | split | dsimp only

theorem memOk_execQuietHandshakeTimeout {a0 a1} (h2 : State.memOk a1) :
    OutOk ((execQuietHandshakeTimeout a0 a1)) := by
  unfold execQuietHandshakeTimeout
  try dsimp only
  repeat' first
    | with_reducible assumption | intro _
    | (with_reducible first
        | apply memOk_ite | apply wf_of_memOk | apply outOk_next | apply outOk_ite | apply memOk_foldl
        | apply memOk_State_endTeardown | apply memOk_State_report)
    | simp only [memOk_mk] | split | dsimp only

theorem memOk_execSb {a0 a1 a2 a3} (h4 : State.memOk a3) :
    OutOk ((execSb a0 a1 a2 a3)) := by
  unfold execSb
  try dsimp only
  repeat' first
    | with_reducible assumption | intro _
    | (with_reducible first
        | apply memOk_ite | apply wf_of_memOk | apply outOk_next | apply outOk_ite | apply memOk_foldl
        | apply memOk_storeI)
    | simp only [memOk_mk] | split | dsimp only

theorem memOk_execVshr {a0 a1 a2 a3} (h4 : State.memOk a3) :
    OutOk ((execVshr a0 a1 a2 a3)) := by
  unfold execVshr
  try dsimp only
  repeat' first
    | with_reducible assumption | intro _
    | (with_reducible first
        | apply memOk_ite | apply wf_of_memOk | apply outOk_next | apply outOk_ite | apply memOk_foldl
        | apply memOk_State_runKiln | apply memOk_State_plainKiln)
    | simp only [memOk_mk] | split | dsimp only

theorem memOk_execVseed {a0 a1} (h2 : State.memOk a1) :
    OutOk ((execVseed a0 a1)) := by
  unfold execVseed
  try dsimp only
  repeat' first
    | with_reducible assumption | intro _
    | (with_reducible first
        | apply memOk_ite | apply wf_of_memOk | apply outOk_next | apply outOk_ite | apply memOk_foldl
        | apply memOk_State_runKiln | apply memOk_State_plainKiln)
    | simp only [memOk_mk] | split | dsimp only

theorem memOk_State_freshBytes {a0 a1} (h1 : State.memOk a0) :
    State.memOk ((State.freshBytes a0 a1)).2 := by
  unfold State.freshBytes
  try dsimp only
  repeat' first
    | with_reducible assumption | intro _
    | (with_reducible first | apply memOk_ite | apply wf_of_memOk | apply memOk_foldl)
    | simp only [memOk_mk] | split | dsimp only

theorem memOk_State_freshBytes_eq {a0 a1} {c1 t} (e : State.freshBytes a0 a1 = (c1, t)) (h1 : State.memOk a0)
    : State.memOk t := by
  have := @memOk_State_freshBytes a0 a1 h1
  rwa [e] at this

theorem memOk_State_nmWrite {a0 a1} (h1 : State.memOk a0) :
    State.memOk (State.nmWrite a0 a1) := by
  unfold State.nmWrite
  try dsimp only
  repeat' first
    | with_reducible assumption | intro _
    | (with_reducible first | apply memOk_ite | apply wf_of_memOk | apply memOk_foldl | apply memOk_State_setMmio)
    | simp only [memOk_mk] | split | dsimp only

theorem memOk_execAttest {a0} (h1 : State.memOk a0) :
    OutOk ((execAttest a0)) := by
  unfold execAttest
  try dsimp only
  repeat' first
    | with_reducible assumption | intro _
    | (with_reducible first
        | apply memOk_ite | apply wf_of_memOk | apply outOk_next | apply outOk_ite | apply memOk_foldl
        | apply memOk_State_freshBytes | apply memOk_State_nmDone | apply memOk_State_nmWrite)
    | with_reducible refine memOk_State_freshBytes_eq (by assumption) ?_
    | simp only [memOk_mk] | split | dsimp only

theorem memOk_State_atHome {a0 a1 a2 a3} (h1 : State.memOk a0) :
    State.memOk (State.atHome a0 a1 a2 a3) := by
  unfold State.atHome
  try dsimp only
  repeat' first
    | with_reducible assumption | intro _
    | (with_reducible first | apply memOk_ite | apply wf_of_memOk | apply memOk_foldl)
    | simp only [memOk_mk] | split | dsimp only

theorem memOk_State_codeLine {a0 a1} (h1 : State.memOk a0) :
    State.memOk ((State.codeLine a0 a1)).2 := by
  unfold State.codeLine
  try dsimp only
  repeat' first
    | with_reducible assumption | intro _
    | (with_reducible first
        | apply memOk_ite | apply wf_of_memOk | apply memOk_foldl | apply memOk_State_onMe | apply memOk_State_bring
        | apply memOk_State_atHome | apply memOk_State_askFill)
    | simp only [memOk_mk] | split | dsimp only

theorem memOk_State_codeLine_eq {a0 a1} {c1 t} (e : State.codeLine a0 a1 = (c1, t)) (h1 : State.memOk a0)
    : State.memOk t := by
  have := @memOk_State_codeLine a0 a1 h1
  rwa [e] at this

theorem memOk_State_fetch {a0 a1} (h1 : State.memOk a0) :
    State.memOk ((State.fetch a0 a1)).2 := by
  unfold State.fetch
  try dsimp only
  repeat' first
    | with_reducible assumption | intro _
    | (with_reducible first
        | apply memOk_ite | apply wf_of_memOk | apply memOk_foldl | apply memOk_State_translate
        | apply memOk_State_codeLine | apply memOk_State_onMe)
    | with_reducible refine memOk_State_translate_eq (by assumption) ?_
    | with_reducible refine memOk_State_codeLine_eq (by assumption) ?_
    | simp only [memOk_mk] | split | dsimp only

theorem memOk_State_fetch_eq {a0 a1} {c1 t} (e : State.fetch a0 a1 = (c1, t)) (h1 : State.memOk a0)
    : State.memOk t := by
  have := @memOk_State_fetch a0 a1 h1
  rwa [e] at this

theorem memOk_State_farSource {a0 a1 a2 a3 a4 a5 a6 a7 a8} (h1 : State.memOk a0) :
    State.memOk ((State.farSource a0 a1 a2 a3 a4 a5 a6 a7 a8)).2 := by
  unfold State.farSource
  try dsimp only
  repeat' first
    | with_reducible assumption | intro _
    | (with_reducible first
        | apply memOk_ite | apply wf_of_memOk | apply memOk_foldl | apply memOk_State_onCluster
        | apply memOk_State_send)
    | simp only [memOk_mk] | split | dsimp only

theorem memOk_State_farSource_eq {a0 a1 a2 a3 a4 a5 a6 a7 a8} {c1 t}
    (e : State.farSource a0 a1 a2 a3 a4 a5 a6 a7 a8 = (c1, t)) (h1 : State.memOk a0) : State.memOk t := by
  have := @memOk_State_farSource a0 a1 a2 a3 a4 a5 a6 a7 a8 h1
  rwa [e] at this

theorem memOk_State_finishLoad {a0 a1 a2 a3 a4} (h1 : State.memOk a0) :
    State.memOk (State.finishLoad a0 a1 a2 a3 a4) := by
  unfold State.finishLoad
  try dsimp only
  repeat' first
    | with_reducible assumption | intro _
    | (with_reducible first
        | apply memOk_ite | apply wf_of_memOk | apply memOk_foldl | apply memOk_State_oneGot
        | apply memOk_State_onCore | apply memOk_State_machineCheck)
    | simp only [memOk_mk] | split | dsimp only

theorem memOk_atomI {a0 a1 a2 a3 a4 a5 a6 a7 a8} (h9 : State.memOk a8) :
    OutOk ((atomI a0 a1 a2 a3 a4 a5 a6 a7 a8)) := by
  unfold atomI
  try dsimp only
  repeat' first
    | with_reducible assumption | intro _
    | (with_reducible first
        | apply memOk_ite | apply wf_of_memOk | apply outOk_next | apply outOk_ite | apply memOk_foldl
        | apply memOk_State_run | apply memOk_State_atom)
    | simp only [memOk_mk] | split | dsimp only

theorem memOk_execAtomMinu {a0 a1 a2 a3 a4 a5} (h6 : State.memOk a5) :
    OutOk ((execAtomMinu a0 a1 a2 a3 a4 a5)) := by
  unfold execAtomMinu
  try dsimp only
  repeat' first
    | with_reducible assumption | intro _
    | (with_reducible first
        | apply memOk_ite | apply wf_of_memOk | apply outOk_next | apply outOk_ite | apply memOk_foldl
        | apply memOk_atomI)
    | simp only [memOk_mk] | split | dsimp only

theorem memOk_State_loseOverflow {a0 a1} (h1 : State.memOk a0) :
    State.memOk (State.loseOverflow a0 a1) := by
  unfold State.loseOverflow
  try dsimp only
  repeat' first
    | with_reducible assumption | intro _
    | (with_reducible first
        | apply memOk_ite | apply wf_of_memOk | apply memOk_foldl | apply memOk_State_tell
        | apply memOk_State_freeLatch)
    | simp only [memOk_mk] | split | dsimp only

theorem memOk_State_answerAll {a0 a1 a2} (h1 : State.memOk a0) :
    State.memOk (State.answerAll a0 a1 a2) := by
  unfold State.answerAll
  try dsimp only
  repeat' first
    | with_reducible assumption | intro _
    | (with_reducible first
        | apply memOk_ite | apply wf_of_memOk | apply memOk_foldl | apply memOk_State_send | apply memOk_State_onCore)
    | simp only [memOk_mk] | split | dsimp only

theorem memOk_State_clearCore {a0 a1 a2} (h1 : State.memOk a0) :
    State.memOk (State.clearCore a0 a1 a2) := by
  unfold State.clearCore
  try dsimp only
  repeat' first
    | with_reducible assumption | intro _
    | (with_reducible first
        | apply memOk_ite | apply wf_of_memOk | apply memOk_foldl | apply memOk_State_loseOverflow
        | apply memOk_State_answerAll | apply memOk_State_unloadCore | apply memOk_State_spadWrite)
    | simp only [memOk_mk] | split | dsimp only

theorem memOk_State_emptyKiln {a0 a1} (h1 : State.memOk a0) :
    State.memOk (State.emptyKiln a0 a1) := by
  unfold State.emptyKiln
  try dsimp only
  repeat' first
    | with_reducible assumption | intro _
    | (with_reducible first
        | apply memOk_ite | apply wf_of_memOk | apply memOk_foldl | apply memOk_State_onKiln
        | apply memOk_State_dropLease)
    | simp only [memOk_mk] | split | dsimp only

theorem memOk_State_contain {a0 a1} (h1 : State.memOk a0) :
    State.memOk (State.contain a0 a1) := by
  unfold State.contain
  try dsimp only
  repeat' first
    | with_reducible assumption | intro _
    | (with_reducible first
        | apply memOk_ite | apply wf_of_memOk | apply memOk_foldl | apply memOk_State_abortArrivals
        | apply memOk_State_clearCore | apply memOk_State_emptyKiln | apply memOk_State_onCluster
        | apply memOk_State_onSag | apply memOk_State_startReset)
    | simp only [memOk_mk] | split | dsimp only

theorem memOk_State_tbarMember {a0 a1 a2 a3} (h1 : State.memOk a0) :
    State.memOk (State.tbarMember a0 a1 a2 a3) := by
  unfold State.tbarMember
  try dsimp only
  repeat' first
    | with_reducible assumption | intro _
    | (with_reducible first
        | apply memOk_ite | apply wf_of_memOk | apply memOk_foldl | apply memOk_State_onCore
        | apply memOk_State_postSucc)
    | simp only [memOk_mk] | split | dsimp only

theorem memOk_branch {a0 a1 a2 a3 a4 a5} (h6 : State.memOk a5) :
    OutOk ((branch a0 a1 a2 a3 a4 a5)) := by
  unfold branch
  try dsimp only
  repeat' first
    | with_reducible assumption | intro _
    | (with_reducible first
        | apply memOk_ite | apply wf_of_memOk | apply outOk_next | apply outOk_ite | apply memOk_foldl
        | apply memOk_State_run | apply memOk_State_retireTo | apply memOk_State_trap | apply memOk_State_retire)
    | simp only [memOk_mk] | split | dsimp only

theorem memOk_execBne {a0 a1 a2 a3} (h4 : State.memOk a3) :
    OutOk ((execBne a0 a1 a2 a3)) := by
  unfold execBne
  try dsimp only
  repeat' first
    | with_reducible assumption | intro _
    | (with_reducible first
        | apply memOk_ite | apply wf_of_memOk | apply outOk_next | apply outOk_ite | apply memOk_foldl
        | apply memOk_branch)
    | simp only [memOk_mk] | split | dsimp only

theorem memOk_State_endFiring {a0 a1} (h1 : State.memOk a0) :
    State.memOk (State.endFiring a0 a1) := by
  unfold State.endFiring
  try dsimp only
  repeat' first
    | with_reducible assumption | intro _
    | (with_reducible first | apply memOk_ite | apply wf_of_memOk | apply memOk_foldl | apply memOk_State_onKiln)
    | simp only [memOk_mk] | split | dsimp only

theorem memOk_loadI {a0 a1 a2 a3 a4 a5 a6} (h7 : State.memOk a6) :
    OutOk ((loadI a0 a1 a2 a3 a4 a5 a6)) := by
  unfold loadI
  try dsimp only
  repeat' first
    | with_reducible assumption | intro _
    | (with_reducible first
        | apply memOk_ite | apply wf_of_memOk | apply outOk_next | apply outOk_ite | apply memOk_foldl
        | apply memOk_State_run | apply memOk_State_load)
    | simp only [memOk_mk] | split | dsimp only

theorem memOk_execLw {a0 a1 a2 a3} (h4 : State.memOk a3) :
    OutOk ((execLw a0 a1 a2 a3)) := by
  unfold execLw
  try dsimp only
  repeat' first
    | with_reducible assumption | intro _
    | (with_reducible first
        | apply memOk_ite | apply wf_of_memOk | apply outOk_next | apply outOk_ite | apply memOk_foldl
        | apply memOk_loadI)
    | simp only [memOk_mk] | split | dsimp only

theorem memOk_State_takeAccess {a0 a1} (h1 : State.memOk a0) :
    OptOk (fun r => State.memOk (r).2) ((State.takeAccess a0 a1)) := by
  unfold State.takeAccess
  try dsimp only
  repeat' first
    | with_reducible assumption | intro _
    | (with_reducible first
        | apply memOk_ite | apply wf_of_memOk | apply optOk_none | apply optOk_some | apply optOk_ite
        | apply optOk_map_mem | apply optOk_map_snd | apply optOk_map_any | apply optOk_findSome | apply optOk_bind
        | apply optOk_orElse | apply memOk_getD | apply memOk_foldl | apply memOk_State_takePkt)
    | with_reducible refine memOk_State_takePkt_eq (by assumption) ?_
    | with_reducible refine memOk_State_takePkt_eq2 (by assumption) ?_
    | with_reducible refine memOk_of_next (by assumption) ?_
    | with_reducible refine memOk_of_some_snd (by assumption) ?_
    | with_reducible refine memOk_of_some (by assumption) ?_
    | with_reducible refine memOk_of_some_fst (by assumption) ?_
    | simp only [memOk_mk] | split | dsimp only

theorem memOk_State_takeAccess_eq {a0 a1} {c1 t} (e : State.takeAccess a0 a1 = some (c1, t)) (h1 : State.memOk a0)
    : State.memOk t :=
  (@memOk_State_takeAccess a0 a1 h1).of _ e
theorem memOk_State_takeAccess_eq2 {a0 a1} {r} (e : State.takeAccess a0 a1 = some r)
    (h1 : State.memOk a0) : State.memOk (r).2 :=
  (@memOk_State_takeAccess a0 a1 h1).of _ e

theorem memOk_State_lateFault {a0 a1 a2 a3 a4} (h1 : State.memOk a0) :
    State.memOk (State.lateFault a0 a1 a2 a3 a4) := by
  unfold State.lateFault
  try dsimp only
  repeat' first
    | with_reducible assumption | intro _
    | (with_reducible first | apply memOk_ite | apply wf_of_memOk | apply memOk_foldl | apply memOk_State_onCore)
    | simp only [memOk_mk] | split | dsimp only

theorem memOk_State_oneLost {a0 a1 a2} (h1 : State.memOk a0) :
    State.memOk (State.oneLost a0 a1 a2) := by
  unfold State.oneLost
  try dsimp only
  repeat' first
    | with_reducible assumption | intro _
    | (with_reducible first | apply memOk_ite | apply wf_of_memOk | apply memOk_foldl | apply memOk_State_onCluster)
    | simp only [memOk_mk] | split | dsimp only

theorem memOk_State_spadValue {a0 a1 a2 a3} (h1 : State.memOk a0) :
    State.memOk ((State.spadValue a0 a1 a2 a3)).2 := by
  unfold State.spadValue
  try dsimp only
  repeat' first
    | with_reducible assumption | intro _
    | (with_reducible first | apply memOk_ite | apply wf_of_memOk | apply memOk_foldl)
    | simp only [memOk_mk] | split | dsimp only

theorem memOk_State_spadValue_eq {a0 a1 a2 a3} {c1 t} (e : State.spadValue a0 a1 a2 a3 = (c1, t))
    (h1 : State.memOk a0) : State.memOk t := by
  have := @memOk_State_spadValue a0 a1 a2 a3 h1
  rwa [e] at this

theorem memOk_execScratchpadRemoteAccess {a0 a1} (h2 : State.memOk a1) :
    OutOk ((execScratchpadRemoteAccess a0 a1)) := by
  unfold execScratchpadRemoteAccess
  try dsimp only
  repeat' first
    | with_reducible assumption | intro _
    | (with_reducible first
        | apply memOk_ite | apply wf_of_memOk | apply outOk_next | apply outOk_ite | apply optOk_none
        | apply optOk_some | apply optOk_ite | apply optOk_map_mem | apply optOk_map_snd | apply optOk_map_any
        | apply optOk_findSome | apply optOk_bind | apply optOk_orElse | apply memOk_getD | apply memOk_foldl
        | apply memOk_State_takeAccess | apply memOk_State_lateFault | apply memOk_State_oneLost
        | apply memOk_State_onCore | apply memOk_State_spadValue | apply memOk_State_finishLoad
        | apply memOk_State_send | apply memOk_State_spadWrite)
    | with_reducible refine memOk_State_takeAccess_eq (by assumption) ?_
    | with_reducible refine memOk_State_spadValue_eq (by assumption) ?_
    | with_reducible refine memOk_State_takeAccess_eq2 (by assumption) ?_
    | with_reducible refine memOk_of_next (by assumption) ?_
    | with_reducible refine memOk_of_some_snd (by assumption) ?_
    | with_reducible refine memOk_of_some (by assumption) ?_
    | with_reducible refine memOk_of_some_fst (by assumption) ?_
    | simp only [memOk_mk] | split | dsimp only

theorem memOk_State_tick {a0 a1} (h1 : State.memOk a0) :
    State.memOk (State.tick a0 a1) := by
  unfold State.tick
  try dsimp only
  repeat' first
    | with_reducible assumption | intro _
    | (with_reducible first | apply memOk_ite | apply wf_of_memOk | apply memOk_foldl)
    | simp only [memOk_mk] | split | dsimp only

theorem memOk_State_withRings {a0 a1 a2 a3 a4 a5} (h1 : State.memOk a0)
    (h6 : ∀ b0, State.memOk b0 → State.memOk (a5 b0)) :
    State.memOk (State.withRings a0 a1 a2 a3 a4 a5) := by
  unfold State.withRings
  try dsimp only
  repeat' first
    | with_reducible assumption | intro _
    | (with_reducible first
        | apply memOk_ite | apply wf_of_memOk | apply memOk_foldl | apply memOk_State_badRing | apply h6)
    | simp only [memOk_mk] | split | dsimp only

theorem memOk_State_setShadow {a0 a1 a2} (h1 : State.memOk a0) :
    State.memOk (State.setShadow a0 a1 a2) := by
  unfold State.setShadow
  try dsimp only
  repeat' first
    | with_reducible assumption | intro _
    | (with_reducible first | apply memOk_ite | apply wf_of_memOk | apply memOk_foldl | apply memOk_State_onMe)
    | simp only [memOk_mk] | split | dsimp only

theorem memOk_State_takeTile {a0 a1} (h1 : State.memOk a0) :
    State.memOk (State.takeTile a0 a1) := by
  unfold State.takeTile
  try dsimp only
  repeat' first
    | with_reducible assumption | intro _
    | (with_reducible first | apply memOk_ite | apply wf_of_memOk | apply memOk_foldl | apply memOk_State_setShadow)
    | simp only [memOk_mk] | split | dsimp only

theorem memOk_execKeep {a0 a1 a2 a3} (h4 : State.memOk a3) :
    OutOk ((execKeep a0 a1 a2 a3)) := by
  unfold execKeep
  try dsimp only
  repeat' first
    | with_reducible assumption | intro _
    | (with_reducible first
        | apply memOk_ite | apply wf_of_memOk | apply outOk_next | apply outOk_ite | apply memOk_foldl
        | apply memOk_State_runKiln | apply memOk_State_illegal | apply memOk_State_withRings
        | apply memOk_State_ckCycle | apply memOk_State_enterKiln | apply memOk_State_takeTile)
    | simp only [memOk_mk] | split | dsimp only

theorem memOk_State_dropSector {a0 a1 a2 a3} (h1 : State.memOk a0) :
    State.memOk (State.dropSector a0 a1 a2 a3) := by
  unfold State.dropSector
  try dsimp only
  repeat' first
    | with_reducible assumption | intro _
    | (with_reducible first | apply memOk_ite | apply wf_of_memOk | apply memOk_foldl | apply memOk_State_onCore)
    | simp only [memOk_mk] | split | dsimp only

theorem memOk_State_releaseOnce {a0} (h1 : State.memOk a0) :
    State.memOk (State.releaseOnce a0) := by
  unfold State.releaseOnce
  try dsimp only
  repeat' first
    | with_reducible assumption | intro _
    | (with_reducible first
        | apply memOk_ite | apply wf_of_memOk | apply memOk_foldl | apply memOk_State_ckCycle
        | apply memOk_State_release)
    | simp only [memOk_mk] | split | dsimp only

theorem memOk_State_oneLoad {a0 a1 a2 a3 a4 a5} (h1 : State.memOk a0) :
    State.memOk (State.oneLoad a0 a1 a2 a3 a4 a5) := by
  unfold State.oneLoad
  try dsimp only
  repeat' first
    | with_reducible assumption | intro _
    | (with_reducible first
        | apply memOk_ite | apply wf_of_memOk | apply memOk_foldl | apply memOk_State_stall
        | apply memOk_State_consume | apply memOk_State_watch | apply memOk_State_onFrame | apply memOk_State_retire
        | apply memOk_State_dropSector | apply memOk_State_trap | apply memOk_State_translate | apply memOk_State_load
        | apply memOk_State_oneAsk | apply memOk_State_sendSpad | apply memOk_State_lockTrap | apply memOk_State_send
        | apply memOk_State_releaseOnce)
    | with_reducible refine memOk_State_translate_eq (by assumption) ?_
    | simp only [memOk_mk] | split | dsimp only

theorem memOk_execDrainK {a0} (h1 : State.memOk a0) :
    OutOk ((execDrainK a0)) := by
  unfold execDrainK
  try dsimp only
  repeat' first
    | with_reducible assumption | intro _
    | (with_reducible first
        | apply memOk_ite | apply wf_of_memOk | apply outOk_next | apply outOk_ite | apply memOk_foldl
        | apply memOk_drain)
    | simp only [memOk_mk] | split | dsimp only

theorem memOk_execVgth {a0 a1 a2 a3} (h4 : State.memOk a3) :
    OutOk ((execVgth a0 a1 a2 a3)) := by
  unfold execVgth
  try dsimp only
  repeat' first
    | with_reducible assumption | intro _
    | (with_reducible first
        | apply memOk_ite | apply wf_of_memOk | apply outOk_next | apply outOk_ite | apply memOk_foldl
        | apply memOk_State_runKiln | apply memOk_State_enterMem)
    | simp only [memOk_mk] | split | dsimp only

theorem memOk_execReductionAtHome {a0 a1} (h2 : State.memOk a1) :
    OutOk ((execReductionAtHome a0 a1)) := by
  unfold execReductionAtHome
  try dsimp only
  repeat' first
    | with_reducible assumption | intro _
    | (with_reducible first
        | apply memOk_ite | apply wf_of_memOk | apply outOk_next | apply outOk_ite | apply optOk_none
        | apply optOk_some | apply optOk_ite | apply optOk_map_mem | apply optOk_map_snd | apply optOk_map_any
        | apply optOk_findSome | apply optOk_bind | apply optOk_orElse | apply memOk_getD | apply memOk_foldl
        | apply memOk_State_takeHeld | apply memOk_State_takeHome | apply memOk_State_hold | apply memOk_State_bring
        | apply memOk_State_atomStep)
    | with_reducible refine memOk_State_takeHeld_eq (by assumption) ?_
    | with_reducible refine memOk_State_takeHome_eq (by assumption) ?_
    | with_reducible refine memOk_State_atomStep_eq (by assumption) ?_
    | with_reducible refine memOk_State_takeHeld_eq2 (by assumption) ?_
    | with_reducible refine memOk_State_takeHome_eq2 (by assumption) ?_
    | with_reducible refine memOk_of_next (by assumption) ?_
    | with_reducible refine memOk_of_some_snd (by assumption) ?_
    | with_reducible refine memOk_of_some (by assumption) ?_
    | with_reducible refine memOk_of_some_fst (by assumption) ?_
    | simp only [memOk_mk] | split | dsimp only

theorem memOk_State_fillOne {a0 a1 a2} (h1 : State.memOk a0) :
    State.memOk (State.fillOne a0 a1 a2) := by
  unfold State.fillOne
  try dsimp only
  repeat' first
    | with_reducible assumption | intro _
    | (with_reducible first | apply memOk_ite | apply wf_of_memOk | apply memOk_foldl | apply memOk_State_fillReg)
    | simp only [memOk_mk] | split | dsimp only

theorem memOk_State_passOne {a0 a1} (h1 : State.memOk a0) :
    State.memOk (State.passOne a0 a1) := by
  unfold State.passOne
  try dsimp only
  repeat' first
    | with_reducible assumption | intro _
    | (with_reducible first
        | apply memOk_ite | apply wf_of_memOk | apply memOk_foldl | apply memOk_State_onMe | apply memOk_State_onOne)
    | simp only [memOk_mk] | split | dsimp only

theorem memOk_State_oneFollow {a0 a1 a2} (h1 : State.memOk a0) :
    State.memOk (State.oneFollow a0 a1 a2) := by
  unfold State.oneFollow
  try dsimp only
  repeat' first
    | with_reducible assumption | intro _
    | (with_reducible first
        | apply memOk_ite | apply wf_of_memOk | apply memOk_foldl | apply memOk_State_regGate
        | apply memOk_State_onFrame | apply memOk_State_fillOne | apply memOk_State_onOne | apply memOk_State_passOne
        | apply memOk_State_retireTo)
    | with_reducible refine memOk_State_regGate_eq (by assumption) ?_
    | with_reducible refine memOk_State_regGate_eq2 (by assumption) ?_
    | simp only [memOk_mk] | split | dsimp only

theorem memOk_execAuipc {a0 a1 a2} (h3 : State.memOk a2) :
    OutOk ((execAuipc a0 a1 a2)) := by
  unfold execAuipc
  try dsimp only
  repeat' first
    | with_reducible assumption | intro _
    | (with_reducible first
        | apply memOk_ite | apply wf_of_memOk | apply outOk_next | apply outOk_ite | apply memOk_foldl
        | apply memOk_aluU)
    | simp only [memOk_mk] | split | dsimp only

theorem memOk_execFkeyw {a0} (h1 : State.memOk a0) :
    OutOk ((execFkeyw a0)) := by
  unfold execFkeyw
  try dsimp only
  repeat' first
    | with_reducible assumption | intro _
    | (with_reducible first
        | apply memOk_ite | apply wf_of_memOk | apply outOk_next | apply outOk_ite | apply memOk_foldl
        | apply memOk_State_nmDone)
    | simp only [memOk_mk] | split | dsimp only

theorem memOk_State_gbarAdvance {a0 a1 a2 a3} (h1 : State.memOk a0) :
    State.memOk (State.gbarAdvance a0 a1 a2 a3) := by
  induction a3 generalizing a0 a1 a2 with
  | zero => exact h1
  | succ n ih =>
    unfold State.gbarAdvance
    try dsimp only
    repeat' first
      | with_reducible assumption
      | (with_reducible first | apply ih | apply memOk_ite | apply wf_of_memOk | apply memOk_State_onCore | apply memOk_State_sendNotice)
      | intro _
      | exact h7 _ _ (by assumption)
      | simp only [memOk_mk]
      | split
      | dsimp only

theorem memOk_State_gbarArrive {a0 a1 a2 a3 a4 a5} (h1 : State.memOk a0) :
    State.memOk (State.gbarArrive a0 a1 a2 a3 a4 a5) := by
  unfold State.gbarArrive
  try dsimp only
  repeat' first
    | with_reducible assumption | intro _
    | (with_reducible first
        | apply memOk_ite | apply wf_of_memOk | apply memOk_foldl | apply memOk_State_onMe | apply memOk_State_release
        | apply memOk_State_retireCk | apply memOk_State_gbarAdvance | apply memOk_State_gbarTry
        | apply memOk_State_gbarAbort)
    | simp only [memOk_mk] | split | dsimp only

theorem memOk_State_chunkPoison {a0 a1 a2 a3} (h1 : State.memOk a0) :
    State.memOk (State.chunkPoison a0 a1 a2 a3) := by
  unfold State.chunkPoison
  try dsimp only
  repeat' first
    | with_reducible assumption | intro _
    | (with_reducible first
        | apply memOk_ite | apply wf_of_memOk | apply memOk_foldl | apply memOk_State_setPoison
        | apply memOk_State_clearWhole)
    | simp only [memOk_mk] | split | dsimp only

theorem memOk_State_sendSkip {a0 a1 a2 a3 a4} (h1 : State.memOk a0) :
    State.memOk (State.sendSkip a0 a1 a2 a3 a4) := by
  unfold State.sendSkip
  try dsimp only
  repeat' first
    | with_reducible assumption | intro _
    | (with_reducible first | apply memOk_ite | apply wf_of_memOk | apply memOk_foldl)
    | simp only [memOk_mk] | split | dsimp only

theorem memOk_State_dropTag {a0 a1 a2} (h1 : State.memOk a0) :
    State.memOk (State.dropTag a0 a1 a2) := by
  unfold State.dropTag
  try dsimp only
  repeat' first
    | with_reducible assumption | intro _
    | (with_reducible first
        | apply memOk_ite | apply wf_of_memOk | apply memOk_foldl | apply memOk_State_sendSkip
        | apply memOk_State_onSluice | apply memOk_State_report | apply memOk_State_startReset)
    | simp only [memOk_mk] | split | dsimp only

theorem memOk_State_takeRead {a0 a1} (h1 : State.memOk a0) :
    OptOk (fun r => State.memOk (r).2) ((State.takeRead a0 a1)) := by
  unfold State.takeRead
  try dsimp only
  repeat' first
    | with_reducible assumption | intro _
    | (with_reducible first
        | apply memOk_ite | apply wf_of_memOk | apply optOk_none | apply optOk_some | apply optOk_ite
        | apply optOk_map_mem | apply optOk_map_snd | apply optOk_map_any | apply optOk_findSome | apply optOk_bind
        | apply optOk_orElse | apply memOk_getD | apply memOk_foldl | apply memOk_State_takeHeld
        | apply memOk_State_takePkt | apply memOk_State_takeHome)
    | with_reducible refine memOk_State_takeHeld_eq (by assumption) ?_
    | with_reducible refine memOk_State_takePkt_eq (by assumption) ?_
    | with_reducible refine memOk_State_takeHome_eq (by assumption) ?_
    | with_reducible refine memOk_State_takeHeld_eq2 (by assumption) ?_
    | with_reducible refine memOk_State_takePkt_eq2 (by assumption) ?_
    | with_reducible refine memOk_State_takeHome_eq2 (by assumption) ?_
    | with_reducible refine memOk_of_next (by assumption) ?_
    | with_reducible refine memOk_of_some_snd (by assumption) ?_
    | with_reducible refine memOk_of_some (by assumption) ?_
    | with_reducible refine memOk_of_some_fst (by assumption) ?_
    | simp only [memOk_mk] | split | dsimp only

theorem memOk_State_takeRead_eq {a0 a1} {c1 t} (e : State.takeRead a0 a1 = some (c1, t)) (h1 : State.memOk a0)
    : State.memOk t :=
  (@memOk_State_takeRead a0 a1 h1).of _ e
theorem memOk_State_takeRead_eq2 {a0 a1} {r} (e : State.takeRead a0 a1 = some r)
    (h1 : State.memOk a0) : State.memOk (r).2 :=
  (@memOk_State_takeRead a0 a1 h1).of _ e

theorem memOk_State_chunkAnswer {a0 a1 a2 a3 a4 a5 a6} (h1 : State.memOk a0) :
    State.memOk (State.chunkAnswer a0 a1 a2 a3 a4 a5 a6) := by
  unfold State.chunkAnswer
  try dsimp only
  repeat' first
    | with_reducible assumption | intro _
    | (with_reducible first | apply memOk_ite | apply wf_of_memOk | apply memOk_foldl | apply memOk_State_send)
    | simp only [memOk_mk] | split | dsimp only

theorem memOk_execRemoteLoadAtTarget {a0 a1} (h2 : State.memOk a1) :
    OutOk ((execRemoteLoadAtTarget a0 a1)) := by
  unfold execRemoteLoadAtTarget
  try dsimp only
  repeat' first
    | with_reducible assumption | intro _
    | (with_reducible first
        | apply memOk_ite | apply wf_of_memOk | apply outOk_next | apply outOk_ite | apply optOk_none
        | apply optOk_some | apply optOk_ite | apply optOk_map_mem | apply optOk_map_snd | apply optOk_map_any
        | apply optOk_findSome | apply optOk_bind | apply optOk_orElse | apply memOk_getD | apply memOk_foldl
        | apply memOk_State_takeRead | apply memOk_State_send | apply memOk_State_asDevice | apply memOk_State_onCore
        | apply memOk_State_spadValue | apply memOk_State_bring | apply memOk_State_hold
        | apply memOk_State_chunkAnswer)
    | with_reducible refine memOk_State_takeRead_eq (by assumption) ?_
    | with_reducible refine memOk_State_spadValue_eq (by assumption) ?_
    | with_reducible refine memOk_State_takeRead_eq2 (by assumption) ?_
    | with_reducible refine memOk_of_next (by assumption) ?_
    | with_reducible refine memOk_of_some_snd (by assumption) ?_
    | with_reducible refine memOk_of_some (by assumption) ?_
    | with_reducible refine memOk_of_some_fst (by assumption) ?_
    | simp only [memOk_mk] | split | dsimp only

theorem memOk_execAtomMaxu {a0 a1 a2 a3 a4 a5} (h6 : State.memOk a5) :
    OutOk ((execAtomMaxu a0 a1 a2 a3 a4 a5)) := by
  unfold execAtomMaxu
  try dsimp only
  repeat' first
    | with_reducible assumption | intro _
    | (with_reducible first
        | apply memOk_ite | apply wf_of_memOk | apply outOk_next | apply outOk_ite | apply memOk_foldl
        | apply memOk_atomI)
    | simp only [memOk_mk] | split | dsimp only

theorem memOk_State_releasing {a0 a1} (h1 : State.memOk a0) (h2 : ∀ b0, State.memOk b0 → State.memOk (a1 b0)) :
    State.memOk (State.releasing a0 a1) := by
  unfold State.releasing
  try dsimp only
  repeat' first
    | with_reducible assumption | intro _
    | (with_reducible first
        | apply memOk_ite | apply wf_of_memOk | apply memOk_foldl | apply memOk_State_trap | apply h2)
    | simp only [memOk_mk] | split | dsimp only

theorem memOk_execFence {a0 a1 a2 a3} (h4 : State.memOk a3) :
    OutOk ((execFence a0 a1 a2 a3)) := by
  unfold execFence
  try dsimp only
  repeat' first
    | with_reducible assumption | intro _
    | (with_reducible first
        | apply memOk_ite | apply wf_of_memOk | apply outOk_next | apply outOk_ite | apply memOk_foldl
        | apply memOk_State_run | apply memOk_State_releasing | apply memOk_State_releaseOnce
        | apply memOk_State_stall | apply memOk_State_retireCk)
    | simp only [memOk_mk] | split | dsimp only

theorem memOk_State_takeCluster {a0 a1 a2} (h1 : State.memOk a0) :
    OptOk (fun r => State.memOk ((r).2).2) ((State.takeCluster a0 a1 a2)) := by
  unfold State.takeCluster
  try dsimp only
  repeat' first
    | with_reducible assumption | intro _
    | (with_reducible first
        | apply memOk_ite | apply wf_of_memOk | apply optOk_none | apply optOk_some | apply optOk_ite
        | apply optOk_map_mem | apply optOk_map_snd | apply optOk_map_any | apply optOk_findSome | apply optOk_bind
        | apply optOk_orElse | apply memOk_getD | apply memOk_foldl | apply memOk_State_takePkt)
    | with_reducible refine memOk_State_takePkt_eq (by assumption) ?_
    | with_reducible refine memOk_State_takePkt_eq2 (by assumption) ?_
    | with_reducible refine memOk_of_next (by assumption) ?_
    | with_reducible refine memOk_of_some_snd (by assumption) ?_
    | with_reducible refine memOk_of_some (by assumption) ?_
    | with_reducible refine memOk_of_some_fst (by assumption) ?_
    | simp only [memOk_mk] | split | dsimp only

theorem memOk_State_takeCluster_eq {a0 a1 a2} {c1 c2 t} (e : State.takeCluster a0 a1 a2 = some (c1, (c2, t)))
    (h1 : State.memOk a0) : State.memOk t :=
  (@memOk_State_takeCluster a0 a1 a2 h1).of _ e
theorem memOk_State_takeCluster_eq2 {a0 a1 a2} {r} (e : State.takeCluster a0 a1 a2 = some r)
    (h1 : State.memOk a0) : State.memOk ((r).2).2 :=
  (@memOk_State_takeCluster a0 a1 a2 h1).of _ e

theorem memOk_State_addCounter {a0 a1 a2 a3} (h1 : State.memOk a0) :
    State.memOk (State.addCounter a0 a1 a2 a3) := by
  unfold State.addCounter
  try dsimp only
  repeat' first
    | with_reducible assumption | intro _
    | (with_reducible first | apply memOk_ite | apply wf_of_memOk | apply memOk_foldl | apply memOk_State_spadWrite)
    | simp only [memOk_mk] | split | dsimp only

theorem memOk_State_onCopy {a0 a1 a2 a3} (h1 : State.memOk a0) :
    State.memOk (State.onCopy a0 a1 a2 a3) := by
  unfold State.onCopy
  try dsimp only
  repeat' first
    | with_reducible assumption | intro _
    | (with_reducible first | apply memOk_ite | apply wf_of_memOk | apply memOk_foldl | apply memOk_State_onCluster)
    | simp only [memOk_mk] | split | dsimp only

theorem memOk_execChunkAcknowledgement {a0 a1} (h2 : State.memOk a1) :
    OutOk ((execChunkAcknowledgement a0 a1)) := by
  unfold execChunkAcknowledgement
  try dsimp only
  repeat' first
    | with_reducible assumption | intro _
    | (with_reducible first
        | apply memOk_ite | apply wf_of_memOk | apply outOk_next | apply outOk_ite | apply optOk_none
        | apply optOk_some | apply optOk_ite | apply optOk_map_mem | apply optOk_map_snd | apply optOk_map_any
        | apply optOk_findSome | apply optOk_bind | apply optOk_orElse | apply memOk_getD | apply memOk_foldl
        | apply memOk_State_takeCluster | apply memOk_State_addCounter | apply memOk_State_onCopy)
    | with_reducible refine memOk_State_takeCluster_eq (by assumption) ?_
    | with_reducible refine memOk_State_takeCluster_eq2 (by assumption) ?_
    | with_reducible refine memOk_of_next (by assumption) ?_
    | with_reducible refine memOk_of_some_snd (by assumption) ?_
    | with_reducible refine memOk_of_some (by assumption) ?_
    | with_reducible refine memOk_of_some_fst (by assumption) ?_
    | simp only [memOk_mk] | split | dsimp only

theorem memOk_State_acquire {a0 a1 a2} (h1 : State.memOk a0) :
    State.memOk (State.acquire a0 a1 a2) := by
  unfold State.acquire
  try dsimp only
  repeat' first
    | with_reducible assumption | intro _
    | (with_reducible first
        | apply memOk_ite | apply wf_of_memOk | apply memOk_foldl | apply memOk_State_stall | apply memOk_State_retire
        | apply memOk_State_startAcquire | apply memOk_State_onMe)
    | simp only [memOk_mk] | split | dsimp only

theorem memOk_execAcqm {a0 a1 a2} (h3 : State.memOk a2) :
    OutOk ((execAcqm a0 a1 a2)) := by
  unfold execAcqm
  try dsimp only
  repeat' first
    | with_reducible assumption | intro _
    | (with_reducible first
        | apply memOk_ite | apply wf_of_memOk | apply outOk_next | apply outOk_ite | apply memOk_foldl
        | apply memOk_State_run | apply memOk_State_illegal | apply memOk_State_acquire)
    | simp only [memOk_mk] | split | dsimp only

theorem memOk_execVrsq {a0 a1 a2 a3} (h4 : State.memOk a3) :
    OutOk ((execVrsq a0 a1 a2 a3)) := by
  unfold execVrsq
  try dsimp only
  repeat' first
    | with_reducible assumption | intro _
    | (with_reducible first
        | apply memOk_ite | apply wf_of_memOk | apply outOk_next | apply outOk_ite | apply memOk_foldl
        | apply memOk_State_runKiln | apply memOk_State_floatKiln)
    | simp only [memOk_mk] | split | dsimp only

theorem memOk_State_leftInj {a0 a1} (h1 : State.memOk a0) :
    State.memOk (State.leftInj a0 a1) := by
  unfold State.leftInj
  try dsimp only
  repeat' first
    | with_reducible assumption | intro _
    | (with_reducible first
        | apply memOk_ite | apply wf_of_memOk | apply memOk_foldl | apply memOk_State_onCore
        | apply memOk_State_putSaved)
    | simp only [memOk_mk] | split | dsimp only

theorem memOk_execAtomAdd {a0 a1 a2 a3 a4 a5} (h6 : State.memOk a5) :
    OutOk ((execAtomAdd a0 a1 a2 a3 a4 a5)) := by
  unfold execAtomAdd
  try dsimp only
  repeat' first
    | with_reducible assumption | intro _
    | (with_reducible first
        | apply memOk_ite | apply wf_of_memOk | apply outOk_next | apply outOk_ite | apply memOk_foldl
        | apply memOk_atomI)
    | simp only [memOk_mk] | split | dsimp only

theorem memOk_State_raiseClocks {a0 a1 a2 a3} (h1 : State.memOk a0) :
    State.memOk (State.raiseClocks a0 a1 a2 a3) := by
  unfold State.raiseClocks
  try dsimp only
  repeat' first
    | with_reducible assumption | intro _
    | (with_reducible first
        | apply memOk_ite | apply wf_of_memOk | apply memOk_foldl | apply memOk_State_asDevice
        | apply memOk_State_onCore | apply memOk_State_onVdev)
    | simp only [memOk_mk] | split | dsimp only

theorem memOk_State_overflowRead {a0} (h1 : State.memOk a0) :
    State.memOk (State.overflowRead a0) := by
  unfold State.overflowRead
  try dsimp only
  repeat' first
    | with_reducible assumption | intro _
    | (with_reducible first
        | apply memOk_ite | apply wf_of_memOk | apply memOk_foldl | apply memOk_State_fetchFor
        | apply memOk_State_onMe | apply memOk_State_consume | apply memOk_State_hwPost)
    | with_reducible refine memOk_State_fetchFor_eq (by assumption) ?_
    | simp only [memOk_mk] | split | dsimp only

theorem memOk_acted {a0 a1 a2} (h3 : OutOk a2) :
    OutOk ((acted a0 a1 a2)) := by
  cases a2 with
  | next t => exact outOk_next (memOk_ite (h3.of t rfl) (h3.of t rfl : t.memOk))
  | fault f => exact outOk_fault _
  | refused r => exact outOk_refused _

theorem memOk_State_nearChunk {a0 a1} (h1 : State.memOk a0) :
    State.memOk (State.nearChunk a0 a1) := by
  unfold State.nearChunk
  try dsimp only
  repeat' first
    | with_reducible assumption | intro _
    | (with_reducible first | apply memOk_ite | apply wf_of_memOk | apply memOk_foldl)
    | simp only [memOk_mk] | split | dsimp only

theorem memOk_State_chunkTo {a0 a1 a2 a3 a4 a5} (h1 : State.memOk a0) :
    State.memOk ((State.chunkTo a0 a1 a2 a3 a4 a5)).2 := by
  unfold State.chunkTo
  try dsimp only
  repeat' first
    | with_reducible assumption | intro _
    | (with_reducible first
        | apply memOk_ite | apply wf_of_memOk | apply memOk_foldl | apply memOk_State_translate
        | apply memOk_State_onCopy | apply memOk_State_send | apply memOk_State_nearChunk
        | apply memOk_State_machineCheck)
    | with_reducible refine memOk_State_translate_eq (by assumption) ?_
    | simp only [memOk_mk] | split | dsimp only

theorem memOk_State_chunkTo_eq {a0 a1 a2 a3 a4 a5} {c1 t} (e : State.chunkTo a0 a1 a2 a3 a4 a5 = (c1, t))
    (h1 : State.memOk a0) : State.memOk t := by
  have := @memOk_State_chunkTo a0 a1 a2 a3 a4 a5 h1
  rwa [e] at this

theorem memOk_State_stampPost {a0 a1} (h1 : State.memOk a0) :
    State.memOk (((State.stampPost a0 a1)).2).2 := by
  unfold State.stampPost
  try dsimp only
  repeat' first
    | with_reducible assumption | intro _
    | (with_reducible first | apply memOk_ite | apply wf_of_memOk | apply memOk_foldl | apply memOk_State_onCore)
    | simp only [memOk_mk] | split | dsimp only

theorem memOk_State_stampPost_eq {a0 a1} {c1 c2 t} (e : State.stampPost a0 a1 = (c1, (c2, t))) (h1 : State.memOk a0)
    : State.memOk t := by
  have := @memOk_State_stampPost a0 a1 h1
  rwa [e] at this

theorem memOk_State_solveKiln {a0 a1 a2 a3} (h1 : State.memOk a0) :
    State.memOk (State.solveKiln a0 a1 a2 a3) := by
  unfold State.solveKiln
  try dsimp only
  repeat' first
    | with_reducible assumption | intro _
    | (with_reducible first
        | apply memOk_ite | apply wf_of_memOk | apply memOk_foldl | apply memOk_State_illegal
        | apply memOk_State_plainKiln)
    | simp only [memOk_mk] | split | dsimp only

theorem memOk_execKtrsu {a0 a1 a2 a3} (h4 : State.memOk a3) :
    OutOk ((execKtrsu a0 a1 a2 a3)) := by
  unfold execKtrsu
  try dsimp only
  repeat' first
    | with_reducible assumption | intro _
    | (with_reducible first
        | apply memOk_ite | apply wf_of_memOk | apply outOk_next | apply outOk_ite | apply memOk_foldl
        | apply memOk_State_runKiln | apply memOk_State_solveKiln)
    | simp only [memOk_mk] | split | dsimp only

theorem memOk_State_enterProduct {a0 a1 a2 a3} (h1 : State.memOk a0) :
    State.memOk (State.enterProduct a0 a1 a2 a3) := by
  unfold State.enterProduct
  try dsimp only
  repeat' first
    | with_reducible assumption | intro _
    | (with_reducible first
        | apply memOk_ite | apply wf_of_memOk | apply memOk_foldl | apply memOk_State_withSucc
        | apply memOk_State_enterWith | apply memOk_State_takeTile)
    | simp only [memOk_mk] | split | dsimp only

theorem memOk_State_productKiln {a0 a1 a2 a3 a4 a5} (h1 : State.memOk a0) :
    State.memOk (State.productKiln a0 a1 a2 a3 a4 a5) := by
  unfold State.productKiln
  try dsimp only
  repeat' first
    | with_reducible assumption | intro _
    | (with_reducible first
        | apply memOk_ite | apply wf_of_memOk | apply memOk_foldl | apply memOk_State_withRings
        | apply memOk_State_enterProduct)
    | simp only [memOk_mk] | split | dsimp only

theorem memOk_execKmman {a0 a1 a2 a3 a4 a5} (h6 : State.memOk a5) :
    OutOk ((execKmman a0 a1 a2 a3 a4 a5)) := by
  unfold execKmman
  try dsimp only
  repeat' first
    | with_reducible assumption | intro _
    | (with_reducible first
        | apply memOk_ite | apply wf_of_memOk | apply outOk_next | apply outOk_ite | apply memOk_foldl
        | apply memOk_State_runKiln | apply memOk_State_productKiln)
    | simp only [memOk_mk] | split | dsimp only

theorem memOk_State_accepted {a0 a1} (h1 : State.memOk a0) :
    State.memOk (State.accepted a0 a1) := by
  unfold State.accepted
  try dsimp only
  repeat' first
    | with_reducible assumption | intro _
    | (with_reducible first | apply memOk_ite | apply wf_of_memOk | apply memOk_foldl | apply memOk_State_finishAckw)
    | simp only [memOk_mk] | split | dsimp only

theorem memOk_State_accept {a0 a1 a2 a3} (h1 : State.memOk a0) :
    State.memOk (State.accept a0 a1 a2 a3) := by
  unfold State.accept
  try dsimp only
  repeat' first
    | with_reducible assumption | intro _
    | (with_reducible first
        | apply memOk_ite | apply wf_of_memOk | apply memOk_foldl | apply memOk_State_accepted
        | apply memOk_State_send)
    | simp only [memOk_mk] | split | dsimp only

theorem memOk_execStaleNote {a0 a1} (h2 : State.memOk a1) :
    OutOk ((execStaleNote a0 a1)) := by
  unfold execStaleNote
  try dsimp only
  repeat' first
    | with_reducible assumption | intro _
    | (with_reducible first
        | apply memOk_ite | apply wf_of_memOk | apply outOk_next | apply outOk_ite | apply optOk_none
        | apply optOk_some | apply optOk_ite | apply optOk_map_mem | apply optOk_map_snd | apply optOk_map_any
        | apply optOk_findSome | apply optOk_bind | apply optOk_orElse | apply memOk_getD | apply memOk_foldl
        | apply memOk_State_takePkt | apply memOk_State_count | apply memOk_State_setCore | apply memOk_State_accept)
    | with_reducible refine memOk_State_takePkt_eq (by assumption) ?_
    | with_reducible refine memOk_State_takePkt_eq2 (by assumption) ?_
    | with_reducible refine memOk_of_next (by assumption) ?_
    | with_reducible refine memOk_of_some_snd (by assumption) ?_
    | with_reducible refine memOk_of_some (by assumption) ?_
    | with_reducible refine memOk_of_some_fst (by assumption) ?_
    | simp only [memOk_mk] | split | dsimp only

theorem memOk_execSkipNotice {a0 a1 a2 a3} (h4 : State.memOk a3) :
    OutOk ((execSkipNotice a0 a1 a2 a3)) := by
  unfold execSkipNotice
  try dsimp only
  repeat' first
    | with_reducible assumption | intro _
    | (with_reducible first
        | apply memOk_ite | apply wf_of_memOk | apply outOk_next | apply outOk_ite | apply memOk_foldl
        | apply memOk_State_applySkips)
    | simp only [memOk_mk] | split | dsimp only

theorem memOk_execVspl {a0 a1 a2 a3} (h4 : State.memOk a3) :
    OutOk ((execVspl a0 a1 a2 a3)) := by
  unfold execVspl
  try dsimp only
  repeat' first
    | with_reducible assumption | intro _
    | (with_reducible first
        | apply memOk_ite | apply wf_of_memOk | apply outOk_next | apply outOk_ite | apply memOk_foldl
        | apply memOk_State_runKiln | apply memOk_State_plainKiln)
    | simp only [memOk_mk] | split | dsimp only

theorem memOk_State_nearSource {a0 a1 a2 a3} (h1 : State.memOk a0) :
    State.memOk ((State.nearSource a0 a1 a2 a3)).2 := by
  unfold State.nearSource
  try dsimp only
  repeat' first
    | with_reducible assumption | intro _
    | (with_reducible first
        | apply memOk_ite | apply wf_of_memOk | apply memOk_foldl | apply memOk_State_bring
        | apply memOk_State_atHome)
    | simp only [memOk_mk] | split | dsimp only

theorem memOk_State_nearSource_eq {a0 a1 a2 a3} {c1 t} (e : State.nearSource a0 a1 a2 a3 = (c1, t))
    (h1 : State.memOk a0) : State.memOk t := by
  have := @memOk_State_nearSource a0 a1 a2 a3 h1
  rwa [e] at this

theorem memOk_State_sourceBytes {a0 a1 a2 a3 a4} (h1 : State.memOk a0) :
    State.memOk ((State.sourceBytes a0 a1 a2 a3 a4)).2 := by
  unfold State.sourceBytes
  try dsimp only
  repeat' first
    | with_reducible assumption | intro _
    | (with_reducible first
        | apply memOk_ite | apply wf_of_memOk | apply memOk_foldl | apply memOk_State_translate
        | apply memOk_State_nearSource | apply memOk_State_farSource | apply memOk_State_machineCheck)
    | with_reducible refine memOk_State_translate_eq (by assumption) ?_
    | with_reducible refine memOk_State_nearSource_eq (by assumption) ?_
    | with_reducible refine memOk_State_farSource_eq (by assumption) ?_
    | simp only [memOk_mk] | split | dsimp only

theorem memOk_State_sourceBytes_eq {a0 a1 a2 a3 a4} {c1 t} (e : State.sourceBytes a0 a1 a2 a3 a4 = (c1, t))
    (h1 : State.memOk a0) : State.memOk t := by
  have := @memOk_State_sourceBytes a0 a1 a2 a3 a4 h1
  rwa [e] at this

theorem memOk_execVor {a0 a1 a2 a3} (h4 : State.memOk a3) :
    OutOk ((execVor a0 a1 a2 a3)) := by
  unfold execVor
  try dsimp only
  repeat' first
    | with_reducible assumption | intro _
    | (with_reducible first
        | apply memOk_ite | apply wf_of_memOk | apply outOk_next | apply outOk_ite | apply memOk_foldl
        | apply memOk_State_runKiln | apply memOk_State_plainKiln)
    | simp only [memOk_mk] | split | dsimp only

theorem memOk_execErrctlWrite {a0 a1} (h2 : State.memOk a1) :
    OutOk ((execErrctlWrite a0 a1)) := by
  unfold execErrctlWrite
  try dsimp only
  repeat' first
    | with_reducible assumption | intro _
    | (with_reducible first
        | apply memOk_ite | apply wf_of_memOk | apply outOk_next | apply outOk_ite | apply memOk_foldl
        | apply memOk_State_errctl)
    | simp only [memOk_mk] | split | dsimp only

theorem memOk_execKmvt {a0 a1 a2 a3} (h4 : State.memOk a3) :
    OutOk ((execKmvt a0 a1 a2 a3)) := by
  unfold execKmvt
  try dsimp only
  repeat' first
    | with_reducible assumption | intro _
    | (with_reducible first
        | apply memOk_ite | apply wf_of_memOk | apply outOk_next | apply outOk_ite | apply memOk_foldl
        | apply memOk_State_runKiln | apply memOk_State_solveKiln)
    | simp only [memOk_mk] | split | dsimp only

theorem memOk_execVmin {a0 a1 a2 a3 a4} (h5 : State.memOk a4) :
    OutOk ((execVmin a0 a1 a2 a3 a4)) := by
  unfold execVmin
  try dsimp only
  repeat' first
    | with_reducible assumption | intro _
    | (with_reducible first
        | apply memOk_ite | apply wf_of_memOk | apply outOk_next | apply outOk_ite | apply memOk_foldl
        | apply memOk_State_runKiln | apply memOk_State_floatKiln)
    | simp only [memOk_mk] | split | dsimp only

theorem memOk_State_boundaryTrap {a0 a1 a2 a3 a4} (h1 : State.memOk a0) :
    State.memOk (State.boundaryTrap a0 a1 a2 a3 a4) := by
  unfold State.boundaryTrap
  try dsimp only
  repeat' first
    | with_reducible assumption | intro _
    | (with_reducible first
        | apply memOk_ite | apply wf_of_memOk | apply memOk_foldl | apply memOk_State_trapReady
        | apply memOk_State_enterTrap | apply memOk_State_onCore | apply memOk_State_trapWait)
    | with_reducible refine memOk_State_trapReady_eq (by assumption) ?_
    | simp only [memOk_mk] | split | dsimp only

theorem memOk_execVsum {a0 a1 a2 a3 a4} (h5 : State.memOk a4) :
    OutOk ((execVsum a0 a1 a2 a3 a4)) := by
  unfold execVsum
  try dsimp only
  repeat' first
    | with_reducible assumption | intro _
    | (with_reducible first
        | apply memOk_ite | apply wf_of_memOk | apply outOk_next | apply outOk_ite | apply memOk_foldl
        | apply memOk_State_runKiln | apply memOk_State_floatKiln)
    | simp only [memOk_mk] | split | dsimp only

theorem memOk_State_addReadyAt {a0 a1 a2 a3 a4} (h1 : State.memOk a0) :
    State.memOk (State.addReadyAt a0 a1 a2 a3 a4) := by
  unfold State.addReadyAt
  try dsimp only
  repeat' first
    | with_reducible assumption | intro _
    | (with_reducible first | apply memOk_ite | apply wf_of_memOk | apply memOk_foldl | apply memOk_State_onCore)
    | simp only [memOk_mk] | split | dsimp only

theorem memOk_State_addReady {a0 a1 a2 a3} (h1 : State.memOk a0) :
    State.memOk (State.addReady a0 a1 a2 a3) := by
  unfold State.addReady
  try dsimp only
  repeat' first
    | with_reducible assumption | intro _
    | (with_reducible first | apply memOk_ite | apply wf_of_memOk | apply memOk_foldl | apply memOk_State_addReadyAt)
    | simp only [memOk_mk] | split | dsimp only

theorem memOk_State_postOwn {a0 a1 a2 a3 a4} (h1 : State.memOk a0) :
    State.memOk (State.postOwn a0 a1 a2 a3 a4) := by
  unfold State.postOwn
  try dsimp only
  repeat' first
    | with_reducible assumption | intro _
    | (with_reducible first
        | apply memOk_ite | apply wf_of_memOk | apply memOk_foldl | apply memOk_State_addReady
        | apply memOk_State_count | apply memOk_State_settle | apply memOk_State_setX)
    | simp only [memOk_mk] | split | dsimp only

theorem memOk_execRingq {a0 a1} (h2 : State.memOk a1) :
    OutOk ((execRingq a0 a1)) := by
  unfold execRingq
  try dsimp only
  repeat' first
    | with_reducible assumption | intro _
    | (with_reducible first
        | apply memOk_ite | apply wf_of_memOk | apply outOk_next | apply outOk_ite | apply memOk_foldl
        | apply memOk_State_runKiln | apply memOk_State_illegal | apply memOk_State_plainKiln)
    | simp only [memOk_mk] | split | dsimp only

theorem memOk_redI {a0 a1 a2 a3 a4 a5 a6 a7} (h8 : State.memOk a7) :
    OutOk ((redI a0 a1 a2 a3 a4 a5 a6 a7)) := by
  unfold redI
  try dsimp only
  repeat' first
    | with_reducible assumption | intro _
    | (with_reducible first
        | apply memOk_ite | apply wf_of_memOk | apply outOk_next | apply outOk_ite | apply memOk_foldl
        | apply memOk_State_run | apply memOk_State_red)
    | simp only [memOk_mk] | split | dsimp only

theorem memOk_execRedMin {a0 a1 a2 a3 a4} (h5 : State.memOk a4) :
    OutOk ((execRedMin a0 a1 a2 a3 a4)) := by
  unfold execRedMin
  try dsimp only
  repeat' first
    | with_reducible assumption | intro _
    | (with_reducible first
        | apply memOk_ite | apply wf_of_memOk | apply outOk_next | apply outOk_ite | apply memOk_foldl
        | apply memOk_redI)
    | simp only [memOk_mk] | split | dsimp only

theorem memOk_execJal {a0 a1 a2} (h3 : State.memOk a2) :
    OutOk ((execJal a0 a1 a2)) := by
  unfold execJal
  try dsimp only
  repeat' first
    | with_reducible assumption | intro _
    | (with_reducible first
        | apply memOk_ite | apply wf_of_memOk | apply outOk_next | apply outOk_ite | apply memOk_foldl
        | apply memOk_State_run | apply memOk_State_onFrame | apply memOk_State_retireTo | apply memOk_State_setX
        | apply memOk_State_trap)
    | simp only [memOk_mk] | split | dsimp only

theorem memOk_State_completeCopy {a0 a1 a2 a3} (h1 : State.memOk a0) :
    State.memOk (State.completeCopy a0 a1 a2 a3) := by
  unfold State.completeCopy
  try dsimp only
  repeat' first
    | with_reducible assumption | intro _
    | (with_reducible first
        | apply memOk_ite | apply wf_of_memOk | apply memOk_foldl | apply memOk_State_onCluster
        | apply memOk_State_asDevice | apply memOk_State_pushKept | apply memOk_State_postSucc)
    | simp only [memOk_mk] | split | dsimp only

theorem memOk_State_endStale {a0 a1 a2} (h1 : State.memOk a0) :
    State.memOk (State.endStale a0 a1 a2) := by
  unfold State.endStale
  try dsimp only
  repeat' first
    | with_reducible assumption | intro _
    | (with_reducible first | apply memOk_ite | apply wf_of_memOk | apply memOk_foldl | apply memOk_State_completeCopy)
    | simp only [memOk_mk] | split | dsimp only

theorem memOk_execCopyCompletion {a0 a1} (h2 : State.memOk a1) :
    OutOk ((execCopyCompletion a0 a1)) := by
  unfold execCopyCompletion
  try dsimp only
  repeat' first
    | with_reducible assumption | intro _
    | (with_reducible first
        | apply memOk_ite | apply wf_of_memOk | apply outOk_next | apply outOk_ite | apply optOk_none
        | apply optOk_some | apply optOk_ite | apply optOk_map_mem | apply optOk_map_snd | apply optOk_map_any
        | apply optOk_findSome | apply optOk_bind | apply optOk_orElse | apply memOk_getD | apply memOk_foldl
        | apply memOk_State_takeCluster | apply memOk_State_onCopy | apply memOk_State_endStale
        | apply memOk_State_completeCopy | apply memOk_State_asDevice | apply memOk_State_onCore
        | apply memOk_State_send)
    | with_reducible refine memOk_State_takeCluster_eq (by assumption) ?_
    | with_reducible refine memOk_State_takeCluster_eq2 (by assumption) ?_
    | with_reducible refine memOk_of_next (by assumption) ?_
    | with_reducible refine memOk_of_some_snd (by assumption) ?_
    | with_reducible refine memOk_of_some (by assumption) ?_
    | with_reducible refine memOk_of_some_fst (by assumption) ?_
    | simp only [memOk_mk] | split | dsimp only

theorem memOk_State_revokeTo {a0 a1 a2 a3} (h1 : State.memOk a0) :
    State.memOk (State.revokeTo a0 a1 a2 a3) := by
  induction a3 generalizing a0 a1 a2 with
  | zero => exact h1
  | succ n ih =>
    unfold State.revokeTo
    try dsimp only
    repeat' first
      | with_reducible assumption
      | (with_reducible first | apply ih | apply memOk_ite | apply wf_of_memOk | apply memOk_State_revokeOne)
      | intro _
      | exact h7 _ _ (by assumption)
      | simp only [memOk_mk]
      | split
      | dsimp only

theorem memOk_execCarveOutApply {a0 a1} (h2 : State.memOk a1) :
    OutOk ((execCarveOutApply a0 a1)) := by
  unfold execCarveOutApply
  try dsimp only
  repeat' first
    | with_reducible assumption | intro _
    | (with_reducible first
        | apply memOk_ite | apply wf_of_memOk | apply outOk_next | apply outOk_ite | apply memOk_foldl
        | apply memOk_State_takeTrap | apply memOk_State_checkpoint | apply memOk_State_release
        | apply memOk_State_onCore | apply memOk_State_revokeTo | apply memOk_State_spadWrite)
    | simp only [memOk_mk] | split | dsimp only

theorem memOk_execUnclaim {a0 a1 a2} (h3 : State.memOk a2) :
    OutOk ((execUnclaim a0 a1 a2)) := by
  unfold execUnclaim
  try dsimp only
  repeat' first
    | with_reducible assumption | intro _
    | (with_reducible first
        | apply memOk_ite | apply wf_of_memOk | apply outOk_next | apply outOk_ite | apply memOk_foldl
        | apply memOk_State_run | apply memOk_State_trap | apply memOk_State_retire | apply memOk_State_onFrame)
    | simp only [memOk_mk] | split | dsimp only

theorem memOk_execVcvti {a0 a1 a2 a3 a4 a5} (h6 : State.memOk a5) :
    OutOk ((execVcvti a0 a1 a2 a3 a4 a5)) := by
  unfold execVcvti
  try dsimp only
  repeat' first
    | with_reducible assumption | intro _
    | (with_reducible first
        | apply memOk_ite | apply wf_of_memOk | apply outOk_next | apply outOk_ite | apply memOk_foldl
        | apply memOk_State_runKiln | apply memOk_State_illegal | apply memOk_State_plainKiln)
    | simp only [memOk_mk] | split | dsimp only

theorem memOk_State_freeChunk {a0 a1 a2 a3 a4} (h1 : State.memOk a0) :
    State.memOk (State.freeChunk a0 a1 a2 a3 a4) := by
  unfold State.freeChunk
  try dsimp only
  repeat' first
    | with_reducible assumption | intro _
    | (with_reducible first | apply memOk_ite | apply wf_of_memOk | apply memOk_foldl | apply memOk_State_onCluster)
    | simp only [memOk_mk] | split | dsimp only

theorem memOk_execLd {a0 a1 a2 a3} (h4 : State.memOk a3) :
    OutOk ((execLd a0 a1 a2 a3)) := by
  unfold execLd
  try dsimp only
  repeat' first
    | with_reducible assumption | intro _
    | (with_reducible first
        | apply memOk_ite | apply wf_of_memOk | apply outOk_next | apply outOk_ite | apply memOk_foldl
        | apply memOk_loadI)
    | simp only [memOk_mk] | split | dsimp only

theorem memOk_execAtomMinW {a0 a1 a2 a3 a4 a5} (h6 : State.memOk a5) :
    OutOk ((execAtomMinW a0 a1 a2 a3 a4 a5)) := by
  unfold execAtomMinW
  try dsimp only
  repeat' first
    | with_reducible assumption | intro _
    | (with_reducible first
        | apply memOk_ite | apply wf_of_memOk | apply outOk_next | apply outOk_ite | apply memOk_foldl
        | apply memOk_atomI)
    | simp only [memOk_mk] | split | dsimp only

theorem memOk_State_keepPass {a0 a1 a2 a3 a4} (h1 : State.memOk a0) :
    State.memOk (State.keepPass a0 a1 a2 a3 a4) := by
  unfold State.keepPass
  try dsimp only
  repeat' first
    | with_reducible assumption | intro _
    | (with_reducible first | apply memOk_ite | apply wf_of_memOk | apply memOk_foldl)
    | simp only [memOk_mk] | split | dsimp only

theorem memOk_State_keepIngress {a0 a1 a2} (h1 : State.memOk a0) :
    State.memOk (State.keepIngress a0 a1 a2) := by
  unfold State.keepIngress
  try dsimp only
  repeat' first
    | with_reducible assumption | intro _
    | (with_reducible first | apply memOk_ite | apply wf_of_memOk | apply memOk_foldl | apply memOk_State_keepPass)
    | simp only [memOk_mk] | split | dsimp only

theorem memOk_State_takeEnqueue {a0 a1 a2 a3} (h1 : State.memOk a0) :
    State.memOk (State.takeEnqueue a0 a1 a2 a3) := by
  unfold State.takeEnqueue
  try dsimp only
  repeat' first
    | with_reducible assumption | intro _
    | (with_reducible first | apply memOk_ite | apply wf_of_memOk | apply memOk_foldl | apply memOk_State_tellHost)
    | simp only [memOk_mk] | split | dsimp only

theorem memOk_execEnqueue {a0 a1 a2 a3} (h4 : State.memOk a3) :
    OutOk ((execEnqueue a0 a1 a2 a3)) := by
  unfold execEnqueue
  try dsimp only
  repeat' first
    | with_reducible assumption | intro _
    | (with_reducible first
        | apply memOk_ite | apply wf_of_memOk | apply outOk_next | apply outOk_ite | apply memOk_foldl
        | apply memOk_State_ingress | apply memOk_State_tellHost | apply memOk_State_keepIngress
        | apply memOk_State_takeEnqueue | apply memOk_State_ask | apply memOk_State_passArb)
    | with_reducible refine memOk_State_ingress_eq (by assumption) ?_
    | with_reducible refine memOk_State_passArb_eq (by assumption) ?_
    | simp only [memOk_mk] | split | dsimp only

theorem memOk_execJalr {a0 a1 a2 a3} (h4 : State.memOk a3) :
    OutOk ((execJalr a0 a1 a2 a3)) := by
  unfold execJalr
  try dsimp only
  repeat' first
    | with_reducible assumption | intro _
    | (with_reducible first
        | apply memOk_ite | apply wf_of_memOk | apply outOk_next | apply outOk_ite | apply memOk_foldl
        | apply memOk_State_run | apply memOk_State_onFrame | apply memOk_State_retireTo | apply memOk_State_setX
        | apply memOk_State_trap)
    | simp only [memOk_mk] | split | dsimp only

theorem memOk_execBeq {a0 a1 a2 a3} (h4 : State.memOk a3) :
    OutOk ((execBeq a0 a1 a2 a3)) := by
  unfold execBeq
  try dsimp only
  repeat' first
    | with_reducible assumption | intro _
    | (with_reducible first
        | apply memOk_ite | apply wf_of_memOk | apply outOk_next | apply outOk_ite | apply memOk_foldl
        | apply memOk_branch)
    | simp only [memOk_mk] | split | dsimp only

theorem memOk_execBlt {a0 a1 a2 a3} (h4 : State.memOk a3) :
    OutOk ((execBlt a0 a1 a2 a3)) := by
  unfold execBlt
  try dsimp only
  repeat' first
    | with_reducible assumption | intro _
    | (with_reducible first
        | apply memOk_ite | apply wf_of_memOk | apply outOk_next | apply outOk_ite | apply memOk_foldl
        | apply memOk_branch)
    | simp only [memOk_mk] | split | dsimp only

theorem memOk_execBge {a0 a1 a2 a3} (h4 : State.memOk a3) :
    OutOk ((execBge a0 a1 a2 a3)) := by
  unfold execBge
  try dsimp only
  repeat' first
    | with_reducible assumption | intro _
    | (with_reducible first
        | apply memOk_ite | apply wf_of_memOk | apply outOk_next | apply outOk_ite | apply memOk_foldl
        | apply memOk_branch)
    | simp only [memOk_mk] | split | dsimp only

theorem memOk_execBltu {a0 a1 a2 a3} (h4 : State.memOk a3) :
    OutOk ((execBltu a0 a1 a2 a3)) := by
  unfold execBltu
  try dsimp only
  repeat' first
    | with_reducible assumption | intro _
    | (with_reducible first
        | apply memOk_ite | apply wf_of_memOk | apply outOk_next | apply outOk_ite | apply memOk_foldl
        | apply memOk_branch)
    | simp only [memOk_mk] | split | dsimp only

theorem memOk_execBgeu {a0 a1 a2 a3} (h4 : State.memOk a3) :
    OutOk ((execBgeu a0 a1 a2 a3)) := by
  unfold execBgeu
  try dsimp only
  repeat' first
    | with_reducible assumption | intro _
    | (with_reducible first
        | apply memOk_ite | apply wf_of_memOk | apply outOk_next | apply outOk_ite | apply memOk_foldl
        | apply memOk_branch)
    | simp only [memOk_mk] | split | dsimp only

theorem memOk_execLb {a0 a1 a2 a3} (h4 : State.memOk a3) :
    OutOk ((execLb a0 a1 a2 a3)) := by
  unfold execLb
  try dsimp only
  repeat' first
    | with_reducible assumption | intro _
    | (with_reducible first
        | apply memOk_ite | apply wf_of_memOk | apply outOk_next | apply outOk_ite | apply memOk_foldl
        | apply memOk_loadI)
    | simp only [memOk_mk] | split | dsimp only

theorem memOk_execLh {a0 a1 a2 a3} (h4 : State.memOk a3) :
    OutOk ((execLh a0 a1 a2 a3)) := by
  unfold execLh
  try dsimp only
  repeat' first
    | with_reducible assumption | intro _
    | (with_reducible first
        | apply memOk_ite | apply wf_of_memOk | apply outOk_next | apply outOk_ite | apply memOk_foldl
        | apply memOk_loadI)
    | simp only [memOk_mk] | split | dsimp only

theorem memOk_execLbu {a0 a1 a2 a3} (h4 : State.memOk a3) :
    OutOk ((execLbu a0 a1 a2 a3)) := by
  unfold execLbu
  try dsimp only
  repeat' first
    | with_reducible assumption | intro _
    | (with_reducible first
        | apply memOk_ite | apply wf_of_memOk | apply outOk_next | apply outOk_ite | apply memOk_foldl
        | apply memOk_loadI)
    | simp only [memOk_mk] | split | dsimp only

theorem memOk_execLhu {a0 a1 a2 a3} (h4 : State.memOk a3) :
    OutOk ((execLhu a0 a1 a2 a3)) := by
  unfold execLhu
  try dsimp only
  repeat' first
    | with_reducible assumption | intro _
    | (with_reducible first
        | apply memOk_ite | apply wf_of_memOk | apply outOk_next | apply outOk_ite | apply memOk_foldl
        | apply memOk_loadI)
    | simp only [memOk_mk] | split | dsimp only

theorem memOk_execLwu {a0 a1 a2 a3} (h4 : State.memOk a3) :
    OutOk ((execLwu a0 a1 a2 a3)) := by
  unfold execLwu
  try dsimp only
  repeat' first
    | with_reducible assumption | intro _
    | (with_reducible first
        | apply memOk_ite | apply wf_of_memOk | apply outOk_next | apply outOk_ite | apply memOk_foldl
        | apply memOk_loadI)
    | simp only [memOk_mk] | split | dsimp only

theorem memOk_execSh {a0 a1 a2 a3} (h4 : State.memOk a3) :
    OutOk ((execSh a0 a1 a2 a3)) := by
  unfold execSh
  try dsimp only
  repeat' first
    | with_reducible assumption | intro _
    | (with_reducible first
        | apply memOk_ite | apply wf_of_memOk | apply outOk_next | apply outOk_ite | apply memOk_foldl
        | apply memOk_storeI)
    | simp only [memOk_mk] | split | dsimp only

theorem memOk_execSw {a0 a1 a2 a3} (h4 : State.memOk a3) :
    OutOk ((execSw a0 a1 a2 a3)) := by
  unfold execSw
  try dsimp only
  repeat' first
    | with_reducible assumption | intro _
    | (with_reducible first
        | apply memOk_ite | apply wf_of_memOk | apply outOk_next | apply outOk_ite | apply memOk_foldl
        | apply memOk_storeI)
    | simp only [memOk_mk] | split | dsimp only

theorem memOk_execFenceI {a0} (h1 : State.memOk a0) :
    OutOk ((execFenceI a0)) := by
  unfold execFenceI
  try dsimp only
  repeat' first
    | with_reducible assumption | intro _
    | (with_reducible first
        | apply memOk_ite | apply wf_of_memOk | apply outOk_next | apply outOk_ite | apply memOk_foldl
        | apply memOk_State_run | apply memOk_State_releasing | apply memOk_State_releaseOnce
        | apply memOk_State_stall | apply memOk_State_retireCk | apply memOk_State_onMe)
    | simp only [memOk_mk] | split | dsimp only

theorem memOk_State_callTrap {a0 a1} (h1 : State.memOk a0) :
    State.memOk (State.callTrap a0 a1) := by
  unfold State.callTrap
  try dsimp only
  repeat' first
    | with_reducible assumption | intro _
    | (with_reducible first
        | apply memOk_ite | apply wf_of_memOk | apply memOk_foldl | apply memOk_State_trap | apply memOk_State_onMe)
    | simp only [memOk_mk] | split | dsimp only

theorem memOk_execEcall {a0} (h1 : State.memOk a0) :
    OutOk ((execEcall a0)) := by
  unfold execEcall
  try dsimp only
  repeat' first
    | with_reducible assumption | intro _
    | (with_reducible first
        | apply memOk_ite | apply wf_of_memOk | apply outOk_next | apply outOk_ite | apply memOk_foldl
        | apply memOk_State_run | apply memOk_State_callTrap)
    | simp only [memOk_mk] | split | dsimp only

theorem memOk_execEbreak {a0} (h1 : State.memOk a0) :
    OutOk ((execEbreak a0)) := by
  unfold execEbreak
  try dsimp only
  repeat' first
    | with_reducible assumption | intro _
    | (with_reducible first
        | apply memOk_ite | apply wf_of_memOk | apply outOk_next | apply outOk_ite | apply memOk_foldl
        | apply memOk_State_run | apply memOk_State_callTrap)
    | simp only [memOk_mk] | split | dsimp only

theorem memOk_execCsrrw {a0 a1 a2 a3} (h4 : State.memOk a3) :
    OutOk ((execCsrrw a0 a1 a2 a3)) := by
  unfold execCsrrw
  try dsimp only
  repeat' first
    | with_reducible assumption | intro _
    | (with_reducible first
        | apply memOk_ite | apply wf_of_memOk | apply outOk_next | apply outOk_ite | apply memOk_foldl
        | apply memOk_State_run | apply memOk_csrOp)
    | simp only [memOk_mk] | split | dsimp only

theorem memOk_execCsrrwi {a0 a1 a2 a3} (h4 : State.memOk a3) :
    OutOk ((execCsrrwi a0 a1 a2 a3)) := by
  unfold execCsrrwi
  try dsimp only
  repeat' first
    | with_reducible assumption | intro _
    | (with_reducible first
        | apply memOk_ite | apply wf_of_memOk | apply outOk_next | apply outOk_ite | apply memOk_foldl
        | apply memOk_State_run | apply memOk_csrOp)
    | simp only [memOk_mk] | split | dsimp only

theorem memOk_State_trapReturn {a0 a1} (h1 : State.memOk a0) :
    State.memOk (State.trapReturn a0 a1) := by
  unfold State.trapReturn
  try dsimp only
  repeat' first
    | with_reducible assumption | intro _
    | (with_reducible first
        | apply memOk_ite | apply wf_of_memOk | apply memOk_foldl | apply memOk_State_uncover
        | apply memOk_State_checkpoint | apply memOk_State_onCore)
    | simp only [memOk_mk] | split | dsimp only

theorem memOk_State_endTask {a0} (h1 : State.memOk a0) :
    State.memOk (State.endTask a0) := by
  unfold State.endTask
  try dsimp only
  repeat' first
    | with_reducible assumption | intro _
    | (with_reducible first
        | apply memOk_ite | apply wf_of_memOk | apply memOk_foldl | apply memOk_State_retire | apply memOk_State_stall
        | apply memOk_State_trapReturn | apply memOk_State_popFrame)
    | simp only [memOk_mk] | split | dsimp only

theorem memOk_execTend {a0} (h1 : State.memOk a0) :
    OutOk ((execTend a0)) := by
  unfold execTend
  try dsimp only
  repeat' first
    | with_reducible assumption | intro _
    | (with_reducible first
        | apply memOk_ite | apply wf_of_memOk | apply outOk_next | apply outOk_ite | apply memOk_foldl
        | apply memOk_State_run | apply memOk_State_endTask)
    | simp only [memOk_mk] | split | dsimp only

theorem memOk_State_postFar {a0 a1 a2 a3 a4 a5 a6} (h1 : State.memOk a0) :
    State.memOk (State.postFar a0 a1 a2 a3 a4 a5 a6) := by
  unfold State.postFar
  try dsimp only
  repeat' first
    | with_reducible assumption | intro _
    | (with_reducible first
        | apply memOk_ite | apply wf_of_memOk | apply memOk_foldl | apply memOk_State_onMe | apply memOk_State_deliver
        | apply memOk_State_send)
    | simp only [memOk_mk] | split | dsimp only

theorem memOk_State_postRec {a0 a1 a2 a3 a4 a5 a6} (h1 : State.memOk a0) :
    State.memOk (State.postRec a0 a1 a2 a3 a4 a5 a6) := by
  unfold State.postRec
  try dsimp only
  repeat' first
    | with_reducible assumption | intro _
    | (with_reducible first
        | apply memOk_ite | apply wf_of_memOk | apply memOk_foldl | apply memOk_State_trap | apply memOk_State_stall
        | apply memOk_State_stampPost | apply memOk_State_onMe | apply memOk_State_postOwn | apply memOk_State_postFar
        | apply memOk_State_retireCk)
    | with_reducible refine memOk_State_stampPost_eq (by assumption) ?_
    | simp only [memOk_mk] | split | dsimp only

theorem memOk_State_postFrom {a0 a1 a2 a3 a4 a5} (h1 : State.memOk a0) :
    State.memOk (State.postFrom a0 a1 a2 a3 a4 a5) := by
  unfold State.postFrom
  try dsimp only
  repeat' first
    | with_reducible assumption | intro _
    | (with_reducible first
        | apply memOk_ite | apply wf_of_memOk | apply memOk_foldl | apply memOk_State_withData
        | apply memOk_State_recordAt | apply memOk_State_trap | apply memOk_State_postRec)
    | with_reducible refine memOk_State_recordAt_eq (by assumption) ?_
    | simp only [memOk_mk] | split | dsimp only

theorem memOk_execPost {a0 a1 a2 a3} (h4 : State.memOk a3) :
    OutOk ((execPost a0 a1 a2 a3)) := by
  unfold execPost
  try dsimp only
  repeat' first
    | with_reducible assumption | intro _
    | (with_reducible first
        | apply memOk_ite | apply wf_of_memOk | apply outOk_next | apply outOk_ite | apply memOk_foldl
        | apply memOk_State_run | apply memOk_State_postFrom)
    | simp only [memOk_mk] | split | dsimp only

theorem memOk_execPoste {a0 a1 a2 a3 a4 a5} (h6 : State.memOk a5) :
    OutOk ((execPoste a0 a1 a2 a3 a4 a5)) := by
  unfold execPoste
  try dsimp only
  repeat' first
    | with_reducible assumption | intro _
    | (with_reducible first
        | apply memOk_ite | apply wf_of_memOk | apply outOk_next | apply outOk_ite | apply memOk_foldl
        | apply memOk_State_run | apply memOk_State_postFrom)
    | simp only [memOk_mk] | split | dsimp only

theorem memOk_execSucc {a0 a1 a2} (h3 : State.memOk a2) :
    OutOk ((execSucc a0 a1 a2)) := by
  unfold execSucc
  try dsimp only
  repeat' first
    | with_reducible assumption | intro _
    | (with_reducible first
        | apply memOk_ite | apply wf_of_memOk | apply outOk_next | apply outOk_ite | apply memOk_foldl
        | apply memOk_State_run | apply memOk_State_retire | apply memOk_State_onFrame | apply memOk_State_trap)
    | simp only [memOk_mk] | split | dsimp only

theorem memOk_State_arm {a0 a1 a2} (h1 : State.memOk a0) :
    State.memOk (State.arm a0 a1 a2) := by
  unfold State.arm
  try dsimp only
  repeat' first
    | with_reducible assumption | intro _
    | (with_reducible first | apply memOk_ite | apply wf_of_memOk | apply memOk_foldl | apply memOk_State_onMe)
    | simp only [memOk_mk] | split | dsimp only

theorem memOk_execDlset {a0 a1 a2 a3 a4} (h5 : State.memOk a4) :
    OutOk ((execDlset a0 a1 a2 a3 a4)) := by
  unfold execDlset
  try dsimp only
  repeat' first
    | with_reducible assumption | intro _
    | (with_reducible first
        | apply memOk_ite | apply wf_of_memOk | apply outOk_next | apply outOk_ite | apply memOk_foldl
        | apply memOk_State_run | apply memOk_State_retire | apply memOk_State_onMe | apply memOk_State_arm
        | apply memOk_State_withData | apply memOk_State_recordAt | apply memOk_State_trap | apply memOk_State_stall)
    | with_reducible refine memOk_State_recordAt_eq (by assumption) ?_
    | simp only [memOk_mk] | split | dsimp only

theorem memOk_execDlclr {a0} (h1 : State.memOk a0) :
    OutOk ((execDlclr a0)) := by
  unfold execDlclr
  try dsimp only
  repeat' first
    | with_reducible assumption | intro _
    | (with_reducible first
        | apply memOk_ite | apply wf_of_memOk | apply outOk_next | apply outOk_ite | apply memOk_foldl
        | apply memOk_State_run | apply memOk_State_retire | apply memOk_State_onMe)
    | simp only [memOk_mk] | split | dsimp only

theorem memOk_execSpawn {a0 a1 a2 a3 a4 a5} (h6 : State.memOk a5) :
    OutOk ((execSpawn a0 a1 a2 a3 a4 a5)) := by
  unfold execSpawn
  try dsimp only
  repeat' first
    | with_reducible assumption | intro _
    | (with_reducible first
        | apply memOk_ite | apply wf_of_memOk | apply outOk_next | apply outOk_ite | apply memOk_foldl
        | apply memOk_State_run | apply memOk_State_trap | apply memOk_State_postRec)
    | simp only [memOk_mk] | split | dsimp only

theorem memOk_State_setHold {a0 a1} (h1 : State.memOk a0) :
    State.memOk (State.setHold a0 a1) := by
  unfold State.setHold
  try dsimp only
  repeat' first
    | with_reducible assumption | intro _
    | (with_reducible first | apply memOk_ite | apply wf_of_memOk | apply memOk_foldl | apply memOk_State_onMe)
    | simp only [memOk_mk] | split | dsimp only

theorem memOk_execHold {a0 a1 a2} (h3 : State.memOk a2) :
    OutOk ((execHold a0 a1 a2)) := by
  unfold execHold
  try dsimp only
  repeat' first
    | with_reducible assumption | intro _
    | (with_reducible first
        | apply memOk_ite | apply wf_of_memOk | apply outOk_next | apply outOk_ite | apply memOk_foldl
        | apply memOk_State_run | apply memOk_State_illegal | apply memOk_State_retire | apply memOk_State_setHold)
    | simp only [memOk_mk] | split | dsimp only

theorem memOk_State_clearHold {a0 a1} (h1 : State.memOk a0) :
    State.memOk (State.clearHold a0 a1) := by
  unfold State.clearHold
  try dsimp only
  repeat' first
    | with_reducible assumption | intro _
    | (with_reducible first | apply memOk_ite | apply wf_of_memOk | apply memOk_foldl | apply memOk_State_onMe)
    | simp only [memOk_mk] | split | dsimp only

theorem memOk_execUnhold {a0 a1 a2} (h3 : State.memOk a2) :
    OutOk ((execUnhold a0 a1 a2)) := by
  unfold execUnhold
  try dsimp only
  repeat' first
    | with_reducible assumption | intro _
    | (with_reducible first
        | apply memOk_ite | apply wf_of_memOk | apply outOk_next | apply outOk_ite | apply memOk_foldl
        | apply memOk_State_run | apply memOk_State_illegal | apply memOk_State_retire | apply memOk_State_clearHold)
    | simp only [memOk_mk] | split | dsimp only

theorem memOk_execHoldm {a0 a1 a2} (h3 : State.memOk a2) :
    OutOk ((execHoldm a0 a1 a2)) := by
  unfold execHoldm
  try dsimp only
  repeat' first
    | with_reducible assumption | intro _
    | (with_reducible first
        | apply memOk_ite | apply wf_of_memOk | apply outOk_next | apply outOk_ite | apply memOk_foldl
        | apply memOk_State_run | apply memOk_State_retire | apply memOk_State_setHold)
    | simp only [memOk_mk] | split | dsimp only

theorem memOk_execUnholdm {a0 a1 a2} (h3 : State.memOk a2) :
    OutOk ((execUnholdm a0 a1 a2)) := by
  unfold execUnholdm
  try dsimp only
  repeat' first
    | with_reducible assumption | intro _
    | (with_reducible first
        | apply memOk_ite | apply wf_of_memOk | apply outOk_next | apply outOk_ite | apply memOk_foldl
        | apply memOk_State_run | apply memOk_State_retire | apply memOk_State_clearHold)
    | simp only [memOk_mk] | split | dsimp only

theorem memOk_State_tbarTry {a0 a1 a2 a3} (h1 : State.memOk a0) :
    State.memOk (State.tbarTry a0 a1 a2 a3) := by
  unfold State.tbarTry
  try dsimp only
  repeat' first
    | with_reducible assumption | intro _
    | (with_reducible first
        | apply memOk_ite | apply wf_of_memOk | apply memOk_foldl | apply memOk_State_fillOne
        | apply memOk_State_onCluster | apply memOk_State_tbarMember)
    | simp only [memOk_mk] | split | dsimp only

theorem memOk_execTbar {a0} (h1 : State.memOk a0) :
    OutOk ((execTbar a0)) := by
  unfold execTbar
  try dsimp only
  repeat' first
    | with_reducible assumption | intro _
    | (with_reducible first
        | apply memOk_ite | apply wf_of_memOk | apply outOk_next | apply outOk_ite | apply memOk_foldl
        | apply memOk_State_run | apply memOk_State_trap | apply memOk_State_withSucc | apply memOk_State_onCluster
        | apply memOk_State_release | apply memOk_State_tbarTry | apply memOk_State_retireCk)
    | simp only [memOk_mk] | split | dsimp only

theorem memOk_gbarPeers {a0 a1 a2 a3 a4 a5 a6} (h1 : State.memOk a0)
    (h7 : ∀ b0 b1, State.memOk b1 → State.memOk (a6 b0 b1)) :
    State.memOk (gbarPeers a0 a1 a2 a3 a4 a5 a6) := by
  induction a4 generalizing a0 a1 a2 a3 a5 a6 with
  | nil => exact h7 _ _ h1
  | cons r rs ih =>
    unfold gbarPeers
    try dsimp only
    repeat' first
      | with_reducible assumption
      | (with_reducible first | apply ih | apply memOk_ite | apply wf_of_memOk | apply memOk_State_trap | apply memOk_State_withData | apply memOk_State_fetchData | apply h7)
      | intro _
      | exact h7 _ _ (by assumption)
      | simp only [memOk_mk]
      | split
      | dsimp only

theorem memOk_execGbar {a0 a1 a2} (h3 : State.memOk a2) :
    OutOk ((execGbar a0 a1 a2)) := by
  unfold execGbar
  try dsimp only
  repeat' first
    | with_reducible assumption | intro _
    | (with_reducible first
        | apply memOk_ite | apply wf_of_memOk | apply outOk_next | apply outOk_ite | apply memOk_foldl
        | apply memOk_State_run | apply memOk_State_withData | apply memOk_State_recordAt | apply memOk_State_trap
        | apply memOk_gbarPeers | apply memOk_State_stall | apply memOk_State_withSucc | apply memOk_State_gbarArrive)
    | with_reducible refine memOk_State_recordAt_eq (by assumption) ?_
    | simp only [memOk_mk] | split | dsimp only

theorem memOk_execCarve {a0 a1 a2} (h3 : State.memOk a2) :
    OutOk ((execCarve a0 a1 a2)) := by
  unfold execCarve
  try dsimp only
  repeat' first
    | with_reducible assumption | intro _
    | (with_reducible first
        | apply memOk_ite | apply wf_of_memOk | apply outOk_next | apply outOk_ite | apply memOk_foldl
        | apply memOk_State_run | apply memOk_State_illegal | apply memOk_State_retire | apply memOk_State_onMe)
    | simp only [memOk_mk] | split | dsimp only

theorem memOk_execAlign {a0} (h1 : State.memOk a0) :
    OutOk ((execAlign a0)) := by
  unfold execAlign
  try dsimp only
  repeat' first
    | with_reducible assumption | intro _
    | (with_reducible first
        | apply memOk_ite | apply wf_of_memOk | apply outOk_next | apply outOk_ite | apply memOk_foldl
        | apply memOk_State_run | apply memOk_State_retire | apply memOk_State_onMe | apply memOk_State_stall)
    | simp only [memOk_mk] | split | dsimp only

theorem memOk_execTbarq {a0 a1} (h2 : State.memOk a1) :
    OutOk ((execTbarq a0 a1)) := by
  unfold execTbarq
  try dsimp only
  repeat' first
    | with_reducible assumption | intro _
    | (with_reducible first
        | apply memOk_ite | apply wf_of_memOk | apply outOk_next | apply outOk_ite | apply memOk_foldl
        | apply memOk_State_run | apply memOk_State_retire | apply memOk_State_setX)
    | simp only [memOk_mk] | split | dsimp only

theorem memOk_execSend {a0 a1 a2 a3 a4 a5} (h6 : State.memOk a5) :
    OutOk ((execSend a0 a1 a2 a3 a4 a5)) := by
  unfold execSend
  try dsimp only
  repeat' first
    | with_reducible assumption | intro _
    | (with_reducible first
        | apply memOk_ite | apply wf_of_memOk | apply outOk_next | apply outOk_ite | apply memOk_foldl
        | apply memOk_State_run | apply memOk_State_postFrom)
    | simp only [memOk_mk] | split | dsimp only

theorem memOk_State_ldr {a0 a1 a2 a3} (h1 : State.memOk a0) :
    State.memOk (State.ldr a0 a1 a2 a3) := by
  unfold State.ldr
  try dsimp only
  repeat' first
    | with_reducible assumption | intro _
    | (with_reducible first
        | apply memOk_ite | apply wf_of_memOk | apply memOk_foldl | apply memOk_State_trap | apply memOk_State_stall
        | apply memOk_State_translate | apply memOk_State_withSucc | apply memOk_State_onMe
        | apply memOk_State_deliver | apply memOk_State_send | apply memOk_State_retireCk | apply memOk_State_watch
        | apply memOk_State_consume | apply memOk_State_lockTrap)
    | with_reducible refine memOk_State_translate_eq (by assumption) ?_
    | simp only [memOk_mk] | split | dsimp only

theorem memOk_execLdr {a0 a1 a2 a3} (h4 : State.memOk a3) :
    OutOk ((execLdr a0 a1 a2 a3)) := by
  unfold execLdr
  try dsimp only
  repeat' first
    | with_reducible assumption | intro _
    | (with_reducible first
        | apply memOk_ite | apply wf_of_memOk | apply outOk_next | apply outOk_ite | apply memOk_foldl
        | apply memOk_State_run | apply memOk_State_ldr)
    | simp only [memOk_mk] | split | dsimp only

theorem memOk_execLdrw {a0 a1 a2 a3} (h4 : State.memOk a3) :
    OutOk ((execLdrw a0 a1 a2 a3)) := by
  unfold execLdrw
  try dsimp only
  repeat' first
    | with_reducible assumption | intro _
    | (with_reducible first
        | apply memOk_ite | apply wf_of_memOk | apply outOk_next | apply outOk_ite | apply memOk_foldl
        | apply memOk_State_run | apply memOk_State_ldr)
    | simp only [memOk_mk] | split | dsimp only

theorem memOk_execTjmp {a0 a1 a2 a3 a4} (h5 : State.memOk a4) :
    OutOk ((execTjmp a0 a1 a2 a3 a4)) := by
  unfold execTjmp
  try dsimp only
  repeat' first
    | with_reducible assumption | intro _
    | (with_reducible first
        | apply memOk_ite | apply wf_of_memOk | apply outOk_next | apply outOk_ite | apply memOk_foldl
        | apply memOk_State_run | apply memOk_State_trap | apply memOk_State_withData | apply memOk_State_fetchData
        | apply memOk_State_retire | apply memOk_State_retireTo)
    | with_reducible refine memOk_State_fetchData_eq (by assumption) ?_
    | simp only [memOk_mk] | split | dsimp only

theorem memOk_State_onKset {a0 a1} (h1 : State.memOk a0) :
    State.memOk (State.onKset a0 a1) := by
  unfold State.onKset
  try dsimp only
  repeat' first
    | with_reducible assumption | intro _
    | (with_reducible first | apply memOk_ite | apply wf_of_memOk | apply memOk_foldl | apply memOk_State_onMe)
    | simp only [memOk_mk] | split | dsimp only

theorem memOk_execQpush {a0 a1 a2 a3} (h4 : State.memOk a3) :
    OutOk ((execQpush a0 a1 a2 a3)) := by
  unfold execQpush
  try dsimp only
  repeat' first
    | with_reducible assumption | intro _
    | (with_reducible first
        | apply memOk_ite | apply wf_of_memOk | apply outOk_next | apply outOk_ite | apply memOk_foldl
        | apply memOk_State_run | apply memOk_State_illegal | apply memOk_State_stall | apply memOk_State_retire
        | apply memOk_State_onKset)
    | simp only [memOk_mk] | split | dsimp only

theorem memOk_execQpop {a0 a1 a2} (h3 : State.memOk a2) :
    OutOk ((execQpop a0 a1 a2)) := by
  unfold execQpop
  try dsimp only
  repeat' first
    | with_reducible assumption | intro _
    | (with_reducible first
        | apply memOk_ite | apply wf_of_memOk | apply outOk_next | apply outOk_ite | apply memOk_foldl
        | apply memOk_State_run | apply memOk_State_illegal | apply memOk_State_machineCheck
        | apply memOk_State_retire | apply memOk_State_setX | apply memOk_State_onKset | apply memOk_State_onMe)
    | simp only [memOk_mk] | split | dsimp only

theorem memOk_State_openOne {a0} (h1 : State.memOk a0) :
    OptOk (fun r => State.memOk (r).2) ((State.openOne a0)) := by
  unfold State.openOne
  try dsimp only
  repeat' first
    | with_reducible assumption | intro _
    | (with_reducible first
        | apply memOk_ite | apply wf_of_memOk | apply optOk_none | apply optOk_some | apply optOk_ite
        | apply optOk_map_mem | apply optOk_map_snd | apply optOk_map_any | apply optOk_findSome | apply optOk_bind
        | apply optOk_orElse | apply memOk_getD | apply memOk_foldl | apply memOk_State_onCluster
        | apply memOk_State_fillOne)
    | with_reducible refine memOk_of_next (by assumption) ?_
    | with_reducible refine memOk_of_some_snd (by assumption) ?_
    | with_reducible refine memOk_of_some (by assumption) ?_
    | with_reducible refine memOk_of_some_fst (by assumption) ?_
    | simp only [memOk_mk] | split | dsimp only

theorem memOk_State_openOne_eq {a0} {c1 t} (e : State.openOne a0 = some (c1, t)) (h1 : State.memOk a0)
    : State.memOk t :=
  (@memOk_State_openOne a0 h1).of _ e
theorem memOk_State_openOne_eq2 {a0} {r} (e : State.openOne a0 = some r) (h1 : State.memOk a0) : State.memOk (r).2 :=
  (@memOk_State_openOne a0 h1).of _ e

theorem memOk_outState {a0 a1} (h1 : State.memOk a0) (h2 : OutOk a1) :
    State.memOk (outState a0 a1) := by
  cases a1 with
  | next t => exact h2.of t rfl
  | fault f => exact h1
  | refused r => exact h1

theorem memOk_State_finishOne {a0 a1 a2 a3} (h1 : State.memOk a0) :
    State.memOk (State.finishOne a0 a1 a2 a3) := by
  unfold State.finishOne
  try dsimp only
  repeat' first
    | with_reducible assumption | intro _
    | (with_reducible first
        | apply memOk_ite | apply wf_of_memOk | apply memOk_foldl | apply memOk_State_passOne
        | apply memOk_State_onOne | apply memOk_State_onMe | apply memOk_State_ckCycle | apply memOk_State_count
        | apply memOk_State_spend)
    | simp only [memOk_mk] | split | dsimp only

theorem memOk_State_oneElected {a0 a1 a2 a3} (h1 : State.memOk a0) :
    State.memOk (State.oneElected a0 a1 a2 a3) := by
  unfold State.oneElected
  try dsimp only
  repeat' first
    | with_reducible assumption | intro _
    | (with_reducible first
        | apply memOk_ite | apply wf_of_memOk | apply memOk_foldl | apply memOk_State_onMe | apply memOk_outState
        | apply memOk_State_run | apply memOk_State_oneLoad | apply memOk_governedExec | apply memOk_State_finishOne
        | apply memOk_State_onCluster)
    | simp only [memOk_mk] | split | dsimp only

theorem memOk_State_oneAt {a0 a1 a2} (h1 : State.memOk a0) :
    State.memOk (State.oneAt a0 a1 a2) := by
  unfold State.oneAt
  try dsimp only
  repeat' first
    | with_reducible assumption | intro _
    | (with_reducible first
        | apply memOk_ite | apply wf_of_memOk | apply optOk_none | apply optOk_some | apply optOk_ite
        | apply optOk_map_mem | apply optOk_map_snd | apply optOk_map_any | apply optOk_findSome | apply optOk_bind
        | apply optOk_orElse | apply memOk_getD | apply memOk_foldl | apply memOk_State_openOne
        | apply memOk_State_stall | apply memOk_State_oneElected | apply memOk_State_oneFollow
        | apply memOk_State_onOne)
    | with_reducible refine memOk_State_openOne_eq (by assumption) ?_
    | with_reducible refine memOk_State_openOne_eq2 (by assumption) ?_
    | with_reducible refine memOk_of_next (by assumption) ?_
    | with_reducible refine memOk_of_some_snd (by assumption) ?_
    | with_reducible refine memOk_of_some (by assumption) ?_
    | with_reducible refine memOk_of_some_fst (by assumption) ?_
    | simp only [memOk_mk] | split | dsimp only

theorem memOk_execOne {a0} (h1 : State.memOk a0) :
    OutOk ((execOne a0)) := by
  unfold execOne
  try dsimp only
  repeat' first
    | with_reducible assumption | intro _
    | (with_reducible first
        | apply memOk_ite | apply wf_of_memOk | apply outOk_next | apply outOk_ite | apply memOk_foldl
        | apply memOk_State_run | apply memOk_State_trap | apply memOk_State_fetch | apply memOk_State_consume
        | apply memOk_State_stall | apply memOk_State_oneAt)
    | with_reducible refine memOk_State_fetch_eq (by assumption) ?_
    | simp only [memOk_mk] | split | dsimp only

theorem memOk_execTret {a0} (h1 : State.memOk a0) :
    OutOk ((execTret a0)) := by
  unfold execTret
  try dsimp only
  repeat' first
    | with_reducible assumption | intro _
    | (with_reducible first
        | apply memOk_ite | apply wf_of_memOk | apply outOk_next | apply outOk_ite | apply memOk_foldl
        | apply memOk_State_run | apply memOk_State_illegal | apply memOk_State_stall | apply memOk_State_trapReturn
        | apply memOk_State_retire)
    | simp only [memOk_mk] | split | dsimp only

theorem memOk_execTfwr {a0 a1 a2 a3 a4} (h5 : State.memOk a4) :
    OutOk ((execTfwr a0 a1 a2 a3 a4)) := by
  unfold execTfwr
  try dsimp only
  repeat' first
    | with_reducible assumption | intro _
    | (with_reducible first
        | apply memOk_ite | apply wf_of_memOk | apply outOk_next | apply outOk_ite | apply memOk_foldl
        | apply memOk_State_run | apply memOk_State_illegal | apply memOk_State_stall | apply memOk_State_retire
        | apply memOk_State_onMe)
    | simp only [memOk_mk] | split | dsimp only

theorem memOk_State_dropXlat {a0 a1 a2 a3} (h1 : State.memOk a0) :
    State.memOk (State.dropXlat a0 a1 a2 a3) := by
  unfold State.dropXlat
  try dsimp only
  repeat' first
    | with_reducible assumption | intro _
    | (with_reducible first | apply memOk_ite | apply wf_of_memOk | apply memOk_foldl)
    | simp only [memOk_mk] | split | dsimp only

theorem memOk_execXinv {a0 a1 a2 a3 a4} (h5 : State.memOk a4) :
    OutOk ((execXinv a0 a1 a2 a3 a4)) := by
  unfold execXinv
  try dsimp only
  repeat' first
    | with_reducible assumption | intro _
    | (with_reducible first
        | apply memOk_ite | apply wf_of_memOk | apply outOk_next | apply outOk_ite | apply memOk_foldl
        | apply memOk_State_run | apply memOk_State_illegal | apply memOk_State_stall | apply memOk_State_retire
        | apply memOk_State_dropXlat)
    | simp only [memOk_mk] | split | dsimp only

theorem memOk_execRel {a0} (h1 : State.memOk a0) :
    OutOk ((execRel a0)) := by
  unfold execRel
  try dsimp only
  repeat' first
    | with_reducible assumption | intro _
    | (with_reducible first
        | apply memOk_ite | apply wf_of_memOk | apply outOk_next | apply outOk_ite | apply memOk_foldl
        | apply memOk_State_run | apply memOk_State_releasing | apply memOk_State_retireCk
        | apply memOk_State_release)
    | simp only [memOk_mk] | split | dsimp only

theorem memOk_execAcq {a0 a1 a2} (h3 : State.memOk a2) :
    OutOk ((execAcq a0 a1 a2)) := by
  unfold execAcq
  try dsimp only
  repeat' first
    | with_reducible assumption | intro _
    | (with_reducible first
        | apply memOk_ite | apply wf_of_memOk | apply outOk_next | apply outOk_ite | apply memOk_foldl
        | apply memOk_State_run | apply memOk_State_acquire | apply memOk_State_trap)
    | simp only [memOk_mk] | split | dsimp only

theorem memOk_execAcqg {a0 a1 a2} (h3 : State.memOk a2) :
    OutOk ((execAcqg a0 a1 a2)) := by
  unfold execAcqg
  try dsimp only
  repeat' first
    | with_reducible assumption | intro _
    | (with_reducible first
        | apply memOk_ite | apply wf_of_memOk | apply outOk_next | apply outOk_ite | apply memOk_foldl
        | apply memOk_State_run | apply memOk_State_illegal | apply memOk_State_acquire)
    | simp only [memOk_mk] | split | dsimp only

theorem memOk_execAcqv {a0} (h1 : State.memOk a0) :
    OutOk ((execAcqv a0)) := by
  unfold execAcqv
  try dsimp only
  repeat' first
    | with_reducible assumption | intro _
    | (with_reducible first
        | apply memOk_ite | apply wf_of_memOk | apply outOk_next | apply outOk_ite | apply memOk_foldl
        | apply memOk_State_run | apply memOk_State_acquire)
    | simp only [memOk_mk] | split | dsimp only

theorem memOk_execDrainS {a0} (h1 : State.memOk a0) :
    OutOk ((execDrainS a0)) := by
  unfold execDrainS
  try dsimp only
  repeat' first
    | with_reducible assumption | intro _
    | (with_reducible first
        | apply memOk_ite | apply wf_of_memOk | apply outOk_next | apply outOk_ite | apply memOk_foldl
        | apply memOk_drain)
    | simp only [memOk_mk] | split | dsimp only

theorem memOk_execDrainG {a0} (h1 : State.memOk a0) :
    OutOk ((execDrainG a0)) := by
  unfold execDrainG
  try dsimp only
  repeat' first
    | with_reducible assumption | intro _
    | (with_reducible first
        | apply memOk_ite | apply wf_of_memOk | apply outOk_next | apply outOk_ite | apply memOk_foldl
        | apply memOk_drain)
    | simp only [memOk_mk] | split | dsimp only

theorem memOk_execDrainR {a0} (h1 : State.memOk a0) :
    OutOk ((execDrainR a0)) := by
  unfold execDrainR
  try dsimp only
  repeat' first
    | with_reducible assumption | intro _
    | (with_reducible first
        | apply memOk_ite | apply wf_of_memOk | apply outOk_next | apply outOk_ite | apply memOk_foldl
        | apply memOk_drain)
    | simp only [memOk_mk] | split | dsimp only

theorem memOk_execAtomAnd {a0 a1 a2 a3 a4 a5} (h6 : State.memOk a5) :
    OutOk ((execAtomAnd a0 a1 a2 a3 a4 a5)) := by
  unfold execAtomAnd
  try dsimp only
  repeat' first
    | with_reducible assumption | intro _
    | (with_reducible first
        | apply memOk_ite | apply wf_of_memOk | apply outOk_next | apply outOk_ite | apply memOk_foldl
        | apply memOk_atomI)
    | simp only [memOk_mk] | split | dsimp only

theorem memOk_execAtomOr {a0 a1 a2 a3 a4 a5} (h6 : State.memOk a5) :
    OutOk ((execAtomOr a0 a1 a2 a3 a4 a5)) := by
  unfold execAtomOr
  try dsimp only
  repeat' first
    | with_reducible assumption | intro _
    | (with_reducible first
        | apply memOk_ite | apply wf_of_memOk | apply outOk_next | apply outOk_ite | apply memOk_foldl
        | apply memOk_atomI)
    | simp only [memOk_mk] | split | dsimp only

theorem memOk_execAtomXor {a0 a1 a2 a3 a4 a5} (h6 : State.memOk a5) :
    OutOk ((execAtomXor a0 a1 a2 a3 a4 a5)) := by
  unfold execAtomXor
  try dsimp only
  repeat' first
    | with_reducible assumption | intro _
    | (with_reducible first
        | apply memOk_ite | apply wf_of_memOk | apply outOk_next | apply outOk_ite | apply memOk_foldl
        | apply memOk_atomI)
    | simp only [memOk_mk] | split | dsimp only

theorem memOk_execAtomMin {a0 a1 a2 a3 a4 a5} (h6 : State.memOk a5) :
    OutOk ((execAtomMin a0 a1 a2 a3 a4 a5)) := by
  unfold execAtomMin
  try dsimp only
  repeat' first
    | with_reducible assumption | intro _
    | (with_reducible first
        | apply memOk_ite | apply wf_of_memOk | apply outOk_next | apply outOk_ite | apply memOk_foldl
        | apply memOk_atomI)
    | simp only [memOk_mk] | split | dsimp only

theorem memOk_execAtomMax {a0 a1 a2 a3 a4 a5} (h6 : State.memOk a5) :
    OutOk ((execAtomMax a0 a1 a2 a3 a4 a5)) := by
  unfold execAtomMax
  try dsimp only
  repeat' first
    | with_reducible assumption | intro _
    | (with_reducible first
        | apply memOk_ite | apply wf_of_memOk | apply outOk_next | apply outOk_ite | apply memOk_foldl
        | apply memOk_atomI)
    | simp only [memOk_mk] | split | dsimp only

theorem memOk_execAtomSwap {a0 a1 a2 a3 a4 a5} (h6 : State.memOk a5) :
    OutOk ((execAtomSwap a0 a1 a2 a3 a4 a5)) := by
  unfold execAtomSwap
  try dsimp only
  repeat' first
    | with_reducible assumption | intro _
    | (with_reducible first
        | apply memOk_ite | apply wf_of_memOk | apply outOk_next | apply outOk_ite | apply memOk_foldl
        | apply memOk_atomI)
    | simp only [memOk_mk] | split | dsimp only

theorem memOk_execAtomAddW {a0 a1 a2 a3 a4 a5} (h6 : State.memOk a5) :
    OutOk ((execAtomAddW a0 a1 a2 a3 a4 a5)) := by
  unfold execAtomAddW
  try dsimp only
  repeat' first
    | with_reducible assumption | intro _
    | (with_reducible first
        | apply memOk_ite | apply wf_of_memOk | apply outOk_next | apply outOk_ite | apply memOk_foldl
        | apply memOk_atomI)
    | simp only [memOk_mk] | split | dsimp only

theorem memOk_execAtomAndW {a0 a1 a2 a3 a4 a5} (h6 : State.memOk a5) :
    OutOk ((execAtomAndW a0 a1 a2 a3 a4 a5)) := by
  unfold execAtomAndW
  try dsimp only
  repeat' first
    | with_reducible assumption | intro _
    | (with_reducible first
        | apply memOk_ite | apply wf_of_memOk | apply outOk_next | apply outOk_ite | apply memOk_foldl
        | apply memOk_atomI)
    | simp only [memOk_mk] | split | dsimp only

theorem memOk_execAtomOrW {a0 a1 a2 a3 a4 a5} (h6 : State.memOk a5) :
    OutOk ((execAtomOrW a0 a1 a2 a3 a4 a5)) := by
  unfold execAtomOrW
  try dsimp only
  repeat' first
    | with_reducible assumption | intro _
    | (with_reducible first
        | apply memOk_ite | apply wf_of_memOk | apply outOk_next | apply outOk_ite | apply memOk_foldl
        | apply memOk_atomI)
    | simp only [memOk_mk] | split | dsimp only

theorem memOk_execAtomXorW {a0 a1 a2 a3 a4 a5} (h6 : State.memOk a5) :
    OutOk ((execAtomXorW a0 a1 a2 a3 a4 a5)) := by
  unfold execAtomXorW
  try dsimp only
  repeat' first
    | with_reducible assumption | intro _
    | (with_reducible first
        | apply memOk_ite | apply wf_of_memOk | apply outOk_next | apply outOk_ite | apply memOk_foldl
        | apply memOk_atomI)
    | simp only [memOk_mk] | split | dsimp only

theorem memOk_execAtomMaxW {a0 a1 a2 a3 a4 a5} (h6 : State.memOk a5) :
    OutOk ((execAtomMaxW a0 a1 a2 a3 a4 a5)) := by
  unfold execAtomMaxW
  try dsimp only
  repeat' first
    | with_reducible assumption | intro _
    | (with_reducible first
        | apply memOk_ite | apply wf_of_memOk | apply outOk_next | apply outOk_ite | apply memOk_foldl
        | apply memOk_atomI)
    | simp only [memOk_mk] | split | dsimp only

theorem memOk_execAtomMinuW {a0 a1 a2 a3 a4 a5} (h6 : State.memOk a5) :
    OutOk ((execAtomMinuW a0 a1 a2 a3 a4 a5)) := by
  unfold execAtomMinuW
  try dsimp only
  repeat' first
    | with_reducible assumption | intro _
    | (with_reducible first
        | apply memOk_ite | apply wf_of_memOk | apply outOk_next | apply outOk_ite | apply memOk_foldl
        | apply memOk_atomI)
    | simp only [memOk_mk] | split | dsimp only

theorem memOk_execAtomMaxuW {a0 a1 a2 a3 a4 a5} (h6 : State.memOk a5) :
    OutOk ((execAtomMaxuW a0 a1 a2 a3 a4 a5)) := by
  unfold execAtomMaxuW
  try dsimp only
  repeat' first
    | with_reducible assumption | intro _
    | (with_reducible first
        | apply memOk_ite | apply wf_of_memOk | apply outOk_next | apply outOk_ite | apply memOk_foldl
        | apply memOk_atomI)
    | simp only [memOk_mk] | split | dsimp only

theorem memOk_execAtomSwapW {a0 a1 a2 a3 a4 a5} (h6 : State.memOk a5) :
    OutOk ((execAtomSwapW a0 a1 a2 a3 a4 a5)) := by
  unfold execAtomSwapW
  try dsimp only
  repeat' first
    | with_reducible assumption | intro _
    | (with_reducible first
        | apply memOk_ite | apply wf_of_memOk | apply outOk_next | apply outOk_ite | apply memOk_foldl
        | apply memOk_atomI)
    | simp only [memOk_mk] | split | dsimp only

theorem memOk_execAtomCas {a0 a1 a2 a3 a4} (h5 : State.memOk a4) :
    OutOk ((execAtomCas a0 a1 a2 a3 a4)) := by
  unfold execAtomCas
  try dsimp only
  repeat' first
    | with_reducible assumption | intro _
    | (with_reducible first
        | apply memOk_ite | apply wf_of_memOk | apply outOk_next | apply outOk_ite | apply memOk_foldl
        | apply memOk_State_run | apply memOk_State_atom)
    | simp only [memOk_mk] | split | dsimp only

theorem memOk_execAtomCasW {a0 a1 a2 a3 a4} (h5 : State.memOk a4) :
    OutOk ((execAtomCasW a0 a1 a2 a3 a4)) := by
  unfold execAtomCasW
  try dsimp only
  repeat' first
    | with_reducible assumption | intro _
    | (with_reducible first
        | apply memOk_ite | apply wf_of_memOk | apply outOk_next | apply outOk_ite | apply memOk_foldl
        | apply memOk_State_run | apply memOk_State_atom)
    | simp only [memOk_mk] | split | dsimp only

theorem memOk_execRedAdd {a0 a1 a2 a3 a4} (h5 : State.memOk a4) :
    OutOk ((execRedAdd a0 a1 a2 a3 a4)) := by
  unfold execRedAdd
  try dsimp only
  repeat' first
    | with_reducible assumption | intro _
    | (with_reducible first
        | apply memOk_ite | apply wf_of_memOk | apply outOk_next | apply outOk_ite | apply memOk_foldl
        | apply memOk_redI)
    | simp only [memOk_mk] | split | dsimp only

theorem memOk_execRedAddf {a0 a1 a2 a3 a4} (h5 : State.memOk a4) :
    OutOk ((execRedAddf a0 a1 a2 a3 a4)) := by
  unfold execRedAddf
  try dsimp only
  repeat' first
    | with_reducible assumption | intro _
    | (with_reducible first
        | apply memOk_ite | apply wf_of_memOk | apply outOk_next | apply outOk_ite | apply memOk_foldl
        | apply memOk_redI)
    | simp only [memOk_mk] | split | dsimp only

theorem memOk_execRedMax {a0 a1 a2 a3 a4} (h5 : State.memOk a4) :
    OutOk ((execRedMax a0 a1 a2 a3 a4)) := by
  unfold execRedMax
  try dsimp only
  repeat' first
    | with_reducible assumption | intro _
    | (with_reducible first
        | apply memOk_ite | apply wf_of_memOk | apply outOk_next | apply outOk_ite | apply memOk_foldl
        | apply memOk_redI)
    | simp only [memOk_mk] | split | dsimp only

theorem memOk_execRedAddW {a0 a1 a2 a3 a4} (h5 : State.memOk a4) :
    OutOk ((execRedAddW a0 a1 a2 a3 a4)) := by
  unfold execRedAddW
  try dsimp only
  repeat' first
    | with_reducible assumption | intro _
    | (with_reducible first
        | apply memOk_ite | apply wf_of_memOk | apply outOk_next | apply outOk_ite | apply memOk_foldl
        | apply memOk_redI)
    | simp only [memOk_mk] | split | dsimp only

theorem memOk_execRedAddfW {a0 a1 a2 a3 a4} (h5 : State.memOk a4) :
    OutOk ((execRedAddfW a0 a1 a2 a3 a4)) := by
  unfold execRedAddfW
  try dsimp only
  repeat' first
    | with_reducible assumption | intro _
    | (with_reducible first
        | apply memOk_ite | apply wf_of_memOk | apply outOk_next | apply outOk_ite | apply memOk_foldl
        | apply memOk_redI)
    | simp only [memOk_mk] | split | dsimp only

theorem memOk_execRedMinW {a0 a1 a2 a3 a4} (h5 : State.memOk a4) :
    OutOk ((execRedMinW a0 a1 a2 a3 a4)) := by
  unfold execRedMinW
  try dsimp only
  repeat' first
    | with_reducible assumption | intro _
    | (with_reducible first
        | apply memOk_ite | apply wf_of_memOk | apply outOk_next | apply outOk_ite | apply memOk_foldl
        | apply memOk_redI)
    | simp only [memOk_mk] | split | dsimp only

theorem memOk_execRedMaxW {a0 a1 a2 a3 a4} (h5 : State.memOk a4) :
    OutOk ((execRedMaxW a0 a1 a2 a3 a4)) := by
  unfold execRedMaxW
  try dsimp only
  repeat' first
    | with_reducible assumption | intro _
    | (with_reducible first
        | apply memOk_ite | apply wf_of_memOk | apply outOk_next | apply outOk_ite | apply memOk_foldl
        | apply memOk_redI)
    | simp only [memOk_mk] | split | dsimp only

theorem memOk_State_copyEnds {a0 a1 a2 a3} (h1 : State.memOk a0)
    (h4 : ∀ b0 b1 b2, State.memOk b2 → State.memOk (a3 b0 b1 b2)) :
    State.memOk (State.copyEnds a0 a1 a2 a3) := by
  unfold State.copyEnds
  try dsimp only
  repeat' first
    | with_reducible assumption | intro _
    | (with_reducible first
        | apply memOk_ite | apply wf_of_memOk | apply memOk_foldl | apply memOk_State_translate
        | apply memOk_State_consume | apply memOk_State_stall | apply memOk_State_trap | apply h4)
    | with_reducible refine memOk_State_translate_eq (by assumption) ?_
    | simp only [memOk_mk] | split | dsimp only

theorem memOk_execCopy {a0 a1 a2 a3 a4} (h5 : State.memOk a4) :
    OutOk ((execCopy a0 a1 a2 a3 a4)) := by
  unfold execCopy
  try dsimp only
  repeat' first
    | with_reducible assumption | intro _
    | (with_reducible first
        | apply memOk_ite | apply wf_of_memOk | apply outOk_next | apply outOk_ite | apply memOk_foldl
        | apply memOk_State_run | apply memOk_State_illegal | apply memOk_State_copyEnds
        | apply memOk_State_issueCopy)
    | simp only [memOk_mk] | split | dsimp only

theorem memOk_desc2d {a0 a1 a2} (h1 : State.memOk a0) (h3 : ∀ b0 b1, State.memOk b1 → State.memOk (a2 b0 b1)) :
    State.memOk (desc2d a0 a1 a2) := by
  unfold desc2d
  try dsimp only
  repeat' first
    | with_reducible assumption | intro _
    | (with_reducible first
        | apply memOk_ite | apply wf_of_memOk | apply memOk_foldl | apply memOk_State_withData
        | apply memOk_State_fetchData | apply h3)
    | with_reducible refine memOk_State_fetchData_eq (by assumption) ?_
    | simp only [memOk_mk] | split | dsimp only

theorem memOk_execCopy2d {a0 a1 a2 a3 a4} (h5 : State.memOk a4) :
    OutOk ((execCopy2d a0 a1 a2 a3 a4)) := by
  unfold execCopy2d
  try dsimp only
  repeat' first
    | with_reducible assumption | intro _
    | (with_reducible first
        | apply memOk_ite | apply wf_of_memOk | apply outOk_next | apply outOk_ite | apply memOk_foldl
        | apply memOk_State_run | apply memOk_State_trap | apply memOk_desc2d | apply memOk_State_illegal
        | apply memOk_State_copyEnds | apply memOk_State_issueCopy)
    | simp only [memOk_mk] | split | dsimp only

theorem memOk_execCpcnt {a0 a1 a2} (h3 : State.memOk a2) :
    OutOk ((execCpcnt a0 a1 a2)) := by
  unfold execCpcnt
  try dsimp only
  repeat' first
    | with_reducible assumption | intro _
    | (with_reducible first
        | apply memOk_ite | apply wf_of_memOk | apply outOk_next | apply outOk_ite | apply memOk_foldl
        | apply memOk_State_run | apply memOk_State_retire | apply memOk_State_onFrame | apply memOk_State_trap)
    | simp only [memOk_mk] | split | dsimp only

theorem memOk_execPref {a0 a1 a2} (h3 : State.memOk a2) :
    OutOk ((execPref a0 a1 a2)) := by
  unfold execPref
  try dsimp only
  repeat' first
    | with_reducible assumption | intro _
    | (with_reducible first
        | apply memOk_ite | apply wf_of_memOk | apply outOk_next | apply outOk_ite | apply memOk_foldl
        | apply memOk_State_run | apply memOk_State_translate | apply memOk_State_stall | apply memOk_State_retire
        | apply memOk_State_askFill | apply memOk_State_onMe)
    | with_reducible refine memOk_State_translate_eq (by assumption) ?_
    | simp only [memOk_mk] | split | dsimp only

theorem memOk_execVsplq {a0 a1 a2} (h3 : State.memOk a2) :
    OutOk ((execVsplq a0 a1 a2)) := by
  unfold execVsplq
  try dsimp only
  repeat' first
    | with_reducible assumption | intro _
    | (with_reducible first
        | apply memOk_ite | apply wf_of_memOk | apply outOk_next | apply outOk_ite | apply memOk_foldl
        | apply memOk_State_runKiln | apply memOk_State_illegal | apply memOk_State_plainKiln)
    | simp only [memOk_mk] | split | dsimp only

theorem memOk_execVoutq {a0 a1 a2 a3} (h4 : State.memOk a3) :
    OutOk ((execVoutq a0 a1 a2 a3)) := by
  unfold execVoutq
  try dsimp only
  repeat' first
    | with_reducible assumption | intro _
    | (with_reducible first
        | apply memOk_ite | apply wf_of_memOk | apply outOk_next | apply outOk_ite | apply memOk_foldl
        | apply memOk_State_runKiln | apply memOk_State_illegal | apply memOk_State_plainKiln)
    | simp only [memOk_mk] | split | dsimp only

theorem memOk_execVmv {a0 a1 a2} (h3 : State.memOk a2) :
    OutOk ((execVmv a0 a1 a2)) := by
  unfold execVmv
  try dsimp only
  repeat' first
    | with_reducible assumption | intro _
    | (with_reducible first
        | apply memOk_ite | apply wf_of_memOk | apply outOk_next | apply outOk_ite | apply memOk_foldl
        | apply memOk_State_runKiln | apply memOk_State_plainKiln)
    | simp only [memOk_mk] | split | dsimp only

theorem memOk_execVld {a0 a1 a2} (h3 : State.memOk a2) :
    OutOk ((execVld a0 a1 a2)) := by
  unfold execVld
  try dsimp only
  repeat' first
    | with_reducible assumption | intro _
    | (with_reducible first
        | apply memOk_ite | apply wf_of_memOk | apply outOk_next | apply outOk_ite | apply memOk_foldl
        | apply memOk_State_runKiln | apply memOk_State_enterMem)
    | simp only [memOk_mk] | split | dsimp only

theorem memOk_execVst {a0 a1 a2} (h3 : State.memOk a2) :
    OutOk ((execVst a0 a1 a2)) := by
  unfold execVst
  try dsimp only
  repeat' first
    | with_reducible assumption | intro _
    | (with_reducible first
        | apply memOk_ite | apply wf_of_memOk | apply outOk_next | apply outOk_ite | apply memOk_foldl
        | apply memOk_State_runKiln | apply memOk_State_enterMem)
    | simp only [memOk_mk] | split | dsimp only

theorem memOk_execVsct {a0 a1 a2 a3} (h4 : State.memOk a3) :
    OutOk ((execVsct a0 a1 a2 a3)) := by
  unfold execVsct
  try dsimp only
  repeat' first
    | with_reducible assumption | intro _
    | (with_reducible first
        | apply memOk_ite | apply wf_of_memOk | apply outOk_next | apply outOk_ite | apply memOk_foldl
        | apply memOk_State_runKiln | apply memOk_State_enterMem)
    | simp only [memOk_mk] | split | dsimp only

theorem memOk_execVadd {a0 a1 a2 a3 a4} (h5 : State.memOk a4) :
    OutOk ((execVadd a0 a1 a2 a3 a4)) := by
  unfold execVadd
  try dsimp only
  repeat' first
    | with_reducible assumption | intro _
    | (with_reducible first
        | apply memOk_ite | apply wf_of_memOk | apply outOk_next | apply outOk_ite | apply memOk_foldl
        | apply memOk_State_runKiln | apply memOk_State_floatKiln)
    | simp only [memOk_mk] | split | dsimp only

theorem memOk_execVsub {a0 a1 a2 a3 a4} (h5 : State.memOk a4) :
    OutOk ((execVsub a0 a1 a2 a3 a4)) := by
  unfold execVsub
  try dsimp only
  repeat' first
    | with_reducible assumption | intro _
    | (with_reducible first
        | apply memOk_ite | apply wf_of_memOk | apply outOk_next | apply outOk_ite | apply memOk_foldl
        | apply memOk_State_runKiln | apply memOk_State_floatKiln)
    | simp only [memOk_mk] | split | dsimp only

theorem memOk_execVmul {a0 a1 a2 a3 a4} (h5 : State.memOk a4) :
    OutOk ((execVmul a0 a1 a2 a3 a4)) := by
  unfold execVmul
  try dsimp only
  repeat' first
    | with_reducible assumption | intro _
    | (with_reducible first
        | apply memOk_ite | apply wf_of_memOk | apply outOk_next | apply outOk_ite | apply memOk_foldl
        | apply memOk_State_runKiln | apply memOk_State_floatKiln)
    | simp only [memOk_mk] | split | dsimp only

theorem memOk_execVfma {a0 a1 a2 a3 a4} (h5 : State.memOk a4) :
    OutOk ((execVfma a0 a1 a2 a3 a4)) := by
  unfold execVfma
  try dsimp only
  repeat' first
    | with_reducible assumption | intro _
    | (with_reducible first
        | apply memOk_ite | apply wf_of_memOk | apply outOk_next | apply outOk_ite | apply memOk_foldl
        | apply memOk_State_runKiln | apply memOk_State_floatKiln)
    | simp only [memOk_mk] | split | dsimp only

theorem memOk_execVabs {a0 a1 a2 a3} (h4 : State.memOk a3) :
    OutOk ((execVabs a0 a1 a2 a3)) := by
  unfold execVabs
  try dsimp only
  repeat' first
    | with_reducible assumption | intro _
    | (with_reducible first
        | apply memOk_ite | apply wf_of_memOk | apply outOk_next | apply outOk_ite | apply memOk_foldl
        | apply memOk_State_runKiln | apply memOk_State_floatKiln)
    | simp only [memOk_mk] | split | dsimp only

theorem memOk_execVneg {a0 a1 a2 a3} (h4 : State.memOk a3) :
    OutOk ((execVneg a0 a1 a2 a3)) := by
  unfold execVneg
  try dsimp only
  repeat' first
    | with_reducible assumption | intro _
    | (with_reducible first
        | apply memOk_ite | apply wf_of_memOk | apply outOk_next | apply outOk_ite | apply memOk_foldl
        | apply memOk_State_runKiln | apply memOk_State_floatKiln)
    | simp only [memOk_mk] | split | dsimp only

theorem memOk_execViadd {a0 a1 a2 a3} (h4 : State.memOk a3) :
    OutOk ((execViadd a0 a1 a2 a3)) := by
  unfold execViadd
  try dsimp only
  repeat' first
    | with_reducible assumption | intro _
    | (with_reducible first
        | apply memOk_ite | apply wf_of_memOk | apply outOk_next | apply outOk_ite | apply memOk_foldl
        | apply memOk_State_runKiln | apply memOk_State_plainKiln)
    | simp only [memOk_mk] | split | dsimp only

theorem memOk_execVimul {a0 a1 a2 a3} (h4 : State.memOk a3) :
    OutOk ((execVimul a0 a1 a2 a3)) := by
  unfold execVimul
  try dsimp only
  repeat' first
    | with_reducible assumption | intro _
    | (with_reducible first
        | apply memOk_ite | apply wf_of_memOk | apply outOk_next | apply outOk_ite | apply memOk_foldl
        | apply memOk_State_runKiln | apply memOk_State_plainKiln)
    | simp only [memOk_mk] | split | dsimp only

theorem memOk_execVand {a0 a1 a2 a3} (h4 : State.memOk a3) :
    OutOk ((execVand a0 a1 a2 a3)) := by
  unfold execVand
  try dsimp only
  repeat' first
    | with_reducible assumption | intro _
    | (with_reducible first
        | apply memOk_ite | apply wf_of_memOk | apply outOk_next | apply outOk_ite | apply memOk_foldl
        | apply memOk_State_runKiln | apply memOk_State_plainKiln)
    | simp only [memOk_mk] | split | dsimp only

theorem memOk_execVxor {a0 a1 a2 a3} (h4 : State.memOk a3) :
    OutOk ((execVxor a0 a1 a2 a3)) := by
  unfold execVxor
  try dsimp only
  repeat' first
    | with_reducible assumption | intro _
    | (with_reducible first
        | apply memOk_ite | apply wf_of_memOk | apply outOk_next | apply outOk_ite | apply memOk_foldl
        | apply memOk_State_runKiln | apply memOk_State_plainKiln)
    | simp only [memOk_mk] | split | dsimp only

theorem memOk_execVshl {a0 a1 a2 a3} (h4 : State.memOk a3) :
    OutOk ((execVshl a0 a1 a2 a3)) := by
  unfold execVshl
  try dsimp only
  repeat' first
    | with_reducible assumption | intro _
    | (with_reducible first
        | apply memOk_ite | apply wf_of_memOk | apply outOk_next | apply outOk_ite | apply memOk_foldl
        | apply memOk_State_runKiln | apply memOk_State_plainKiln)
    | simp only [memOk_mk] | split | dsimp only

theorem memOk_execVsra {a0 a1 a2 a3} (h4 : State.memOk a3) :
    OutOk ((execVsra a0 a1 a2 a3)) := by
  unfold execVsra
  try dsimp only
  repeat' first
    | with_reducible assumption | intro _
    | (with_reducible first
        | apply memOk_ite | apply wf_of_memOk | apply outOk_next | apply outOk_ite | apply memOk_foldl
        | apply memOk_State_runKiln | apply memOk_State_plainKiln)
    | simp only [memOk_mk] | split | dsimp only

theorem memOk_execViadds {a0 a1 a2 a3} (h4 : State.memOk a3) :
    OutOk ((execViadds a0 a1 a2 a3)) := by
  unfold execViadds
  try dsimp only
  repeat' first
    | with_reducible assumption | intro _
    | (with_reducible first
        | apply memOk_ite | apply wf_of_memOk | apply outOk_next | apply outOk_ite | apply memOk_foldl
        | apply memOk_State_runKiln | apply memOk_State_plainKiln)
    | simp only [memOk_mk] | split | dsimp only

theorem memOk_execVcvt {a0 a1 a2 a3 a4 a5} (h6 : State.memOk a5) :
    OutOk ((execVcvt a0 a1 a2 a3 a4 a5)) := by
  unfold execVcvt
  try dsimp only
  repeat' first
    | with_reducible assumption | intro _
    | (with_reducible first
        | apply memOk_ite | apply wf_of_memOk | apply outOk_next | apply outOk_ite | apply memOk_foldl
        | apply memOk_State_runKiln | apply memOk_State_illegal | apply memOk_State_plainKiln)
    | simp only [memOk_mk] | split | dsimp only

theorem memOk_execVcmpeq {a0 a1 a2 a3 a4 a5} (h6 : State.memOk a5) :
    OutOk ((execVcmpeq a0 a1 a2 a3 a4 a5)) := by
  unfold execVcmpeq
  try dsimp only
  repeat' first
    | with_reducible assumption | intro _
    | (with_reducible first
        | apply memOk_ite | apply wf_of_memOk | apply outOk_next | apply outOk_ite | apply memOk_foldl
        | apply memOk_State_runKiln | apply memOk_State_floatKiln)
    | simp only [memOk_mk] | split | dsimp only

theorem memOk_execVcmplt {a0 a1 a2 a3 a4 a5} (h6 : State.memOk a5) :
    OutOk ((execVcmplt a0 a1 a2 a3 a4 a5)) := by
  unfold execVcmplt
  try dsimp only
  repeat' first
    | with_reducible assumption | intro _
    | (with_reducible first
        | apply memOk_ite | apply wf_of_memOk | apply outOk_next | apply outOk_ite | apply memOk_foldl
        | apply memOk_State_runKiln | apply memOk_State_floatKiln)
    | simp only [memOk_mk] | split | dsimp only

theorem memOk_execVcmple {a0 a1 a2 a3 a4 a5} (h6 : State.memOk a5) :
    OutOk ((execVcmple a0 a1 a2 a3 a4 a5)) := by
  unfold execVcmple
  try dsimp only
  repeat' first
    | with_reducible assumption | intro _
    | (with_reducible first
        | apply memOk_ite | apply wf_of_memOk | apply outOk_next | apply outOk_ite | apply memOk_foldl
        | apply memOk_State_runKiln | apply memOk_State_floatKiln)
    | simp only [memOk_mk] | split | dsimp only

theorem memOk_execVsel {a0 a1 a2 a3} (h4 : State.memOk a3) :
    OutOk ((execVsel a0 a1 a2 a3)) := by
  unfold execVsel
  try dsimp only
  repeat' first
    | with_reducible assumption | intro _
    | (with_reducible first
        | apply memOk_ite | apply wf_of_memOk | apply outOk_next | apply outOk_ite | apply memOk_foldl
        | apply memOk_State_runKiln | apply memOk_State_plainKiln)
    | simp only [memOk_mk] | split | dsimp only

theorem memOk_execVbq {a0 a1} (h2 : State.memOk a1) :
    OutOk ((execVbq a0 a1)) := by
  unfold execVbq
  try dsimp only
  repeat' first
    | with_reducible assumption | intro _
    | (with_reducible first
        | apply memOk_ite | apply wf_of_memOk | apply outOk_next | apply outOk_ite | apply memOk_foldl
        | apply memOk_State_runKiln | apply memOk_State_illegal | apply memOk_State_plainKiln)
    | simp only [memOk_mk] | split | dsimp only

theorem memOk_execVrmax {a0 a1 a2 a3 a4} (h5 : State.memOk a4) :
    OutOk ((execVrmax a0 a1 a2 a3 a4)) := by
  unfold execVrmax
  try dsimp only
  repeat' first
    | with_reducible assumption | intro _
    | (with_reducible first
        | apply memOk_ite | apply wf_of_memOk | apply outOk_next | apply outOk_ite | apply memOk_foldl
        | apply memOk_State_runKiln | apply memOk_State_floatKiln)
    | simp only [memOk_mk] | split | dsimp only

theorem memOk_execVrmin {a0 a1 a2 a3 a4} (h5 : State.memOk a4) :
    OutOk ((execVrmin a0 a1 a2 a3 a4)) := by
  unfold execVrmin
  try dsimp only
  repeat' first
    | with_reducible assumption | intro _
    | (with_reducible first
        | apply memOk_ite | apply wf_of_memOk | apply outOk_next | apply outOk_ite | apply memOk_foldl
        | apply memOk_State_runKiln | apply memOk_State_floatKiln)
    | simp only [memOk_mk] | split | dsimp only

theorem memOk_execVperm {a0 a1 a2 a3 a4} (h5 : State.memOk a4) :
    OutOk ((execVperm a0 a1 a2 a3 a4)) := by
  unfold execVperm
  try dsimp only
  repeat' first
    | with_reducible assumption | intro _
    | (with_reducible first
        | apply memOk_ite | apply wf_of_memOk | apply outOk_next | apply outOk_ite | apply memOk_foldl
        | apply memOk_State_runKiln | apply memOk_State_plainKiln)
    | simp only [memOk_mk] | split | dsimp only

theorem memOk_execVrot {a0 a1 a2 a3 a4} (h5 : State.memOk a4) :
    OutOk ((execVrot a0 a1 a2 a3 a4)) := by
  unfold execVrot
  try dsimp only
  repeat' first
    | with_reducible assumption | intro _
    | (with_reducible first
        | apply memOk_ite | apply wf_of_memOk | apply outOk_next | apply outOk_ite | apply memOk_foldl
        | apply memOk_State_runKiln | apply memOk_State_plainKiln)
    | simp only [memOk_mk] | split | dsimp only

theorem memOk_execVexp2 {a0 a1 a2 a3} (h4 : State.memOk a3) :
    OutOk ((execVexp2 a0 a1 a2 a3)) := by
  unfold execVexp2
  try dsimp only
  repeat' first
    | with_reducible assumption | intro _
    | (with_reducible first
        | apply memOk_ite | apply wf_of_memOk | apply outOk_next | apply outOk_ite | apply memOk_foldl
        | apply memOk_State_runKiln | apply memOk_State_floatKiln)
    | simp only [memOk_mk] | split | dsimp only

theorem memOk_execVrcp {a0 a1 a2 a3} (h4 : State.memOk a3) :
    OutOk ((execVrcp a0 a1 a2 a3)) := by
  unfold execVrcp
  try dsimp only
  repeat' first
    | with_reducible assumption | intro _
    | (with_reducible first
        | apply memOk_ite | apply wf_of_memOk | apply outOk_next | apply outOk_ite | apply memOk_foldl
        | apply memOk_State_runKiln | apply memOk_State_floatKiln)
    | simp only [memOk_mk] | split | dsimp only

theorem memOk_execVlog2 {a0 a1 a2 a3} (h4 : State.memOk a3) :
    OutOk ((execVlog2 a0 a1 a2 a3)) := by
  unfold execVlog2
  try dsimp only
  repeat' first
    | with_reducible assumption | intro _
    | (with_reducible first
        | apply memOk_ite | apply wf_of_memOk | apply outOk_next | apply outOk_ite | apply memOk_foldl
        | apply memOk_State_runKiln | apply memOk_State_floatKiln)
    | simp only [memOk_mk] | split | dsimp only

theorem memOk_execLease {a0} (h1 : State.memOk a0) :
    OutOk ((execLease a0)) := by
  unfold execLease
  try dsimp only
  repeat' first
    | with_reducible assumption | intro _
    | (with_reducible first
        | apply memOk_ite | apply wf_of_memOk | apply outOk_next | apply outOk_ite | apply memOk_foldl
        | apply memOk_State_runKiln | apply memOk_State_plainKiln)
    | simp only [memOk_mk] | split | dsimp only

theorem memOk_execUnlease {a0} (h1 : State.memOk a0) :
    OutOk ((execUnlease a0)) := by
  unfold execUnlease
  try dsimp only
  repeat' first
    | with_reducible assumption | intro _
    | (with_reducible first
        | apply memOk_ite | apply wf_of_memOk | apply outOk_next | apply outOk_ite | apply memOk_foldl
        | apply memOk_State_runKiln | apply memOk_State_plainKiln)
    | simp only [memOk_mk] | split | dsimp only

theorem memOk_execRingdef {a0 a1 a2} (h3 : State.memOk a2) :
    OutOk ((execRingdef a0 a1 a2)) := by
  unfold execRingdef
  try dsimp only
  repeat' first
    | with_reducible assumption | intro _
    | (with_reducible first
        | apply memOk_ite | apply wf_of_memOk | apply outOk_next | apply outOk_ite | apply memOk_foldl
        | apply memOk_State_runKiln | apply memOk_State_trap | apply memOk_State_lockTrap | apply memOk_State_consume
        | apply memOk_State_badRing | apply memOk_State_setShadow | apply memOk_State_enterKiln)
    | simp only [memOk_mk] | split | dsimp only

theorem memOk_execRingadv {a0 a1 a2} (h3 : State.memOk a2) :
    OutOk ((execRingadv a0 a1 a2)) := by
  unfold execRingadv
  try dsimp only
  repeat' first
    | with_reducible assumption | intro _
    | (with_reducible first
        | apply memOk_ite | apply wf_of_memOk | apply outOk_next | apply outOk_ite | apply memOk_foldl
        | apply memOk_State_runKiln | apply memOk_State_badRing | apply memOk_State_plainKiln
        | apply memOk_State_setShadow)
    | simp only [memOk_mk] | split | dsimp only

theorem memOk_execKmma {a0 a1 a2 a3 a4 a5} (h6 : State.memOk a5) :
    OutOk ((execKmma a0 a1 a2 a3 a4 a5)) := by
  unfold execKmma
  try dsimp only
  repeat' first
    | with_reducible assumption | intro _
    | (with_reducible first
        | apply memOk_ite | apply wf_of_memOk | apply outOk_next | apply outOk_ite | apply memOk_foldl
        | apply memOk_State_runKiln | apply memOk_State_productKiln)
    | simp only [memOk_mk] | split | dsimp only

theorem memOk_execKmmas {a0 a1 a2 a3 a4 a5} (h6 : State.memOk a5) :
    OutOk ((execKmmas a0 a1 a2 a3 a4 a5)) := by
  unfold execKmmas
  try dsimp only
  repeat' first
    | with_reducible assumption | intro _
    | (with_reducible first
        | apply memOk_ite | apply wf_of_memOk | apply outOk_next | apply outOk_ite | apply memOk_foldl
        | apply memOk_State_runKiln | apply memOk_State_withRings | apply memOk_State_illegal
        | apply memOk_State_enterProduct)
    | simp only [memOk_mk] | split | dsimp only

theorem memOk_execKmmat {a0 a1 a2 a3 a4 a5} (h6 : State.memOk a5) :
    OutOk ((execKmmat a0 a1 a2 a3 a4 a5)) := by
  unfold execKmmat
  try dsimp only
  repeat' first
    | with_reducible assumption | intro _
    | (with_reducible first
        | apply memOk_ite | apply wf_of_memOk | apply outOk_next | apply outOk_ite | apply memOk_foldl
        | apply memOk_State_runKiln | apply memOk_State_productKiln)
    | simp only [memOk_mk] | split | dsimp only

theorem memOk_execKzero {a0} (h1 : State.memOk a0) :
    OutOk ((execKzero a0)) := by
  unfold execKzero
  try dsimp only
  repeat' first
    | with_reducible assumption | intro _
    | (with_reducible first
        | apply memOk_ite | apply wf_of_memOk | apply outOk_next | apply outOk_ite | apply memOk_foldl
        | apply memOk_State_runKiln | apply memOk_State_plainKiln)
    | simp only [memOk_mk] | split | dsimp only

theorem memOk_execKld {a0 a1} (h2 : State.memOk a1) :
    OutOk ((execKld a0 a1)) := by
  unfold execKld
  try dsimp only
  repeat' first
    | with_reducible assumption | intro _
    | (with_reducible first
        | apply memOk_ite | apply wf_of_memOk | apply outOk_next | apply outOk_ite | apply memOk_foldl
        | apply memOk_State_runKiln | apply memOk_State_enterMem)
    | simp only [memOk_mk] | split | dsimp only

theorem memOk_execKst {a0 a1} (h2 : State.memOk a1) :
    OutOk ((execKst a0 a1)) := by
  unfold execKst
  try dsimp only
  repeat' first
    | with_reducible assumption | intro _
    | (with_reducible first
        | apply memOk_ite | apply wf_of_memOk | apply outOk_next | apply outOk_ite | apply memOk_foldl
        | apply memOk_State_runKiln | apply memOk_State_enterMem)
    | simp only [memOk_mk] | split | dsimp only

theorem memOk_execKrow {a0 a1 a2} (h3 : State.memOk a2) :
    OutOk ((execKrow a0 a1 a2)) := by
  unfold execKrow
  try dsimp only
  repeat' first
    | with_reducible assumption | intro _
    | (with_reducible first
        | apply memOk_ite | apply wf_of_memOk | apply outOk_next | apply outOk_ite | apply memOk_foldl
        | apply memOk_State_runKiln | apply memOk_State_plainKiln)
    | simp only [memOk_mk] | split | dsimp only

theorem memOk_execKputrow {a0 a1 a2} (h3 : State.memOk a2) :
    OutOk ((execKputrow a0 a1 a2)) := by
  unfold execKputrow
  try dsimp only
  repeat' first
    | with_reducible assumption | intro _
    | (with_reducible first
        | apply memOk_ite | apply wf_of_memOk | apply outOk_next | apply outOk_ite | apply memOk_foldl
        | apply memOk_State_runKiln | apply memOk_State_plainKiln)
    | simp only [memOk_mk] | split | dsimp only

theorem memOk_execKscq {a0 a1} (h2 : State.memOk a1) :
    OutOk ((execKscq a0 a1)) := by
  unfold execKscq
  try dsimp only
  repeat' first
    | with_reducible assumption | intro _
    | (with_reducible first
        | apply memOk_ite | apply wf_of_memOk | apply outOk_next | apply outOk_ite | apply memOk_foldl
        | apply memOk_State_runKiln | apply memOk_State_illegal | apply memOk_State_plainKiln)
    | simp only [memOk_mk] | split | dsimp only

theorem memOk_execKfac {a0 a1} (h2 : State.memOk a1) :
    OutOk ((execKfac a0 a1)) := by
  unfold execKfac
  try dsimp only
  repeat' first
    | with_reducible assumption | intro _
    | (with_reducible first
        | apply memOk_ite | apply wf_of_memOk | apply outOk_next | apply outOk_ite | apply memOk_foldl
        | apply memOk_State_runKiln | apply memOk_State_solveKiln)
    | simp only [memOk_mk] | split | dsimp only

theorem memOk_execKtrsl {a0 a1 a2 a3} (h4 : State.memOk a3) :
    OutOk ((execKtrsl a0 a1 a2 a3)) := by
  unfold execKtrsl
  try dsimp only
  repeat' first
    | with_reducible assumption | intro _
    | (with_reducible first
        | apply memOk_ite | apply wf_of_memOk | apply outOk_next | apply outOk_ite | apply memOk_foldl
        | apply memOk_State_runKiln | apply memOk_State_solveKiln)
    | simp only [memOk_mk] | split | dsimp only

theorem memOk_execKmv {a0 a1 a2 a3} (h4 : State.memOk a3) :
    OutOk ((execKmv a0 a1 a2 a3)) := by
  unfold execKmv
  try dsimp only
  repeat' first
    | with_reducible assumption | intro _
    | (with_reducible first
        | apply memOk_ite | apply wf_of_memOk | apply outOk_next | apply outOk_ite | apply memOk_foldl
        | apply memOk_State_runKiln | apply memOk_State_solveKiln)
    | simp only [memOk_mk] | split | dsimp only

theorem memOk_execKdiag {a0 a1 a2} (h3 : State.memOk a2) :
    OutOk ((execKdiag a0 a1 a2)) := by
  unfold execKdiag
  try dsimp only
  repeat' first
    | with_reducible assumption | intro _
    | (with_reducible first
        | apply memOk_ite | apply wf_of_memOk | apply outOk_next | apply outOk_ite | apply memOk_foldl
        | apply memOk_State_runKiln | apply memOk_State_solveKiln)
    | simp only [memOk_mk] | split | dsimp only

theorem memOk_execKflg {a0 a1 a2} (h3 : State.memOk a2) :
    OutOk ((execKflg a0 a1 a2)) := by
  unfold execKflg
  try dsimp only
  repeat' first
    | with_reducible assumption | intro _
    | (with_reducible first
        | apply memOk_ite | apply wf_of_memOk | apply outOk_next | apply outOk_ite | apply memOk_foldl
        | apply memOk_State_runKiln | apply memOk_State_illegal | apply memOk_State_plainKiln)
    | simp only [memOk_mk] | split | dsimp only

theorem memOk_execPowerOnBoot {a0 a1} (h2 : State.memOk a1) :
    OutOk ((execPowerOnBoot a0 a1)) := by
  unfold execPowerOnBoot
  try dsimp only
  repeat' first
    | with_reducible assumption | intro _
    | (with_reducible first
        | apply memOk_ite | apply wf_of_memOk | apply outOk_next | apply outOk_ite | apply memOk_foldl
        | apply memOk_State_freshBytes)
    | with_reducible refine memOk_State_freshBytes_eq (by assumption) ?_
    | simp only [memOk_mk] | split | dsimp only

theorem memOk_execRun {a0} (h1 : State.memOk a0) :
    OutOk ((execRun a0)) := by
  unfold execRun
  try dsimp only
  repeat' first
    | with_reducible assumption | intro _
    | (with_reducible first
        | apply memOk_ite | apply wf_of_memOk | apply outOk_next | apply outOk_ite | apply memOk_foldl
        | apply memOk_State_nmDone)
    | simp only [memOk_mk] | split | dsimp only

theorem memOk_execMkeyw {a0} (h1 : State.memOk a0) :
    OutOk ((execMkeyw a0)) := by
  unfold execMkeyw
  try dsimp only
  repeat' first
    | with_reducible assumption | intro _
    | (with_reducible first
        | apply memOk_ite | apply wf_of_memOk | apply outOk_next | apply outOk_ite | apply memOk_foldl
        | apply memOk_State_nmDone)
    | simp only [memOk_mk] | split | dsimp only

theorem memOk_execQueuePortOtherAccess {a0 a1} (h2 : State.memOk a1) :
    OutOk ((execQueuePortOtherAccess a0 a1)) := by
  unfold execQueuePortOtherAccess
  try dsimp only
  repeat' first
    | with_reducible assumption | intro _
    | (with_reducible first
        | apply memOk_ite | apply wf_of_memOk | apply outOk_next | apply outOk_ite | apply memOk_foldl
        | apply memOk_State_through | apply memOk_State_tellHost)
    | simp only [memOk_mk] | split | dsimp only

theorem memOk_execDispatcherResolve {a0 a1} (h2 : State.memOk a1) :
    OutOk ((execDispatcherResolve a0 a1)) := by
  unfold execDispatcherResolve
  try dsimp only
  repeat' first
    | with_reducible assumption | intro _
    | (with_reducible first
        | apply memOk_ite | apply wf_of_memOk | apply outOk_next | apply outOk_ite | apply memOk_foldl
        | apply memOk_State_report)
    | simp only [memOk_mk] | split | dsimp only

theorem memOk_execDispatcherDelivery {a0 a1} (h2 : State.memOk a1) :
    OutOk ((execDispatcherDelivery a0 a1)) := by
  unfold execDispatcherDelivery
  try dsimp only
  repeat' first
    | with_reducible assumption | intro _
    | (with_reducible first
        | apply memOk_ite | apply wf_of_memOk | apply outOk_next | apply outOk_ite | apply memOk_foldl
        | apply memOk_State_setCore | apply memOk_State_putSaved)
    | simp only [memOk_mk] | split | dsimp only

theorem memOk_execOccupancyReport {a0 a1} (h2 : State.memOk a1) :
    OutOk ((execOccupancyReport a0 a1)) := by
  unfold execOccupancyReport
  try dsimp only
  repeat' first
    | with_reducible assumption | intro _
    | (with_reducible first
        | apply memOk_ite | apply wf_of_memOk | apply outOk_next | apply outOk_ite | apply memOk_foldl
        | apply memOk_State_onCluster)
    | simp only [memOk_mk] | split | dsimp only

theorem memOk_execPushFrame {a0 a1} (h2 : State.memOk a1) :
    OutOk ((execPushFrame a0 a1)) := by
  unfold execPushFrame
  try dsimp only
  repeat' first
    | with_reducible assumption | intro _
    | (with_reducible first
        | apply memOk_ite | apply wf_of_memOk | apply outOk_next | apply outOk_ite | apply memOk_foldl
        | apply memOk_State_machineCheck | apply memOk_State_trapReady | apply memOk_State_spend
        | apply memOk_State_start | apply memOk_State_dropReady | apply memOk_State_freeLatch
        | apply memOk_State_enterTrap)
    | with_reducible refine memOk_State_trapReady_eq (by assumption) ?_
    | simp only [memOk_mk] | split | dsimp only

theorem memOk_execBoundaryTrap {a0 a1} (h2 : State.memOk a1) :
    OutOk ((execBoundaryTrap a0 a1)) := by
  unfold execBoundaryTrap
  try dsimp only
  repeat' first
    | with_reducible assumption | intro _
    | (with_reducible first
        | apply memOk_ite | apply wf_of_memOk | apply outOk_next | apply outOk_ite | apply memOk_foldl
        | apply memOk_State_boundaryTrap)
    | simp only [memOk_mk] | split | dsimp only

theorem memOk_State_expire {a0 a1} (h1 : State.memOk a0) :
    State.memOk (State.expire a0 a1) := by
  unfold State.expire
  try dsimp only
  repeat' first
    | with_reducible assumption | intro _
    | (with_reducible first
        | apply memOk_ite | apply wf_of_memOk | apply memOk_foldl | apply memOk_State_expireKiln
        | apply memOk_State_popFrame | apply memOk_State_hwPost)
    | simp only [memOk_mk] | split | dsimp only

theorem memOk_execDeadlineExpiry {a0 a1} (h2 : State.memOk a1) :
    OutOk ((execDeadlineExpiry a0 a1)) := by
  unfold execDeadlineExpiry
  try dsimp only
  repeat' first
    | with_reducible assumption | intro _
    | (with_reducible first
        | apply memOk_ite | apply wf_of_memOk | apply outOk_next | apply outOk_ite | apply memOk_foldl
        | apply memOk_State_expire | apply memOk_State_dropReady | apply memOk_State_freeLatch)
    | simp only [memOk_mk] | split | dsimp only

theorem memOk_execReplyFill {a0 a1} (h2 : State.memOk a1) :
    OutOk ((execReplyFill a0 a1)) := by
  unfold execReplyFill
  try dsimp only
  repeat' first
    | with_reducible assumption | intro _
    | (with_reducible first
        | apply memOk_ite | apply wf_of_memOk | apply outOk_next | apply outOk_ite | apply optOk_none
        | apply optOk_some | apply optOk_ite | apply optOk_map_mem | apply optOk_map_snd | apply optOk_map_any
        | apply optOk_findSome | apply optOk_bind | apply optOk_orElse | apply memOk_getD | apply memOk_foldl
        | apply memOk_State_takePkt | apply memOk_State_asDevice | apply memOk_State_onCore | apply memOk_State_oneGot
        | apply memOk_State_machineCheck | apply memOk_State_fillReg | apply memOk_State_postSucc)
    | with_reducible refine memOk_State_takePkt_eq (by assumption) ?_
    | with_reducible refine memOk_State_takePkt_eq2 (by assumption) ?_
    | with_reducible refine memOk_of_next (by assumption) ?_
    | with_reducible refine memOk_of_some_snd (by assumption) ?_
    | with_reducible refine memOk_of_some (by assumption) ?_
    | with_reducible refine memOk_of_some_fst (by assumption) ?_
    | simp only [memOk_mk] | split | dsimp only

theorem memOk_execOneResultFill {a0 a1} (h2 : State.memOk a1) :
    OutOk ((execOneResultFill a0 a1)) := by
  unfold execOneResultFill
  try dsimp only
  repeat' first
    | with_reducible assumption | intro _
    | (with_reducible first
        | apply memOk_ite | apply wf_of_memOk | apply outOk_next | apply outOk_ite | apply memOk_foldl
        | apply memOk_State_fillOne | apply memOk_State_onCluster)
    | simp only [memOk_mk] | split | dsimp only

theorem memOk_State_asCore {a0 a1 a2} (h1 : State.memOk a0) (h3 : ∀ b0, State.memOk b0 → State.memOk (a2 b0)) :
    State.memOk (State.asCore a0 a1 a2) := by
  unfold State.asCore
  try dsimp only
  repeat' first
    | with_reducible assumption | intro _
    | (with_reducible first | apply memOk_ite | apply wf_of_memOk | apply memOk_foldl | apply h3)
    | simp only [memOk_mk] | split | dsimp only

theorem memOk_execAlignTimeout {a0 a1} (h2 : State.memOk a1) :
    OutOk ((execAlignTimeout a0 a1)) := by
  unfold execAlignTimeout
  try dsimp only
  repeat' first
    | with_reducible assumption | intro _
    | (with_reducible first
        | apply memOk_ite | apply wf_of_memOk | apply outOk_next | apply outOk_ite | apply memOk_foldl
        | apply memOk_State_asCore | apply memOk_State_retire | apply memOk_State_onMe)
    | simp only [memOk_mk] | split | dsimp only

theorem memOk_execBankRetention {a0 a1 a2} (h3 : State.memOk a2) :
    OutOk ((execBankRetention a0 a1 a2)) := by
  unfold execBankRetention
  try dsimp only
  repeat' first
    | with_reducible assumption | intro _
    | (with_reducible first
        | apply memOk_ite | apply wf_of_memOk | apply outOk_next | apply outOk_ite | apply memOk_foldl
        | apply memOk_State_setCore)
    | simp only [memOk_mk] | split | dsimp only

theorem memOk_State_issueKeep {a0 a1 a2 a3 a4 a5} (h1 : State.memOk a0) :
    State.memOk (State.issueKeep a0 a1 a2 a3 a4 a5) := by
  unfold State.issueKeep
  try dsimp only
  repeat' first
    | with_reducible assumption | intro _
    | (with_reducible first
        | apply memOk_ite | apply wf_of_memOk | apply memOk_foldl | apply memOk_State_kilnConsume
        | apply memOk_State_onSet | apply memOk_State_snapshot | apply memOk_State_onKiln | apply memOk_State_fly
        | apply memOk_State_dropHead)
    | simp only [memOk_mk] | split | dsimp only

theorem memOk_State_issueVec {a0 a1 a2 a3} (h1 : State.memOk a0) :
    State.memOk (State.issueVec a0 a1 a2 a3) := by
  unfold State.issueVec
  try dsimp only
  repeat' first
    | with_reducible assumption | intro _
    | (with_reducible first
        | apply memOk_ite | apply wf_of_memOk | apply memOk_foldl | apply memOk_State_issueKeep
        | apply memOk_State_fly | apply memOk_State_dropHead | apply memOk_State_endFiring | apply memOk_State_onKiln
        | apply memOk_State_kilnConsume | apply memOk_State_onSet | apply memOk_State_snapshot)
    | simp only [memOk_mk] | split | dsimp only

theorem memOk_execKilnVectorIssue {a0 a1} (h2 : State.memOk a1) :
    OutOk ((execKilnVectorIssue a0 a1)) := by
  unfold execKilnVectorIssue
  try dsimp only
  repeat' first
    | with_reducible assumption | intro _
    | (with_reducible first
        | apply memOk_ite | apply wf_of_memOk | apply outOk_next | apply outOk_ite | apply memOk_foldl
        | apply memOk_State_onKiln | apply memOk_State_useSet | apply memOk_State_issueVec)
    | simp only [memOk_mk] | split | dsimp only

theorem memOk_State_checkEvent5 {a0 a1} (h1 : State.memOk a0) :
    State.memOk (State.checkEvent5 a0 a1) := by
  unfold State.checkEvent5
  try dsimp only
  repeat' first
    | with_reducible assumption | intro _
    | (with_reducible first | apply memOk_ite | apply wf_of_memOk | apply memOk_foldl | apply memOk_State_onKiln)
    | simp only [memOk_mk] | split | dsimp only

theorem memOk_execLeaseGrant {a0 a1} (h2 : State.memOk a1) :
    OutOk ((execLeaseGrant a0 a1)) := by
  unfold execLeaseGrant
  try dsimp only
  repeat' first
    | with_reducible assumption | intro _
    | (with_reducible first
        | apply memOk_ite | apply wf_of_memOk | apply outOk_next | apply outOk_ite | apply memOk_foldl
        | apply memOk_State_endFiring | apply memOk_State_checkEvent5 | apply memOk_State_onKiln)
    | simp only [memOk_mk] | split | dsimp only

theorem memOk_execKilnCommandRetire {a0 a1} (h2 : State.memOk a1) :
    OutOk ((execKilnCommandRetire a0 a1)) := by
  unfold execKilnCommandRetire
  try dsimp only
  repeat' first
    | with_reducible assumption | intro _
    | (with_reducible first
        | apply memOk_ite | apply wf_of_memOk | apply outOk_next | apply outOk_ite | apply memOk_foldl
        | apply memOk_State_endFiring | apply memOk_State_retireFlight)
    | simp only [memOk_mk] | split | dsimp only

theorem memOk_execSolveStepComplete {a0 a1} (h2 : State.memOk a1) :
    OutOk ((execSolveStepComplete a0 a1)) := by
  unfold execSolveStepComplete
  try dsimp only
  repeat' first
    | with_reducible assumption | intro _
    | (with_reducible first
        | apply memOk_ite | apply wf_of_memOk | apply outOk_next | apply outOk_ite | apply memOk_foldl
        | apply memOk_State_onSet | apply memOk_State_onKiln | apply memOk_State_endFiring
        | apply memOk_State_abortSolve | apply memOk_State_onCore | apply memOk_State_land)
    | simp only [memOk_mk] | split | dsimp only

theorem memOk_execScaleFrameDelivery {a0 a1} (h2 : State.memOk a1) :
    OutOk ((execScaleFrameDelivery a0 a1)) := by
  unfold execScaleFrameDelivery
  try dsimp only
  repeat' first
    | with_reducible assumption | intro _
    | (with_reducible first
        | apply memOk_ite | apply wf_of_memOk | apply outOk_next | apply outOk_ite | apply memOk_foldl
        | apply memOk_State_onCore | apply memOk_State_onKiln)
    | simp only [memOk_mk] | split | dsimp only

theorem memOk_execKilnGate {a0 a1 a2} (h3 : State.memOk a2) :
    OutOk ((execKilnGate a0 a1 a2)) := by
  unfold execKilnGate
  try dsimp only
  repeat' first
    | with_reducible assumption | intro _
    | (with_reducible first
        | apply memOk_ite | apply wf_of_memOk | apply outOk_next | apply outOk_ite | apply memOk_foldl
        | apply memOk_State_onKiln)
    | simp only [memOk_mk] | split | dsimp only

theorem memOk_execGapMeasurement {a0 a1} (h2 : State.memOk a1) :
    OutOk ((execGapMeasurement a0 a1)) := by
  unfold execGapMeasurement
  try dsimp only
  repeat' first
    | with_reducible assumption | intro _
    | (with_reducible first
        | apply memOk_ite | apply wf_of_memOk | apply outOk_next | apply outOk_ite | apply memOk_foldl)
    | simp only [memOk_mk] | split | dsimp only

theorem memOk_execConeReplan {a0 a1 a2 a3} (h4 : State.memOk a3) :
    OutOk ((execConeReplan a0 a1 a2 a3)) := by
  unfold execConeReplan
  try dsimp only
  repeat' first
    | with_reducible assumption | intro _
    | (with_reducible first
        | apply memOk_ite | apply wf_of_memOk | apply outOk_next | apply outOk_ite | apply memOk_foldl
        | apply memOk_State_onCluster | apply memOk_State_report | apply memOk_State_onSag)
    | simp only [memOk_mk] | split | dsimp only

theorem memOk_execDramScrub {a0 a1} (h2 : State.memOk a1) :
    OutOk ((execDramScrub a0 a1)) := by
  unfold execDramScrub
  try dsimp only
  repeat' first
    | with_reducible assumption | intro _
    | (with_reducible first
        | apply memOk_ite | apply wf_of_memOk | apply outOk_next | apply outOk_ite | apply memOk_foldl
        | apply memOk_State_readEcc)
    | simp only [memOk_mk] | split | dsimp only

theorem memOk_execCheckpointTimer {a0 a1} (h2 : State.memOk a1) :
    OutOk ((execCheckpointTimer a0 a1)) := by
  unfold execCheckpointTimer
  try dsimp only
  repeat' first
    | with_reducible assumption | intro _
    | (with_reducible first
        | apply memOk_ite | apply wf_of_memOk | apply outOk_next | apply outOk_ite | apply memOk_foldl
        | apply memOk_State_ckCycle)
    | simp only [memOk_mk] | split | dsimp only

theorem memOk_State_compact {a0 a1 a2 a3} (h1 : State.memOk a0) :
    State.memOk ((State.compact a0 a1 a2 a3)).2 := by
  unfold State.compact
  try dsimp only
  repeat' first
    | with_reducible assumption | intro _
    | (with_reducible first
        | apply memOk_ite | apply wf_of_memOk | apply memOk_foldl | apply memOk_State_bring
        | apply memOk_State_applyRecord | apply memOk_State_lcount | apply memOk_State_publishWrite)
    | with_reducible refine memOk_State_applyRecord_eq (by assumption) ?_
    | simp only [memOk_mk] | split | dsimp only

theorem memOk_State_compact_eq {a0 a1 a2 a3} {c1 t} (e : State.compact a0 a1 a2 a3 = (c1, t)) (h1 : State.memOk a0)
    : State.memOk t := by
  have := @memOk_State_compact a0 a1 a2 a3 h1
  rwa [e] at this

theorem memOk_State_compactHeld {a0 a1 a2 a3} (h1 : State.memOk a0) :
    State.memOk ((State.compactHeld a0 a1 a2 a3)).2 := by
  induction a3 generalizing a0 a2 with
  | nil => exact h1
  | cons p l ih =>
    unfold State.compactHeld
    dsimp only
    split
    · split
      · simp only [memOk_mk]; exact wf_of_memOk (memOk_State_compact h1)
      · exact ih (memOk_State_compact h1)
    · exact ih h1

theorem memOk_State_compactHeld_eq {a0 a1 a2 a3} {c1 t} (e : State.compactHeld a0 a1 a2 a3 = (c1, t))
    (h1 : State.memOk a0) : State.memOk t := by
  have := @memOk_State_compactHeld a0 a1 a2 a3 h1
  rwa [e] at this

theorem memOk_execCompaction {a0 a1} (h2 : State.memOk a1) :
    OutOk ((execCompaction a0 a1)) := by
  unfold execCompaction
  try dsimp only
  repeat' first
    | with_reducible assumption | intro _
    | (with_reducible first
        | apply memOk_ite | apply wf_of_memOk | apply outOk_next | apply outOk_ite | apply optOk_none
        | apply optOk_some | apply optOk_ite | apply optOk_map_mem | apply optOk_map_snd | apply optOk_map_any
        | apply optOk_findSome | apply optOk_bind | apply optOk_orElse | apply memOk_getD | apply memOk_foldl
        | apply memOk_State_compactHeld | apply memOk_State_takeHome | apply memOk_State_compact
        | apply memOk_State_hold)
    | with_reducible refine memOk_State_compactHeld_eq (by assumption) ?_
    | with_reducible refine memOk_State_takeHome_eq (by assumption) ?_
    | with_reducible refine memOk_State_compact_eq (by assumption) ?_
    | with_reducible refine memOk_State_takeHome_eq2 (by assumption) ?_
    | with_reducible refine memOk_of_next (by assumption) ?_
    | with_reducible refine memOk_of_some_snd (by assumption) ?_
    | with_reducible refine memOk_of_some (by assumption) ?_
    | with_reducible refine memOk_of_some_fst (by assumption) ?_
    | simp only [memOk_mk] | split | dsimp only

theorem memOk_execInvalidation {a0 a1} (h2 : State.memOk a1) :
    OutOk ((execInvalidation a0 a1)) := by
  unfold execInvalidation
  try dsimp only
  repeat' first
    | with_reducible assumption | intro _
    | (with_reducible first
        | apply memOk_ite | apply wf_of_memOk | apply outOk_next | apply outOk_ite | apply optOk_none
        | apply optOk_some | apply optOk_ite | apply optOk_map_mem | apply optOk_map_snd | apply optOk_map_any
        | apply optOk_findSome | apply optOk_bind | apply optOk_orElse | apply memOk_getD | apply memOk_foldl
        | apply memOk_State_takePkt | apply memOk_State_accept | apply memOk_State_onCore)
    | with_reducible refine memOk_State_takePkt_eq (by assumption) ?_
    | with_reducible refine memOk_State_takePkt_eq2 (by assumption) ?_
    | with_reducible refine memOk_of_next (by assumption) ?_
    | with_reducible refine memOk_of_some_snd (by assumption) ?_
    | with_reducible refine memOk_of_some (by assumption) ?_
    | with_reducible refine memOk_of_some_fst (by assumption) ?_
    | simp only [memOk_mk] | split | dsimp only

theorem memOk_execDirectoryPortSendNote {a0 a1 a2} (h3 : State.memOk a2) :
    OutOk ((execDirectoryPortSendNote a0 a1 a2)) := by
  unfold execDirectoryPortSendNote
  try dsimp only
  repeat' first
    | with_reducible assumption | intro _
    | (with_reducible first
        | apply memOk_ite | apply wf_of_memOk | apply outOk_next | apply outOk_ite | apply memOk_foldl
        | apply memOk_State_dirPort)
    | simp only [memOk_mk] | split | dsimp only

theorem memOk_execDirectoryPortSendInvalidation {a0 a1 a2} (h3 : State.memOk a2) :
    OutOk ((execDirectoryPortSendInvalidation a0 a1 a2)) := by
  unfold execDirectoryPortSendInvalidation
  try dsimp only
  repeat' first
    | with_reducible assumption | intro _
    | (with_reducible first
        | apply memOk_ite | apply wf_of_memOk | apply outOk_next | apply outOk_ite | apply memOk_foldl
        | apply memOk_State_dirPort)
    | simp only [memOk_mk] | split | dsimp only

theorem memOk_execAcquireQuery {a0 a1} (h2 : State.memOk a1) :
    OutOk ((execAcquireQuery a0 a1)) := by
  unfold execAcquireQuery
  try dsimp only
  repeat' first
    | with_reducible assumption | intro _
    | (with_reducible first
        | apply memOk_ite | apply wf_of_memOk | apply outOk_next | apply outOk_ite | apply optOk_none
        | apply optOk_some | apply optOk_ite | apply optOk_map_mem | apply optOk_map_snd | apply optOk_map_any
        | apply optOk_findSome | apply optOk_bind | apply optOk_orElse | apply memOk_getD | apply memOk_foldl
        | apply memOk_State_takePkt | apply memOk_State_onCore)
    | with_reducible refine memOk_State_takePkt_eq (by assumption) ?_
    | with_reducible refine memOk_State_takePkt_eq2 (by assumption) ?_
    | with_reducible refine memOk_of_next (by assumption) ?_
    | with_reducible refine memOk_of_some_snd (by assumption) ?_
    | with_reducible refine memOk_of_some (by assumption) ?_
    | with_reducible refine memOk_of_some_fst (by assumption) ?_
    | simp only [memOk_mk] | split | dsimp only

theorem memOk_State_reply {a0 a1} (h1 : State.memOk a0) :
    State.memOk (State.reply a0 a1) := by
  unfold State.reply
  try dsimp only
  repeat' first
    | with_reducible assumption | intro _
    | (with_reducible first
        | apply memOk_ite | apply wf_of_memOk | apply memOk_foldl | apply memOk_State_deliver
        | apply memOk_State_send)
    | simp only [memOk_mk] | split | dsimp only

theorem memOk_execAcquireAnswer {a0 a1} (h2 : State.memOk a1) :
    OutOk ((execAcquireAnswer a0 a1)) := by
  unfold execAcquireAnswer
  try dsimp only
  repeat' first
    | with_reducible assumption | intro _
    | (with_reducible first
        | apply memOk_ite | apply wf_of_memOk | apply outOk_next | apply outOk_ite | apply memOk_foldl
        | apply memOk_State_setCore | apply memOk_State_asDevice | apply memOk_State_onCore | apply memOk_State_reply)
    | simp only [memOk_mk] | split | dsimp only

theorem memOk_State_replay {a0 a1 a2} (h1 : State.memOk a0) :
    State.memOk (State.replay a0 a1 a2) := by
  unfold State.replay
  try dsimp only
  repeat' first
    | with_reducible assumption | intro _
    | (with_reducible first | apply memOk_ite | apply wf_of_memOk | apply memOk_foldl | apply memOk_State_setCore)
    | simp only [memOk_mk] | split | dsimp only

theorem memOk_execAcquireComplete {a0 a1} (h2 : State.memOk a1) :
    OutOk ((execAcquireComplete a0 a1)) := by
  unfold execAcquireComplete
  try dsimp only
  repeat' first
    | with_reducible assumption | intro _
    | (with_reducible first
        | apply memOk_ite | apply wf_of_memOk | apply outOk_next | apply outOk_ite | apply optOk_none
        | apply optOk_some | apply optOk_ite | apply optOk_map_mem | apply optOk_map_snd | apply optOk_map_any
        | apply optOk_findSome | apply optOk_bind | apply optOk_orElse | apply memOk_getD | apply memOk_foldl
        | apply memOk_State_takePkt | apply memOk_State_asDevice | apply memOk_State_onCore | apply memOk_State_replay
        | apply memOk_State_setCore)
    | with_reducible refine memOk_State_takePkt_eq (by assumption) ?_
    | with_reducible refine memOk_State_takePkt_eq2 (by assumption) ?_
    | with_reducible refine memOk_of_next (by assumption) ?_
    | with_reducible refine memOk_of_some_snd (by assumption) ?_
    | with_reducible refine memOk_of_some (by assumption) ?_
    | with_reducible refine memOk_of_some_fst (by assumption) ?_
    | simp only [memOk_mk] | split | dsimp only

theorem memOk_State_tellPeers {a0 a1 a2 a3} (h1 : State.memOk a0) :
    State.memOk (State.tellPeers a0 a1 a2 a3) := by
  unfold State.tellPeers
  try dsimp only
  repeat' first
    | with_reducible assumption | intro _
    | (with_reducible first | apply memOk_ite | apply wf_of_memOk | apply memOk_foldl | apply memOk_State_send)
    | simp only [memOk_mk] | split | dsimp only

theorem memOk_execVhRefresh {a0 a1} (h2 : State.memOk a1) :
    OutOk ((execVhRefresh a0 a1)) := by
  unfold execVhRefresh
  try dsimp only
  repeat' first
    | with_reducible assumption | intro _
    | (with_reducible first
        | apply memOk_ite | apply wf_of_memOk | apply outOk_next | apply outOk_ite | apply memOk_foldl
        | apply memOk_State_raiseClocks | apply memOk_State_onVdev | apply memOk_State_tellPeers)
    | simp only [memOk_mk] | split | dsimp only

theorem memOk_execVhRefreshComplete {a0 a1} (h2 : State.memOk a1) :
    OutOk ((execVhRefreshComplete a0 a1)) := by
  unfold execVhRefreshComplete
  try dsimp only
  repeat' first
    | with_reducible assumption | intro _
    | (with_reducible first
        | apply memOk_ite | apply wf_of_memOk | apply outOk_next | apply outOk_ite | apply memOk_foldl
        | apply memOk_State_onVdev | apply memOk_State_tellPeers)
    | simp only [memOk_mk] | split | dsimp only

theorem memOk_State_onLine {a0 a1 a2} (h1 : State.memOk a0) :
    State.memOk (State.onLine a0 a1 a2) := by
  unfold State.onLine
  try dsimp only
  repeat' first
    | with_reducible assumption | intro _
    | (with_reducible first | apply memOk_ite | apply wf_of_memOk | apply memOk_foldl)
    | simp only [memOk_mk] | split | dsimp only

theorem memOk_execFillAtHome {a0 a1} (h2 : State.memOk a1) :
    OutOk ((execFillAtHome a0 a1)) := by
  unfold execFillAtHome
  try dsimp only
  repeat' first
    | with_reducible assumption | intro _
    | (with_reducible first
        | apply memOk_ite | apply wf_of_memOk | apply outOk_next | apply outOk_ite | apply optOk_none
        | apply optOk_some | apply optOk_ite | apply optOk_map_mem | apply optOk_map_snd | apply optOk_map_any
        | apply optOk_findSome | apply optOk_bind | apply optOk_orElse | apply memOk_getD | apply memOk_foldl
        | apply memOk_State_takeHeld | apply memOk_State_takeHome | apply memOk_State_bring | apply memOk_State_hold
        | apply memOk_State_hwPost | apply memOk_State_onLine | apply memOk_State_readEntry | apply memOk_State_send)
    | with_reducible refine memOk_State_takeHeld_eq (by assumption) ?_
    | with_reducible refine memOk_State_takeHome_eq (by assumption) ?_
    | with_reducible refine memOk_State_takeHeld_eq2 (by assumption) ?_
    | with_reducible refine memOk_State_takeHome_eq2 (by assumption) ?_
    | with_reducible refine memOk_of_next (by assumption) ?_
    | with_reducible refine memOk_of_some_snd (by assumption) ?_
    | with_reducible refine memOk_of_some (by assumption) ?_
    | with_reducible refine memOk_of_some_fst (by assumption) ?_
    | simp only [memOk_mk] | split | dsimp only

theorem memOk_execWriteBackGrant {a0 a1} (h2 : State.memOk a1) :
    OutOk ((execWriteBackGrant a0 a1)) := by
  unfold execWriteBackGrant
  try dsimp only
  repeat' first
    | with_reducible assumption | intro _
    | (with_reducible first
        | apply memOk_ite | apply wf_of_memOk | apply outOk_next | apply outOk_ite | apply memOk_foldl
        | apply memOk_State_arbGrant)
    | simp only [memOk_mk] | split | dsimp only

theorem memOk_State_install {a0 a1 a2 a3 a4 a5} (h1 : State.memOk a0) :
    State.memOk (State.install a0 a1 a2 a3 a4 a5) := by
  unfold State.install
  try dsimp only
  repeat' first
    | with_reducible assumption | intro _
    | (with_reducible first
        | apply memOk_ite | apply wf_of_memOk | apply memOk_foldl | apply memOk_State_count
        | apply memOk_State_setCore)
    | simp only [memOk_mk] | split | dsimp only

theorem memOk_execFillReply {a0 a1} (h2 : State.memOk a1) :
    OutOk ((execFillReply a0 a1)) := by
  unfold execFillReply
  try dsimp only
  repeat' first
    | with_reducible assumption | intro _
    | (with_reducible first
        | apply memOk_ite | apply wf_of_memOk | apply outOk_next | apply outOk_ite | apply optOk_none
        | apply optOk_some | apply optOk_ite | apply optOk_map_mem | apply optOk_map_snd | apply optOk_map_any
        | apply optOk_findSome | apply optOk_bind | apply optOk_orElse | apply memOk_getD | apply memOk_foldl
        | apply memOk_State_takePkt | apply memOk_State_onCore | apply memOk_State_install
        | apply memOk_State_finishLoad)
    | with_reducible refine memOk_State_takePkt_eq (by assumption) ?_
    | with_reducible refine memOk_State_takePkt_eq2 (by assumption) ?_
    | with_reducible refine memOk_of_next (by assumption) ?_
    | with_reducible refine memOk_of_some_snd (by assumption) ?_
    | with_reducible refine memOk_of_some (by assumption) ?_
    | with_reducible refine memOk_of_some_fst (by assumption) ?_
    | simp only [memOk_mk] | split | dsimp only

theorem memOk_State_takeSource {a0 a1} (h1 : State.memOk a0) :
    OptOk (fun r => State.memOk r) ((State.takeSource a0 a1)) := by
  unfold State.takeSource
  try dsimp only
  repeat' first
    | with_reducible assumption | intro _
    | (with_reducible first
        | apply memOk_ite | apply wf_of_memOk | apply optOk_none | apply optOk_some | apply optOk_ite
        | apply optOk_map_mem | apply optOk_map_snd | apply optOk_map_any | apply optOk_findSome | apply optOk_bind
        | apply optOk_orElse | apply memOk_getD | apply memOk_foldl | apply memOk_State_takeCluster
        | apply memOk_State_onCopy)
    | with_reducible refine memOk_State_takeCluster_eq (by assumption) ?_
    | with_reducible refine memOk_State_takeCluster_eq2 (by assumption) ?_
    | with_reducible refine memOk_of_next (by assumption) ?_
    | with_reducible refine memOk_of_some_snd (by assumption) ?_
    | with_reducible refine memOk_of_some (by assumption) ?_
    | with_reducible refine memOk_of_some_fst (by assumption) ?_
    | simp only [memOk_mk] | split | dsimp only

theorem memOk_State_takeSource_eq {a0 a1} {t} (e : State.takeSource a0 a1 = some t) (h1 : State.memOk a0)
    : State.memOk t :=
  (@memOk_State_takeSource a0 a1 h1).of _ e

theorem memOk_State_sourcePart {a0 a1 a2 a3 a4} (h1 : State.memOk a0) :
    State.memOk ((State.sourcePart a0 a1 a2 a3 a4)).2 := by
  unfold State.sourcePart
  try dsimp only
  repeat' first
    | with_reducible assumption | intro _
    | (with_reducible first | apply memOk_ite | apply wf_of_memOk | apply memOk_foldl | apply memOk_State_sourceBytes)
    | with_reducible refine memOk_State_sourceBytes_eq (by assumption) ?_
    | simp only [memOk_mk] | split | dsimp only

theorem memOk_State_sourcePart_eq {a0 a1 a2 a3 a4} {c1 t} (e : State.sourcePart a0 a1 a2 a3 a4 = (c1, t))
    (h1 : State.memOk a0) : State.memOk t := by
  have := @memOk_State_sourcePart a0 a1 a2 a3 a4 h1
  rwa [e] at this

theorem memOk_State_keepSource {a0 a1 a2 a3 a4 a5} (h1 : State.memOk a0) :
    State.memOk (State.keepSource a0 a1 a2 a3 a4 a5) := by
  unfold State.keepSource
  try dsimp only
  repeat' first
    | with_reducible assumption | intro _
    | (with_reducible first | apply memOk_ite | apply wf_of_memOk | apply memOk_foldl | apply memOk_State_onCopy)
    | simp only [memOk_mk] | split | dsimp only

theorem memOk_State_chunkSource {a0 a1 a2 a3 a4} (h1 : State.memOk a0) :
    State.memOk ((State.chunkSource a0 a1 a2 a3 a4)).2 := by
  unfold State.chunkSource
  try dsimp only
  repeat' first
    | with_reducible assumption | intro _
    | (with_reducible first
        | apply memOk_ite | apply wf_of_memOk | apply memOk_foldl | apply memOk_State_sourcePart
        | apply memOk_State_keepSource)
    | with_reducible refine memOk_State_sourcePart_eq (by assumption) ?_
    | simp only [memOk_mk] | split | dsimp only

theorem memOk_State_chunkSource_eq {a0 a1 a2 a3 a4} {c1 t} (e : State.chunkSource a0 a1 a2 a3 a4 = (c1, t))
    (h1 : State.memOk a0) : State.memOk t := by
  have := @memOk_State_chunkSource a0 a1 a2 a3 a4 h1
  rwa [e] at this

theorem memOk_State_issueChunk {a0 a1 a2} (h1 : State.memOk a0) :
    State.memOk (State.issueChunk a0 a1 a2) := by
  unfold State.issueChunk
  try dsimp only
  repeat' first
    | with_reducible assumption | intro _
    | (with_reducible first
        | apply memOk_ite | apply wf_of_memOk | apply memOk_foldl | apply memOk_State_chunkSource
        | apply memOk_State_onCopy | apply memOk_State_nearChunk | apply memOk_State_chunkTo)
    | with_reducible refine memOk_State_chunkSource_eq (by assumption) ?_
    | with_reducible refine memOk_State_chunkTo_eq (by assumption) ?_
    | simp only [memOk_mk] | split | dsimp only

theorem memOk_execChunkIssue {a0 a1} (h2 : State.memOk a1) :
    OutOk ((execChunkIssue a0 a1)) := by
  unfold execChunkIssue
  try dsimp only
  repeat' first
    | with_reducible assumption | intro _
    | (with_reducible first
        | apply memOk_ite | apply wf_of_memOk | apply outOk_next | apply outOk_ite | apply optOk_none
        | apply optOk_some | apply optOk_ite | apply optOk_map_mem | apply optOk_map_snd | apply optOk_map_any
        | apply optOk_findSome | apply optOk_bind | apply optOk_orElse | apply memOk_getD | apply memOk_foldl
        | apply memOk_State_takeSource | apply memOk_State_issueChunk | apply memOk_State_onCluster)
    | with_reducible refine memOk_State_takeSource_eq (by assumption) ?_
    | with_reducible refine memOk_of_next (by assumption) ?_
    | with_reducible refine memOk_of_some_snd (by assumption) ?_
    | with_reducible refine memOk_of_some (by assumption) ?_
    | with_reducible refine memOk_of_some_fst (by assumption) ?_
    | simp only [memOk_mk] | split | dsimp only

theorem memOk_State_chunkLanded {a0 a1 a2 a3} (h1 : State.memOk a0) :
    State.memOk (State.chunkLanded a0 a1 a2 a3) := by
  unfold State.chunkLanded
  try dsimp only
  repeat' first
    | with_reducible assumption | intro _
    | (with_reducible first | apply memOk_ite | apply wf_of_memOk | apply memOk_foldl | apply memOk_State_onCopy)
    | simp only [memOk_mk] | split | dsimp only

theorem memOk_State_ackChunk {a0 a1 a2} (h1 : State.memOk a0) :
    State.memOk (State.ackChunk a0 a1 a2) := by
  unfold State.ackChunk
  try dsimp only
  repeat' first
    | with_reducible assumption | intro _
    | (with_reducible first
        | apply memOk_ite | apply wf_of_memOk | apply memOk_foldl | apply memOk_State_send
        | apply memOk_State_deliver)
    | simp only [memOk_mk] | split | dsimp only

theorem memOk_execChunkLanding {a0 a1} (h2 : State.memOk a1) :
    OutOk ((execChunkLanding a0 a1)) := by
  unfold execChunkLanding
  try dsimp only
  repeat' first
    | with_reducible assumption | intro _
    | (with_reducible first
        | apply memOk_ite | apply wf_of_memOk | apply outOk_next | apply outOk_ite | apply optOk_none
        | apply optOk_some | apply optOk_ite | apply optOk_map_mem | apply optOk_map_snd | apply optOk_map_any
        | apply optOk_findSome | apply optOk_bind | apply optOk_orElse | apply memOk_getD | apply memOk_foldl
        | apply memOk_State_takeHeld | apply memOk_State_takePkt | apply memOk_State_takeHome
        | apply memOk_State_chunkLanded | apply memOk_State_ackChunk | apply memOk_State_chunkPoison
        | apply memOk_State_spadWrite | apply memOk_State_hold | apply memOk_State_bring
        | apply memOk_State_writeBytes | apply memOk_State_publish)
    | with_reducible refine memOk_State_takeHeld_eq (by assumption) ?_
    | with_reducible refine memOk_State_takePkt_eq (by assumption) ?_
    | with_reducible refine memOk_State_takeHome_eq (by assumption) ?_
    | with_reducible refine memOk_State_takeHeld_eq2 (by assumption) ?_
    | with_reducible refine memOk_State_takePkt_eq2 (by assumption) ?_
    | with_reducible refine memOk_State_takeHome_eq2 (by assumption) ?_
    | with_reducible refine memOk_of_next (by assumption) ?_
    | with_reducible refine memOk_of_some_snd (by assumption) ?_
    | with_reducible refine memOk_of_some (by assumption) ?_
    | with_reducible refine memOk_of_some_fst (by assumption) ?_
    | simp only [memOk_mk] | split | dsimp only

theorem memOk_execStampPacket {a0 a1} (h2 : State.memOk a1) :
    OutOk ((execStampPacket a0 a1)) := by
  unfold execStampPacket
  try dsimp only
  repeat' first
    | with_reducible assumption | intro _
    | (with_reducible first
        | apply memOk_ite | apply wf_of_memOk | apply outOk_next | apply outOk_ite | apply optOk_none
        | apply optOk_some | apply optOk_ite | apply optOk_map_mem | apply optOk_map_snd | apply optOk_map_any
        | apply optOk_findSome | apply optOk_bind | apply optOk_orElse | apply memOk_getD | apply memOk_foldl
        | apply memOk_State_takeHome | apply memOk_State_reply)
    | with_reducible refine memOk_State_takeHome_eq (by assumption) ?_
    | with_reducible refine memOk_State_takeHome_eq2 (by assumption) ?_
    | with_reducible refine memOk_of_next (by assumption) ?_
    | with_reducible refine memOk_of_some_snd (by assumption) ?_
    | with_reducible refine memOk_of_some (by assumption) ?_
    | with_reducible refine memOk_of_some_fst (by assumption) ?_
    | simp only [memOk_mk] | split | dsimp only

theorem memOk_State_takePost {a0 a1} (h1 : State.memOk a0) :
    OptOk (fun r => State.memOk (r).2) ((State.takePost a0 a1)) := by
  unfold State.takePost
  try dsimp only
  repeat' first
    | with_reducible assumption | intro _
    | (with_reducible first
        | apply memOk_ite | apply wf_of_memOk | apply optOk_none | apply optOk_some | apply optOk_ite
        | apply optOk_map_mem | apply optOk_map_snd | apply optOk_map_any | apply optOk_findSome | apply optOk_bind
        | apply optOk_orElse | apply memOk_getD | apply memOk_foldl)
    | with_reducible refine memOk_of_next (by assumption) ?_
    | with_reducible refine memOk_of_some_snd (by assumption) ?_
    | with_reducible refine memOk_of_some (by assumption) ?_
    | with_reducible refine memOk_of_some_fst (by assumption) ?_
    | simp only [memOk_mk] | split | dsimp only

theorem memOk_State_takePost_eq {a0 a1} {c1 t} (e : State.takePost a0 a1 = some (c1, t)) (h1 : State.memOk a0)
    : State.memOk t :=
  (@memOk_State_takePost a0 a1 h1).of _ e
theorem memOk_State_takePost_eq2 {a0 a1} {r} (e : State.takePost a0 a1 = some r)
    (h1 : State.memOk a0) : State.memOk (r).2 :=
  (@memOk_State_takePost a0 a1 h1).of _ e

theorem memOk_execPostArrival {a0 a1} (h2 : State.memOk a1) :
    OutOk ((execPostArrival a0 a1)) := by
  unfold execPostArrival
  try dsimp only
  repeat' first
    | with_reducible assumption | intro _
    | (with_reducible first
        | apply memOk_ite | apply wf_of_memOk | apply outOk_next | apply outOk_ite | apply optOk_none
        | apply optOk_some | apply optOk_ite | apply optOk_map_mem | apply optOk_map_snd | apply optOk_map_any
        | apply optOk_findSome | apply optOk_bind | apply optOk_orElse | apply memOk_getD | apply memOk_foldl
        | apply memOk_State_takePost | apply memOk_State_asDevice | apply memOk_State_addReadyAt
        | apply memOk_State_reply)
    | with_reducible refine memOk_State_takePost_eq (by assumption) ?_
    | with_reducible refine memOk_State_takePost_eq2 (by assumption) ?_
    | with_reducible refine memOk_of_next (by assumption) ?_
    | with_reducible refine memOk_of_some_snd (by assumption) ?_
    | with_reducible refine memOk_of_some (by assumption) ?_
    | with_reducible refine memOk_of_some_fst (by assumption) ?_
    | simp only [memOk_mk] | split | dsimp only

theorem memOk_execPostStatus {a0 a1} (h2 : State.memOk a1) :
    OutOk ((execPostStatus a0 a1)) := by
  unfold execPostStatus
  try dsimp only
  repeat' first
    | with_reducible assumption | intro _
    | (with_reducible first
        | apply memOk_ite | apply wf_of_memOk | apply outOk_next | apply outOk_ite | apply optOk_none
        | apply optOk_some | apply optOk_ite | apply optOk_map_mem | apply optOk_map_snd | apply optOk_map_any
        | apply optOk_findSome | apply optOk_bind | apply optOk_orElse | apply memOk_getD | apply memOk_foldl
        | apply memOk_State_takePkt | apply memOk_State_asDevice | apply memOk_State_statusBack)
    | with_reducible refine memOk_State_takePkt_eq (by assumption) ?_
    | with_reducible refine memOk_State_takePkt_eq2 (by assumption) ?_
    | with_reducible refine memOk_of_next (by assumption) ?_
    | with_reducible refine memOk_of_some_snd (by assumption) ?_
    | with_reducible refine memOk_of_some (by assumption) ?_
    | with_reducible refine memOk_of_some_fst (by assumption) ?_
    | simp only [memOk_mk] | split | dsimp only

theorem memOk_State_skip {a0 a1 a2 a3} (h1 : State.memOk a0) :
    State.memOk (State.skip a0 a1 a2 a3) := by
  unfold State.skip
  try dsimp only
  repeat' first
    | with_reducible assumption | intro _
    | (with_reducible first | apply memOk_ite | apply wf_of_memOk | apply memOk_foldl)
    | simp only [memOk_mk] | split | dsimp only

theorem memOk_State_skipPkt {a0 a1 a2} (h1 : State.memOk a0) :
    State.memOk (State.skipPkt a0 a1 a2) := by
  unfold State.skipPkt
  try dsimp only
  repeat' first
    | with_reducible assumption | intro _
    | (with_reducible first
        | apply memOk_ite | apply wf_of_memOk | apply memOk_foldl | apply memOk_State_sendSkip
        | apply memOk_State_skip)
    | simp only [memOk_mk] | split | dsimp only

theorem memOk_State_moveHop {a0 a1 a2} (h1 : State.memOk a0) :
    State.memOk (State.moveHop a0 a1 a2) := by
  unfold State.moveHop
  try dsimp only
  repeat' first
    | with_reducible assumption | intro _
    | (with_reducible first
        | apply memOk_ite | apply wf_of_memOk | apply memOk_foldl | apply memOk_State_leftInj
        | apply memOk_State_unreachable | apply memOk_State_refuse | apply memOk_State_skip
        | apply memOk_State_skipPkt)
    | simp only [memOk_mk] | split | dsimp only

theorem memOk_State_meshGrant {a0 a1} (h1 : State.memOk a0) :
    State.memOk (State.meshGrant a0 a1) := by
  unfold State.meshGrant
  try dsimp only
  repeat' first
    | with_reducible assumption | intro _
    | (with_reducible first
        | apply memOk_ite | apply wf_of_memOk | apply memOk_foldl | apply memOk_State_moveHop
        | apply memOk_State_setArb)
    | simp only [memOk_mk] | split | dsimp only

theorem memOk_State_emit {a0 a1 a2} (h1 : State.memOk a0) :
    State.memOk (State.emit a0 a1 a2) := by
  unfold State.emit
  try dsimp only
  repeat' first
    | with_reducible assumption | intro _
    | (with_reducible first | apply memOk_ite | apply wf_of_memOk | apply memOk_foldl | apply memOk_State_onSluice)
    | simp only [memOk_mk] | split | dsimp only

theorem memOk_State_emitSkips {a0 a1 a2} (h1 : State.memOk a0) :
    State.memOk (State.emitSkips a0 a1 a2) := by
  unfold State.emitSkips
  try dsimp only
  repeat' first
    | with_reducible assumption | intro _
    | (with_reducible first | apply memOk_ite | apply wf_of_memOk | apply memOk_foldl | apply memOk_State_emit)
    | simp only [memOk_mk] | split | dsimp only

theorem memOk_State_sluiceGrant {a0 a1} (h1 : State.memOk a0) :
    State.memOk (State.sluiceGrant a0 a1) := by
  unfold State.sluiceGrant
  try dsimp only
  repeat' first
    | with_reducible assumption | intro _
    | (with_reducible first
        | apply memOk_ite | apply wf_of_memOk | apply memOk_foldl | apply memOk_State_skip
        | apply memOk_State_onSluice | apply memOk_State_unreachable | apply memOk_State_setArb
        | apply memOk_State_emit | apply memOk_State_emitSkips)
    | simp only [memOk_mk] | split | dsimp only

theorem memOk_execArbiterGrant {a0 a1 a2} (h3 : State.memOk a2) :
    OutOk ((execArbiterGrant a0 a1 a2)) := by
  unfold execArbiterGrant
  try dsimp only
  repeat' first
    | with_reducible assumption | intro _
    | (with_reducible first
        | apply memOk_ite | apply wf_of_memOk | apply outOk_next | apply outOk_ite | apply memOk_foldl
        | apply memOk_State_meshGrant | apply memOk_State_sluiceGrant | apply memOk_State_arbGrant)
    | simp only [memOk_mk] | split | dsimp only

theorem memOk_State_freeReply {a0 a1 a2} (h1 : State.memOk a0) :
    State.memOk (State.freeReply a0 a1 a2) := by
  unfold State.freeReply
  try dsimp only
  repeat' first
    | with_reducible assumption | intro _
    | (with_reducible first
        | apply memOk_ite | apply wf_of_memOk | apply memOk_foldl | apply memOk_State_freeReq
        | apply memOk_State_freeChunk | apply memOk_State_onCore)
    | simp only [memOk_mk] | split | dsimp only

theorem memOk_execNiDelivery {a0 a1} (h2 : State.memOk a1) :
    OutOk ((execNiDelivery a0 a1)) := by
  unfold execNiDelivery
  try dsimp only
  repeat' first
    | with_reducible assumption | intro _
    | (with_reducible first
        | apply memOk_ite | apply wf_of_memOk | apply outOk_next | apply outOk_ite | apply memOk_foldl
        | apply memOk_State_applySkips | apply memOk_State_onSluice | apply memOk_State_refuse
        | apply memOk_State_freeReply | apply memOk_State_send | apply memOk_State_accepted | apply memOk_State_onVdev
        | apply memOk_State_mmioWrite | apply memOk_State_deliver)
    | simp only [memOk_mk] | split | dsimp only

theorem memOk_execSluiceEgress {a0 a1} (h2 : State.memOk a1) :
    OutOk ((execSluiceEgress a0 a1)) := by
  unfold execSluiceEgress
  try dsimp only
  repeat' first
    | with_reducible assumption | intro _
    | (with_reducible first
        | apply memOk_ite | apply wf_of_memOk | apply outOk_next | apply outOk_ite | apply memOk_foldl
        | apply memOk_State_sluiceGrant)
    | simp only [memOk_mk] | split | dsimp only

theorem memOk_State_takeLink {a0 a1} (h1 : State.memOk a0) :
    State.memOk (State.takeLink a0 a1) := by
  unfold State.takeLink
  try dsimp only
  repeat' first
    | with_reducible assumption | intro _
    | (with_reducible first | apply memOk_ite | apply wf_of_memOk | apply memOk_foldl)
    | simp only [memOk_mk] | split | dsimp only

theorem memOk_execSluiceIngress {a0 a1 a2} (h3 : State.memOk a2) :
    OutOk ((execSluiceIngress a0 a1 a2)) := by
  unfold execSluiceIngress
  try dsimp only
  repeat' first
    | with_reducible assumption | intro _
    | (with_reducible first
        | apply memOk_ite | apply wf_of_memOk | apply outOk_next | apply outOk_ite | apply memOk_foldl
        | apply memOk_State_onSluice | apply memOk_State_takeLink | apply memOk_State_dropTag
        | apply memOk_State_sendSkip | apply memOk_State_skipPkt | apply memOk_State_refuse)
    | simp only [memOk_mk] | split | dsimp only

theorem memOk_State_refuseAwaited {a0 a1 a2} (h1 : State.memOk a0) :
    State.memOk (State.refuseAwaited a0 a1 a2) := by
  unfold State.refuseAwaited
  try dsimp only
  repeat' first
    | with_reducible assumption | intro _
    | (with_reducible first | apply memOk_ite | apply wf_of_memOk | apply memOk_foldl | apply memOk_State_onCore)
    | simp only [memOk_mk] | split | dsimp only

theorem memOk_execPortDown {a0 a1} (h2 : State.memOk a1) :
    OutOk ((execPortDown a0 a1)) := by
  unfold execPortDown
  try dsimp only
  repeat' first
    | with_reducible assumption | intro _
    | (with_reducible first
        | apply memOk_ite | apply wf_of_memOk | apply outOk_next | apply outOk_ite | apply memOk_foldl
        | apply memOk_State_report | apply memOk_State_onSluice | apply memOk_State_refuseAwaited)
    | simp only [memOk_mk] | split | dsimp only

theorem memOk_execBarrierNotice {a0 a1} (h2 : State.memOk a1) :
    OutOk ((execBarrierNotice a0 a1)) := by
  unfold execBarrierNotice
  try dsimp only
  repeat' first
    | with_reducible assumption | intro _
    | (with_reducible first
        | apply memOk_ite | apply wf_of_memOk | apply outOk_next | apply outOk_ite | apply optOk_none
        | apply optOk_some | apply optOk_ite | apply optOk_map_mem | apply optOk_map_snd | apply optOk_map_any
        | apply optOk_findSome | apply optOk_bind | apply optOk_orElse | apply memOk_getD | apply memOk_foldl
        | apply memOk_State_takePkt | apply memOk_State_asDevice | apply memOk_State_onCore
        | apply memOk_State_gbarTry | apply memOk_State_gbarAdvance)
    | with_reducible refine memOk_State_takePkt_eq (by assumption) ?_
    | with_reducible refine memOk_State_takePkt_eq2 (by assumption) ?_
    | with_reducible refine memOk_of_next (by assumption) ?_
    | with_reducible refine memOk_of_some_snd (by assumption) ?_
    | with_reducible refine memOk_of_some (by assumption) ?_
    | with_reducible refine memOk_of_some_fst (by assumption) ?_
    | simp only [memOk_mk] | split | dsimp only

theorem memOk_execAbortNotice {a0 a1} (h2 : State.memOk a1) :
    OutOk ((execAbortNotice a0 a1)) := by
  unfold execAbortNotice
  try dsimp only
  repeat' first
    | with_reducible assumption | intro _
    | (with_reducible first
        | apply memOk_ite | apply wf_of_memOk | apply outOk_next | apply outOk_ite | apply optOk_none
        | apply optOk_some | apply optOk_ite | apply optOk_map_mem | apply optOk_map_snd | apply optOk_map_any
        | apply optOk_findSome | apply optOk_bind | apply optOk_orElse | apply memOk_getD | apply memOk_foldl
        | apply memOk_State_takePkt | apply memOk_State_asDevice | apply memOk_State_abortOpen
        | apply memOk_State_onCore)
    | with_reducible refine memOk_State_takePkt_eq (by assumption) ?_
    | with_reducible refine memOk_State_takePkt_eq2 (by assumption) ?_
    | with_reducible refine memOk_of_next (by assumption) ?_
    | with_reducible refine memOk_of_some_snd (by assumption) ?_
    | with_reducible refine memOk_of_some (by assumption) ?_
    | with_reducible refine memOk_of_some_fst (by assumption) ?_
    | simp only [memOk_mk] | split | dsimp only

theorem memOk_execSliceEnd {a0 a1} (h2 : State.memOk a1) :
    OutOk ((execSliceEnd a0 a1)) := by
  unfold execSliceEnd
  try dsimp only
  repeat' first
    | with_reducible assumption | intro _
    | (with_reducible first
        | apply memOk_ite | apply wf_of_memOk | apply outOk_next | apply outOk_ite | apply memOk_foldl
        | apply memOk_State_endSlice)
    | simp only [memOk_mk] | split | dsimp only

theorem memOk_execSliceEarlyEnd {a0 a1} (h2 : State.memOk a1) :
    OutOk ((execSliceEarlyEnd a0 a1)) := by
  unfold execSliceEarlyEnd
  try dsimp only
  repeat' first
    | with_reducible assumption | intro _
    | (with_reducible first
        | apply memOk_ite | apply wf_of_memOk | apply outOk_next | apply outOk_ite | apply memOk_foldl
        | apply memOk_State_endSlice | apply memOk_State_onSag)
    | simp only [memOk_mk] | split | dsimp only

theorem memOk_execLaunch {a0 a1} (h2 : State.memOk a1) :
    OutOk ((execLaunch a0 a1)) := by
  unfold execLaunch
  try dsimp only
  repeat' first
    | with_reducible assumption | intro _
    | (with_reducible first
        | apply memOk_ite | apply wf_of_memOk | apply outOk_next | apply outOk_ite | apply memOk_foldl
        | apply memOk_State_launchDevice)
    | simp only [memOk_mk] | split | dsimp only

theorem memOk_execReset {a0 a1} (h2 : State.memOk a1) :
    OutOk ((execReset a0 a1)) := by
  unfold execReset
  try dsimp only
  repeat' first
    | with_reducible assumption | intro _
    | (with_reducible first
        | apply memOk_ite | apply wf_of_memOk | apply outOk_next | apply outOk_ite | apply memOk_foldl
        | apply memOk_State_resetDevice)
    | simp only [memOk_mk] | split | dsimp only

theorem memOk_execTeardown {a0 a1} (h2 : State.memOk a1) :
    OutOk ((execTeardown a0 a1)) := by
  unfold execTeardown
  try dsimp only
  repeat' first
    | with_reducible assumption | intro _
    | (with_reducible first
        | apply memOk_ite | apply wf_of_memOk | apply outOk_next | apply outOk_ite | apply memOk_foldl
        | apply memOk_State_teardownDevice)
    | simp only [memOk_mk] | split | dsimp only

theorem memOk_State_beginQuiet {a0 a1} (h1 : State.memOk a0) :
    State.memOk (State.beginQuiet a0 a1) := by
  unfold State.beginQuiet
  try dsimp only
  repeat' first
    | with_reducible assumption | intro _
    | (with_reducible first
        | apply memOk_ite | apply wf_of_memOk | apply memOk_foldl | apply memOk_State_onVdev | apply memOk_State_skip
        | apply memOk_State_endTeardown)
    | simp only [memOk_mk] | split | dsimp only

theorem memOk_execResetScan {a0 a1} (h2 : State.memOk a1) :
    OutOk ((execResetScan a0 a1)) := by
  unfold execResetScan
  try dsimp only
  repeat' first
    | with_reducible assumption | intro _
    | (with_reducible first
        | apply memOk_ite | apply wf_of_memOk | apply outOk_next | apply outOk_ite | apply memOk_foldl
        | apply memOk_State_onVdev | apply memOk_State_scanDevice | apply memOk_State_beginQuiet
        | apply memOk_State_resetDevice)
    | simp only [memOk_mk] | split | dsimp only

theorem memOk_execQuietMarker {a0 a1} (h2 : State.memOk a1) :
    OutOk ((execQuietMarker a0 a1)) := by
  unfold execQuietMarker
  try dsimp only
  repeat' first
    | with_reducible assumption | intro _
    | (with_reducible first
        | apply memOk_ite | apply wf_of_memOk | apply outOk_next | apply outOk_ite | apply memOk_foldl
        | apply memOk_State_onSluice | apply memOk_State_takeLink)
    | simp only [memOk_mk] | split | dsimp only

theorem memOk_execQuietAnswer {a0 a1 a2} (h3 : State.memOk a2) :
    OutOk ((execQuietAnswer a0 a1 a2)) := by
  unfold execQuietAnswer
  try dsimp only
  repeat' first
    | with_reducible assumption | intro _
    | (with_reducible first
        | apply memOk_ite | apply wf_of_memOk | apply outOk_next | apply outOk_ite | apply memOk_foldl
        | apply memOk_State_onSluice | apply memOk_State_takeLink | apply memOk_State_endTeardown
        | apply memOk_State_onVdev)
    | simp only [memOk_mk] | split | dsimp only

theorem memOk_State_raiseFence {a0 a1} (h1 : State.memOk a0) :
    State.memOk (State.raiseFence a0 a1) := by
  unfold State.raiseFence
  try dsimp only
  repeat' first
    | with_reducible assumption | intro _
    | (with_reducible first
        | apply memOk_ite | apply wf_of_memOk | apply memOk_foldl | apply memOk_State_onSag
        | apply memOk_State_onCluster | apply memOk_State_stampOwner | apply memOk_State_onCore)
    | simp only [memOk_mk] | split | dsimp only

theorem memOk_execSaggarContainment {a0 a1} (h2 : State.memOk a1) :
    OutOk ((execSaggarContainment a0 a1)) := by
  unfold execSaggarContainment
  try dsimp only
  repeat' first
    | with_reducible assumption | intro _
    | (with_reducible first
        | apply memOk_ite | apply wf_of_memOk | apply outOk_next | apply outOk_ite | apply memOk_foldl
        | apply memOk_State_raiseFence | apply memOk_State_loseOverflow | apply memOk_State_contain)
    | simp only [memOk_mk] | split | dsimp only

theorem memOk_execFenceFall {a0 a1} (h2 : State.memOk a1) :
    OutOk ((execFenceFall a0 a1)) := by
  unfold execFenceFall
  try dsimp only
  repeat' first
    | with_reducible assumption | intro _
    | (with_reducible first
        | apply memOk_ite | apply wf_of_memOk | apply outOk_next | apply outOk_ite | apply memOk_foldl
        | apply memOk_State_onSag)
    | simp only [memOk_mk] | split | dsimp only

theorem memOk_execAtsResponse {a0 a1 a2 a3} (h4 : State.memOk a3) :
    OutOk ((execAtsResponse a0 a1 a2 a3)) := by
  unfold execAtsResponse
  try dsimp only
  repeat' first
    | with_reducible assumption | intro _
    | (with_reducible first
        | apply memOk_ite | apply wf_of_memOk | apply outOk_next | apply outOk_ite | apply memOk_foldl
        | apply memOk_State_through | apply memOk_State_cache)
    | simp only [memOk_mk] | split | dsimp only

theorem memOk_execPageResponse {a0 a1 a2} (h3 : State.memOk a2) :
    OutOk ((execPageResponse a0 a1 a2)) := by
  unfold execPageResponse
  try dsimp only
  repeat' first
    | with_reducible assumption | intro _
    | (with_reducible first
        | apply memOk_ite | apply wf_of_memOk | apply outOk_next | apply outOk_ite | apply memOk_foldl
        | apply memOk_State_report | apply memOk_State_through | apply memOk_State_hwPost
        | apply memOk_State_readEntry)
    | simp only [memOk_mk] | split | dsimp only

theorem memOk_execAtsInvalidation {a0 a1 a2} (h3 : State.memOk a2) :
    OutOk ((execAtsInvalidation a0 a1 a2)) := by
  unfold execAtsInvalidation
  try dsimp only
  repeat' first
    | with_reducible assumption | intro _
    | (with_reducible first
        | apply memOk_ite | apply wf_of_memOk | apply outOk_next | apply outOk_ite | apply memOk_foldl
        | apply memOk_State_through | apply memOk_State_tellHost)
    | simp only [memOk_mk] | split | dsimp only

theorem memOk_execHostCxlMemRead {a0 a1 a2} (h3 : State.memOk a2) :
    OutOk ((execHostCxlMemRead a0 a1 a2)) := by
  unfold execHostCxlMemRead
  try dsimp only
  repeat' first
    | with_reducible assumption | intro _
    | (with_reducible first
        | apply memOk_ite | apply wf_of_memOk | apply outOk_next | apply outOk_ite | apply memOk_foldl
        | apply memOk_State_tellHost | apply memOk_State_through | apply memOk_State_bring
        | apply memOk_State_keepIngress)
    | simp only [memOk_mk] | split | dsimp only

theorem memOk_execHostCxlMemWrite {a0 a1 a2 a3} (h4 : State.memOk a3) :
    OutOk ((execHostCxlMemWrite a0 a1 a2 a3)) := by
  unfold execHostCxlMemWrite
  try dsimp only
  repeat' first
    | with_reducible assumption | intro _
    | (with_reducible first
        | apply memOk_ite | apply wf_of_memOk | apply outOk_next | apply outOk_ite | apply memOk_foldl
        | apply memOk_State_tellHost | apply memOk_State_through | apply memOk_State_bring
        | apply memOk_State_keepIngress | apply memOk_State_atomStep | apply memOk_State_setPoison
        | apply memOk_State_report)
    | with_reducible refine memOk_State_atomStep_eq (by assumption) ?_
    | simp only [memOk_mk] | split | dsimp only

theorem memOk_execTeamstgWrite {a0 a1} (h2 : State.memOk a1) :
    OutOk ((execTeamstgWrite a0 a1)) := by
  unfold execTeamstgWrite
  try dsimp only
  repeat' first
    | with_reducible assumption | intro _
    | (with_reducible first
        | apply memOk_ite | apply wf_of_memOk | apply outOk_next | apply outOk_ite | apply memOk_foldl
        | apply memOk_State_csrStep)
    | simp only [memOk_mk] | split | dsimp only

theorem memOk_execKtolKfloorWrite {a0 a1 a2} (h3 : State.memOk a2) :
    OutOk ((execKtolKfloorWrite a0 a1 a2)) := by
  unfold execKtolKfloorWrite
  try dsimp only
  repeat' first
    | with_reducible assumption | intro _
    | (with_reducible first
        | apply memOk_ite | apply wf_of_memOk | apply outOk_next | apply outOk_ite | apply memOk_foldl
        | apply memOk_State_csrStep)
    | simp only [memOk_mk] | split | dsimp only

theorem memOk_execSuccCsrWrite {a0 a1} (h2 : State.memOk a1) :
    OutOk ((execSuccCsrWrite a0 a1)) := by
  unfold execSuccCsrWrite
  try dsimp only
  repeat' first
    | with_reducible assumption | intro _
    | (with_reducible first
        | apply memOk_ite | apply wf_of_memOk | apply outOk_next | apply outOk_ite | apply memOk_foldl
        | apply memOk_State_csrStep)
    | simp only [memOk_mk] | split | dsimp only

theorem memOk_execTbctlWithdraw {a0} (h1 : State.memOk a0) :
    OutOk ((execTbctlWithdraw a0)) := by
  unfold execTbctlWithdraw
  try dsimp only
  repeat' first
    | with_reducible assumption | intro _
    | (with_reducible first
        | apply memOk_ite | apply wf_of_memOk | apply outOk_next | apply outOk_ite | apply memOk_foldl
        | apply memOk_State_csrStep)
    | simp only [memOk_mk] | split | dsimp only

theorem memOk_execBkcfgWrite {a0 a1} (h2 : State.memOk a1) :
    OutOk ((execBkcfgWrite a0 a1)) := by
  unfold execBkcfgWrite
  try dsimp only
  repeat' first
    | with_reducible assumption | intro _
    | (with_reducible first
        | apply memOk_ite | apply wf_of_memOk | apply outOk_next | apply outOk_ite | apply memOk_foldl
        | apply memOk_State_csrStep)
    | simp only [memOk_mk] | split | dsimp only

theorem memOk_execSgrectWrite {a0 a1} (h2 : State.memOk a1) :
    OutOk ((execSgrectWrite a0 a1)) := by
  unfold execSgrectWrite
  try dsimp only
  repeat' first
    | with_reducible assumption | intro _
    | (with_reducible first
        | apply memOk_ite | apply wf_of_memOk | apply outOk_next | apply outOk_ite | apply memOk_foldl
        | apply memOk_State_csrStep)
    | simp only [memOk_mk] | split | dsimp only

theorem memOk_execRegisterWrite {a0 a1 a2} (h3 : State.memOk a2) :
    OutOk ((execRegisterWrite a0 a1 a2)) := by
  unfold execRegisterWrite
  try dsimp only
  repeat' first
    | with_reducible assumption | intro _
    | (with_reducible first
        | apply memOk_ite | apply wf_of_memOk | apply outOk_next | apply outOk_ite | apply memOk_foldl
        | apply memOk_State_csrStep)
    | simp only [memOk_mk] | split | dsimp only

theorem memOk_execIllegalInstructionWord {a0 a1} (h2 : State.memOk a1) :
    OutOk ((execIllegalInstructionWord a0 a1)) := by
  unfold execIllegalInstructionWord
  try dsimp only
  repeat' first
    | with_reducible assumption | intro _
    | (with_reducible first
        | apply memOk_ite | apply wf_of_memOk | apply outOk_next | apply outOk_ite | apply memOk_foldl
        | apply memOk_State_startGate | apply memOk_State_checker | apply memOk_State_trap)
    | with_reducible refine memOk_State_startGate_eq (by assumption) ?_
    | with_reducible refine memOk_State_checker_eq (by assumption) ?_
    | with_reducible refine memOk_State_startGate_eq2 (by assumption) ?_
    | with_reducible refine memOk_State_checker_eq2 (by assumption) ?_
    | simp only [memOk_mk] | split | dsimp only

theorem memOk_execInstructionFetchFault {a0 a1} (h2 : State.memOk a1) :
    OutOk ((execInstructionFetchFault a0 a1)) := by
  unfold execInstructionFetchFault
  try dsimp only
  repeat' first
    | with_reducible assumption | intro _
    | (with_reducible first
        | apply memOk_ite | apply wf_of_memOk | apply outOk_next | apply outOk_ite | apply memOk_foldl
        | apply memOk_State_startGate | apply memOk_State_checker | apply memOk_State_trap)
    | with_reducible refine memOk_State_startGate_eq (by assumption) ?_
    | with_reducible refine memOk_State_checker_eq (by assumption) ?_
    | with_reducible refine memOk_State_startGate_eq2 (by assumption) ?_
    | with_reducible refine memOk_State_checker_eq2 (by assumption) ?_
    | simp only [memOk_mk] | split | dsimp only

theorem memOk_execLeaseGrantTermExpiry {a0 a1} (h2 : State.memOk a1) :
    OutOk ((execLeaseGrantTermExpiry a0 a1)) := by
  unfold execLeaseGrantTermExpiry
  try dsimp only
  repeat' first
    | with_reducible assumption | intro _
    | (with_reducible first
        | apply memOk_ite | apply wf_of_memOk | apply outOk_next | apply outOk_ite | apply memOk_foldl
        | apply memOk_State_onKiln)
    | simp only [memOk_mk] | split | dsimp only

theorem memOk_State_cleanHost {a0 a1} (h1 : State.memOk a0) :
    State.memOk (State.cleanHost a0 a1) := by
  unfold State.cleanHost
  try dsimp only
  repeat' first
    | with_reducible assumption | intro _
    | (with_reducible first | apply memOk_ite | apply wf_of_memOk | apply memOk_foldl | apply memOk_State_writeBack)
    | simp only [memOk_mk] | split | dsimp only

theorem memOk_execCxlCacheHostSnoop {a0 a1 a2} (h3 : State.memOk a2) :
    OutOk ((execCxlCacheHostSnoop a0 a1 a2)) := by
  unfold execCxlCacheHostSnoop
  try dsimp only
  repeat' first
    | with_reducible assumption | intro _
    | (with_reducible first
        | apply memOk_ite | apply wf_of_memOk | apply memory_write_wf | apply memory_write_foldl_wf | apply outOk_next
        | apply outOk_ite | apply startOk_ite | apply startOk_done | apply startOk_go | apply writtenOk_ite
        | apply writtenOk_ok | apply writtenOk_wait | apply writtenOk_illegal | apply optOk_none | apply optOk_some
        | apply optOk_ite | apply optOk_map_mem | apply optOk_map_snd | apply optOk_map_any | apply optOk_findSome
        | apply optOk_bind | apply optOk_orElse | apply memOk_getD | apply memOk_foldl | apply memOk_State_through
        | apply memOk_State_tellHost | apply memOk_State_cleanHost | apply memOk_State_evict
        | apply memOk_State_keepIngress)
    | exact outOk_fault _ | exact outOk_refused _
    | with_reducible refine memOk_of_next (by assumption) ?_
    | with_reducible refine memOk_of_some_snd (by assumption) ?_
    | with_reducible refine memOk_of_some (by assumption) ?_
    | with_reducible refine memOk_of_some_fst (by assumption) ?_
    | simp only [memOk_mk] | split | dsimp only

theorem memOk_exec {a0 a1} (h2 : State.memOk a1) :
    OutOk ((exec a0 a1)) := by
  unfold exec
  try dsimp only
  repeat' first
    | with_reducible assumption | intro _
    | (with_reducible first
        | apply memOk_ite | apply wf_of_memOk | apply outOk_next | apply outOk_ite | apply memOk_foldl
        | apply memOk_execLui | apply memOk_execAuipc | apply memOk_execJal | apply memOk_execJalr
        | apply memOk_execBeq | apply memOk_execBne | apply memOk_execBlt | apply memOk_execBge | apply memOk_execBltu
        | apply memOk_execBgeu | apply memOk_execLb | apply memOk_execLh | apply memOk_execLw | apply memOk_execLd
        | apply memOk_execLbu | apply memOk_execLhu | apply memOk_execLwu | apply memOk_execSb | apply memOk_execSh
        | apply memOk_execSw | apply memOk_execSd | apply memOk_execAddi | apply memOk_execSlti
        | apply memOk_execSltiu | apply memOk_execXori | apply memOk_execOri | apply memOk_execAndi
        | apply memOk_execSlli | apply memOk_execSrli | apply memOk_execSrai | apply memOk_execAddiw
        | apply memOk_execSlliw | apply memOk_execSrliw | apply memOk_execSraiw | apply memOk_execAdd
        | apply memOk_execSub | apply memOk_execSll | apply memOk_execSlt | apply memOk_execSltu | apply memOk_execXor
        | apply memOk_execSrl | apply memOk_execSra | apply memOk_execOr | apply memOk_execAnd | apply memOk_execMul
        | apply memOk_execMulh | apply memOk_execMulhsu | apply memOk_execMulhu | apply memOk_execDiv
        | apply memOk_execDivu | apply memOk_execRem | apply memOk_execRemu | apply memOk_execAddw
        | apply memOk_execSubw | apply memOk_execSllw | apply memOk_execSrlw | apply memOk_execSraw
        | apply memOk_execMulw | apply memOk_execDivw | apply memOk_execDivuw | apply memOk_execRemw
        | apply memOk_execRemuw | apply memOk_execFence | apply memOk_execFenceI | apply memOk_execEcall
        | apply memOk_execEbreak | apply memOk_execCsrrw | apply memOk_execCsrrs | apply memOk_execCsrrc
        | apply memOk_execCsrrwi | apply memOk_execCsrrsi | apply memOk_execCsrrci | apply memOk_execTend
        | apply memOk_execPost | apply memOk_execPoste | apply memOk_execSucc | apply memOk_execDlset
        | apply memOk_execDlclr | apply memOk_execSpawn | apply memOk_execClaim | apply memOk_execUnclaim
        | apply memOk_execHold | apply memOk_execUnhold | apply memOk_execHoldm | apply memOk_execUnholdm
        | apply memOk_execTbar | apply memOk_execGbar | apply memOk_execCarve | apply memOk_execAlign
        | apply memOk_execTbarq | apply memOk_execSend | apply memOk_execLdr | apply memOk_execLdrw
        | apply memOk_execTjmp | apply memOk_execQpush | apply memOk_execQpop | apply memOk_execQlen
        | apply memOk_execOne | apply memOk_execFmt | apply memOk_execTret | apply memOk_execTkill
        | apply memOk_execTfrd | apply memOk_execTfwr | apply memOk_execXinv | apply memOk_execCkpt
        | apply memOk_execRel | apply memOk_execAcq | apply memOk_execAcqm | apply memOk_execAcqg
        | apply memOk_execAcqv | apply memOk_execDrainS | apply memOk_execDrainG | apply memOk_execDrainR
        | apply memOk_execDrainK | apply memOk_execAtomAdd | apply memOk_execAtomAnd | apply memOk_execAtomOr
        | apply memOk_execAtomXor | apply memOk_execAtomMin | apply memOk_execAtomMax | apply memOk_execAtomMinu
        | apply memOk_execAtomMaxu | apply memOk_execAtomSwap | apply memOk_execAtomAddW | apply memOk_execAtomAndW
        | apply memOk_execAtomOrW | apply memOk_execAtomXorW | apply memOk_execAtomMinW | apply memOk_execAtomMaxW
        | apply memOk_execAtomMinuW | apply memOk_execAtomMaxuW | apply memOk_execAtomSwapW | apply memOk_execAtomCas
        | apply memOk_execAtomCasW | apply memOk_execRedAdd | apply memOk_execRedAddf | apply memOk_execRedMin
        | apply memOk_execRedMax | apply memOk_execRedAddW | apply memOk_execRedAddfW | apply memOk_execRedMinW
        | apply memOk_execRedMaxW | apply memOk_execCopy | apply memOk_execCopy2d | apply memOk_execCopyb
        | apply memOk_execCpcnt | apply memOk_execCopyq | apply memOk_execPref | apply memOk_execVspl
        | apply memOk_execVsplq | apply memOk_execVoutq | apply memOk_execVmv | apply memOk_execVlane
        | apply memOk_execVld | apply memOk_execVst | apply memOk_execVlds | apply memOk_execVgth
        | apply memOk_execVsct | apply memOk_execVadd | apply memOk_execVsub | apply memOk_execVmul
        | apply memOk_execVfma | apply memOk_execVmax | apply memOk_execVmin | apply memOk_execVabs
        | apply memOk_execVneg | apply memOk_execViadd | apply memOk_execVisub | apply memOk_execVimul
        | apply memOk_execVand | apply memOk_execVor | apply memOk_execVxor | apply memOk_execVshl
        | apply memOk_execVshr | apply memOk_execVsra | apply memOk_execViadds | apply memOk_execVcvt
        | apply memOk_execVcvti | apply memOk_execVcmpeq | apply memOk_execVcmplt | apply memOk_execVcmple
        | apply memOk_execVsel | apply memOk_execVbq | apply memOk_execVsum | apply memOk_execVrmax
        | apply memOk_execVrmin | apply memOk_execVperm | apply memOk_execVrot | apply memOk_execVexp2
        | apply memOk_execVrcp | apply memOk_execVrsq | apply memOk_execVlog2 | apply memOk_execVseed
        | apply memOk_execLease | apply memOk_execUnlease | apply memOk_execRingdef | apply memOk_execRingq
        | apply memOk_execRingadv | apply memOk_execKmma | apply memOk_execKmmas | apply memOk_execKmmat
        | apply memOk_execKmman | apply memOk_execKzero | apply memOk_execKld | apply memOk_execKst
        | apply memOk_execKrow | apply memOk_execKputrow | apply memOk_execKeep | apply memOk_execKscq
        | apply memOk_execKfac | apply memOk_execKtrsl | apply memOk_execKtrsu | apply memOk_execKmv
        | apply memOk_execKmvt | apply memOk_execKdiag | apply memOk_execKchkq | apply memOk_execKflg
        | apply memOk_execPowerOnBoot | apply memOk_execSetchip | apply memOk_execRun | apply memOk_execFkeyw
        | apply memOk_execMkeyw | apply memOk_execAttest | apply memOk_execEnqueue
        | apply memOk_execQueuePortOtherAccess | apply memOk_execDispatcherResolve
        | apply memOk_execDispatcherDelivery | apply memOk_execOccupancyReport | apply memOk_execPushFrame
        | apply memOk_execBoundaryTrap | apply memOk_execDeadlineExpiry | apply memOk_execReplyFill
        | apply memOk_execOneResultFill | apply memOk_execAlignTimeout | apply memOk_execBankRetention
        | apply memOk_execKilnVectorIssue | apply memOk_execLeaseGrant | apply memOk_execMatrixCommandIssue
        | apply memOk_execKilnCommandRetire | apply memOk_execSolveStepComplete | apply memOk_execScaleFrameDelivery
        | apply memOk_execKilnGate | apply memOk_execGapMeasurement | apply memOk_execConeReplan
        | apply memOk_execDramScrub | apply memOk_execErrctlWrite | apply memOk_execCheckpointTimer
        | apply memOk_execCompaction | apply memOk_execRecordAcknowledgement | apply memOk_execStaleNote
        | apply memOk_execInvalidation | apply memOk_execDirectoryPortSendNote
        | apply memOk_execDirectoryPortSendInvalidation | apply memOk_execAcquireQuery | apply memOk_execAcquireAnswer
        | apply memOk_execAcquireComplete | apply memOk_execVhRefresh | apply memOk_execVhRefreshComplete
        | apply memOk_execFillAtHome | apply memOk_execWriteBackGrant | apply memOk_execFillReply
        | apply memOk_execAtomAtHome | apply memOk_execReductionAtHome | apply memOk_execRemoteLoadAtTarget
        | apply memOk_execScratchpadRemoteAccess | apply memOk_execChunkIssue | apply memOk_execChunkLanding
        | apply memOk_execChunkAcknowledgement | apply memOk_execStampPacket | apply memOk_execCopyCompletion
        | apply memOk_execPostArrival | apply memOk_execPostStatus | apply memOk_execArbiterGrant
        | apply memOk_execNiDelivery | apply memOk_execSkipNotice | apply memOk_execRefusalAtSender
        | apply memOk_execSluiceEgress | apply memOk_execSluiceIngress | apply memOk_execLinkFrameResend
        | apply memOk_execPortDown | apply memOk_execBarrierNotice | apply memOk_execAbortNotice
        | apply memOk_execCarveOutApply | apply memOk_execSliceEnd | apply memOk_execSliceEarlyEnd
        | apply memOk_execLaunch | apply memOk_execReset | apply memOk_execTeardown | apply memOk_execResetScan
        | apply memOk_execQuietMarker | apply memOk_execQuietAnswer | apply memOk_execQuietHandshakeTimeout
        | apply memOk_execGenRefundNotice | apply memOk_execSaggarContainment | apply memOk_execFenceFall
        | apply memOk_execAtsResponse | apply memOk_execPageResponse | apply memOk_execAtsInvalidation
        | apply memOk_execHostCxlMemRead | apply memOk_execHostCxlMemWrite | apply memOk_execTeamstgWrite
        | apply memOk_execKtolKfloorWrite | apply memOk_execSuccCsrWrite | apply memOk_execTbctlWithdraw
        | apply memOk_execGbstatWithdraw | apply memOk_execBkcfgWrite | apply memOk_execSgrectWrite
        | apply memOk_execRegisterWrite | apply memOk_execIllegalInstructionWord
        | apply memOk_execInstructionFetchFault | apply memOk_execLeaseGrantTermExpiry
        | apply memOk_execCxlCacheHostSnoop)
    | simp only [memOk_mk] | split | dsimp only

theorem memOk_State_noWord {a0 a1} (h1 : State.memOk a0) :
    OutOk ((State.noWord a0 a1)) := by
  unfold State.noWord
  try dsimp only
  repeat' first
    | with_reducible assumption | intro _
    | (with_reducible first
        | apply memOk_ite | apply wf_of_memOk | apply outOk_next | apply outOk_ite | apply memOk_foldl
        | apply memOk_execInstructionFetchFault | apply memOk_State_trap | apply memOk_State_consume
        | apply memOk_State_stall)
    | simp only [memOk_mk] | split | dsimp only

theorem memOk_State_instrTurn {a0} (h1 : State.memOk a0) :
    OutOk ((State.instrTurn a0)) := by
  unfold State.instrTurn
  try dsimp only
  repeat' first
    | with_reducible assumption | intro _
    | (with_reducible first
        | apply memOk_ite | apply wf_of_memOk | apply outOk_next | apply outOk_ite | apply memOk_foldl
        | apply memOk_State_fetch | apply memOk_exec | apply memOk_execIllegalInstructionWord
        | apply memOk_State_noWord)
    | with_reducible refine memOk_State_fetch_eq (by assumption) ?_
    | simp only [memOk_mk] | split | dsimp only

theorem memOk_tickOut {a0 a1} (h2 : OutOk a1) :
    OutOk ((tickOut a0 a1)) := by
  cases a1 with
  | next t => exact outOk_next (memOk_State_spend (h2.of t rfl))
  | fault f => exact outOk_fault _
  | refused r => exact outOk_refused _

theorem memOk_State_pfWrite {a0 a1 a2 a3} (h1 : State.memOk a0) :
    State.memOk (State.pfWrite a0 a1 a2 a3) := by
  unfold State.pfWrite
  try dsimp only
  repeat' first
    | with_reducible assumption | intro _
    | (with_reducible first | apply memOk_ite | apply wf_of_memOk | apply memOk_foldl | apply memOk_State_mmioWrite)
    | simp only [memOk_mk] | split | dsimp only

theorem memOk_State_tellSpad {a0 a1 a2} (h1 : State.memOk a0) :
    State.memOk (State.tellSpad a0 a1 a2) := by
  unfold State.tellSpad
  try dsimp only
  repeat' first
    | with_reducible assumption | intro _
    | (with_reducible first | apply memOk_ite | apply wf_of_memOk | apply memOk_foldl)
    | simp only [memOk_mk] | split | dsimp only

theorem memOk_State_tellTab {a0 a1 a2 a3 a4} (h1 : State.memOk a0) :
    State.memOk (State.tellTab a0 a1 a2 a3 a4) := by
  unfold State.tellTab
  try dsimp only
  repeat' first
    | with_reducible assumption | intro _
    | (with_reducible first | apply memOk_ite | apply wf_of_memOk | apply memOk_foldl)
    | simp only [memOk_mk] | split | dsimp only

theorem memOk_State_linkAck {a0 a1} (h1 : State.memOk a0) :
    State.memOk (State.linkAck a0 a1) := by
  unfold State.linkAck
  try dsimp only
  repeat' first
    | with_reducible assumption | intro _
    | (with_reducible first | apply memOk_ite | apply wf_of_memOk | apply memOk_foldl | apply memOk_State_onSluice)
    | simp only [memOk_mk] | split | dsimp only

theorem memOk_State_reset  :
    State.memOk (State.reset) := rfl

theorem memOk_State_placeWord {a0 a1 a2} (h1 : State.memOk a0) :
    State.memOk (State.placeWord a0 a1 a2) := by
  unfold State.placeWord
  try dsimp only
  repeat' first
    | with_reducible assumption | intro _
    | (with_reducible first
        | apply memOk_ite | apply wf_of_memOk | apply memOk_foldl | apply memOk_State_setPoison
        | apply memOk_State_writeBytes | apply memOk_State_setCore | apply memOk_State_onSag)
    | simp only [memOk_mk] | split | dsimp only

theorem memOk_State_withFetchWord {a0 a1 a2} (h1 : State.memOk a0) :
    State.memOk (State.withFetchWord a0 a1 a2) := by
  unfold State.withFetchWord
  try dsimp only
  repeat' first
    | with_reducible assumption | intro _
    | (with_reducible first | apply memOk_ite | apply wf_of_memOk | apply memOk_foldl | apply memOk_State_placeWord)
    | simp only [memOk_mk] | split | dsimp only

end Sys2Proof.Machine
end

