-- ==== Sys2Proof/Laws/Posts.lean ====
section
/-! SUPPORT. What CXL ingress and a hardware post can do, said once each. -/

namespace Sys2Proof.Machine

/-! ### CXL ingress (R337, R339) -/

/-- A message acts, on the state that its pass leaves, exactly where its arbiter has passed it; else it waits and does
nothing else. -/
theorem through_cases (s : State) (v n : Nat) (f : State → State) :
    (∃ t, s.ingress v n = (true, t) ∧ s.through v n f = f t) ∨
    ∃ t, s.ingress v n = (false, t) ∧ s.through v n f = t := by
  unfold State.through
  match h : s.ingress v n with
  | (true, t) => exact .inl ⟨t, rfl, by simp [h]⟩
  | (false, t) => exact .inr ⟨t, rfl, by simp [h]⟩

/-- A message granted earlier passes without another grant, and leaves the list of those that wait. -/
theorem passArb_granted {s : State} {kind unit v cost : Nat}
    (h : s.asks.contains { msgAsk kind unit v cost with done := true } = true) :
    s.passArb kind unit v cost =
      (true, { s with asks := s.asks.erase { msgAsk kind unit v cost with done := true } }) := by
  unfold State.passArb
  simp only [h, if_true]

/-! ### Hardware posts (R25, R30, R32) -/

/-- A hardware post is dropped; or it adds a record to the core that runs its device; or it adds one to the saved context
of its device, and writes the images of that context's records. The core's counts of stamps and posts go with the last
two. -/
theorem hwPost_cases (s : State) (ep : Nat) (r : TaskRec) (p : Place) (o l : Bool) :
    s.hwPost ep r p o l = s ∨
    (∃ q, s.hwPost ep r p o l = s.setCore ep { s.core ep with
        ready := q, stampN := (s.core ep).stampN + 1, pseq := ((s.core ep).pseq + 1) % 2 ^ 32 }) ∨
    ∃ x q, tfind (s.core ep).saved r.vdev = some x ∧ s.hwPost ep r p o l =
      (s.setCore ep { s.core ep with
        stampN := (s.core ep).stampN + 1, pseq := ((s.core ep).pseq + 1) % 2 ^ 32 }).putSaved ep r.vdev
        { x with ready := q } := by
  unfold State.hwPost
  dsimp only
  split
  · exact .inl rfl
  · split
    · exact .inr (.inl ⟨_, rfl⟩)
    · split
      · next x h => exact .inr (.inr ⟨x, _, h, rfl⟩)
      · exact .inl rfl

end Sys2Proof.Machine
end

