-- ==== Sys2Proof/Laws/Window.lean ====
section
/-! SUPPORT. What waking the register banks leaves: the core but for its bank timers, locks, scratchpad bytes, and the
translation of the own window (R72, R118). -/

namespace Sys2Proof.Machine

/-- Waking changes only the bank timers of the current core. -/
theorem wake_core (s : State) (a b) : ∀ ep, ∃ x, (s.wake a b).core ep = { s.core ep with bankAt := x } := by
  intro ep
  obtain ⟨x, h⟩ := wake_eq s a b
  rw [h]
  by_cases e : ep = s.cur
  · subst e; exact ⟨x, by simp [State.me]⟩
  · exact ⟨(s.core ep).bankAt, by simp [core_setCore_other _ _ _ _ e]⟩

theorem wake_locked (s : State) (a b) (ep t va n st) :
    (s.wake a b).locked ep t va n st = s.locked ep t va n st := by
  obtain ⟨x, h2⟩ := wake_core s a b ep
  unfold State.locked
  simp only [h2]
  obtain ⟨x, h⟩ := wake_eq s a b
  rw [h]; rfl

theorem wake_spad (s : State) (a b) (e o n) : (s.wake a b).spadBytes e o n = s.spadBytes e o n := by
  obtain ⟨x, h⟩ := wake_eq s a b
  rw [h]
  unfold State.spadBytes
  generalize arrayBase e + o = p
  induction n generalizing p with
  | zero => rfl
  | succ n ih => simp only [State.readBytes, ih]; rfl

/-- An address of the own window names the own scratchpad (R118). -/
theorem wake_translate (s : State) (a b) (off n p) (k : Asker) (h1 : off < 131072)
    (h2 : off + n ≤ (s.core k.ep).carve.spadSize) :
    (s.wake a b).translate k (0x7E0000000000 + off) n p = (.spad k.ep off, s.wake a b) := by
  obtain ⟨x, h3⟩ := wake_core s a b k.ep
  have hw : (s.wake a b).window k.ep (0x7E0000000000 + off) n = .spad k.ep off := by
    unfold State.window
    rw [if_pos (by omega), h3, if_pos (by simpa using h2)]
    simp
  have hin : (decide (0x7E0000000000 ≤ 0x7E0000000000 + off) && decide (0x7E0000000000 + off < 0x7F0000000000)) = true := by
    simp; omega
  unfold State.translate
  rw [if_pos (by unfold State.noWalk; simp only [hin]; simp)]
  unfold State.lookup
  rw [if_neg (by simp [canonical]; omega), if_pos hin, hw]

end Sys2Proof.Machine
end

