-- ==== Sys2Proof/Tests/Witness.lean ====
section
/-! SUPPORT. For each statement, states and operands that meet its hypotheses, clause by clause. -/

namespace Sys2Proof.Tests

open Sys2Proof Sys2Proof.Machine

set_option Elab.async false

/-- Core 0 about to run a user task's word at 0x10000, in a page that grants R, W and X. -/
def st : State := State.reset.withFetchWord 32 0x13

/-- The state with a value in a register of the running frame. -/
def setx (s : State) (r : XReg) (v : Word) : State := s.setX r v

/-- First byte of the own scratchpad window. -/
def own : Word := 0x7E0000000000#64

/-- An access that translates to global memory, and what must hold of it. -/
def globThen (r : Target × State) (k : Xlat → State → Bool) : Bool :=
  match r with
  | (.glob x, u) => k x u
  | _ => false

/-- A read that answers its bytes, and what must hold of them. -/
def dataThen (r : Got × State) (k : List Byte → State → Bool) : Bool :=
  match r with
  | (.data b, u) => k b u
  | _ => false

/-! ### The machine as a whole -/

theorem test_hyp_EveryStepKeepsMemoryCanonical :
    Memory.wf st.mem = true ∧ (match step st with
      | .next _ => true
      | _ => false) = true := by decide +kernel

/-- One well-formed instruction of each kind of check. -/
theorem test_hyp_DecodingAnEncodedInstructionGivesItBack :
    [Instr.addi 31 31 0xFFF, .qpush 1 0 4, .vcvt 7 7 7 1 2, .vsum 7 7 0 1, .kmma 3 2 6 6 1, .kmmas 0 1 4 3 0, .kscq 1,
     .kflg 31 1].all (fun i => i.wellFormed) = true := by decide +kernel

/-- Reset gives every value of the statement at the last core, the highest level and the last device. -/
theorem test_hyp_ResetLeavesTheStatedValues :
    (State.reset.core 16383).run.deadm = 0xF00000E0#32 ∧ (State.reset.vdevOf 63).gen = 0 := by decide +kernel

/-- An ADDI, a word that is no instruction, and a PC that is no multiple of 4; and a cycle whose last group has acted. -/
theorem test_hyp_AStepRunsTheDecodedInstruction :
    ({ st with phase := 2 } : State).agenda = [] ∧ ({ st with phase := 2 } : State).late 1 = true ∧
    [(0x00500093, true), (0, false)].all (fun (e : Nat × Bool) =>
      let s := State.reset.withFetchWord 32 e.1
      s.agenda.isEmpty && !s.late 1 && s.atInstr && (match s.fetch s.frame.pc with
        | (.word w, u) => w.toNat == e.1 && (match decode w with
          | .ok _ => e.2
          | .error _ => !e.2) && u.frame.acq.isNone && u.me.upset == 0 && !u.me.breaks
        | _ => false)) = true ∧
    (let s := st.onFrame (fun f => { f with pc := 0x10002 })
     s.agenda.isEmpty && !s.late 1 && s.atInstr && (match s.fetch s.frame.pc with
       | (.fault c, u) => c == 8 && u.frame.acq.isNone && u.me.upset == 0 && !u.me.breaks
       | _ => false)) = true := by decide +kernel

/-! ### Base integer instructions -/

theorem test_hyp_ImmediateInstructionsWriteTheirResult :
    st.clear false [1] 2 = true ∧ st.clear false [0] 0 = true ∧ st.clear false [31] 31 = true := by decide +kernel

theorem test_hyp_RegisterInstructionsWriteTheirResult :
    st.clear false [1, 2] 3 = true ∧ st.clear false [31, 31] 31 = true := by decide +kernel

theorem test_hyp_MultiplicationsWriteTheExactProduct :
    (setx (setx st 1 0x8000000000000000) 2 (-1)).clear false [1, 2] 3 = true := by decide +kernel

/-- With a zero divisor, and with the most negative dividend and the divisor −1. -/
theorem test_hyp_DivisionFollowsTheCornerTable :
    (setx st 1 7).clear false [1, 2] 3 = true ∧
    (setx (setx st 1 0x8000000000000000) 2 (-1)).clear false [1, 2] 3 = true := by decide +kernel

/-- The PC is 0x10000: offsets of 0, of −0x10000 and of the greatest multiple of 4, and both outcomes of each
comparison. -/
theorem test_hyp_JumpsAndBranchesGoToTheirTarget :
    st.clear false [] 1 = true ∧
    (st.frame.pc + ((0 : BitVec 20) ++ (0 : BitVec 1)).signExtend 64).toNat % 4 = 0 ∧
    (st.frame.pc + ((0x7FFFE : BitVec 20) ++ (0 : BitVec 1)).signExtend 64).toNat % 4 = 0 ∧
    st.clear false [1] 0 = true ∧ ((st.x 1 + (0 : BitVec 12).signExtend 64) &&& ~~~1#64).toNat % 4 = 0 ∧
    st.clear false [1, 2] 0 = true ∧ st.x 1 = st.x 2 ∧
    (st.frame.pc + ((0x7FE : BitVec 12) ++ (0 : BitVec 1)).signExtend 64).toNat % 4 = 0 ∧
    (let s := setx st 1 (-1)
     s.clear false [1, 2] 0 = true ∧ s.x 1 ≠ s.x 2 ∧ (s.x 1).toInt < (s.x 2).toInt ∧ (s.x 2).toNat ≤ (s.x 1).toNat ∧
     (s.x 1).toInt ≤ (s.x 2).toInt ∧ (s.x 2).toNat < (s.x 1).toNat) := by decide +kernel

/-! ### Loads, stores and system registers -/

/-- The first 8 bytes of the own scratchpad are locked as a copy's destination. -/
def lockedSpad (s : State) : State :=
  s.onCluster 0 (fun c => { c with
    locks := [{ owner := 0, dst := true, space := .array 0, lo := arrayBase 0, len := 8, cores := [] }] })

/-- At the first byte of the own window, at its last bytes, and at a locked byte. -/
theorem test_hyp_LoadsReadTheOwnScratchpad :
    (let s := setx st 1 own
     s.clear false [1] 2 = true ∧ (s.x 1).toNat = 0x7E0000000000 + 0 ∧ 0 + 8 ≤ s.me.carve.spadSize ∧
     s.locked s.cur (.spad s.cur 0) (s.x 1).toNat 8 false = false ∧ s.anyPoison (arrayBase s.cur + 0) 8 = false) ∧
    (let off := st.me.carve.spadSize - 8
     let s := setx st 1 (own + BitVec.ofNat 64 off)
     s.clear false [1] 2 = true ∧ (s.x 1).toNat = 0x7E0000000000 + off ∧ off < 131072 ∧ off % 8 = 0 ∧
     off + 8 ≤ s.me.carve.spadSize ∧ s.locked s.cur (.spad s.cur off) (s.x 1).toNat 8 false = false ∧
     s.anyPoison (arrayBase s.cur + off) 8 = false) ∧
    (let s := lockedSpad (setx st 1 own)
     s.clear false [1] 2 = true ∧ s.locked s.cur (.spad s.cur 0) (s.x 1).toNat 1 false = true) := by decide +kernel

theorem test_hyp_StoresWriteTheOwnScratchpad :
    (let s := setx st 1 own
     s.clear false [1, 2] 0 = true ∧ 0 + 8 ≤ s.me.carve.spadSize ∧
     s.locked s.cur (.spad s.cur 0) (s.x 1).toNat 8 true = false) ∧
    (let off := st.me.carve.spadSize - 1
     let s := setx st 1 (own + BitVec.ofNat 64 off)
     s.clear false [1, 2] 0 = true ∧ (s.x 1).toNat = 0x7E0000000000 + off ∧ off < 131072 ∧
     off + 1 ≤ s.me.carve.spadSize ∧ s.locked s.cur (.spad s.cur off) (s.x 1).toNat 1 true = false) ∧
    (let s := lockedSpad (setx st 1 own)
     s.clear false [1, 2] 0 = true ∧ s.locked s.cur (.spad s.cur 0) (s.x 1).toNat 8 true = true) := by decide +kernel

theorem test_hyp_MisalignmentTraps :
    st.clear false [] 1 = true ∧ (st.frame.pc + ((1 : BitVec 20) ++ (0 : BitVec 1)).signExtend 64).toNat % 4 ≠ 0 ∧
    (let s := setx st 1 2
     s.clear false [1] 2 = true ∧ ((s.x 1 + (0 : BitVec 12).signExtend 64) &&& ~~~1#64).toNat % 4 ≠ 0 ∧
     (s.frame.pc + ((1 : BitVec 12) ++ (0 : BitVec 1)).signExtend 64).toNat % 4 ≠ 0 ∧
     s.clear false [1, 2] 0 = true ∧ s.x 1 ≠ s.x 2 ∧ (s.x 2).toInt ≤ (s.x 1).toInt ∧ (s.x 2).toNat ≤ (s.x 1).toNat ∧
     (s.x 2).toInt < (s.x 1).toInt ∧ (s.x 2).toNat < (s.x 1).toNat ∧ s.x 2 = s.x 0) ∧
    (let s := setx st 1 (own + 1)
     s.clear false [1] 2 = true ∧ s.clear false [1, 2] 0 = true ∧ (s.x 1).toNat % 2 ≠ 0 ∧ (s.x 1).toNat % 8 ≠ 0) := by
  decide +kernel

/-- A store to the task's own page. -/
theorem test_hyp_GlobalStoresGoToTheLog :
    let s := setx st 1 0x10000
    s.clear false [1, 2] 0 = true ∧ (s.x 1).toNat % 8 = 0 ∧
    globThen ((s.wake [1, 2] 0).translate (s.wake [1, 2] 0).asker (s.x 1).toNat 8 .w) (fun x t =>
      !t.locked t.cur (.glob x) (s.x 1).toNat 8 true && t.me.logRoom x == .ok) = true := by decide +kernel

/-- HOLDM, for writing and for reading; a register of another unit, before and after its stall. -/
theorem test_hyp_SystemRegistersAreReadAndWritten :
    let w := st.wake [1] 2
    st.clear false [1] 2 = true ∧ st.clear false [] 2 = true ∧ st.clear false [0] 2 = true ∧ w.csrOk 0x802 = true ∧
    csrReadOnly 0x802 = false ∧ w.me.csrWaits 0x802 = false ∧
    (let u := st.onFrame (fun f => { f with sup := true })
     u.clear false [1] 2 = true ∧ (u.wake [1] 2).csrOk 0x5D1 = true ∧ (u.wake [1] 2).me.csrWaits 0x5D1 = true ∧
     ({ (u.wake [1] 2).me with stalled := some .remoteCsr } : Core).csrWaits 0x5D1 = false) ∧
    (match w.csrWrite 0x802 5 with | .ok t => decide (t.frame.fid = w.frame.fid) | _ => false) = true := by
  decide +kernel

/-- An unnamed register, a supervisor register in a user frame and a read-only register; and a supervisor frame. -/
theorem test_hyp_RegisterWritesAndRefusals :
    st.clear false [1] 2 = true ∧ csrNamed 0xFFF = false ∧ csrSup 0x5C1 = true ∧ st.frame.sup = false ∧
    csrReadOnly 0xC00 = true ∧
    (let s := st.onFrame (fun f => { f with sup := true }); s.clear false [1] 2 = true ∧ s.frame.sup = true) := by
  decide +kernel

/-! ### Traps and tasks -/

/-- The device's trap table, at address 0x40000, with a valid entry for a cause: the handler's PC 0x10100, no frame,
supervisor rights. -/
def trapTable (s : State) (cause : Nat) : State :=
  (s.onMe (fun c => { c with csr := { c.csr with traptb := 0x40000 } })).writeBytes (0x40000 + 16 * cause)
    [0, 1, 1, 0, 0, 0, 0, 0, 0, 3]

/-- The state in a level-7 frame. -/
def atSeven (s : State) : State := s.onFrame (fun f => { f with level := 7 })

theorem test_hyp_TrapsPushTheHandlerFrame :
    (trapTable st 1).trapOpen 1 = true ∧ (trapTable st 27).trapOpen 27 = true ∧ (atSeven st).frame.level = 7 ∧
    (st.frame.level ≠ 7 ∧ st.me.loads = [] ∧ st.anyPoison (st.me.csr.traptb + 16 * 1) 16 = false ∧
      bitOf (natAt (st.trapEntry 1) 9 1) 0 = false) ∧
    (let s := (trapTable st 1).onFrame (fun f => { f with base := 0 })
     s.frame.level ≠ 7 ∧ s.me.loads = [] ∧ s.anyPoison (s.me.csr.traptb + 16 * 1) 16 = false ∧
       bitOf (natAt (s.trapEntry 1) 9 1) 0 = true ∧ s.me.fits (natAt (s.trapEntry 1) 8 1) = false) := by decide +kernel

theorem test_hyp_EnvironmentCallsAndBreakpointsTrap :
    (trapTable st 18).clear false [] 0 = true ∧ (trapTable st 18).trapOpen 18 = true ∧
    (trapTable st 19).clear false [] 0 = true ∧ (trapTable st 19).trapOpen 19 = true := by decide +kernel

/-- The state with frames beneath the running one. -/
def stacked (s : State) (l : List Frame) : State := s.onMe (fun c => { c with under := l })

/-- The state in a handler's frame, over a frame of task level 1 and the idle frame. -/
def inTrap : State :=
  (stacked st [{ st.frame with pc := 0x10080 }, Frame.idle 77824]).onFrame (fun f => { f with
    level := 7, fid := 9, trap := some { cause := 6, boundary := false, tval := 3 } })

/-- The state in a handler's frame that trapped from the idle frame. -/
def inIdleTrap : State := stacked inTrap [Frame.idle 77824]

/-- The state in a task's frame over the idle frame. -/
def inTask : State := stacked st [Frame.idle 77824]

/-- The state in the idle frame. -/
def inIdle : State := st.onFrame (fun f => { f with level := 0 })

theorem test_hyp_FramesEndAndTheFrameBeneathRuns :
    [inTrap, inIdleTrap, inTask, inIdle].all (fun s =>
      !s.winBad s.cur { st.frame with pc := 0x10080 } && !s.winBad s.cur (Frame.idle 77824)) = true ∧
    inTrap.me.loads = [] ∧ inIdleTrap.me.loads = [] ∧ inTask.me.loads = [] ∧ inIdle.me.loads = [] ∧
    (inTrap.clear false [] 0 = true ∧ inTrap.frame.trap.isSome = true ∧ inTrap.kilnBusy inTrap.cur inTrap.frame.level = false ∧
      inTrap.me.under = [{ st.frame with pc := 0x10080 }, Frame.idle 77824] ∧ inTrap.frame.level ≠ 0 ∧
      st.frame.level ≠ 0 ∧ inTrap.kilnBusy inTrap.cur st.frame.level = false) ∧
    (inIdleTrap.clear false [] 0 = true ∧ inIdleTrap.frame.trap.isSome = true ∧
      inIdleTrap.kilnBusy inIdleTrap.cur inIdleTrap.frame.level = false ∧ inIdleTrap.me.under = [Frame.idle 77824] ∧
      (Frame.idle 77824).level = 0 ∧ inIdleTrap.kilnBusy inIdleTrap.cur 0 = false) ∧
    (inTask.clear false [] 0 = true ∧ inTask.frame.trap = none ∧ inTask.frame.level ≠ 0 ∧
      inTask.kilnBusy inTask.cur inTask.frame.level = false ∧ inTask.me.under = [Frame.idle 77824]) ∧
    inIdle.clear false [] 0 = true ∧ inIdle.frame.level = 0 := by decide +kernel

/-- Every selector of an item, at the first and the last of its range. -/
theorem test_hyp_TrapItemsReadAndWriteTheTrappedFrame :
    [0, 31, 32, 33, 34, 35, 36, 37, 63].all (fun sel => (setx inTrap 1 sel).clear false [1] 2 &&
      (setx inTrap 1 sel).clear false [1, 2] 0) = true ∧
    inTrap.frame.trap = some { cause := 6, boundary := false, tval := 3 } ∧
    inTrap.me.under = { st.frame with pc := 0x10080 } :: [Frame.idle 77824] ∧
    st.frame.isFull 0 = true ∧ st.frame.isBusy 0 = false ∧ st.frame.isFull 31 = true ∧ st.frame.isBusy 31 = false ∧
    st.frame.trap = none ∧ st.clear false [1] 2 = true ∧ st.clear false [1, 2] 0 = true := by decide +kernel

/-- The state with the ceiling 5 for resources 0 and 63. -/
def ceiled (s : State) : State := s.onMe (fun c => { c with ceil := tset (tset c.ceil 0 5) 63 5 })

/-- Resources 0, 63 and 64, a resource without a ceiling, a ninth claim, and an UNCLAIM of the newest claim and of
another. -/
theorem test_hyp_ClaimsRaiseAndRestoreTheThreshold :
    [0, 63].all (fun (r : Word) => (setx (ceiled st) 1 r).clear false [1] 0 &&
      !(tget (setx (ceiled st) 1 r).me.ceil r.toNat 0 == 0)) = true ∧ (ceiled st).frame.claims.length < 8 ∧
    ((setx (ceiled st) 1 64).clear false [1] 0 = true ∧ 63 < ((setx (ceiled st) 1 64).x 1).toNat) ∧
    tget (setx (ceiled st) 1 7).me.ceil 7 0 = 0 ∧
    (let s := (ceiled st).onFrame (fun f => { f with claims := List.replicate 8 (0, 1) })
     s.clear false [1] 0 = true ∧ 8 ≤ s.frame.claims.length ∧ s.frame.claims = (0, 1) :: List.replicate 7 (0, 1)) ∧
    (∀ l rest, st.frame.claims ≠ (0, l) :: rest) := by
  refine ⟨by decide +kernel, by decide +kernel, by decide +kernel, by decide +kernel, by decide +kernel, fun l rest => ?_⟩
  have h : st.frame.claims = [] := by decide +kernel
  simp [h]

/-- HOLD of 0, 63 and 64. -/
theorem test_hyp_HoldsChangeTheHoldMask :
    (setx st 1 0).clear false [1] 0 = true ∧ ((setx st 1 0).x 1).toNat ≤ 63 ∧ (setx st 1 63).clear false [1] 0 = true ∧
    ((setx st 1 63).x 1).toNat ≤ 63 ∧ (setx st 1 64).clear false [1] 0 = true ∧ 63 < ((setx st 1 64).x 1).toNat := by
  decide +kernel

theorem test_hyp_SuccessorsAndDeadlinesAreArmed :
    st.clear false [0] 0 = true ∧ (setx st 1 0x10040).clear false [1] 0 = true ∧
    ((setx st 1 0x10040).x 1).toNat % 64 = 0 ∧ (setx st 1 1).clear false [1] 0 = true ∧
    ((setx st 1 1).x 1).toNat % 64 ≠ 0 ∧ (setx (setx st 1 0) 2 5).clear false [1, 2] 0 = true ∧ ((setx (setx st 1 0) 2 5).x 1).toNat = 0 ∧
    (setx st 1 1).clear false [1, 0] 0 = true ∧ ((setx st 1 1).x 1).toNat ≠ 0 ∧
    (setx st 1 (-1)).clear false [1, 0] 0 = true ∧ st.clear false [] 0 = true := by decide +kernel

/-- The state with entries in q0, q1, q2 and q4. -/
def queued (n : Nat) : State :=
  st.onKset (fun k => { k with q0 := List.replicate n 5, q1 := [6], q2 := [7], q4 := [8] })

theorem test_hyp_PrefixesCheckpointsAndQueues :
    st.clear false [] 0 = true ∧ (queued 7).clear false [1] 0 = true ∧ (queued 7).kset.q0.length < 8 ∧
    (queued 8).clear false [1] 0 = true ∧ 8 ≤ (queued 8).kset.q0.length ∧ (queued 7).clear false [] 2 = true ∧
    (queued 7).kset.q1 = [6] ∧ (queued 7).kset.q2 = [7] ∧ (queued 7).kset.q4 = [8] ∧
    st.clear false [] 2 = true ∧ st.kset.q1 = [] ∧ st.kset.q2 = [] ∧ st.kset.q4 = [] := by decide +kernel

/-! ### Posts, barriers, remote loads and ONE -/

/-- The state with bytes at an offset of core 0's scratchpad. -/
def spadded (s : State) (off : Nat) (bs : List Byte) : State := s.writeBytes (arrayBase 0 + off) bs

/-- A record of priority 1 with the PC 0x10000 (R24). -/
def recBytes : List Byte :=
  [0, 0, 1, 0, 0, 0, 0, 0] ++ List.replicate 42 0 ++ [1] ++ List.replicate 13 0

/-- The record stands at the first byte of the own window, its address in x1; a target is in x2; core 1 is a member of
the team. -/
def posting (target : Word) : State :=
  setx (setx ((spadded st 0 recBytes).onMe (fun c => { c with csr := { c.csr with team := 3 } })) 1 own) 2 target

/-- Posts to the own core, to another core of the cluster and to a core without permission; SPAWNs to both members. -/
theorem test_hyp_PostsDeliverTheirRecord :
    ((posting 0).clear false [1] 3 = true ∧
      dataThen (((posting 0).wake [1] 3).recordAt ((posting 0).x 1).toNat) (fun bs u =>
        recordOk bs u.frame.sup && !u.me.pub.exhausted) = true) ∧
    [0, 1, 8].all (fun (tg : Word) => (posting tg).clear false [1, 2] 3 &&
      dataThen (((posting tg).wake [1, 2] 3).recordAt ((posting tg).x 1).toNat) (fun bs u =>
        recordOk bs u.frame.sup && !u.me.pub.exhausted && decide (u.me.reserved < 16) &&
        (decide (tg.toNat = u.epId u.cur) == (tg == 0)) && (u.permits u.cur tg.toNat == !(tg == 8)))) = true ∧
    [0, 1].all (fun (i : Word) =>
      let s := setx (posting i) 1 0x10000
      let w := s.wake [1, 2, 10, 11, 12, 13] 3
      s.clear false [1, 2, 10, 11, 12, 13] 3 && w.teamMember w.cur (s.x 2).toNat == some i.toNat &&
      decide ((s.x 1).toNat % 4 = 0) && !w.me.pub.exhausted && decide (w.epId i.toNat = i.toNat)) = true ∧
    (posting 0).cur = 0 ∧ (posting 0).epId 0 = 0 := by decide +kernel

/-- The state with a team of cores 0 and 1, and the arrivals of some of them at the team barrier. -/
def arriving (team : BitVec 8) (l : List Nat) : State :=
  (st.onMe (fun c => { c with csr := { c.csr with team := team } })).onCluster 0 (fun c => { c with
    arr := l.map (fun k => { core := k, vdev := 0, mask := team, succ := none, hasSucc := false }) })

/-- Others' arrivals, as TBAR looks at them. -/
def allHere (s : State) : Bool :=
  (maskCores s.me.csr.team.toNat).all (fun i => decide (8 * clusterOf s.cur + i = s.cur) ||
    (s.cluster (clusterOf s.cur)).arr.any (fun a =>
      a.mask == s.me.csr.team && a.vdev == s.me.vdev && a.core == 8 * clusterOf s.cur + i))

/-- The core has arrived already; it is the first to arrive; it is the last. -/
theorem test_hyp_TeamBarriersCompleteWithTheLastArrival :
    [arriving 3 [0], arriving 3 [], arriving 3 [1], arriving 1 []].all (fun s => s.clear false [] 0 &&
      !s.frame.succ.getLsbD 0 && !s.me.pub.exhausted && (s.cluster 0).arr.all (fun a => a.succ.isNone)) = true ∧
    ((arriving 3 [0]).cluster 0).arr.any (fun a => a.core == 0 && a.vdev == 0) = true ∧
    ((arriving 3 []).cluster 0).arr.any (fun a => a.core == 0 && a.vdev == 0) = false ∧
    allHere (arriving 3 []) = false ∧
    ((arriving 3 [1]).cluster 0).arr.any (fun a => a.core == 0 && a.vdev == 0) = false ∧
    allHere (arriving 3 [1]) = true ∧ allHere (arriving 1 []) = true := by decide +kernel

/-- A valid and an invalid request word; ALIGN with the whole team there, with a member missing, and in the 256th
cycle. -/
theorem test_hyp_TeamQueriesCarveOutRequestsAndAlign :
    st.clear false [] 2 = true ∧ st.clear false [] 0 = true ∧
    (setx st 1 0x4C81).clear false [1] 0 = true ∧ (Carve.ofNat ((setx st 1 0x4C81).x 1).toNat).isSome = true ∧
    (setx st 1 0x4000000).clear false [1] 0 = true ∧ Carve.ofNat ((setx st 1 0x4000000).x 1).toNat = none ∧
    (let all := fun (s : State) => (maskCores s.me.csr.team.toNat).all (fun i => decide (8 * clusterOf s.cur + i = s.cur) ||
       decide (s.me.alignN + 1 ≤ ((s.wake [] 0).core (8 * clusterOf s.cur + i)).aligned))
     let late := fun (s : State) =>
       (s.wake [] 0).passed s.cur (s.me.alignAt.getD (s.wake [] 0).now) 255
     let old := { (arriving 3 []).onMe (fun c => { c with alignAt := some 0 }) with now := 255 }
     all (arriving 1 []) = true ∧ all (arriving 3 []) = false ∧ late (arriving 3 []) = false ∧
     old.clear false [] 0 = true ∧ late old = true) := by decide +kernel

/-- A gang descriptor at the first byte of the own window: size, index, barrier number, table. -/
def ganged (n i bid : Nat) (table : Word) : State :=
  setx (spadded (spadded st 0 (leBytes 2 n ++ leBytes 2 i ++ leBytes 4 bid ++ leBytes 8 table.toNat ++
    List.replicate 48 0)) 64 [0, 0, 0, 0, 1, 0, 0, 0]) 1 own

/-- An open arrival at barrier 7 of a gang of two. -/
def openArrival : GBar :=
  { bid := 7, opened := true, n := 2, i := 0, peers := [1], sent := 1, rcvd := 0, aborted := false, held := [],
    succ := none, hasSucc := false, vdev := 0, gen := 0 }

/-- What a GBAR reads of its descriptor, and what must hold of it. -/
def gangThen (s : State) (k : List Byte → State → Bool) : Bool :=
  s.clear false [1] 0 && dataThen ((s.wake [1] 0).recordAt (s.x 1).toNat) k

/-- A gang of no members, of one, and of two with either index; an open arrival; a word that must be zero. -/
theorem test_hyp_GangBarriersNotifyTheirPeers :
    gangThen (ganged 0 0 7 0) (fun bs _ => natAt bs 0 2 == 0) = true ∧
    gangThen (ganged 2 2 7 0) (fun bs _ => decide (natAt bs 0 2 ≤ natAt bs 2 2)) = true ∧
    gangThen (spadded (ganged 1 0 7 0) 63 [1]) (fun bs _ => (bs.drop 16).any (fun b => !(b == 0))) = true ∧
    gangThen ((ganged 1 0 7 0).onMe (fun c => { c with gbars := [openArrival] }))
      (fun _ u => u.me.gbars.any (fun g => g.bid == 7 && g.opened)) = true ∧
    gangThen (ganged 1 0 7 0) (fun bs u => natAt bs 0 2 == 1 && natAt bs 2 2 == 0 &&
      !(bs.drop 16).any (fun b => !(b == 0)) && u.me.gbars.all (fun g => !(g.bid == 7)) &&
      decide (u.me.gbars.length < 64) && !u.me.pub.exhausted && !u.frame.succ.getLsbD 0) = true ∧
    [0, 1].all (fun i => gangThen (ganged 2 i 7 (own + 64)) (fun bs u =>
      let a := wordAt bs 8 + BitVec.ofNat 64 (4 * ((i + 1) % 2))
      natAt bs 0 2 == 2 && natAt bs 2 2 == i && !(bs.drop 16).any (fun b => !(b == 0)) && a.toNat % 4 == 0 &&
      dataThen (u.fetchData a.toNat 4 true) (fun d v => v.permits v.cur (leNat d) &&
        v.me.gbars.all (fun g => !(g.bid == 7)) && decide (v.me.gbars.length < 64) && !v.me.pub.exhausted &&
        !v.frame.succ.getLsbD 0))) = true := by decide +kernel

/-- A remote load of global memory, of another core's scratchpad of the cluster, and of the own one. -/
theorem test_hyp_RemoteLoadsLeaveTheirRegisterEmpty :
    (let s := setx st 1 0x10000
     let w := s.wake [1] 2
     s.clear false [1] 2 = true ∧ s.frame.succ.getLsbD 0 = false ∧ w.carveHolds (s.x 1).toNat = false ∧
     globThen (w.translate w.asker (s.x 1).toNat 8 .r) (fun x u => u.me.acqs.isEmpty && decide (u.me.reserved < 16) &&
       !u.locked s.cur (.glob x) (s.x 1).toNat 8 false) = true) ∧
    [(0x7E1000020000 : Word), own].all (fun a =>
     let s := setx (posting 0) 1 a
     let w := s.wake [1] 2
     s.clear false [1] 2 && !w.carveHolds (s.x 1).toNat && !byArray (s.x 1).toNat &&
     (match w.translate w.asker (s.x 1).toNat 8 .r with
      | (.spad e off, u) => (e == s.cur) == (a == own) && clusterOf e == clusterOf s.cur && decide (e < 65536) && decide (s.cur < 65536) &&
          decide (off < 131072) && u.me.acqs.isEmpty && decide (u.me.reserved < 16) &&
          !u.locked s.cur (.spad e off) (s.x 1).toNat 8 false
      | _ => false)) = true := by decide +kernel

/-- A jump table of two entries, 64 and 66, at the first byte of the own window, and an index. -/
def tabled (i : Word) : State :=
  setx (setx (spadded st 0 [2, 0, 0, 0, 0, 0, 0, 0, 64, 0, 0, 0, 66, 0, 0, 0]) 1 i) 2 own

/-- The first entry, a misaligned last entry, the first index beyond the table; a misaligned table. -/
theorem test_hyp_TableJumpsCheckTheirIndex :
    [0, 1, 2].all (fun (i : Word) =>
      let s := tabled i
      s.clear false [1, 2] 0 && (s.x 2).toNat % 8 == 0 &&
      dataThen ((s.wake [1, 2] 0).fetchData (s.x 2).toNat 8 true) (fun l u =>
        (decide (leNat l ≤ i.toNat) == (i == 2)) &&
        dataThen (u.fetchData (s.x 2 + 8 + 4 * i).toNat 4 true) (fun d _ =>
          (i == 2) || ((s.x 2 + extend d true).toNat % 4 == 0) == (i == 0)))) = true ∧
    (setx (tabled 0) 2 (own + 4)).clear false [1, 2] 0 = true ∧ ((setx (tabled 0) 2 (own + 4)).x 2).toNat % 8 ≠ 0 := by
  decide +kernel

/-- The team's next instance of ONE, with its result known. -/
def knownOne : OneInst :=
  { vdev := 0, team := 1, count := 1, elected := none, fid := 0, result := some (9, false), follow := [], passed := 0,
    load := none, got := none, glob := none }

/-- ONE in front of a word, with core 0's team's next instance already at its result. -/
def oneWord (w : Nat) : State :=
  (State.reset.withFetchWord 32 0x5300002B).writeBytes 0x10004
    [BitVec.ofNat 8 w, BitVec.ofNat 8 (w / 256), BitVec.ofNat 8 (w / 65536), BitVec.ofNat 8 (w / 2 ^ 24)] |>.onCluster 0
      (fun c => { c with ones := [knownOne] })

/-- A governed ADDI to x1 with its result known, an ADDI to x0, an ECALL, which R174 does not allow, and a word that no
instruction has. -/
theorem test_hyp_OneGivesItsTeamOneResult :
    [(0x00500093, some (some 1)), (0x00500013, some (some 0)), (0x00000073, some none), (0, none)].all
      (fun (e : Nat × Option (Option XReg)) =>
        let s := oneWord e.1
        let r := (s.wake [] 0).fetch (s.frame.pc + 4)
        s.clear false [] 0 && !s.me.breaksNext &&
        (match r.1 with
         | .word wd => (match decode wd with
           | .ok i => some (governedRd i)
           | .error _ => none) == e.2
         | _ => false) &&
        r.2.frame.isFull 1 && !r.2.frame.isBusy 1 && !r.2.me.bankWaits [] 1 r.2.now &&
        (match (r.2.cluster (clusterOf r.2.cur)).ones.find? (fun o => o.isNext r.2.me r.2.cur) with
         | some o => o.result == some (9, false) && o.glob.isNone
         | none => false)) = true := by decide +kernel

/-! ### Publication, fences, atomics, reductions and copies -/

/-- A record of the store log, at address 0x10000. -/
def rec1 (o : RecOwner) : LogRec :=
  { addr := 0x10000, mask := 0xFF, data := 7, csel := 0, home := 0, set := 0, owner := o, spilled := false, pois := false }

/-- The state with a publication state. -/
def published (s : State) (f : Pub → Pub) : State := s.onMe (fun c => { c with pub := f c.pub })

/-- Nothing open; an open record; the last seq before the limit, and the limit. -/
theorem test_hyp_ReleasesPublishTheOpenSpan :
    st.clear false [] 0 = true ∧ st.me.pub.exhausted = false ∧
    (let s := published st (fun p => { p with log := [rec1 .free], opened := true })
     s.clear false [] 0 = true ∧ s.me.pub.exhausted = false ∧ s.me.pub.acts = [] ∧
     s.me.pub.log.any (fun r => r.owner == .free) = true) ∧
    (published st (fun p => { p with log := [rec1 .free], lseq := 2 ^ 48 - 2 ^ 32 - 1 })).me.pub.exhausted = false ∧
    (let s := published st (fun p => { p with log := [rec1 .free], lseq := 2 ^ 48 - 2 ^ 32 })
     s.clear false [] 0 = true ∧ s.me.pub.exhausted = true) := by decide +kernel

/-- Endpoints 1 and 8; the masks 255 and 256; the groups 15 and 16. -/
theorem test_hyp_AcquiresAskTheirWriters :
    st.clear false [] 0 = true ∧
    [(1 : Word), 8, 15, 16, 255, 256].all (fun v => (setx st 1 v).clear false [1] 0) = true ∧
    (setx st 1 1).permits 0 1 = true ∧ (setx st 1 8).permits 0 8 = false := by decide +kernel

/-- A copy of core 0 on a path. -/
def copyOn (path : Nat) : Copy :=
  { id := 0, core := 0, tag := 5, level := 1, vdev := 0, gen := 0, fkey := 0, sup := false, rows := [(0, 0, 8)],
    members := [], path := path, pasid := none, nextNo := 0, flight := [], srcs := [], landed := 24, homes := [], seq := none,
    stamps := 0, succ := none, hasSucc := false, counter := none, nxr := false, failed := none, silent := false,
    paused := false }

/-- The state with a copy of core 0 under way on a path. -/
def copying (path : Nat) : State := st.onCluster 0 (fun c => { c with copies := [copyOn path] })

/-- A queued VST. -/
def vstCmd : KCmd :=
  { kseq := 0, level := 1, fid := 1, ins := .vst 0 1, nxr := false, f1 := 0, f2 := 0, x := own, ep := 0, off := 0,
    target := 0, entered := 0, old := false, pc := 0 }

/-- The state with a queued kiln command. -/
def commanded (s : State) (c : KCmd) : State := s.onMe (fun d => { d with dq := [c] })

/-- Every path quiet, and each busy; nothing to acknowledge. -/
theorem test_hyp_FencesAndDrainsWaitForTheirPaths :
    st.clear false [] 0 = true ∧ st.copyPending st.cur 0 = false ∧ st.copyPending st.cur 1 = false ∧
    st.copyPending st.cur 2 = false ∧ st.kilnStorePending st.cur = false ∧
    [0, 1, 2].all (fun k => (copying k).clear false [] 0 && (copying k).copyPending (copying k).cur k) = true ∧
    (commanded st vstCmd).clear false [] 0 = true ∧ (commanded st vstCmd).kilnStorePending 0 = true ∧
    st.me.pub.exhausted = false ∧ ((st.wake [] 0).releaseOnce).me.pub.acts = [] ∧
    ((st.wake [] 0).releaseOnce).me.pub.chMeets ((st.wake [] 0).releaseOnce).me.pub.lseq = true := by decide +kernel

/-- A word of the task's page, a misaligned one; two, and three, sources. -/
theorem test_hyp_AtomicsGoToTheirHome :
    [[1, 2], [1, 2, 3]].all (fun srcs =>
      let s := setx st 1 0x10008
      let k := s.wake srcs 4
      s.clear false srcs 4 && (s.x 1).toNat % 8 == 0 && globThen (k.translate k.asker (s.x 1).toNat 8 .rw) (fun x u =>
        !u.locked s.cur (.glob x) (s.x 1).toNat 8 true && u.me.acqs.isEmpty && decide (u.me.reserved < 16))) = true ∧
    (setx st 1 0x10006).clear false [1, 2] 4 = true ∧ ((setx st 1 0x10006).x 1).toNat % 8 ≠ 0 ∧
    ((setx st 1 0x10006).x 1).toNat % 4 ≠ 0 := by decide +kernel

theorem test_hyp_ReductionsSendTheirContribution :
    (let s := setx st 1 0x10008
     let k := s.wake [1, 2] 0
     s.clear false [1, 2] 0 = true ∧ (s.x 1).toNat % 8 = 0 ∧
     globThen (k.translate k.asker (s.x 1).toNat 8 .rw) (fun x u => !u.locked s.cur (.glob x) (s.x 1).toNat 8 true) =
       true) ∧
    (setx st 1 0x10006).clear false [1, 2] 0 = true ∧ ((setx st 1 0x10006).x 1).toNat % 8 ≠ 0 ∧
    ((setx st 1 0x10006).x 1).toNat % 4 ≠ 0 := by decide +kernel

/-- A copy to its own page: source, destination and third operand in x1 to x3. -/
def copies (s : State) (a b c : Word) : State := setx (setx (setx s 1 a) 2 b) 3 c

/-- Both ends translate, the source to read and the destination to write. -/
def endsThen (t : State) (a b : Word) (k : State → Bool) : Bool :=
  let r := t.translate t.asker a.toNat 1 .r
  let q := r.2.translate r.2.asker b.toNat 1 .w
  r.1.copyable && q.1.copyable && k q.2

/-- A descriptor of COPY2D, at offset 0x1000 of the own scratchpad. -/
def rowed (rb rows : Nat) : State :=
  copies (spadded st 0x1000 (leBytes 4 rb ++ leBytes 4 rows ++ leBytes 8 8 ++ leBytes 8 16 ++ List.replicate 8 0))
    0x10000 own (own + 0x1000)

/-- Copies of 0, 1 and 2^32 − 1 bytes; 1 and 65,535 rows; a broadcast of 1 byte to the own core. -/
theorem test_hyp_CopiesEnterTheEngine :
    [(0 : Word), 1, 0xFFFFFFFF].all (fun n =>
      let s := copies st 0x10000 own n
      s.clear false [1, 2, 3] 4 && !s.frame.succ.getLsbD 0 && decide ((s.x 3).toNat < 2 ^ 32) &&
      endsThen (s.wake [1, 2, 3] 4) (s.x 1) (s.x 2) (fun v =>
        decide (((v.cluster 0).copies.filter (fun c => c.core == v.cur && !c.paused)).length < 8) &&
        decide ((v.cluster 0).liveLocks.length ≤ 30))) = true ∧
    [(1, 1), (65535, 65535), (1, 65535)].all (fun e =>
      let s := rowed e.1 e.2
      let c := s.x 3
      let w := s.wake [1, 2, 3] 4
      s.clear false [1, 2, 3] 4 && c.toNat % 8 == 0 &&
      dataThen (w.fetchData c.toNat 8 true) (fun d0 u0 => dataThen (u0.fetchData (c + 8).toNat 8 true) (fun d1 u1 =>
        dataThen (u1.fetchData (c + 16).toNat 8 true) (fun d2 u2 =>
          dataThen (u2.fetchData (c + 24).toNat 8 true) (fun d3 u3 =>
            let d := d0 ++ d1 ++ d2 ++ d3
            natAt d 0 4 == e.1 && natAt d 4 4 == e.2 && decide (e.1 * e.2 < 2 ^ 32) && natAt d 24 8 == 0 &&
            endsThen u3 (s.x 1) (s.x 2) (fun _ => true)))))) = true ∧
    (let s := copies st 0x10000 0 (1 + 2 ^ 32)
     let n := (s.x 3).toNat
     let w := s.wake [1, 2, 3] 4
     s.clear false [1, 2, 3] 4 = true ∧ bitsOf n 0 32 ≠ 0 ∧ n < 2 ^ 40 ∧ bitsOf n 32 8 ≠ 0 ∧
     (maskCores (bitsOf n 32 8)).map (fun i => w.teamMember w.cur i) = [0].map some ∧ (s.x 2).toNat < 0x20000 ∧
     [0].all (fun e => decide ((s.x 2).toNat + bitsOf n 0 32 ≤ (w.core e).carve.spadSize)) = true ∧
     (w.translate w.asker (s.x 1).toNat 1 .r).1.copyable = true) := by decide +kernel

/-- The counter at the first and the last word of the own scratchpad, misaligned, and outside; tags with and without a
copy; a prefetch of a page and of nothing; XINV in both modes and outside its fields. -/
theorem test_hyp_CountersQueriesPrefetchesAndInvalidations :
    st.clear false [0] 0 = true ∧
    [0, st.me.carve.spadSize - 4].all (fun off =>
      let s := setx st 1 (own + BitVec.ofNat 64 off)
      s.clear false [1] 0 && (s.x 1).toNat % 4 == 0 && (s.x 1).toNat == 0x7E0000000000 + off &&
      decide (off + 4 ≤ s.me.carve.spadSize)) = true ∧
    (setx st 1 (own + 2)).clear false [1] 0 = true ∧ ((setx st 1 (own + 2)).x 1).toNat % 4 ≠ 0 ∧
    (let s := setx st 1 (own + BitVec.ofNat 64 st.me.carve.spadSize)
     s.clear false [1] 0 = true ∧ (s.x 1).toNat % 4 = 0 ∧ 0x7E0000000000 + s.me.carve.spadSize < (s.x 1).toNat + 4) ∧
    (let s := setx st 1 0x10000
     let w := s.wake [1] 0
     s.clear false [1] 0 = true ∧ (s.x 1).toNat < 0x7E0000000000 ∧
     (s.x 1).toNat % 8 = 0 ∧ globThen (w.translate w.asker (s.x 1).toNat 1 .r) (fun x u =>
       !u.locked s.cur (.glob x) (s.x 1).toNat 1 false) = true) ∧
    (let s := setx st 1 0x7E3000000000
     (match (s.wake [1] 0).translate (s.wake [1] 0).asker (s.x 1).toNat 1 .r with
      | (.bad _, _) => true
      | _ => false) = true) ∧
    (let s := setx (copying 0) 1 5
     s.clear false [1] 2 = true ∧
     (s.cluster 0).copies.find? (fun c => c.core == s.cur && c.tag == (s.x 1).toNat % 65536) = some (copyOn 0)) ∧
    (let s := setx (copying 0) 1 6
     s.clear false [1] 2 = true ∧
     (s.cluster 0).copies.find? (fun c => c.core == s.cur && c.tag == (s.x 1).toNat % 65536) = none) ∧
    st.clear false [1, 2] 0 = true ∧ st.frame.sup = false ∧
    (let s := (setx st 2 0x13F).onFrame (fun f => { f with sup := true })
     s.clear false [1, 2] 0 = true ∧ s.frame.sup = true ∧ (s.x 2).toNat < 512 ∧ bitsOf (s.x 2).toNat 6 2 = 0 ∧
     s.egress.all (fun p => !(p.vdev == bitsOf (s.x 2).toNat 0 6)) = true) ∧
    (setx st 2 512).clear false [1, 2] 0 = true ∧ 512 ≤ ((setx st 2 512).x 2).toNat ∧
    bitsOf ((setx st 2 0x40).x 2).toNat 6 2 ≠ 0 := by decide +kernel

/-! ### The kiln -/

/-- The state whose frame has a pending FMT prefix with these two codes. -/
def coded (s : State) (f1 f2 : BitVec 3) : State := s.onFrame (fun f => { f with pp := true, pfmt := f2 ++ f1 })

/-- Unprefixed and prefixed commands with room in the queue; sz of 0 and 3; a pending code of FP16 and of FP8. -/
theorem test_hyp_KilnCommandsEnterTheQueue :
    st.kilnClear (.vspl 0 1 0) [1] = true ∧ st.kilnClear .kzero [] = true ∧ st.kilnClear (.vadd 0 1 2 0) [] = true ∧
    (coded st 2 0).kilnClear (.vadd 0 1 2 3) [] = true ∧ (coded st 2 0).frame.code1 = 2 ∧
    (coded st 3 0).kilnClear (.vadd 0 1 2 3) [] = true ∧ 2 < (coded st 3 0).frame.code1 ∧
    (coded st 2 0).kilnClear (.vsum 0 1 3 0) [] = true ∧
    (commanded st vstCmd).kilnClear (.vspl 0 1 0) [1] = true := by decide +kernel

/-- The state with entries in a level's q0 and q1. -/
def holding (n0 n1 : Nat) : State :=
  st.onKset (fun k => { k with q0 := List.replicate n0 5, q1 := List.replicate n1 6, q2 := List.replicate n1 7 })

/-- Room for one more entry and none; an entry to splat and none; formats that convert and that do not. -/
theorem test_hyp_QueueAndConversionCommandsAreChecked :
    (holding 1 7).kilnClear (.vsplq 0 0) [] = true ∧ (holding 1 7).kilnClear (.voutq 0 1 0) [1] = true ∧
    (holding 1 7).pushFull 1 = false ∧ (holding 1 7).pushFull 2 = false ∧ (holding 1 8).pushFull 1 = true ∧
    (holding 1 8).pushFull 2 = true ∧ (holding 1 8).kilnClear (.vbq 0) [] = true ∧
    (holding 1 8).kilnClear (.ringq 0) [] = true ∧ (holding 1 7).kilnClear (.kscq 0) [] = true ∧
    (holding 1 7).kilnClear (.kchkq 1) [] = true ∧ (holding 1 7).kilnClear (.kflg 1 1) [1] = true ∧
    (holding 1 7).queued 0 1 isVsplq < (holding 1 7).kset.q0.length ∧ ¬ st.queued 0 1 isVsplq < st.kset.q0.length ∧
    (coded st 0 1).kilnClear (.vcvt 0 1 0 0 0) [] = true ∧ (coded st 6 7).kilnClear (.vcvti 0 1 0 0 0) [] = true ∧
    cvtOk (coded st 0 1).frame.code1 (coded st 0 1).frame.code2 0 false = true ∧
    cvtOk (coded st 6 7).frame.code1 (coded st 6 7).frame.code2 0 false = false := by decide +kernel

/-- The first and the last line of the own scratchpad, a misaligned base, and one below the windows. -/
theorem test_hyp_KilnMemoryCommandsCheckTheirBase :
    [0, st.me.carve.spadSize - 4096].all (fun off =>
      let s := setx st 1 (own + BitVec.ofNat 64 off)
      s.kilnClear (.kld 1) [1] && s.kilnClear (.vld 0 1) [1] && (s.x 1).toNat == 0x7E0000000000 + off &&
      off % 128 == 0 && decide (off < 131072) && decide (off + 4096 ≤ s.me.carve.spadSize)) = true ∧
    (setx st 1 (own + 2)).kilnClear (.vld 0 1) [1] = true ∧ ((setx st 1 (own + 2)).x 1).toNat % 4 ≠ 0 ∧
    (setx st 1 0x10000).kilnClear (.vlds 0 1 1 0) [1] = true ∧ ((setx st 1 0x10000).x 1).toNat < 0x7E0000000000 := by
  decide +kernel

/-- The state with two rings that hold `n` tiles of 4 KiB each. -/
def ringed (n : Nat) : State :=
  (st.setShadow 0 { base := 0, tiles := 4, tbytes := 4096, avail := n }).setShadow 1
    { base := 16384, tiles := 4, tbytes := 4096, avail := n }

/-- The state with two rings of a tile each and a successor armed with the record at the first line of the own
scratchpad. -/
def armedRings : State :=
  (spadded (ringed 1) 0 recBytes).onFrame (fun f => { f with succ := own ||| 1#64 })

/-- The same of a state whose level has a scale frame and a keeper. -/
def withFrame (s : State) : State :=
  (s.onKset (fun k => { k with q3 := [{ g := 0, rho := [], gamma := [] }] })).onKiln 0 (fun k =>
    { k with keeper := tset k.keeper 1 4 })

/-- Rings of one tile, empty and undefined rings, one ring named twice; a scale frame with a keeper, and neither; a
successor that is armed. -/
theorem test_hyp_ProductsTakeTheirTiles :
    (ringed 1).kilnClear (.kmma 0 1 0 0 0) [] = true ∧ (ringed 1).ringBad 0 4096 = false ∧
    (ringed 1).ringBad 1 4096 = false ∧ (ringed 0).kilnClear (.kmma 0 1 0 0 0) [] = true ∧
    (ringed 0).ringBad 0 1024 = true ∧ (ringed 1).ringBad 2 1024 = true ∧
    (ringed 1).frame.succ.getLsbD 0 = false ∧ (ringed 1).kilnClear (.kmma 1 1 0 0 0) [] = true ∧
    (ringed 1).kilnClear (.kmmat 0 1 0 0 0) [] = true ∧ (ringed 1).kilnClear (.kmman 0 1 0 0 0) [] = true ∧
    (let s := withFrame (ringed 1)
     s.kilnClear (.kmmas 0 1 0 0 0) [] = true ∧ bitOf s.keeper 2 = true ∧
       s.queued s.cur s.frame.level isKmmas < s.kset.q3.length) ∧
    ((ringed 1).kilnClear (.kmmas 0 1 0 0 0) [] = true ∧ bitOf (ringed 1).keeper 2 = false ∧
      ¬ (ringed 1).queued (ringed 1).cur (ringed 1).frame.level isKmmas < (ringed 1).kset.q3.length) ∧
    [armedRings, withFrame armedRings].all (fun s =>
      [Instr.kmma 0 1 0 0 0, .kmmas 0 1 0 0 0, .kmmat 0 1 0 0 0, .kmman 0 1 0 0 0].all (fun i => s.kilnClear i []) &&
      !s.ringBad 0 4096 && !s.ringBad 1 4096 && s.frame.succ.getLsbD 0 &&
      dataThen ((s.wake [] 0).recordAt (s.frame.succ &&& ~~~63#64).toNat) (fun bs u =>
        recordOk bs u.frame.sup && u.me.spillFree)) = true := by decide +kernel

/-- A ring record at the first line of the own scratchpad. -/
def ringRecord : State :=
  setx (spadded st 0 (leBytes 4 0x4000 ++ leBytes 2 4 ++ leBytes 2 4096 ++ leBytes 2 0 ++ leBytes 2 2 ++ leBytes 4 0)) 1 own

/-- A ring's definition; an advance that fills the ring and one beyond it; KEEP by the keeper; 0, 1, 32 and 33 rows. -/
theorem test_hyp_RingsKeepsAndSolvesAreChecked :
    (ringRecord.kilnClear (.ringdef 1 0) [1] = true ∧ (ringRecord.x 1).toNat = 0x7E0000000000 + 0 ∧
      0 + 16 ≤ ringRecord.me.carve.spadSize ∧
      ringRecord.locked ringRecord.cur (.spad ringRecord.cur 0) (ringRecord.x 1).toNat 16 false = false ∧
      ringRecord.anyPoison (arrayBase ringRecord.cur + 0) 16 = false ∧
      (ringOf (ringRecord.spadBytes ringRecord.cur 0 16) ringRecord.me.carve.spadSize).isSome = true) ∧
    ((setx (ringed 1) 1 3).kilnClear (.ringadv 1 0) [1] = true ∧ ((setx (ringed 1) 1 3).shadow 0).tiles ≠ 0 ∧
      ((setx (ringed 1) 1 3).shadow 0).avail + 3 ≤ ((setx (ringed 1) 1 3).shadow 0).tiles ∧
      ((setx (ringed 1) 1 4).shadow 0).tiles < ((setx (ringed 1) 1 4).shadow 0).avail + 4 ∧
      ((setx (ringed 1) 1 0).shadow 2).tiles = 0) ∧
    (let s := setx ((ringed 1).onKiln 0 (fun k => { k with keeper := tset k.keeper 1 4 })) 1 3
     s.kilnClear (.keep 1 0 1) [1] = true ∧ bitOf s.keeper 2 = true ∧ bitsOf s.keeper 0 2 = s.cur % 4 ∧
     (s.x 1).toNat < 4 ∧ (s.x 1).toNat ≠ s.cur % 4 ∧ s.ringBad 0 128 = false ∧ s.ringBad 1 128 = false) ∧
    st.kilnClear (.kfac 0) [] = true ∧ st.kilnClear (.ktrsl 0 1 32) [] = true ∧ st.kilnClear (.kdiag 1 33) [1] = true := by
  decide +kernel

/-- The state at cycle 4 with a command at the head of core 0's queue. -/
def issuing (i : Instr) : State := { commanded st { vstCmd with ins := i } with now := 4 }

theorem test_hyp_TheVectorSectionComputesLaneWise :
    [Instr.viadd 0 1 2, .visub 0 1 2, .vimul 0 1 2, .vand 0 1 2, .vor 0 1 2, .vxor 0 1 2, .vshl 0 1 2, .vshr 0 1 2,
     .vsra 0 1 2, .vsel 0 1 2].all (fun i =>
      let s := issuing i
      decide ((s.kiln 0).vecFree ≤ s.now) && !(s.kiln 0).vecGated &&
      (rotation (s.kiln 0).lastVec).find? (fun j => s.vecRequest 0 j) == some 0 &&
      s.head (quadCore 0 0) == some { vstCmd with ins := i } && (s.ksetOf 0 vstCmd.level).bad == []) = true := by decide +kernel

/-- A lease of core 0's level 1. -/
def lease1 : Lease :=
  { core := 0, level := 1, grantedAt := 0, from' := 0, issued := 63, ending := false, byLease := true }

/-- The state with that lease. -/
def leased (i : Instr) (now : Nat) : State :=
  { (issuing i).onKiln 0 (fun k => { k with lease := some lease1 }) with now := now }

theorem test_hyp_TheArrayIsLeasedAndIssues :
    (let s := issuing .kzero
     (s.kiln 0).lease = none ∧ (s.kiln 0).nextGrant ≤ s.now ∧ (s.kiln 0).matGated = false ∧
     (rotation (s.kiln 0).lastHolder).findSome? (fun j => (s.matRequest 0 j).map (fun r => (j, r))) =
       some (0, 1, false)) ∧
    (let s := leased .kzero 4
     (s.kiln 0).lease = some lease1 ∧ lease1.ending = false ∧ lease1.from' ≤ s.now ∧ (s.kiln 0).arrayFree ≤ s.now ∧
     s.head (quadCore 0 lease1.core) = some { vstCmd with ins := .kzero } ∧ vstCmd.level = lease1.level ∧
     (s.ksetOf (quadCore 0 lease1.core) vstCmd.level).bad = [] ∧ s.kReady (quadCore 0 lease1.core) { vstCmd with ins := .kzero } = true) ∧
    ((leased .kzero 64).kiln 0).lease = some lease1 ∧ lease1.byLease = true ∧
    (leased .kzero 64).passed 0 lease1.grantedAt 64 = true ∧
    (let s := { st with now := 1024 }
     (s.kiln 0).matIdleAt + 1024 ≤ s.now ∧ (s.kiln 0).lease = none ∧ (s.kiln 0).vecIdleAt + 1024 ≤ s.now ∧
     (s.kiln 0).flight = []) := by decide +kernel

/-- An issued command, about to retire with an entry for q1. -/
def flying (i : Instr) : Flight :=
  { cmd := { vstCmd with ins := i }, core := 0, due := 4, step := 0, stepAt := 4, tileA := [], tileB := [], frame := none,
    push := some (1, 9), writes := [], replayed := false, aborting := false }

/-- An issued command that clears k0 when it retires. -/
def clearing : Flight := { flying .kzero with push := none, out := some { v := none, k0 := some [], flags := 0 } }

/-- A scale frame due for core 1's level 1. -/
def frameDue : FrameOut := { vdev := 0, src := 0, target := 1, level := 1, frame := { g := 0, rho := [], gamma := [] }, at' := 4 }

/-- The state at cycle 4 with these commands and frames in kiln 0. -/
def inKiln (l : List Flight) (r : List FrameOut) : State :=
  { st.onKiln 0 (fun k => { k with flight := l, frames := r }) with now := 4 }

theorem test_hyp_KilnCommandsRetireStepAndDeliver :
    (let f := flying (.voutq 0 1 0)
     let s := inKiln [f] []
     (s.kiln 0).flight = [f] ∧ s.mayRetire (s.kiln 0) f = true ∧ prodOf f.cmd.ins = none ∧
     isSolve f.cmd.ins = false ∧ f.writes = [] ∧ f.push = some (1, 9) ∧ (s.core f.core).pops = []) ∧
    (let f := clearing
     let s := inKiln [f] []
     (s.kiln 0).flight = [f] ∧ s.mayRetire (s.kiln 0) f = true ∧ prodOf f.cmd.ins = none ∧
     isSolve f.cmd.ins = false ∧ f.writes = [] ∧ f.push = none ∧ f.out.isSome = true) ∧
    (let f := flying (.kfac 32)
     let s := inKiln [f] []
     (s.kiln 0).flight = [f] ∧ isSolve f.cmd.ins = true ∧ f.step + 1 < solveSteps f.cmd.ins ∧ f.stepAt ≤ s.now ∧
     f.aborting = false ∧ f.suspending = false) ∧
    (let s := inKiln [] [frameDue]
     (s.kiln 0).frames = [frameDue] ∧ frameDue.at' ≤ s.now ∧ (s.core (quadCore 0 frameDue.target)).vdev = frameDue.vdev ∧
     (s.ksetOf (quadCore 0 frameDue.target) frameDue.level).q3.length < 2) := by decide +kernel

/-! ### Hardware steps of a core -/

/-- A task record of priority 2. -/
def task2 : TaskRec :=
  { pc := 0x10200, a0 := 1, a1 := 2, a2 := 3, a3 := 4, origin := 0, oseq := 0, prio := 2, nxr := false, s := false, cls := 0,
    frame := 1, pan := 0, vdev := 0, gen := 0, deadline := 4, pseq := 0 }

/-- The state with that record ready since cycle 0. -/
def readied (s : State) : State :=
  s.onMe (fun c => { c with stampN := c.stampN + 1, ready := c.ready ++ [mkReady task2 c.stampN 0 .slot] })

/-- A deadline that expires at cycle 4, with a successor. -/
def dl4 : Deadline := { expiry := 4, succ := some task2, solves := 0, reason := 1 }

theorem test_hyp_CoresSelectTrapExpireAndKeepTime :
    (readied inTask).stopped 0 = false ∧ ((readied inTask).core 0).carving = false ∧
    ((readied inTask).core 0).selectable 0 = true ∧
    ((readied inTask).core 0).selected 0 = some (mkReady task2 0 0 .slot) ∧
    ((readied inTask).core 0).fits task2.frame = true ∧ task2.nxr = ((readied inTask).core 0).csr.corenxr ∧
    0 < ((readied inTask).core 0).stampN ∧
    (let s := trapTable (st.onFrame (fun f => { f with pendStep := some 1, pendWatch := some 2, pendChk := some 3 })) 23
     s.stopped 0 = false ∧ (s.core 0).loads = [] ∧ (s.core 0).overdue s.now = false ∧ (s.core 0).run.pendStep = some 1 ∧
     s.cur = 0 ∧ s.trapOpen 23 = true) ∧
    (st.onFrame (fun f => { f with pendWatch := some 2, pendChk := some 3 })).frame.pendStep = none ∧
    (st.onFrame (fun f => { f with pendChk := some 3 })).frame.pendWatch = none ∧
    (let s := { inTask.onFrame (fun f => { f with dl := some dl4 }) with now := 4 }
     s.stopped 0 = false ∧ (s.core 0).loads = [] ∧ dl4.expiry ≤ s.now ∧ s.kilnBusy 0 (s.core 0).run.level = false ∧
     (s.core 0).under = [Frame.idle 77824] ∧ s.winBad 0 (Frame.idle 77824) = false ∧ (s.core 0).on = true ∧
     (s.core 0).vdev = task2.vdev ∧ (s.vdevOf task2.vdev).gen = task2.gen) ∧
    (let s := { readied inTask with now := 4 }
     (s.core 0).overdue s.now = false ∧
     (s.core 0).ready.find? (fun q => q.expired s.now) = some (mkReady task2 0 0 .slot) ∧ (mkReady task2 0 0 .slot).latch = false) ∧
    (let s := { st.onMe (fun c => { c with alignAt := some 0 }) with now := 255 }
     s.stopped 0 = false ∧ (s.core 0).alignAt = some 0 ∧ s.passed 0 0 255 = true) ∧
    (let s := { st with now := 32 }
     s.stopped 0 = false ∧ (s.core 0).bankAt[0] + 32 ≤ s.now ∧ (s.core 0).bankAt[3] + 32 ≤ s.now) ∧
    (let s := { st.checkpoint 0 with now := 16384 }
     s.stopped 0 = false ∧ (s.core 0).ck.isSome = true ∧ s.passed 0 0 (s.core 0).csr.cki = true) ∧
    (let s := inIdle.onMe (fun c => { c with carveNew := some { sstat := 0, spad := 20, log := 4, win := 1 } })
     s.stopped 0 = false ∧ (s.core 0).idle = true ∧ (s.core 0).pub.log = [] ∧
     (s.core 0).carve.spadSize < (20 * 4096)) := by decide +kernel

/-- A packet for core 0 from core 1. -/
def pkt (b : Body) : Pkt :=
  { src := 1, dst := 0, cls := 1, sseq := 0, vdev := 0, gen := 0, fkey := 0, len := 16, redok := false, body := b, pos := 0,
    numbered := true, link := none }

/-- The state with device 0 launched and a packet at an endpoint's interface. -/
def arrived (s : State) (ep : Nat) (p : Pkt) : State :=
  { s with inbox := tset s.inbox ep [p], vdevs := [(0, { VDev.reset with launched := true })] }

/-- A translated address: the task's own page. -/
def xlat0 : Xlat := { pa := 0x10000, csel := 0, chip := 0, home := 0, set := 0 }

/-- A reservation for x5 of the running frame. -/
def req5 (k : ReqKind) : Req :=
  { id := 3, kind := k, rd := 5, fid := st.frame.fid, level := 1, vdev := 0, gen := 0, x := xlat0, succ := none }

/-- The state with that reservation, x5 empty, and a reply to it. -/
def replied (k : ReqKind) (b : Body) : State :=
  arrived (st.onMe (fun c => { c with reqs := [req5 k], run := c.run.setEmpty 5 })) 0 (pkt b)

/-- A load of n bytes under way for x5. -/
def load5 (n : Nat) : Load := { id := 3, rd := 5, n := n, signed := true, x := xlat0, own := [] }

/-- A result of ONE that core 0's x5 still has to take. -/
def oneOut : OneInst := { knownOne with follow := [(0, st.frame.fid, 5)] }

theorem test_hyp_RepliesFillTheirRegister :
    [Body.post 3 task2 false, .post 3 task2 true, .postRep 3 true, .ldrRep 3 0x10000 7 false,
     .atomRep 3 0x10000 7 8 0 false, .nack 0x40 1 3 0, .nack 0x40 2 3 0].all (fun b =>
      let s := replied (.ldr 8) b
      tget s.inbox 0 [] == [pkt b] && (s.core 0).runs (pkt b).vdev && s.current (pkt b) && slotFree (s.core 0).ready &&
      recvFree (s.core 0).ready &&
      takeFirst (fun (q : Req) => q.id == 3) (s.core 0).reqs == some (req5 (.ldr 8), []) &&
      (req5 (.ldr 8)).fid == (s.core 0).run.fid) = true ∧
    (let s := arrived (st.onMe (fun c => { c with ready := List.replicate 64 (mkReady task2 0 0 .slot) })) 0
       (pkt (.post 3 task2 false))
     tget s.inbox 0 [] = [pkt (.post 3 task2 false)] ∧ (s.core 0).runs 0 = true ∧
     (s.current (pkt (.post 3 task2 false)) && slotFree (s.core 0).ready) = false) ∧
    [1, 2, 4, 8].all (fun n =>
      let s := arrived (st.onMe (fun c => { c with loads := [load5 n] })) 0 (pkt (.fillRep 3 0x10000 (List.replicate 128 9) []))
      (s.core 0).runs 0 && (s.core 0).loads.find? (fun (d : Load) => d.id == 3) == some (load5 n) &&
        (load5 n).own.isEmpty && !(load5 n).buf) = true ∧
    (let s := arrived (st.onMe (fun c => { c with loads := [load5 8] })) 0 (pkt (.spadRep 3 (List.replicate 8 9) false))
     tget s.inbox 0 [] = [pkt (.spadRep 3 (List.replicate 8 9) false)] ∧ (s.core 0).runs 0 = true ∧
     (s.core 0).loads.find? (fun (d : Load) => d.id == 3) = some (load5 8)) ∧
    (let s := arrived (st.onCluster 0 (fun c => { c with ones := [oneOut] })) 0 (pkt (.rcdAck 0 0))
     (s.core 0).runs 0 = true ∧
     takeFirst (fun (q : OneInst) => q.result.isSome && q.follow.any (fun f => (s.core f.1).runs q.vdev))
       (s.cluster 0).ones = some (oneOut, []) ∧
     takeFirst (fun (f : Nat × Nat × BitVec 5) => (s.core f.1).runs oneOut.vdev) oneOut.follow =
       some ((0, st.frame.fid, 5), []) ∧ oneOut.result = some (9, false) ∧ oneOut.glob = none) := by decide +kernel

/-- The state in a supervisor frame. -/
def superior : State := st.onFrame (fun f => { f with sup := true })

/-- That state with an open gang arrival, which GBSEL names. -/
def gbarred : State := superior.onMe (fun c => { c with gbars := [openArrival], csr := { c.csr with gbsel := 7 } })

/-- A user frame and a supervisor frame; TEAMSTG with and without its enable, and without the own core; an arrival; an
open gang arrival; a bucket of the memory arbiter; the core's own rectangle. -/
theorem test_hyp_RegisterWriteStepsSetTheirRegister :
    st.kilnBusy st.cur st.frame.level = false ∧ csrNamed 0xFFF = false ∧ csrReadOnly 0xC00 = true ∧
    st.frame.sup = false ∧ superior.frame.sup = true ∧ ((0x101 : Word).getLsbD 8 = true ∧ (0x101 : Word).getLsbD 0 = true) ∧
    ((0x102 : Word).getLsbD 8 = true ∧ (0x102 : Word).getLsbD (coreNo superior.cur) = false) ∧
    (let s := (arriving 3 [0]).onFrame (fun f => { f with sup := true })
     s.frame.sup = true ∧ s.me.on = true ∧
     ((s.cluster 0).arr.find? (fun a => a.core == s.cur && a.vdev == s.me.vdev)).isSome = true) ∧
    gbarred.me.gbOpen = some openArrival ∧ gbarred.frame.sup = true ∧
    bkNames superior.me.csr.bksel.toNat = true ∧ bkKind superior.me.csr.bksel.toNat ≠ 5 ∧
    (let v : Word := BitVec.ofNat 64 (2 ^ 63 + (superior.sag 0).rect)
     v.getLsbD 63 = true ∧ superior.rectOk superior.me.csr.sgsel (v.toNat % 2 ^ 24) = true ∧
     v.toNat % 2 ^ 24 = (superior.sag 0).rect) := by decide +kernel

/-- The controller in a state, with a command in its mailbox and its argument. -/
def mailed (nst : Nat) (cmd : Option Nat) (arg : Word) : State :=
  { State.reset with nm := { State.reset.nm with st := nst, cmd := cmd }, mmio := [(0x024000000040 / 8, arg)] }

/-- Each state of the controller with each command, and the first and last arguments it takes and the first it does not. -/
theorem test_hyp_TheControllerCarriesOutItsCommands :
    State.reset.nm.st = 0 ∧ (mailed 1 (some 1) 0xFFFE).nm.st = 1 ∧ (mailed 1 (some 1) 0xFFFE).nm.cmd = some 1 ∧
    (mailed 1 (some 1) 0xFFFE).mmioWord 0x024000000040 % 2 ^ 16 ≠ 0xFFFF ∧
    (mailed 1 (some 1) 0xFFFF).mmioWord 0x024000000040 % 2 ^ 16 = 0xFFFF ∧ (mailed 2 (some 1) 0).nm.st ≠ 1 ∧
    (mailed 1 (some 2) 0).nm.cmd = some 2 ∧ (mailed 2 (some 2) 0).nm.st ≠ 1 ∧
    (mailed 2 (some 3) 1).nm.cmd = some 3 ∧ (mailed 2 (some 3) 1).mmioWord 0x024000000040 % 1024 ≠ 0 ∧
    (mailed 2 (some 3) 2047).mmioWord 0x024000000040 % 1024 = 1023 ∧
    (mailed 2 (some 3) 0).mmioWord 0x024000000040 % 1024 = 0 ∧
    (mailed 2 (some 3) 1024).mmioWord 0x024000000040 % 1024 = 0 ∧
    (mailed 2 (some 4) 1023).nm.cmd = some 4 ∧ (mailed 2 (some 5) 0).nm.cmd = some 5 := by decide +kernel

/-! ### The host's side and the dispatchers -/

/-- The state with device 0 launched in saggar 0, and a placement entry for cores 0 and 1 of cluster 0. -/
def placed (s : State) : State :=
  { s.onSag 0 (fun g => { g with weight := [(0, 1)] }) with
    vdevs := [(0, { VDev.reset with launched := true })]
    mmio := [(0x022000000000 / 8, 2 ^ 63 + 3 * 2 ^ 32), (0x022100000000 / 8, 2 ^ 16)] }

/-- An enqueue record of entry 0, MODE 1. -/
def enqBytes : List Byte := recBytes ++ List.replicate 6 0 ++ [1] ++ List.replicate 57 0

/-- A queued enqueue, resolved or not. -/
def queuedEntry (entry mode : Nat) (chosen : Option Nat) : DispEntry :=
  { task := task2, vdev := 0, entry := entry, mode := mode, core := 1, pasid := none, hseq := 0, chosen := chosen }

/-- The state with that entry at die 0's dispatcher. -/
def dispatching (e : DispEntry) : State :=
  { placed st with disps := [(0, { queue := [e], count := 2 ^ 32 - 1, last := [] })] }

/-- The port's arbiter with no token for the device. -/
def starved : State := { placed st with arbs := [(arbKey 4 255, { Arb.reset with enforcing := true })] }

/-- The state whose CXL ingress is busy. -/
def jammed : State := { placed st with arbs := [(arbKey 3 0, { Arb.reset with freeAt := 100 })] }

/-- Every device and size that an access to a queue port can have: ingress passes each, and jammed passes none. -/
theorem test_hyp_AccessesToAPortPassIngress :
    (List.range 64).all (fun w => [0, 64, 128, 192, 256, 320, 384, 448].all (fun n =>
      ((placed st).ingress w n).1 && !(jammed.ingress w n).1)) = true := by decide +kernel

/-- A malformed and an acceptable record; virtual functions 1 and 64; ports 0 and 255; a port that grants nothing; each
MODE; a placement inside the device's saggar and, with no weight, outside; delivery to a free slot. -/
theorem test_hyp_EnqueuedRecordsReachACore :
    ((placed st).ingress 0 128).1 = true ∧ ((placed st).ingress 63 128).1 = true ∧
    (jammed.ingress 0 128).1 = false ∧ enqBytes.length = 128 ∧ (placed st).enqOk 0 enqBytes = true ∧ (placed st).enqOk 0 (enqBytes.map (fun _ => 1)) = false ∧
    (let u := ((placed st).ingress 0 128).2
     (u.arb 4 0).freeAt ≤ u.now ∧ u.asks.isEmpty = true ∧ u.portRate 0 0 = true ∧ (u.passArb 4 0 0 1).1 = true) ∧
    (let u := (({ placed st with asks := [{ msgAsk 4 0 0 1 with done := true }] } : State).ingress 0 128)
     u.1 = true ∧ u.2.asks.contains { msgAsk 4 0 0 1 with done := true } = true) ∧
    ((placed st).vdevOf 0).resetAt = none ∧
    ((placed st).disp (entryDie (((placed st).entryOf 0 (Enq.ofBytes enqBytes).entry).getD 0))).queue.length < 4096 ∧
    (let u := (starved.ingress 0 128).2
     (u.arb 4 255).freeAt ≤ u.now ∧ u.portRate 255 0 = false) ∧
    [0, 1, 2].all (fun mode =>
      let s := dispatching (queuedEntry 0 mode none)
      takeFirst (fun (q : DispEntry) => q.chosen.isNone) (s.disp 0).queue == some (queuedEntry 0 mode none, []) &&
      (match s.entryOf 0 0 with
       | some p => s.inDevice 0 (bitsOf p 0 6) (bitsOf p 6 5)
       | none => false)) = true ∧
    (let s := (dispatching (queuedEntry 0 1 none)).onSag 0 (fun g => { g with weight := [] })
     (match s.entryOf 0 0 with
      | some p => s.inDevice 0 (bitsOf p 0 6) (bitsOf p 6 5)
      | none => true) = false) ∧
    (let e := queuedEntry 0 1 (some 0)
     (dispatching e).deliverable ((dispatching e).disp 0).queue [] = some e ∧ ((dispatching e).core 0).runs 0 = true) := by
  decide +kernel

/-- An outstanding ATS request and an outstanding page request of core 0. -/
def atsReq : AtsReq := { id := 3, vdev := 0, core := 0, va := 0x5008, pasid := 9, failed := false }
def pageReq : PageReq := { grp := 3, vdev := 0, gen := 0, core := 0, va := 0x5008 }

/-- The state with a line of host memory at slice 0. -/
def hostLine : State :=
  { placed st with l2 := [{ slice := 0, set := 0, way := 0, line := 0x100000000000 / 512, owner := 0, valid := 15, dirty := 1,
                            data := [], pois := [], sharers := [], ovf := false, age := 0, mkey := 0 }] }

/-- The state whose memory-controller queue of an address is busy. -/
def queueBusy (s : State) (pa : Nat) : State :=
  { s with arbs := s.arbs ++ [(arbKey 1 (memQueue pa), { Arb.reset with freeAt := s.now + 100 })] }

/-- Reads and writes of the first and the last bytes of a 64-byte block; a held host line; each answer of the host. -/
theorem test_hyp_TheHostReachesMemoryAndTranslations :
    [(0x20000, 64), (0x2003F, 1), (0x7FFFFFFFC0, 64)].all (fun e =>
      let h := (placed st).hostHome e.1
      hostBlock e.1 e.2 &&
      (wordPieces e.1 (List.replicate e.2 5) 9).all (fun p => !(placed st).wordLanding h.1 p.1) &&
      !(placed st).latchBlocks h.1 e.1 && (placed st).l2.isEmpty &&
      ((placed st).ingress h.2.2 e.2).1 &&
      (((placed st).ingress h.2.2 e.2).2.bring h.1 h.2.1 h.2.2 e.1 false).hasSector h.1 h.2.1 e.1 &&
      !((queueBusy (placed st) e.1).bring h.1 h.2.1 h.2.2 e.1 false).hasSector h.1 h.2.1 e.1) = true ∧
    (hostLine.lineOf 0x100000000000).isSome = true ∧ inHost 0x100000000000 = true ∧ (hostLine.ingress 0 64).1 = true ∧
    (let s := { placed st with ats := [atsReq], pages := [pageReq] }
     takeFirst (fun (q : AtsReq) => q.id == 3 && !q.failed) s.ats = some (atsReq, []) ∧
     takeFirst (fun (q : PageReq) => q.grp == 3) s.pages = some (pageReq, []) ∧
     (s.ingress 0 64).1 = true ∧ (s.pages.filter (fun q => q.vdev == 0)).length < pageLimit ∧
     (s.core pageReq.core).away = false ∧ pageReq.gen = (s.vdevOf pageReq.vdev).gen ∧ (s.core pageReq.core).runs pageReq.vdev = true ∧
     slotFree (s.core pageReq.core).ready = true ∧
     s.translatedWaits (fun e => e.ats.isSome && xinvDrops e 0 false 0x5000) = false) := by decide +kernel

/-! ### Publication, homes and the copy engine -/

/-- An L1 line of the task's page, with its first sector. -/
def l1Line : L1Line :=
  { home := 1, line := 0x10000 / 512, valid := 1, data := [], pois := [], age := 0 }

/-- A buffered note. -/
def note1 : Note := { writer := 1, seq := 3, home := 1, addr := 0x10000, mask := 1, data := 5, pois := false }

/-- A note for a line of core 0. -/
def noteBody : Body := .note 1 3 0x10000 0xFF 7 false 0

/-- An acquire whose only writer has answered. -/
def acqDone : Acq := { id := 3, got := [(1, 5)], waits := [], horizon := none, sent := true }

/-- A latch of slice 0, of a note. -/
def latch0 : Latch :=
  { slice := 0, kind := 1, line := 0x10000 / 512, writer := 1, seq := 3, addr := 0x10000, mask := 1, data := 5, pois := false,
    lock := 0, fkey := 0 }

/-- Device 0 as given, on this chip alone. -/
def refreshing (d : VDev) : State := { placed st with vdevs := [(0, d)] }

/-- The same with chip 1 in the device's chip table and a route to it. -/
def peered (d : VDev) : State :=
  let m := tset (placed st).mmio (0x022200000008 / 8) 0x20000
  let s : State := { refreshing d with mmio := tset m ((0x021000000000 + 8) / 8) (BitVec.ofNat 64 (2 ^ 24 + 1)) }
  s.writeBytes 0x20342 [1, 0]

/-- The launched device. -/
def up : VDev := { VDev.reset with launched := true }

/-- A note with room, with 255 and with 256 buffered, and for a line not held; each other packet; an answer that may go;
an acquire that has ended; a latch; a refresh's start and end. -/
theorem test_hyp_NotesAcquiresAndHorizonsMove :
    [255, 256].all (fun n =>
      let s := arrived (st.onMe (fun c => { c with l1 := [l1Line], notes := List.replicate n note1 })) 0 (pkt noteBody)
      tget s.inbox 0 [] == [pkt noteBody] && (s.core 0).l1.any (fun x => x.home == 1 && x.line == 0x10000 / 512) &&
      (decide ((s.core 0).notes.length < 256) == (n == 255))) = true ∧
    (arrived st 0 (pkt noteBody)).me.l1.any (fun x => x.home == 1 && x.line == 0x10000 / 512) = false ∧
    [Body.inval 128 0, .query 3 none, .query 3 (some 4), .answer 3 5].all (fun b =>
      tget (arrived st 0 (pkt b)).inbox 0 [] == [pkt b] && ((arrived st 0 (pkt b)).core 0).runs 0) = true ∧
    (let s := arrived (published st (fun p => { p with log := [rec1 (.stamped 4), rec1 .free] })) 0 (pkt (.rcdAck 0x10000 4))
     tget s.inbox 0 [] = [pkt (.rcdAck 0x10000 4)] ∧ (s.core 0).runs 0 = true ∧
     (s.core 0).pub.log = [rec1 (.stamped 4), rec1 .free] ∧ (rec1 (.stamped 4)).addr = 0x10000) ∧
    (let q : Query := { src := 1, id := 3, target := 0, vdev := 0, fkey := 0 }
     let s := st.onMe (fun c => { c with queries := [q] })
     (s.core 0).queries = [q] ∧ s.dying 0 q.vdev = false ∧ ((s.core 0).pubOf q.vdev).chMeets q.target = true ∧
     q.src ≠ s.epId 0) ∧
    (let s := st.onMe (fun c => { c with acqs := [acqDone], notes := [note1] })
     tget s.inbox 0 [] = [] ∧ (s.core 0).acqs = [acqDone] ∧ acqDone.waits = [] ∧ acqDone.horizon = none ∧
     (s.core 0).notes = [note1] ∧ acqDone.got.any (fun w => note1.writer == w.1 && decide (note1.seq ≤ w.2)) = true ∧
     (s.core 0).pub.log = [] ∧
     [{ note1 with writer := 2 }, { note1 with seq := 6 }].all (fun (n : Note) =>
       !acqDone.got.any (fun w => n.writer == w.1 && decide (n.seq ≤ w.2))) = true) ∧
    ({ st with latches := [latch0] } : State).latches.find? (fun x => x.slice == 0) = some latch0 ∧ latch0.kind = 1 ∧
    [refreshing up, peered up].all (fun s => (s.vdevOf 0).launched && (s.vdevOf 0).begun.isNone &&
      (s.vdevOf 0).refresh.isNone && (s.vdevOf 0).refreshed.isNone) = true ∧
    (refreshing up).peerChips 0 = [] ∧ (peered up).peerChips 0 = [1] ∧
    (let s := peered { up with begun := some (0, 3), far := [(1, 1, 9)] }
     (s.vdevOf 0).begun = some (0, 3) ∧ s.reports 0 1 = some [9]) ∧
    (let s := refreshing { up with refresh := some (0, 9) }
     (s.vdevOf 0).refresh = some (0, 9) ∧ (s.vdevOf 0).low = none ∧ s.peerChips 0 = []) := by
  decide +kernel

/-- A home's packet, at core 0's slice, from core 8. -/
def homeward (b : Body) : State := arrived st 0 { pkt b with src := 8 }

/-- The state after the home has taken the packet and brought the line in. -/
def broughtIn (b : Body) (pa : Nat) : State :=
  ({ homeward b with inbox := tset (homeward b).inbox 0 [] } : State).bring 0 0 0 pa false

/-- A sector's evicted bytes. -/
def wb0 : WbSector := { slice := 0, sector := 0x10000 / 128, owner := 0, key := none, data := [(5, 7)], pois := [] }

/-- Each packet of a home, with the line absent before; the last word of a sector and of the scratchpad; a write-back
that is granted. -/
theorem test_hyp_HomesApplyWhatReachesThem :
    [Body.fill 3 0x10000 0, .rcd (rec1 (.stamped 4)), .atom 3 0x10078 0 8 .add 5 0 0 [], .atom 3 0x1007C 0 4 .swap 5 0 0 [],
     .red 0x10000 0 8 .add 5 0 8 1 false 0 [rec1 .free], .red 0x1007C 0 4 .add 5 0 8 1 true 0 [], .ldr 3 0x10000 0 8 false,
     .chunkRead 0 0x10000 0x10000 0 128 false].all (fun b =>
      let p := { pkt b with src := 8 }
      let s := homeward b
      tget s.inbox 0 [] == [p] && s.held.isEmpty && s.current p && !s.wordLanding 0 0x10000 && !s.wordLanding 0 0x10078 &&
      !s.wordLanding 0 0x1007C && !s.latchBlocks 0 0x10000 && (broughtIn b 0x10000).hasSector 0 0 0x10000 &&
      !((queueBusy { s with inbox := [], l2 := [] } 0x10000).bring 0 0 0 0x10000 false).hasSector 0 0 0x10000 &&
      (match (broughtIn b 0x10000).lineOf 0x10000 with
        | some l => !l.sharers.contains 8 && decide (l.sharers.length < 4) && l.sharers.isEmpty && !l.ovf
        | none => false)) = true ∧
    ((broughtIn (.fill 3 0x10000 0) 0x10000).core 0).on = true ∧
    (let off := st.me.carve.spadSize - 8
     (st.core 0).carving = false ∧ off + 8 ≤ (st.core 0).carve.spadSize ∧ clusterOf 8 ≠ clusterOf 0 ∧
     tget (homeward (.ldr 3 off 0 8 true)).inbox 0 [] = [{ pkt (.ldr 3 off 0 8 true) with src := 8 }] ∧
     tget (homeward (.spadLoad 3 off 8)).inbox 0 [] = [{ pkt (.spadLoad 3 off 8) with src := 8 }] ∧
     tget (homeward (.spadStore off 8 9)).inbox 0 [] = [{ pkt (.spadStore off 8 9) with src := 8 }]) ∧
    (let s := { homeward (.inval 0 0) with wb := [wb0] }
     let q := memQueue (128 * wb0.sector)
     s.wb = [wb0] ∧ wb0.slice = 0 ∧
     (s.asksAt 1 q).isEmpty = true ∧
     (match (s.arb 1 q).grant 1 s.now (s.arbReqs 1 q) with
      | some r => r.1.vdev == wb0.owner
      | none => false) = true) := by decide +kernel

/-- A copy of 200 bytes between the own scratchpad and the task's page, with nothing issued. -/
def copy200 : Copy := { copyOn 1 with rows := [(own.toNat, 0x10040, 200)], landed := 0 }

/-- The state with one copy in cluster 0. -/
def withCopy (s : State) (c : Copy) : State := s.onCluster 0 (fun k => { k with copies := [c] })

/-- The state with core 0's array at the virtual address 0x40000. -/
def arrayPaged : State := st.onMe (fun c => { c with utlb := c.utlb ++
  [{ vdev := 0, pasid := none, va := 0x40000, size := 65536, leaf := BitVec.ofNat 64 (arrayBase 0 + 15), ats := none,
     age := 0 }] })

/-- A first chunk to a home, to the own window and to the own array by its page; chunks at both ends; a stamp; an
acknowledgement; a completion on path S and on path G. -/
theorem test_hyp_CopiesIssueLandAndComplete :
    [(0x10040, 0), (own.toNat + 256, 1), (0x40100, 2)].all (fun (e : Nat × Nat) =>
      let c := { copy200 with rows := [(own.toNat, e.1, 200)] }
      let s := withCopy arrayPaged c
      let s1 := s.onCluster 0 (fun d => { d with copyRR := (c.core % 8, c.tag) })
      let ask : Asker := { ep := 0, vdev := 0, pasid := none }
      let n := min 200 (128 - e.1 % 128)
      (s.cluster 0).copies == [c] && clusterOf c.core == 0 && c.hasChunk && c.members.isEmpty &&
      decide (c.flight.length < 64) && (s.takeSource 0).isNone &&
      (match s1.chunkSource 0 c own.toNat n with
       | (.have' _ _, u) => (match u.translate ask e.1 n .w with
         | (.glob _, _) => e.2 == 0
         | (.spad 0 off, _) => off == 256 && byArray e.1 == (e.2 == 2) && e.2 != 0
         | _ => false)
       | _ => false)) = true ∧
    [Body.chunk 0 0 (st.me.carve.spadSize - 2) 0 [1, 2] [] true, .chunk 0 0 0x10000 0 (List.replicate 128 7) [] false,
     .chunk 0 0 0x10040 0 [1] [] false, .stampPkt 0 5 [(0x10000, 4)]].all (fun b =>
      let p := { pkt b with src := 8 }
      let s := homeward b
      tget s.inbox 0 [] == [p] && s.held.isEmpty && !s.latchBlocks 0 0x10000) = true ∧
    (({ homeward (.inval 0 0) with inbox := [] } : State).bring 0 0 0 0x10000 true).hasSector 0 0 0x10000 = true ∧
    (broughtIn (.chunk 0 0 0x10040 0 [1] [] false) 0x10040).hasSector 0 0 0x10040 = true ∧
    ((broughtIn (.chunk 0 0 0x10040 0 [1] [] false) 0x10040).core 0).on = true ∧
    ((queueBusy { st with l2 := [] } 0x10040).bring 0 0 0 0x10040 false).hasSector 0 0 0x10040 = false ∧
    (let c := { copy200 with members := [0, 1, 7], rows := [(own.toNat, 256, 200)] }
     let s := withCopy arrayPaged c
     let s1 := s.onCluster 0 (fun d => { d with copyRR := (c.core % 8, c.tag) })
     (s.cluster 0).copies = [c] ∧ clusterOf c.core = 0 ∧ c.hasChunk = true ∧ c.members ≠ [] ∧
     c.flight.length + c.members.length ≤ 64 ∧ (s.takeSource 0).isNone = true ∧
     (match s1.chunkSource 0 c own.toNat 128 with
      | (.have' _ _, _) => true
      | _ => false) = true) ∧
    [none, some 8, some (131072 - 4)].all (fun counter =>
      let f : ChunkOut := { no := 8, n := 64, at' := some (0, 0x10000) }
      let c := { copy200 with rows := [], flight := [f], counter := counter }
      let s := withCopy (homeward (.chunkAck 0 8 64)) c
      tget s.inbox (8 * 0) [] == [{ pkt (.chunkAck 0 8 64) with src := 8 }] && (s.cluster 0).copies == [c] &&
      c.flight == [f] && f.no == 8) = true ∧
    (let c := { copyOn 1 with rows := [], gen := 1 }
     let s := withCopy (placed st) c
     (s.vdevOf c.vdev).gen ≠ c.gen ∧ c.seq = none ∧ c.flight = [] ∧ c.srcs = []) ∧
    (let c := { copyOn 1 with rows := [], seq := some 5, stamps := 0, silent := true }
     let s := withCopy (placed st) c
     (s.vdevOf c.vdev).gen = c.gen ∧ c.path ≠ 0 ∧ c.seq = some 5 ∧ c.stamps = 0 ∧ c.flight = [] ∧ c.srcs = []) ∧
    [0, 1].all (fun path =>
      let c := { copyOn path with rows := [] }
      let s := withCopy (placed st) c
      (List.range 8).all (fun i => (tget s.inbox (8 * 0 + i) []).isEmpty) && (s.cluster 0).copies == [c] &&
      c.flight.isEmpty && c.rows.isEmpty && c.srcs.isEmpty && c.seq.isNone && (s.core c.core).runs c.vdev && !c.silent && c.succ.isNone &&
      (s.vdevOf c.vdev).gen == c.gen && (s.core c.core).pops.isEmpty &&
      decide ((tget (s.core c.core).sets c.level KSet.reset).q4.length < 16)) = true := by decide +kernel

/-! ### The fabric, links and barriers between cores -/

/-- A numbered packet from core 8 to core 0, in the mesh at a router. -/
def meshPkt (pos : Nat) (numbered : Bool) : Pkt :=
  { pkt (.rcdAck 0 0) with src := 8, pos := pos, numbered := numbered }

/-- The state with that packet in the mesh. -/
def meshed (pos : Nat) (numbered : Bool) : State := { placed st with egress := [meshPkt pos numbered] }

/-- The mesh output a packet asks for. -/
def outOf (pos side : Nat) : Nat := pos + 2 ^ 11 * side

/-- The state with chip 1 reached through port 0. -/
def routed : State :=
  { placed st with mmio := tset (placed st).mmio ((0x021000000000 + 8) / 8) (BitVec.ofNat 64 (2 ^ 24 + 1)) }

/-- A packet for core 0 of chip 1. -/
def farPkt : Pkt := { pkt (.rcdAck 0 0) with src := 0, dst := 65536 }

/-- The port's sluice. -/
def sluiced (f : Sluice → Sluice) : State := { routed with sluices := [(0, f Sluice.reset)] }

/-- A link packet of core 0 of chip 1 that arrives at port 0, of the current and of another generation, sealed under
key 0's value and with the IV of its header. -/
def linkPkt (b : Body) (gen : Nat) : LinkPkt :=
  let p := { pkt b with src := 65536, gen := gen }
  { pkt := p, key := 0, ivc := 7, port := 3, chip := 1, header := linkHeader p 7 3 }
def linked (p : LinkPkt) : State := { routed with linkIn := [(0, [p])] }

/-- A packet one hop away and at its router, before and after its first router; delivery of the greatest number, with none
and with another packet delivered in the same cycle; a skip; a link packet out, resent, and the 64th failure; in, authentic and not; a refund. -/
theorem test_hyp_PacketsMoveThroughTheFabric :
    [(1, 3, false), (1, 3, true), (0, 4, false), (0, 4, true)].all (fun (e : Nat × Nat × Bool) =>
      let s := meshed e.1 e.2.2
      let p := meshPkt e.1 e.2.2
      s.asking (bitsOf (outOf e.1 e.2.1) 0 6 + 64 * bitsOf (outOf e.1 e.2.1) 6 5) (bitsOf (outOf e.1 e.2.1) 11 3) == [p] &&
      (match (s.arb 0 (outOf e.1 e.2.1)).grant 0 s.now (headReqs meshFlits [p] []) with
       | some r => r.1.vdev == p.vdev && r.1.cls == p.cls
       | none => false) &&
      (match s.nextHop p with
       | some (_, .router t) => t == 0 && e.1 == 1
       | some (_, .home) => e.1 == 0
       | _ => false) && !s.fenceStops p && s.firstRouter p == 0) = true ∧
    (let p := { meshPkt 0 true with sseq := 2 ^ 32 - 1 }
     let s := { placed st with net := [p], sseqIn := [(pairKey 8 0, 2 ^ 32 - 1)] }
     s.net = [p] ∧ p.dst = s.epId 0 ∧ s.skipped = [] ∧ tget s.sseqIn (pairKey p.src p.dst) 0 = p.sseq ∧
     s.current p = true ∧ tget s.inbox 0 [] = [] ∧
     (tget (arrived s 0 (pkt (.rcdAck 0 0))).inbox 0 []).all (fun q => q.arr == s.now) = true) ∧
    (let s := { placed st with skipped := [(pairKey 8 0, 0)] }
     s.skipped = [(pairKey 8 0, 0)] ∧ tget s.sseqIn (pairKey 8 0) 0 = 0) ∧
    (let s := sluiced (fun u => { u with queue := [farPkt] })
     (s.sluice 0).queue = [farPkt] ∧ (s.sluice 0).up = true ∧ s.skipped = [] ∧ (s.portOf farPkt).isSome = true ∧
     (match (s.arb 2 0).grant 2 s.now (headReqs linkFlits [farPkt] []) with
      | some r => r.1.vdev == farPkt.vdev && r.1.cls == farPkt.cls
      | none => false) = true) ∧
    (let s := sluiced (fun u => { u with unacked := [linkPkt (.rcdAck 0 0) 0], resends := [(0, 64)] })
     (s.sluice 0).up = true ∧ (s.sluice 0).unacked ≠ [] ∧ (s.sluice 0).resends = [(0, 64)]) ∧
    [0, 1].all (fun gen =>
      let lp := linkPkt (.rcdAck 0 0) gen
      tget (linked lp).linkIn 0 [] == [lp] && (linked lp).opens lp && !lp.clear.isQuiet && lp.clear.cls == 1 &&
      (linked lp).firstRouter lp.clear == 0 && (linked lp).current lp.clear == (gen == 0)) = true ∧
    (let lp := { linkPkt (.rcdAck 0 0) 1 with key := 5 }
     tget (linked lp).linkIn 0 [] = [lp] ∧ (linked lp).opens lp = false ∧ (linked lp).current lp.clear = false) ∧
    (let p := pkt (.refund 0 0 3 5)
     ({ routed with inbox := [(0, [p])] } : State).inbox = [(0, [p])]) := by decide +kernel

/-- The state with an open arrival of a gang of n that has sent every round, at core 0, and a packet for it. -/
def awaiting (l : List GBar) (b : Body) : State := arrived (st.onMe (fun c => { c with gbars := l })) 0 (pkt b)

/-- An open arrival of a gang of n, with the rounds it has received. -/
def gang (n : Nat) (rcvd : BitVec 16) : GBar := { openArrival with n := n, sent := rounds n, rcvd := rcvd }

/-- A notice and an ABORT with no entry; the first and the last notice of a gang of 4, and round 15 of the greatest. -/
theorem test_hyp_BarrierNoticesAdvanceTheirArrival :
    [Body.bar 7 0, .abort 7].all (fun b =>
      tget (awaiting [] b).inbox 0 [] == [pkt b] && ((awaiting [] b).core 0).runs 0 && ((awaiting [] b).core 0).gbars.isEmpty) =
      true ∧
    [((4 : Nat), (0 : BitVec 16), (0 : Nat), false), (4, 1, 1, true), (65535, 0x7FFF, 15, true)].all (fun e =>
      let g := gang e.1 e.2.1
      let k := e.2.2.1
      let s := awaiting [g] (.bar 7 k)
      (s.core 0).gbars == [g] && g.bid == 7 && g.opened && !g.aborted && !g.rcvd.getLsbD k && decide (k < 16) &&
      g.sent == rounds g.n && g.held.isEmpty && g.succ.isNone &&
      (List.range (rounds g.n)).all (fun j => j == k || g.rcvd.getLsbD j) == e.2.2.2) = true ∧
    ((awaiting [gang 4 0] (.abort 7)).core 0).gbars = [gang 4 0] := by decide +kernel

/-! ### Saggars and devices -/

/-- Saggar 0 runs device 0 in a slice that ends at cycle 8192, with devices of these weights launched. -/
def slicing (weights : Tbl Nat) (now : Nat) : State :=
  { st.onSag 0 (fun g => { g with weight := weights, running := some 0, turn := 1, sliceEnd := 8192, sliceStart := 0 }) with
    vdevs := [(0, { VDev.reset with launched := true }), (1, { VDev.reset with launched := true })]
    now := now }

/-- The same with every core of the saggar idle. -/
def slicingIdle (now : Nat) : State := (slicing [(0, 1)] now).onFrame (fun f => { f with level := 0 })

/-- Saggar 0 after a class-3 event. -/
def stricken (fenced contained : Bool) : State :=
  (slicing [(0, 1)] 0).onSag 0 (fun g => { g with hit := some 0, fenced := fenced, contained := contained })

/-- A slice over, with one device and with two; idle for 4,096 cycles; each stage of containment. -/
theorem test_hyp_SaggarsTakeTurnsAndAreContained :
    [slicing [(0, 1)] 8192, slicing [(0, 1), (1, 1)] 8192, slicingIdle 4096].all (fun s => (s.sag 0).en &&
      (s.sag 0).hit.isNone && !(s.sag 0).switching && (s.sag 0).running == some 0) = true ∧
    ((slicing [(0, 1)] 8192).sag 0).sliceEnd ≤ 8192 ∧ (slicing [(0, 1)] 8192).nextDevice 0 = some 0 ∧
    (slicing [(0, 1), (1, 1)] 8192).nextDevice 0 = some 1 ∧
    (slicingIdle 4096).idleSince 0 = some 0 ∧ (slicingIdle 4096).now < ((slicingIdle 4096).sag 0).sliceEnd ∧
    (slicingIdle 4096).nextDevice 0 = some 0 ∧
    ((stricken false false).sag 0).hit.isSome = true ∧ ((stricken false false).sag 0).fenced = false ∧
    ((stricken true false).sag 0).fenced = true ∧ ((stricken true false).sag 0).contained = false ∧
    (stricken true false).quiescent 0 = true ∧ ((stricken true true).sag 0).fenced = true ∧
    ((stricken true true).sag 0).contained = true := by decide +kernel

/-- Device 0 in a state, with the controller running and the default launch block. -/
def deviced (d : VDev) : State :=
  { slicing [(0, 1)] (2 ^ 20) with vdevs := [(0, d)], nm := { State.reset.nm with st := 2 } }

/-- A link packet at port 0 of the state. -/
def marked (s : State) (b : Body) : State := { s with linkIn := [(0, [linkPkt b 0])] }

/-- A device that may be launched; one that runs; a reset whose scan is due; a marker; the last answer and one of two; a
teardown that has timed out. -/
theorem test_hyp_DevicesAreLaunchedResetAndTornDown :
    (deviced VDev.reset).mayLaunch 0 = true ∧
    ((deviced { VDev.reset with launched := true }).vdevOf 0).launched = true ∧
    (deviced { VDev.reset with launched := true }).busy 0 = false ∧
    (let s := deviced { VDev.reset with launched := true, gen := 1, resetAt := some (2 ^ 20 - 2 ^ 17) }
     (s.vdevOf 0).resetAt = some (2 ^ 20 - 2 ^ 17) ∧ 2 ^ 20 - 2 ^ 17 + 2 ^ 17 ≤ s.now ∧ (s.vdevOf 0).teardown = none) ∧
    tget (marked (deviced { VDev.reset with launched := true }) (.quiet 0 0)).linkIn 0 [] = [linkPkt (.quiet 0 0) 0] ∧
    [Body.quiet 0 0, .quietAns 0 0].all (fun b =>
      (marked (deviced { VDev.reset with launched := true }) b).opens (linkPkt b 0)) = true ∧
    [[0], [0, 1]].all (fun ps =>
      let s := marked (deviced { VDev.reset with launched := true, teardown := some ps }) (.quietAns 0 0)
      tget s.linkIn 0 [] == [linkPkt (.quietAns 0 0) 0] && (s.vdevOf 0).teardown == some ps &&
      (s.vdevOf 0).resetAt.isNone && (ps.filter (fun q => !(q == 0)) == []) == (ps == [0])) = true ∧
    (let s := deviced { VDev.reset with launched := true, teardown := some [0], downAt := 0 }
     (s.vdevOf 0).downAt + 2 ^ 20 ≤ s.now) := by decide +kernel

/-! ### Further clauses of the statements above -/

/-- The state with a register that no instruction has written since DEADM marked it. -/
def deadOne (s : State) : State := s.onFrame (fun f => { f with live := f.live &&& ~~~2#32 })

/-- A dead source with the trap enabled and not. -/
theorem test_hyp_DeadReads :
    [false, true].all (fun drt =>
      let s := (deadOne st).onFrame (fun f => { f with drt := drt })
      s.frame.acq.isNone && s.me.upset == 0 && !s.me.breaks && !s.frame.pp && !s.frame.isLive 1 && s.x 1 == 0 &&
      ([3, 1, 2] : List XReg).all (fun r => s.frame.isFull r && !s.frame.isBusy r) &&
      !s.me.bankWaits [1, 2] 3 s.now && ([1, 2] : List XReg).find? (fun q => !s.frame.isLive q) == some 1) = true := by
  decide +kernel

/-- Core 0 in a supervisor frame with MMIO pages at 0x50000 and the cluster-state page in them. -/
def mmioPaged : State :=
  (st.onFrame (fun f => { f with sup := true })).onMe (fun c => { c with utlb := c.utlb ++
    [{ vdev := 0, pasid := none, va := 0x50000, size := 65536, leaf := 0x02100000000F, ats := none, age := 0 }] })

/-- The task's page in the L1, its first sector valid. -/
def cachedPage (s : State) : State :=
  globThen (s.translate s.asker 0x10000 8 .r) (fun _ _ => true) |> fun _ =>
  match s.translate s.asker 0x10000 8 .r with
  | (.glob x, _) => s.onMe (fun c => { c with l1 :=
      [{ home := x.home, line := x.pa / 512, valid := 15, data := [], pois := [], age := 0 }] })
  | _ => s

/-- Loads and stores that the L1 answers, that miss it, of another member's window, of the queue window and of MMIO before
and after the stall. -/
theorem test_hyp_OtherLoadsAndStores :
    [(cachedPage st, true), (st, false)].all (fun (e : State × Bool) =>
      let s := setx e.1 1 0x10000
      let w := s.wake [1] 2
      s.clear false [1] 2 && !w.carveHolds 0x10000 && !w.walkWaits w.asker 0x10000 &&
      globThen (w.translate w.asker 0x10000 8 .r) (fun x t =>
        !t.locked s.cur (.glob x) 0x10000 8 false && t.me.acqs.isEmpty && decide (t.me.loads.length < 4) &&
        (match t.me.l1Find x.home x.pa with
         | some l => e.2 && l.pois.isEmpty
         | none => !e.2))) = true ∧
    [(Perm.r, false), (Perm.w, true)].all (fun (e : Perm × Bool) =>
      let s := setx (posting 0) 1 0x7E1000020000
      let w := s.wake [1] 2
      s.clear false [1] 2 && s.clear false [1, 2] 0 && !w.carveHolds (s.x 1).toNat && !w.walkWaits w.asker (s.x 1).toNat &&
      (match w.translate w.asker (s.x 1).toNat 8 e.1 with
       | (.spad m o, t) => m != s.cur && clusterOf s.cur == clusterOf m && !t.locked s.cur (.spad m o) (s.x 1).toNat 8 e.2 &&
         !byArray (s.x 1).toNat && decide (t.me.loads.length < 4)
       | _ => false)) = true ∧
    [(0x7E2000000000 : Word), 0x7E2000001000].all (fun a =>
      let s := setx st 1 a
      let w := s.wake [1] 2
      s.clear false [1] 2 && !w.carveHolds a.toNat && !w.walkWaits w.asker a.toNat &&
      (match w.translate w.asker a.toNat 8 .r with
       | (.queue _, _) => true
       | _ => false)) = true ∧
    [none, some Wait.mmio].all (fun wait => [Perm.r, .w].all (fun p =>
      let s := (setx mmioPaged 1 0x50000).onMe (fun c => { c with stalled := wait })
      let w := s.wake [1] 2
      s.clear false [1] 2 && s.clear false [1, 2] 0 && !w.carveHolds 0x50000 && !w.walkWaits w.asker 0x50000 &&
      (match w.translate w.asker 0x50000 8 p with
       | (.mmio pa, t) => mmioAllowed s.frame.sup pa 8 && t.mmioReady == wait.isSome
       | _ => false))) = true := by decide +kernel

/-- An empty source with its e bit set and not, an empty destination, a pending FMT before an ADDI, and none before a
conversion. -/
theorem test_hyp_FullAndEmptyWaits :
    ([1, 2, 3] : List XReg).all (fun r =>
      let s := st.onFrame (fun f => f.setEmpty r)
      s.frame.acq.isNone && s.me.upset == 0 && !s.me.breaks && !s.frame.pp && !s.frame.isFull r) = true ∧
    (st.onFrame (fun f => { f with pp := true })).frame.pp ≠ isPrefixed (.addi 1 2 3) ∧
    st.frame.pp ≠ isPrefixed (.vcvt 0 1 0 0 0) ∧ (encode (.addi 1 2 3)).isSome = true ∧
    (encode (.vcvt 0 1 0 0 0)).isSome = true ∧
    (queued 7).kset.bad.contains (queueItem 1) = false ∧ (queued 7).kset.bad.contains (queueItem 2) = false ∧
    (queued 7).kset.bad.contains (queueItem 4) = false := by decide +kernel

/-- The state with an acquire under way. -/
def acquiring (s : State) : State :=
  s.onMe (fun c => { c with acqs := [{ id := 3, got := [], waits := [(1, none)], horizon := none, sent := true }] })

/-- A load of a page that is in the caches and of one that is not, behind an acquire; a release that waits behind a post. -/
theorem test_hyp_LoadsWaitBehindAcquires :
    (let s := acquiring (setx st 1 0x10000)
     let w := s.wake [1] 2
     s.clear false [1] 2 = true ∧ s.me.acqs ≠ [] ∧ w.carveHolds 0x10000 = false ∧ w.noWalk w.asker 0x10000 = true ∧
     w.walkWaits w.asker 0x30000 = true ∧
     globThen (w.translate w.asker 0x10000 8 .r) (fun x t => !t.locked s.cur (.glob x) 0x10000 8 false) = true) ∧
    (let w := (acquiring (setx st 1 0x30000)).wake [1] 2
     w.noWalk w.asker 0x30000 = false ∧ w.carveHolds 0x30000 = false) ∧
    (published st (fun p => { p with acts := [.rel 0 none] })).me.pub.acts ≠ [] := by decide +kernel

/-- A request of device 5 that waits for its first router, translated by an entry that the XINV of this state names. -/
def xinvWaiting : State :=
  let s := (setx (setx superior 1 0x10000) 2 5).onMe (fun c => { c with utlb :=
    [{ vdev := 5, pasid := none, va := 0x10000, size := 65536, leaf := 0x1000F, ats := none, age := 0 }] })
  { s with egress := [{ pkt (.fill 3 0x10040 0) with vdev := 5, numbered := false }] }

/-- A prefetch of a misaligned and of a locked address, and of a page in no cache while its table's home fills; XINV
behind such a request. -/
theorem test_hyp_OtherPrefetchesAndInvalidations :
    (let w := (setx st 1 0x10004).wake [1] 0
     globThen (w.translate w.asker 0x10004 1 .r) (fun _ _ => true) = true ∧ (0x10004 : Nat) % 8 ≠ 0) ∧
    (let s := queueBusy { st with l2 := [] } (st.me.csr.xroot)
     let w := ({ s with l2 := [] } : State).onMe (fun c => { c with utlb := [] })
     (match (w.translate w.asker 0x10000 1 .r).1 with
      | .ats => true
      | _ => false) = true) ∧
    (xinvWaiting.clear false [1, 2] 0 = true ∧ xinvWaiting.frame.sup = true ∧ (xinvWaiting.x 2).toNat % 64 = 5 ∧
     xinvWaiting.egress.all (fun p => p.numbered || !(p.vdev == 5)) = false ∧
     xinvWaiting.egress.all (fun p => p.pa? == some 0x10040) = true ∧
     ((xinvWaiting.core 0).utlb.all (fun e => e.vdev == 5 && decide (e.va ≤ 0x10000) && decide (0x10000 < e.va + e.size) &&
       decide (e.base ≤ 0x10040) && decide (0x10040 < e.base + e.size))) = true) := by decide +kernel

/-- A waiting QPOP of q4; eight copies of the core; 31 locks; a descriptor word above 2^32 − 1. -/
theorem test_hyp_OtherCopies :
    (let s := st.onMe (fun c => { c with pops := [{ fid := c.run.fid, level := c.run.level, q := 4, rd := 6 }] })
     s.me.popWaits s.frame.level 4 = true ∧
     (takeFirst (fun (p : Pop) => p.level == s.frame.level && p.q == 4) s.me.pops).isSome = true) ∧
    st.me.popWaits st.frame.level 4 = false ∧
    (let s := st.onCluster 0 (fun c => { c with copies := List.replicate 8 (copyOn 0) })
     8 ≤ ((s.cluster 0).copies.filter (fun c => c.core == s.cur && !c.paused)).length) ∧
    (let s := copies st 0x10000 own 0x100000000
     s.clear false [1, 2, 3] 4 = true ∧ 2 ^ 32 ≤ (s.x 3).toNat) := by decide +kernel

/-- KEEP to the keeper itself with room in q3, and with none. -/
theorem test_hyp_KeepToItself :
    [(0, true), (2, false)].all (fun (e : Nat × Bool) =>
      let s := (setx ((ringed 1).onKiln 0 (fun k => { k with keeper := tset k.keeper 1 4 })) 1 0).onKset
        (fun k => { k with q3 := List.replicate e.1 { g := 0, rho := [], gamma := [] } })
      s.kilnClear (.keep 1 0 1) [1] && bitOf s.keeper 2 && bitsOf s.keeper 0 2 == s.cur % 4 && (s.x 1).toNat == s.cur % 4 &&
      (decide (s.kset.q3.length + s.queued s.cur s.frame.level (isKeepTo 0) + s.framesTo 0 s.frame.level <
        2 + s.queued s.cur s.frame.level isKmmas) == e.2)) = true := by decide +kernel

/-- Every floating, permuting, comparing, reducing and converting command at the head of the queue. -/
theorem test_hyp_TheVectorSectionComputesTheRest :
    [Instr.viadds 0 1 2, .vadd 0 1 2 0, .vsub 0 1 2 1, .vmul 0 1 2 0, .vfma 0 1 2 1, .vmax 0 1 2 0, .vmin 0 1 2 0, .vabs 0 1 0,
     .vneg 0 1 1, .vexp2 0 1 0, .vrcp 0 1 0, .vrsq 0 1 1, .vlog2 0 1 0, .vperm 0 1 2 2, .vrot 0 1 1 0, .vspl 0 1 2,
     .vlane 0 1 1 0, .vcmpeq 0 1 2 0 1, .vcmplt 0 1 2 0 0, .vcmple 0 1 2 1 0, .vsum 0 1 0 1, .vrmax 0 1 0 0, .vrmin 0 1 1 0,
     .vcvt 0 1 0 0 0, .vcvt 0 1 0 0 1, .vcvti 0 1 0 0 0].all (fun i =>
      let s := issuing i
      decide ((s.kiln 0).vecFree ≤ s.now) && !(s.kiln 0).vecGated &&
      (rotation (s.kiln 0).lastVec).find? (fun j => s.vecRequest 0 j) == some 0 &&
      s.head (quadCore 0 0) == some { vstCmd with ins := i } && (s.ksetOf 0 vstCmd.level).bad == [] && !vstCmd.bad) =
        true := by decide +kernel

/-- The matrix command of the leased level may issue; sections that nothing requests. -/
theorem test_hyp_MatrixCommandsIssueAndGate :
    (leased .kzero 4).slotOpen 0 = true ∧ vstCmd.bad = false ∧
    (let s := { st with now := 1024 }
     (List.range 4).all (fun j => (s.matRequest 0 j).isNone) = true ∧
     (List.range 4).all (fun j => !s.vecRequest 0 j) = true) := by decide +kernel

/-- The check of a product of two tiles of zeros passes. -/
theorem zero_tiles_match (p : Prod) (tol : BitVec 32)
    (h : (p.fa, p.fb, tol) = (.bf16, .bf16, KSet.reset.ktol) ∨ (p.fa, p.fb, tol) = (.int8, .int8, KSet.reset.ktol)) :
    p.mismatch false #[] #[] [] tol = false := by
  have ha : ∀ i k, p.a false #[] i k = p.fa.dec false 0 := fun _ _ => by simp [Prod.a]
  have hb : ∀ k j, p.b false #[] k j = p.fb.dec false 0 := fun _ _ => by simp [Prod.b]
  unfold Prod.mismatch Prod.badRows Prod.badCols
  simp only [Prod.s, ha, hb, List.foldl_nil, List.map_const', List.length_range]
  obtain ⟨ia, ib, fa, fb, m, tr, sc, ng⟩ := p
  simp only [Prod.mk.injEq] at h
  obtain ⟨rfl, rfl, rfl⟩ | ⟨rfl, rfl, rfl⟩ := h <;> (simp only [Prod.differs, Prod.quant]; decide +kernel)

/-- A KMMA of two formats, of zero tiles, about to retire. -/
def product (fmt : BitVec 3) : Flight := { flying (.kmma 0 1 fmt fmt 0) with push := none }

theorem test_hyp_ProductsRetire :
    [(1 : BitVec 3), 6].all (fun fmt =>
      let s := inKiln [product fmt] []
      (s.kiln 0).flight == [product fmt] && s.mayRetire (s.kiln 0) (product fmt) && (s.kiln 0).upset == [] &&
      (product fmt).cmd.succ.isNone && (prodOf (product fmt).cmd.ins).isSome) = true ∧
    ∀ (fmt : BitVec 3) (p : Prod), fmt = 1 ∨ fmt = 6 → prodOf (product fmt).cmd.ins = some p →
      p.mismatch (product fmt).cmd.nxr (product fmt).tileA.toArray (product fmt).tileB.toArray []
        ((inKiln [product fmt] []).ksetOf 0 1).ktol = false := by
  refine ⟨by decide +kernel, fun fmt p h e => ?_⟩
  have hk : ((inKiln [product fmt] []).ksetOf 0 1).ktol = KSet.reset.ktol := rfl
  rw [hk]
  obtain rfl | rfl := h <;> (cases e; exact zero_tiles_match _ _ (by decide))

/-- An acquire at the horizon with a refresh begun after it, and in its own cycle; an invalidation latch. -/
theorem test_hyp_AcquiresAtTheHorizon :
    [(5, true), (4, false)].all (fun (e : Nat × Bool) =>
      let a : Acq := { id := 3, got := [], waits := [], horizon := some (4, 0), sent := true }
      let s := (refreshing { up with refreshed := some e.1 }).onMe (fun c => { c with acqs := [a] })
      (tget s.inbox 0 []).isEmpty && (s.core 0).acqs == [a] && (s.vdevOf (s.core 0).vdev).refreshed == some e.1 &&
      decide (4 < e.1) == e.2) = true ∧
    ({ latch0 with kind := 2 } : Latch).kind ≠ 1 := by decide +kernel

/-- Scratchpad reads of the own cluster, with the load that waits for them, and of a copy's source on another chip. -/
theorem test_hyp_NearLoadsAndFarSources :
    (let s := (arrived st 0 { pkt (.spadLoad 3 0 8) with src := 1 }).setCore 1 { (st.core 1) with loads := [load5 8] }
     tget s.inbox 0 [] = [{ pkt (.spadLoad 3 0 8) with src := 1 }] ∧ (s.core 0).carving = false ∧ s.held = [] ∧
     s.chip = 0 ∧ clusterOf 1 = clusterOf 0 ∧ s.anyPoison (arrayBase 0 + 0) 8 = false ∧ (s.core 1).loads = [load5 8]) ∧
    tget (homeward (.chunkRead 0 0 0 0 8 true)).inbox 0 [] = [{ pkt (.chunkRead 0 0 0 0 8 true) with src := 8 }] := by
  decide +kernel

/-- A scan after which another reset waits. -/
theorem test_hyp_ResetsFollowOneAnother :
    [false, true].all (fun again =>
      let s := deviced { VDev.reset with launched := true, gen := 1, resetAt := some (2 ^ 20 - 2 ^ 17), again := again }
      (s.vdevOf 0).resetAt == some (2 ^ 20 - 2 ^ 17) && (s.vdevOf 0).teardown.isNone && (s.vdevOf 0).again == again) =
        true := by decide +kernel

/-- A frame at level 3 with a breakpoint at its PC, and one with mismatches awaited. -/
def broken : State := (st.onFrame (fun f => { f with level := 3 })).onMe (fun c => { c with
  dbg := { c.dbg with dba := c.dbg.dba.set 1 c.run.pc, dbm := c.dbg.dbm.set 1 0x400400 } })

theorem test_hyp_BreakpointsAndMismatches :
    broken.frame.acq = none ∧ broken.me.upset = 0 ∧ broken.me.breaks = true ∧ (encode (.addi 1 0 1)).isSome = true ∧
    [false, true].all (fun again =>
      let s := st.onMe (fun c => { c with upset := 1, again := again })
      s.frame.acq.isNone && s.me.upset != 0 && s.me.again == again) = true := by decide +kernel

/-- The core with one cached translation of the block at 0x40000. -/
def cachedLeaf (leaf : Word) : State := st.onMe (fun c => { c with utlb :=
  [{ vdev := 0, pasid := none, va := 0x40000, size := 65536, leaf := leaf, ats := none, age := 0 }] })

theorem test_hyp_CachedTranslations :
    [(0x41#64, false), (0x2F#64, true), (0x01#64, true), (0x0F#64, true)].all (fun (x : Word × Bool) =>
      let s := cachedLeaf x.1
      let mk := bitsOf x.1.toNat 6 10
      canonical 0x4FFF8 && s.me.utlb.any (fun e => e.hit s.asker 0x4FFF8 && e.ats.isNone) &&
      ((decide (s.descMkey 0 0 ≤ mk) && decide (mk ≤ s.descMkey 0 0 + s.descMkn 0 0)) == x.2)) = true ∧
    bitOf 0x2F 5 = true ∧ bitOf 0x01 1 = false ∧ bitOf 0x01 2 = false ∧ bitOf 0x01 3 = false ∧
    (bitOf 0x0F 1 && bitOf 0x0F 2 && bitOf 0x0F 3 && !bitOf 0x0F 4 && !bitOf 0x0F 5) = true ∧
    isGlobal (65536 * bitsOf 0x0F 16 32 + 0x4FFF8 % 65536) = true := by decide +kernel

/-- Registers read with and without a deadline, in a cluster that is not derated. -/
theorem test_hyp_RegistersAreRead :
    st.clear false [0] 1 = true ∧ st.me.run.dl = none ∧ (st.cluster (clusterOf st.cur)).derateAt = none ∧
    (let d : Deadline := { expiry := 1, succ := none, solves := 0, reason := 0 }
     let s := st.onFrame (fun f => { f with dl := some d })
     s.clear false [0] 1 = true ∧ s.me.run.dl = some d) := by decide +kernel

/-- A core of a saggar that nothing has hit. -/
theorem test_hyp_MachineChecksHitTheSaggar :
    (slicing [(0, 1)] 0).sagOf 0 = some 0 ∧ ((slicing [(0, 1)] 0).sag 0).hit = none := by decide +kernel

end Sys2Proof.Tests
end

