-- ==== Sys2Proof/Tests/Slice0.lean ====
section
/-! SUPPORT. The author's own tests: words written out from the encoding tables, ill-formed terms that the check refuses,
and single steps whose results are worked out by hand from the rules cited. -/

namespace Sys2Proof.Tests

open Sys2Proof Sys2Proof.Machine

set_option Elab.async false

/-! ### Decoding -/

/-- U-type: imm[31:12] rd opcode (R191). -/
theorem test_decode_lui : decode 0b10000000000000000001_00101_0110111#32 = .ok (.lui 5 0x80001) := by decide +kernel

/-- J-type: imm[20] imm[10:1] imm[11] imm[19:12] rd opcode (R191): offset −2. -/
theorem test_decode_jal : decode 0b1_1111111111_1_11111111_00001_1101111#32 = .ok (.jal 1 0xFFFFF) := by decide +kernel

/-- B-type: imm[12] imm[10:5] rs2 rs1 funct3 imm[4:1] imm[11] opcode (R191): BLTU, offset 4096−2. -/
theorem test_decode_branch : decode 0b0_111111_00111_00110_110_1111_1_1100011#32 = .ok (.bltu 6 7 0x7FF) := by decide +kernel

/-- I-type: imm[11:0] rs1 funct3 rd opcode (R192): LWU. -/
theorem test_decode_load : decode 0b011111111111_00010_110_11111_0000011#32 = .ok (.lwu 31 2 0x7FF) := by decide +kernel

/-- S-type: imm[11:5] rs2 rs1 funct3 imm[4:0] opcode (R192): SH with −1. -/
theorem test_decode_store : decode 0b1111111_00011_00100_001_11111_0100011#32 = .ok (.sh 4 3 0xFFF) := by decide +kernel

/-- The shift amount has six bits (R193). -/
theorem test_decode_srai : decode 0b010000_111111_01000_101_01001_0010011#32 = .ok (.srai 9 8 63) := by decide +kernel

/-- Funct7 0000001 (R194). -/
theorem test_decode_remuw : decode 0b0000001_01010_01011_111_01100_0111011#32 = .ok (.remuw 12 11 10) := by decide +kernel

/-- Csr uimm funct3 rd opcode (R195). -/
theorem test_decode_csrrci : decode 0b010111100011_11111_111_00011_1110011#32 = .ok (.csrrci 3 0x5E3 31) := by decide +kernel

/-- Custom-0: funct5 1, E bits in [26:25] (R168, R217). -/
theorem test_decode_post : decode 0b00001_0_1_00000_00110_000_00111_0001011#32 = .ok (.post 7 6 1) := by decide +kernel

/-- Custom-0, funct3 1 (R219). -/
theorem test_decode_spawn : decode 0b00000_1_0_01001_01000_001_00111_0001011#32 = .ok (.spawn 7 8 9 0 1) := by decide +kernel

/-- Custom-0, funct3 2 (R224). -/
theorem test_decode_claim : decode 0b00000_0_0_00000_10001_010_00000_0001011#32 = .ok (.claim 17 0) := by decide +kernel

/-- Custom-0, funct3 5: the queue in [24:20] (R234). -/
theorem test_decode_qpop : decode 0b00010_00_00100_00000_101_10101_0001011#32 = .ok (.qpop 21 4) := by decide +kernel

/-- Custom-0, funct3 6: second code in [22:20], first in [17:15] (R173). -/
theorem test_decode_fmt : decode 0b00001_0000_101_00_011_110_00000_0001011#32 = .ok (.fmt 3 5) := by decide +kernel

/-- Custom-0, funct3 6 (R59). -/
theorem test_decode_one : decode 0b00000000000000000_110_00000_0001011#32 = .ok (.one) := by decide +kernel

/-- Custom-0, funct3 7, funct5 5 (R238). -/
theorem test_decode_ckpt : decode 0b00101_000000000000_111_00000_0001011#32 = .ok (.ckpt) := by decide +kernel

/-- Custom-1, funct5 1 (R240). -/
theorem test_decode_acq : decode 0b00001_0_1_00000_10010_000_00000_0101011#32 = .ok (.acq 18 1) := by decide +kernel

/-- Custom-1, funct3 5: the third source in [31:27] (R245). -/
theorem test_decode_copy : decode 0b00100_00_00011_00010_101_00001_0101011#32 = .ok (.copy 1 2 3 4) := by decide +kernel

/-- Custom-2: sz [25:24], vs2 [23:21], vs1 [20:18], vd [17:15] (R170, R265). -/
theorem test_decode_vadd : decode 0b000000_11_101_110_111_010_00000_1011011#32 = .ok (.vadd 7 6 5 3) := by decide +kernel

/-- Custom-2: the part in [23:21], SATO 9, MODE [8:7] (R268). -/
theorem test_decode_vcvt : decode 0b000000_11_001_010_100_100_00_1_10_1011011#32 = .ok (.vcvt 4 2 1 1 2) := by decide +kernel

/-- Custom-2, funct3 6: the code in [7] (R271). -/
theorem test_decode_vsum : decode 0b000000_00_000_010_100_110_0000_1_1011011#32 = .ok (.vsum 4 2 0 1) := by decide +kernel

/-- Custom-3: rings [26:25] and [24:23], formats [22:20] and [19:17], mode [16:15] (R171, R290). -/
theorem test_decode_kmma : decode 0b00000_10_01_101_001_01_001_00000_1111011#32 = .ok (.kmma 2 1 5 1 1) := by decide +kernel

/-- Custom-3, funct3 3: xs in [11:7] (R293). -/
theorem test_decode_keep : decode 0b00000_11_10_00000000_011_10011_1111011#32 = .ok (.keep 19 3 2) := by decide +kernel

/-- Custom-3, funct3 2, funct5 3: the register in [26:24], the row in [20:15] (R292). -/
theorem test_decode_krow : decode 0b00011_110_000_100001_010_00000_1111011#32 = .ok (.krow 6 33) := by decide +kernel

/-- FENCE keeps its fields; bits [30:28] and the register fields are zero (R205). -/
theorem test_decode_fence : decode 0b1_000_1010_0101_00000_000_00000_0001111#32 = .ok (.fence 1 10 5) := by decide +kernel

/-- LEASE is the word of custom-3 with nothing else set (R281). -/
theorem test_decode_lease : decode 0x0000007B#32 = .ok .lease := by decide +kernel

/-- Each check of R172 refuses a word: framing, major opcode, a standard word outside the tables, a selector, a field. -/
theorem test_decode_refuses :
    [0x00000000#32, 0x00000007#32, 0x04001013#32, 0xF800700B#32, 0x0000708B#32].all (fun w =>
      match decode w with
      | .ok _ => false
      | .error _ => true) = true := by decide +kernel

/-! ### Well-formedness: one ill-formed term for each check -/

theorem test_refuses_queue : (Instr.qpush 1 0 5).wellFormed = false ∧ encode (.qpush 1 0 4) ≠ none := by decide +kernel

theorem test_refuses_conversion_mode : (Instr.vcvt 0 1 0 0 3).wellFormed = false := by decide +kernel

theorem test_refuses_code_with_sz : (Instr.vcmpeq 0 1 2 3 1).wellFormed = false := by decide +kernel

theorem test_refuses_format_pair : (Instr.kmma 0 1 1 2 0).wellFormed = false := by decide +kernel

theorem test_refuses_scaled_int8 : (Instr.kmmas 0 1 6 6 0).wellFormed = false := by decide +kernel

theorem test_refuses_mode : (Instr.kscq 2).wellFormed = false ∧ (Instr.kmma 0 1 1 1 2).wellFormed = false := by
  decide +kernel

theorem test_refuses_flag_register : (Instr.kflg 1 0).wellFormed = false ∧ (Instr.kflg 1 2).wellFormed = false := by
  decide +kernel

/-- The part's own steps have no word. -/
theorem test_refuses_hardware_step : (Instr.scaleFrameDelivery 0).wellFormed = false := by decide +kernel

/-! ### Single steps -/

/-- What holds after one instruction goes on. -/
def after (i : Instr) (s : State) (k : State → Bool) : Bool :=
  match exec i s with
  | .next t => k t
  | _ => false

/-- x3 after a register-register instruction on two values. -/
def rr (i : Instr) (a b v : Word) : Bool := after i (setx (setx st 1 a) 2 b) (fun t => t.x 3 == v)

theorem test_addi_wraps : after (.addi 1 1 1) (setx st 1 (-1)) (fun t => t.x 1 == 0 && t.frame.pc == 0x10004) = true := by
  decide +kernel

theorem test_addi_discards_x0 : after (.addi 0 1 1) (setx st 1 5) (fun t => t.x 0 == 0) = true := by decide +kernel

theorem test_sltiu_sign_extends : after (.sltiu 3 1 0xFFF) (setx st 1 5) (fun t => t.x 3 == 1) = true := by decide +kernel

theorem test_addiw_truncates : after (.addiw 3 1 1) (setx st 1 0x17FFFFFFF) (fun t => t.x 3 == 0xFFFFFFFF80000000) = true := by
  decide +kernel

theorem test_sraiw_ignores_the_high_word :
    after (.sraiw 3 1 4) (setx st 1 0x1280000000) (fun t => t.x 3 == 0xFFFFFFFFF8000000) = true := by decide +kernel

theorem test_sub_wraps : rr (.sub 3 1 2) 0 1 (-1) = true := by decide +kernel

theorem test_sll_takes_six_bits : rr (.sll 3 1 2) 1 65 2 = true := by decide +kernel

theorem test_slt_is_signed : (rr (.slt 3 1 2) (-1) 1 1 && rr (.sltu 3 1 2) (-1) 1 0) = true := by decide +kernel

theorem test_mulh_of_the_least : rr (.mulh 3 1 2) 0x8000000000000000 0x8000000000000000 0x4000000000000000 = true := by
  decide +kernel

theorem test_mulhsu_mixes : rr (.mulhsu 3 1 2) (-1) (-1) (-1) = true := by decide +kernel

theorem test_div_by_zero : (rr (.div 3 1 2) 7 0 (-1) && rr (.rem 3 1 2) 7 0 7) = true := by decide +kernel

theorem test_div_overflow :
    (rr (.div 3 1 2) 0x8000000000000000 (-1) 0x8000000000000000 && rr (.rem 3 1 2) 0x8000000000000000 (-1) 0) = true := by
  decide +kernel

theorem test_div_truncates : (rr (.div 3 1 2) (-7) 2 (-3) && rr (.rem 3 1 2) (-7) 2 (-1)) = true := by decide +kernel

theorem test_divuw_sign_extends : rr (.divuw 3 1 2) 0xFFFFFFFF 1 (-1) = true := by decide +kernel

theorem test_auipc : after (.auipc 5 0x80000) st (fun t => t.x 5 == 0xFFFFFFFF80010000) = true := by decide +kernel

/-- A call: the return address in x1, and the registers of DEADM (0xF000_00E0: x5 to x7 and x28 to x31) dead. -/
theorem test_jal_marks_dead :
    after (.jal 1 4) st (fun t => t.x 1 == 0x10004 && t.frame.pc == 0x10008 && !t.frame.isLive 5 && t.frame.isLive 8 &&
      !t.frame.isLive 31) = true := by decide +kernel

theorem test_jalr_clears_bit_0 : after (.jalr 0 2 1) (setx st 2 0x20000) (fun t => t.frame.pc == 0x20000) = true := by
  decide +kernel

theorem test_bgeu_takes_equal :
    after (.bgeu 1 2 0xFFE) st (fun t => t.frame.pc == 0xFFFC) = true := by decide +kernel

/-- Bytes 80 FF at the first offset: LB, LBU and LH. -/
theorem test_loads_extend :
    let s := setx (spadded st 0 [0x80, 0xFF]) 1 own
    (after (.lb 2 1 0) s (fun t => t.x 2 == 0xFFFFFFFFFFFFFF80) && after (.lbu 2 1 0) s (fun t => t.x 2 == 0x80) &&
     after (.lh 2 1 0) s (fun t => t.x 2 == 0xFFFFFFFFFFFFFF80) && after (.lhu 2 1 0) s (fun t => t.x 2 == 0xFF80)) = true := by
  decide +kernel

/-- The stored bytes are little-endian, and the next byte stays. -/
theorem test_sh_writes_two_bytes :
    after (.sh 1 2 6) (spadded (setx (setx st 1 own) 2 0x12345678) 8 [9]) (fun t =>
      t.readByte (arrayBase 0 + 6) == 0x78 && t.readByte (arrayBase 0 + 7) == 0x56 && t.readByte (arrayBase 0 + 8) == 9) =
      true := by decide +kernel

theorem test_lw_beyond_the_region_traps :
    after (.lw 2 1 0) (setx (trapTable st 8) 1 (own + 0x1F000)) (fun t => t.frame.level == 7 && t.x 10 == 8) = true := by
  decide +kernel

theorem test_csrrw_holdm_keeps_bit_0 :
    after (.csrrw 2 1 0x802) (setx st 1 (-1)) (fun t => t.x 2 == 0 && t.me.csr.holdm == 0xFFFFFFFFFFFFFFFE) = true := by
  decide +kernel

theorem test_csrrs_x0_only_reads :
    after (.csrrs 2 0 0x803) st (fun t => t.x 2 == 0xF00000E0 && t.frame.deadm == 0xF00000E0) = true := by decide +kernel

theorem test_supervisor_register_in_user_frame :
    after (.csrrwi 0 0x5C8 1) (trapTable st 1) (fun t => t.frame.level == 7 && t.x 10 == 1 && t.x 12 == 0x10000) = true := by
  decide +kernel

/-- The trapped frame's PC and TSTAT stand in a2 and a3, and the handler runs at level 7 with supervisor rights. -/
theorem test_ecall :
    after .ecall (trapTable st 18) (fun t => t.x 10 == 18 && t.x 11 == 0 && t.x 12 == 0x10000 && t.frame.pc == 0x10100 &&
      t.frame.sup) = true := by decide +kernel

theorem test_tret_resumes : after .tret inTrap (fun t => t.frame.pc == 0x10080 && t.frame.level == 1) = true := by
  decide +kernel

theorem test_tkill_discards : after .tkill inTrap (fun t => t.frame.level == 0 && t.me.under.isEmpty) = true := by
  decide +kernel

theorem test_tend_in_the_idle_frame : after .tend inIdle (fun t => t.frame.pc == 0x10004 && t.me.instret == 1) = true := by
  decide +kernel

theorem test_fmt_orders_its_codes :
    after (.fmt 3 5) st (fun t => t.frame.pp && t.frame.code1 == 3 && t.frame.code2 == 5) = true := by decide +kernel

/-- A word that takes no prefix, behind FMT, raises the bad-prefix trap, cause 2 (R173). -/
theorem test_bad_prefix : after (.addi 1 1 1) (coded (trapTable st 2) 1 0) (fun t => t.x 10 == 2) = true := by decide +kernel

theorem test_claim_raises : after (.claim 1 0) (setx (ceiled st) 1 63) (fun t => t.frame.thr == 5) = true := by decide +kernel

theorem test_hold_zero_changes_nothing : after (.hold 1 0) st (fun t => t.me.csr.holdm == 0) = true := by decide +kernel

theorem test_dlset_counts_from_retirement :
    after (.dlset 1 0 0 0) (setx st 1 10) (fun t => (t.frame.dl.map (fun d => d.expiry)) == some 11) = true := by
  decide +kernel

theorem test_qpop_of_an_empty_queue : after (.qpop 5 1) st (fun t => !t.frame.isFull 5 && t.frame.pc == 0x10004) = true := by
  decide +kernel

theorem test_post_to_own_queue :
    after (.post 3 1 0) (posting 0) (fun t => t.x 3 == 1 && (t.me.ready.map (fun r => r.task.prio)) == [1]) = true := by
  decide +kernel

theorem test_tbarq_masks : after (.tbarq 3) (arriving 3 [1]) (fun t => t.x 3 == 0x302) = true := by decide +kernel

theorem test_gang_of_two_notifies :
    after (.gbar 1 0) (ganged 2 0 7 (own + 64)) (fun t =>
      t.egress.any (fun p => p.dst == 1 && p.body == .bar 7 0) || (tget t.inbox 1 []).any (fun p => p.body == .bar 7 0)) =
      true := by decide +kernel

theorem test_tjmp_beyond_the_table : after (.tjmp 1 2 0 0) (tabled 2) (fun t => t.frame.pc == 0x10004) = true := by
  decide +kernel

theorem test_one_gives_the_result :
    after .one (oneWord 0x00500093) (fun t => t.x 1 == 9 && t.frame.pc == 0x10008) = true := by decide +kernel

theorem test_acqg_above_15 : after (.acqg 1 0) (setx (trapTable st 1) 1 16) (fun t => t.x 10 == 1) = true := by decide +kernel

theorem test_drain_g_waits : after .drainG (copying 1) (fun t => t.frame.pc == 0x10000) = true := by decide +kernel

theorem test_atom_empties_its_register :
    after (.atomAdd 3 1 2 0 0) (setx st 1 0x10008) (fun t => !t.frame.isFull 3 && t.egress.any (fun p => p.cls == 0)) = true := by
  decide +kernel

theorem test_copyq_of_a_known_tag : after (.copyq 3 1 0) (setx (copying 0) 1 5) (fun t => t.x 3 == 24) = true := by
  decide +kernel

/-- A home's ADD writes F(old) (R157): 0xFF..FF + 2 wraps to 1 in 4 bytes. -/
theorem test_atom_at_home_wraps :
    after (.atomAtHome 0) ((homeward (.atom 3 0x20008 0 4 .add 2 0 0 [])).writeBytes 0x20008 [0xFF, 0xFF, 0xFF, 0xFF, 7])
      (fun t => t.readNat 0x20008 4 == 1 && t.readByte 0x2000C == 7) = true := by decide +kernel

/-- The greater stamp wins a byte (R143): seq 4 after seq 5 of the same writer writes nothing. -/
theorem test_compaction_keeps_the_newer :
    after (.compaction 0) { homeward (.rcd (rec1 (.stamped 4))) with stamps := [(0x10000, (5, 8))] }
      (fun t => t.readByte 0x10000 == 0x13 && t.readByte 0x10001 == 0) = true := by decide +kernel

/-! ### The kiln's arithmetic, on values worked out by hand -/

/-- The lanes a of v1 and b of v2, and what lane 0 of v0 holds after a command's issue. -/
def lane (i : Instr) (f1 : Nat) (a b : BitVec 32) (want : BitVec 32) : Bool :=
  let s : State := { commanded (st.onKset (fun k => { k with v := (k.v.set 1 (a.setWidth 1024)).set 2 (b.setWidth 1024) }))
    { vstCmd with ins := i, f1 := f1 } with now := 4 }
  after (.kilnVectorIssue 0) s (fun t => laneOf ((t.ksetOf 0 1).vr 0) 0 == want)

/-- 1.5 + 2.25 = 3.75; +∞ − ∞ is the quiet NaN; 2^24 + 1 rounds to even. -/
theorem test_vadd_fp32 :
    (lane (.vadd 0 1 2 0) 0 0x3FC00000 0x40100000 0x40700000 && lane (.vadd 0 1 2 0) 0 0x7F800000 0xFF800000 0x7FC00000 &&
     lane (.vadd 0 1 2 0) 0 0x4B800000 0x3F800000 0x4B800000) = true := by decide +kernel

/-- 3 × −0.5 = −1.5; the product of the two least normals is +0. -/
theorem test_vmul_fp32 :
    (lane (.vmul 0 1 2 0) 0 0x40400000 0xBF000000 0xBFC00000 && lane (.vmul 0 1 2 0) 0 0x00800000 0x00800000 0) = true := by
  decide +kernel

/-- 1/4 and 1/√4. -/
theorem test_vrcp_vrsq :
    (lane (.vrcp 0 1 0) 0 0x40800000 0 0x3E800000 && lane (.vrsq 0 1 0) 0 0x40800000 0 0x3F000000) = true := by
  decide +kernel

/-- 2^3 and log2 8. -/
theorem test_vexp2_vlog2 :
    (lane (.vexp2 0 1 0) 0 0x40400000 0 0x41000000 && lane (.vlog2 0 1 0) 0 0x41000000 0 0x40400000) = true := by
  decide +kernel

/-- Shift amounts are taken modulo 32 (R270). -/
theorem test_vshl_modulo : lane (.vshl 0 1 2) 0 1 33 2 = true := by decide +kernel

/-- VSEL takes the bits of vs1 where the destination has ones: none here. -/
theorem test_vsel_of_zero : lane (.vsel 0 1 2) 0 0xFFFFFFFF 0x12345678 0x12345678 = true := by decide +kernel

/-! ### The fetch of a placed word -/

/-- Each form that the host asks about: a word placed is the next word run. -/
theorem test_placed_word_runs :
    (match step (State.reset.withFetchWord 32 0x00500093) with
     | .next t => t.x 1 == 5
     | _ => false) = true ∧ decodeTableWord 32 0x00500093 = some (.addi 1 0 5) ∧ decodeTableWord 32 0 = none := by
  decide +kernel

/-- Each home keeps its own copy of a line that software gives two homes (R130). -/
theorem test_each_home_keeps_its_copy :
    (let u := (st.writeBytes 0x10000 [5]).bring 0 0 0 0x10000 false
     let w := ((u.writeByte 0x10000 7).tick 100).bring 8 0 0 0x10000 false
     w.readByte 0x10000 == 5 && (w.bring 0 0 0 0x10000 false).readByte 0x10000 == 7) = true := by decide +kernel

/-- Code changed in memory runs in its old form until the instruction lines are dropped (R159, R205). -/
theorem test_code_lines_stay_until_fence_i :
    (let s := (State.reset.withFetchWord 32 0x00500093).onMe (fun c => { c with ilines := [] })
     let u := (s.fetch 0x10000).2.writeBytes 0x10000 [0x13, 0x01, 0x60, 0x00]
     (u.fetch 0x10000).1 == .word 0x00500093 &&
     ((u.onMe (fun c => { c with ilines := [] })).fetch 0x10000).1 == .word 0x00600113) = true := by decide +kernel

/-- Memory after reset lists nothing, and its canonical form refuses an entry with the value of an unlisted byte. -/
theorem test_reset_memory :
    Memory.wf State.reset.mem = true ∧ Memory.wf [(3, 0)] = false ∧ Memory.wf [(4, 1), (3, 1)] = false ∧
    Memory.write [(3, 1)] 3 0 = [] := by decide

end Sys2Proof.Tests
end

/-! PROOFS. The controller's boot, mailbox commands and adjustments (R22, R373 to R378, R405, R408, R409). The layers: what
the error log's report leaves as it was, what a scrub does to the stored errors, what the report area reads back as, and
one lemma for each step that does more than set a field. -/

namespace Sys2Proof.Machine

/-! ### What the error log's report leaves as it was (R410) -/

/-- A written byte lies in a slice, in a write-back buffer or in memory. -/
theorem writeByte_frame (s : State) (pa : Nat) (b : Byte) :
    ∃ l2 wb mem, s.writeByte pa b = { s with l2 := l2, wb := wb, mem := mem } := by
  unfold State.writeByte
  split
  · exact ⟨_, _, _, rfl⟩
  · split <;> exact ⟨_, _, _, rfl⟩

theorem writeBytes_frame (bs : List Byte) (s : State) (pa : Nat) :
    ∃ l2 wb mem, s.writeBytes pa bs = { s with l2 := l2, wb := wb, mem := mem } := by
  induction bs generalizing s pa with
  | nil => exact ⟨_, _, _, rfl⟩
  | cons b bs ih =>
    obtain ⟨l2, wb, mem, hb⟩ := writeByte_frame s pa b
    obtain ⟨l2', wb', mem', hbs⟩ := ih (s.writeByte pa b) (pa + 1)
    exact ⟨l2', wb', mem', by rw [State.writeBytes, hbs, hb]⟩

/-- A report writes the ring in memory, the log's registers and the interrupt to the host, and nothing else. -/
theorem report_frame (s : State) (e : ErrRec) :
    ∃ l2 wb mem mmio out, s.report e = { s with l2 := l2, wb := wb, mem := mem, mmio := mmio, hostOut := out } := by
  unfold State.report
  extract_lets ctl ptr n head tail ring lastA s1
  have hs1 : ∃ l2 wb mem mmio, s1 = { s with l2 := l2, wb := wb, mem := mem, mmio := mmio } := by
    unfold s1
    split
    · exact ⟨_, _, _, _, rfl⟩
    · split
      · obtain ⟨l2, wb, mem, h⟩ := writeBytes_frame _ s (lastA + 26)
        exact ⟨l2, wb, mem, _, h⟩
      · split
        · exact ⟨_, _, _, _, rfl⟩
        · obtain ⟨l2, wb, mem, h⟩ := writeBytes_frame (e.bytes s.now 1) s (ring + 64 * head)
          exact ⟨l2, wb, mem, _, by rw [h]; rfl⟩
  obtain ⟨l2, wb, mem, mmio, h⟩ := hs1
  rw [h]
  split <;> exact ⟨_, _, _, _, _, rfl⟩

@[simp] theorem report_cluster (s : State) (e : ErrRec) (k : Nat) : (s.report e).cluster k = s.cluster k := by
  obtain ⟨_, _, _, _, _, h⟩ := report_frame s e
  rw [h]; rfl

@[simp] theorem report_ecc (s : State) (e : ErrRec) : (s.report e).ecc = s.ecc := by
  obtain ⟨_, _, _, _, _, h⟩ := report_frame s e
  rw [h]

@[simp] theorem report_poison (s : State) (e : ErrRec) : (s.report e).poison = s.poison := by
  obtain ⟨_, _, _, _, _, h⟩ := report_frame s e
  rw [h]

@[simp] theorem onSag_cluster (s : State) (g : Nat) (f : Saggar → Saggar) (k : Nat) :
    (s.onSag g f).cluster k = s.cluster k := rfl

/-! ### Errors of DRAM words that a scrub reads (R405) -/

/-- One stored error met by a read: it is no longer stored, and marks its word when beyond correction. -/
def eccStep (owner : Nat) (t : State) (e : Nat × Bool) : State :=
  let r : ErrRec := { cls := if e.2 then 0 else 1, src := 4, code := if e.2 then 0x30 else 0x31, unit := e.1 * 8 / 2 ^ 36,
                      addr := e.1 * 8, owner := owner, hseq := 0, pc := 0, detail := t.freeSyndrome }
  let t1 := { t with ecc := t.ecc.erase e, fresh := t.fresh + 8 }
  if e.2 then t1.report r else { t1.report r with poison := e.1 :: t1.poison }

theorem readEcc_eq_foldl (s : State) (sector owner : Nat) :
    s.readEcc sector owner = (s.ecc.filter (fun e => e.1 / 16 == sector)).foldl (eccStep owner) s := rfl

@[simp] theorem eccStep_ecc (owner : Nat) (t : State) (e : Nat × Bool) : (eccStep owner t e).ecc = t.ecc.erase e := by
  unfold eccStep
  dsimp only
  split <;> simp

theorem mem_eccStep_poison (owner : Nat) (t : State) (e : Nat × Bool) (w : Nat) :
    w ∈ (eccStep owner t e).poison ↔ w ∈ t.poison ∨ e = (w, false) := by
  obtain ⟨w', corrected⟩ := e
  cases corrected with
  | true => simp [eccStep]
  | false => simp [eccStep, or_comm, eq_comm]

theorem mem_foldl_eccStep_poison (owner : Nat) (es : List (Nat × Bool)) (t : State) (w : Nat) :
    w ∈ (es.foldl (eccStep owner) t).poison ↔ w ∈ t.poison ∨ (w, false) ∈ es := by
  induction es generalizing t with
  | nil => simp
  | cons e es ih => rw [List.foldl_cons, ih, mem_eccStep_poison, List.mem_cons, or_assoc, eq_comm]

/-- The elements with a property, each removed once for each time it stands there, are gone; the others stay. -/
theorem mem_diff_filter {α : Type} [BEq α] [LawfulBEq α] (p : α → Bool) (l : List α) (a : α) :
    a ∈ l.diff (l.filter p) ↔ a ∈ l ∧ p a = false := by
  rw [← List.count_pos_iff, List.count_diff]
  cases h : p a with
  | true => simp [List.count_filter h]
  | false =>
    have hn : a ∉ l.filter p := by simp [h]
    simp [List.count_eq_zero_of_not_mem hn, List.count_pos_iff]

/-- A read of a sector uses up the errors stored there. -/
theorem mem_readEcc_ecc (s : State) (sector owner : Nat) (e : Nat × Bool) :
    e ∈ (s.readEcc sector owner).ecc ↔ e ∈ s.ecc ∧ e.1 / 16 ≠ sector := by
  have hecc : (s.readEcc sector owner).ecc = s.ecc.diff (s.ecc.filter (fun e => e.1 / 16 == sector)) := by
    rw [readEcc_eq_foldl, List.diff_eq_foldl]
    exact (List.foldl_hom State.ecc (fun t e => (eccStep_ecc owner t e).symm)).symm
  rw [hecc, mem_diff_filter]
  simp

theorem mem_readEcc_poison (s : State) (sector owner w : Nat) :
    w ∈ (s.readEcc sector owner).poison ↔ w ∈ s.poison ∨ ((w, false) ∈ s.ecc ∧ w / 16 = sector) := by
  rw [readEcc_eq_foldl, mem_foldl_eccStep_poison]
  simp

/-- Reads of the sectors of some words, one after another: the errors stored in them are used up. -/
theorem mem_foldl_readEcc_ecc (owner : Nat) (ws : List (Nat × Bool)) (s : State) (e : Nat × Bool) :
    e ∈ (ws.foldl (fun t w => t.readEcc (w.1 / 16) owner) s).ecc ↔ e ∈ s.ecc ∧ ∀ w ∈ ws, e.1 / 16 ≠ w.1 / 16 := by
  induction ws generalizing s with
  | nil => simp
  | cons w ws ih => rw [List.foldl_cons, ih, mem_readEcc_ecc, List.forall_mem_cons, and_assoc]

/-- Reads of the sectors of some words, one after another: the words there that are beyond correction become poison. -/
theorem mem_foldl_readEcc_poison (owner : Nat) (ws : List (Nat × Bool)) (s : State) (a : Nat) :
    a ∈ (ws.foldl (fun t w => t.readEcc (w.1 / 16) owner) s).poison ↔
      a ∈ s.poison ∨ ((a, false) ∈ s.ecc ∧ ∃ w ∈ ws, a / 16 = w.1 / 16) := by
  induction ws generalizing s with
  | nil => simp
  | cons w ws ih =>
    rw [List.foldl_cons, ih, mem_readEcc_poison, mem_readEcc_ecc]
    by_cases h : a / 16 = w.1 / 16 <;> simp [h]

/-- Scrubbing a stack in its time leaves no error stored in it, and poisons what it could not correct (R405). -/
theorem execDramScrub_due (stack : Nat) (s : State) (hdue : tget s.nm.scrubAt stack 0 ≤ s.now) :
    ∃ t, execDramScrub stack s = .next t ∧ (∀ e ∈ t.ecc, (8 * e.1) / 2 ^ 36 ≠ stack) ∧
      ∀ e ∈ s.ecc, (8 * e.1) / 2 ^ 36 = stack → e.2 = false → e.1 ∈ t.poison := by
  refine ⟨_, if_neg (Nat.not_lt.2 hdue), fun e he hst => ?_, fun e he hst hbad => ?_⟩
  · obtain ⟨hes, hread⟩ := (mem_foldl_readEcc_ecc _ _ _ _).1 he
    exact hread e (List.mem_filter.2 ⟨hes, beq_iff_eq.2 hst⟩) rfl
  · obtain ⟨w, bad⟩ := e
    subst hbad
    exact (mem_foldl_readEcc_poison _ _ _ _).2 (.inr ⟨he, _, List.mem_filter.2 ⟨he, beq_iff_eq.2 hst⟩, rfl⟩)

/-! ### The mailbox's report area (R374, R375) -/

theorem leNat_lt (bs : List Byte) : leNat bs < 256 ^ bs.length := by
  induction bs with
  | nil => simp [leNat]
  | cons b bs ih =>
    have hb : b.toNat < 256 := b.isLt
    rw [leNat, List.length_cons, Nat.pow_succ]
    omega

/-- The r-th byte of a little-endian value (R4). -/
theorem bitsOf_leNat (bs : List Byte) (r : Nat) (hr : r < bs.length) :
    BitVec.ofNat 8 (bitsOf (leNat bs) (8 * r) 8) = bs[r] := by
  induction bs generalizing r with
  | nil => simp at hr
  | cons b bs ih =>
    have hb : b.toNat < 256 := b.isLt
    cases r with
    | zero =>
      apply BitVec.eq_of_toNat_eq
      simpa [bitsOf, leNat] using hb
    | succ r =>
      have hdiv : leNat (b :: bs) / 2 ^ (8 * (r + 1)) = leNat bs / 2 ^ (8 * r) := by
        rw [leNat, Nat.mul_succ, Nat.add_comm (8 * r), Nat.pow_add, ← Nat.div_div_eq_div_mul]
        congr 1
        omega
      rw [List.getElem_cons_succ, ← ih r (by simpa using hr), bitsOf, bitsOf, hdiv]

/-- The register of an aligned MMIO address after a write of another, or of the same. -/
theorem mmioWord_setMmio (s : State) (a b v : Nat) :
    (s.setMmio a v).mmioWord b = if b / 8 = a / 8 then v % 2 ^ 64 else s.mmioWord b := by
  by_cases h : b / 8 = a / 8
  · simp [State.mmioWord, State.setMmio, h]
  · simp [State.mmioWord, State.setMmio, h, tget_tput_other _ _ _ _ _ h]

/-- Writes of consecutive doublewords of the area leave each with its value. -/
theorem mmioWord_foldl_setMmio (f : Nat → Nat) (s : State) (n i : Nat) (hi : i < n) :
    ((List.range n).foldl (fun t j => t.setMmio (nmArg + 8 * j) (f j)) s).mmioWord (nmArg + 8 * i) = f i % 2 ^ 64 := by
  induction n with
  | zero => omega
  | succ n ih =>
    rw [List.range_succ, List.foldl_append, List.foldl_cons, List.foldl_nil, mmioWord_setMmio]
    by_cases h : i = n
    · rw [h, if_pos rfl]
    · rw [if_neg (by omega), ih (by omega)]

/-- The area reads back as the bytes written to it. -/
theorem nmBytes_nmWrite (s : State) (bs : List Byte) (off n : Nat) (h8 : bs.length % 8 = 0) (hn : off + n ≤ bs.length) :
    (s.nmWrite bs).nmBytes off n = (bs.drop off).take n := by
  refine List.ext_getElem (by simp [State.nmBytes]; omega) fun i hi _ => ?_
  have hin : i < n := by simpa [State.nmBytes] using hi
  have hq : nmArg + (off + i) - (off + i) % 8 = nmArg + 8 * ((off + i) / 8) := by omega
  have hlen : ((bs.drop (8 * ((off + i) / 8))).take 8).length = 8 := by simp; omega
  have hlt : leNat ((bs.drop (8 * ((off + i) / 8))).take 8) < 2 ^ 64 :=
    (leNat_lt _).trans_eq (by simp [hlen])
  simp only [State.nmBytes, List.getElem_map, List.getElem_range, hq, State.nmWrite]
  rw [mmioWord_foldl_setMmio _ _ _ _ (by omega), Nat.mod_eq_of_lt hlt, bitsOf_leNat _ _ (by omega)]
  simp only [List.getElem_take, List.getElem_drop]
  congr 1
  omega

/-- ATTEST reports over the nonce that stood in the argument (R375). -/
theorem execAttest_reports (s : State) (hcmd : s.nm.cmd = some 5) :
    ∃ t, execAttest s = .next t ∧ t.nm.result = 0 ∧ t.nm.cmd = none ∧ t.nmBytes 64 32 = s.nmBytes 0 32 := by
  refine ⟨_, if_neg (not_not.2 hcmd), rfl, rfl, ?_⟩
  refine (nmBytes_nmWrite _ _ 64 32 ?_ ?_).trans ?_ <;> simp [State.freshBytes, State.nmBytes]

/-! ### The key tables (R323, R373, R374) -/

theorem tfind_map {α β : Type} (f : α → β) (t : Tbl α) (k : Nat) :
    tfind (t.map (fun e => (e.1, f e.2))) k = (tfind t k).map f := by
  induction t with
  | nil => rfl
  | cons e t ih =>
    rw [List.map_cons, tfind, tfind, ih]
    split <;> rfl

/-- FKEYW writes an entry other than 0 and returns its invocation counter to 0 in every sluice. -/
theorem execFkeyw_writes (s : State) (hcmd : s.nm.cmd = some 3) (hkey : s.mmioWord nmArg % 1024 ≠ 0) :
    ∃ t, execFkeyw s = .next t ∧ t.nm.result = 0 ∧ t.nm.cmd = none ∧
      tget t.fkeys (s.mmioWord nmArg % 1024) 0 = leNat (s.nmBytes 8 32) ∧
      ∀ port, tget (t.sluice port).ivc (s.mmioWord nmArg % 1024) 0 = 0 := by
  have hbits : bitsOf (s.mmioWord nmArg) 0 10 = s.mmioWord nmArg % 1024 := by simp [bitsOf]
  unfold execFkeyw
  rw [if_neg (not_not.2 hcmd), hbits]
  refine ⟨_, if_neg hkey, rfl, rfl, tget_tset_same _ _ _ _, fun port => ?_⟩
  simp only [State.sluice, State.nmDone, tget,
    tfind_map (fun u : Sluice => { u with ivc := tdel u.ivc (s.mmioWord nmArg % 1024) })]
  cases tfind s.sluices port with
  | none => rfl
  | some u => simp

/-- Boot with a good signature (R373): every table of keys is zeroed, but for the fresh key of entry 0. -/
theorem execPowerOnBoot_signed (s : State) (hst : s.nm.st = 0) :
    ∃ t, execPowerOnBoot true s = .next t ∧ t.nm.st = 1 ∧ t.mkeys = [] ∧ ∀ i, i ≠ 0 → tget t.fkeys i 0 = 0 :=
  ⟨_, if_neg (not_not.2 hst), rfl, rfl, fun i hi => by simp [tget, tfind, hi]⟩

/-! ### The controller's own adjustments (R22, R377, R378, R408, R409) -/

/-- The firing gap after a measured draw. -/
theorem execGapMeasurement_due (draw : Nat) (s : State) (hdue : s.nm.gapAt ≤ s.now) :
    ∃ t, execGapMeasurement draw s = .next t ∧
      (2600 < draw → t.nm.gap = min 63 (s.nm.gap + 1)) ∧ (100 * draw < 95 * 2600 → t.nm.gap = s.nm.gap - 1) ∧
      (draw ≤ 2600 → 95 * 2600 ≤ 100 * draw → t.nm.gap = s.nm.gap) ∧ t.nm.gapAt = s.now + 1024 := by
  refine ⟨_, if_neg (Nat.not_lt.2 hdue), fun h => ?_, fun h => ?_, fun h1 h2 => ?_, rfl⟩
  · exact if_pos h
  · exact (if_neg (by omega)).trans (if_pos h)
  · exact (if_neg (by omega)).trans (if_neg (by omega))

/-- A re-plan in its time: the band moves towards the one measured by at most 5 mV and within 60, and a cluster whose
margin has run out goes from running to derated, or from derated to removed. -/
theorem execConeReplan_due (cluster band : Nat) (out : Bool) (s : State) (hdue : (s.cluster cluster).replanAt ≤ s.now) :
    ∃ t, execConeReplan cluster band out s = .next t ∧
      (t.cluster cluster).band =
        min 60 (max ((s.cluster cluster).band - 5) (min ((s.cluster cluster).band + 5) band)) ∧
      (t.cluster cluster).replanAt = s.now + hour ∧
      (t.cluster cluster).cstate =
        if out = true ∧ (s.cluster cluster).cstate ≤ 1 then (s.cluster cluster).cstate + 1
        else (s.cluster cluster).cstate := by
  unfold execConeReplan
  rw [if_neg (Nat.not_lt.2 hdue)]
  cases out with
  | false => exact ⟨_, rfl, by simp⟩
  | true =>
    by_cases h0 : (s.cluster cluster).cstate = 0
    · exact ⟨_, if_pos h0, by simp [h0]⟩
    · by_cases h1 : (s.cluster cluster).cstate = 1
      · refine ⟨_, (if_neg h0).trans (if_pos h1), ?_⟩
        split <;> simp [h1]
      · refine ⟨_, (if_neg h0).trans (if_neg h1), ?_⟩
        have h2 : ¬ (s.cluster cluster).cstate ≤ 1 := by omega
        simp [h2]

/-! ### The controller -/

/-- Settles O51: each step by the lemma above that says what it does, the refusals and the steps before their time by
the branch they take. -/
theorem theControllerCarriesOutItsCommands : Obligations.TheControllerCarriesOutItsCommands := by
  intro s arg done
  have hchip : bitsOf (s.mmioWord nmArg) 0 16 = arg % 2 ^ 16 := by simp [bitsOf, arg, nmArg]
  have hkey : bitsOf (s.mmioWord nmArg) 0 10 = arg % 1024 := by simp [bitsOf, arg, nmArg]
  refine ⟨fun hst => ⟨execPowerOnBoot_signed s hst, ?bootRefused⟩,
    fun hcmd => ⟨fun hst hc => ?setchip, fun hst hc => ?setchipInvalid, fun hst => ?setchipLate⟩,
    fun hcmd => ⟨fun hst => ?run, fun hst => ?runLate⟩,
    fun hcmd => ⟨fun hk => execFkeyw_writes s hcmd hk, fun hk => ?fkeywRefused⟩,
    fun hcmd => ?mkeyw,
    fun hcmd => execAttest_reports s hcmd,
    fun draw hearly => if_pos hearly,
    fun draw hdue => execGapMeasurement_due draw s hdue,
    fun cluster band out hearly => if_pos hearly,
    fun cluster band out hdue => ?replan,
    fun stack hearly => if_pos hearly,
    fun stack hdue => execDramScrub_due stack s hdue⟩
  case bootRefused => simp [exec_powerOnBoot, execPowerOnBoot, hst]
  case setchip => simpa [exec_setchip, execSetchip, hcmd, hst, hchip, State.nmDone, done] using hc
  case setchipInvalid => simpa [exec_setchip, execSetchip, hcmd, hst, hchip, State.nmDone, done] using hc
  case setchipLate => simp [exec_setchip, execSetchip, hcmd, hst, State.nmDone, done]
  case run => simp [exec_run, execRun, hcmd, hst, State.nmDone, done]
  case runLate => simp [exec_run, execRun, hcmd, hst, State.nmDone, done]
  case fkeywRefused => simp [exec_fkeyw, execFkeyw, hcmd, hkey, hk, State.nmDone, done]
  case mkeyw => simp [exec_mkeyw, execMkeyw, hcmd, hkey, State.nmDone, done]
  case replan =>
    obtain ⟨t, ht, hband, hnext, hstate⟩ := execConeReplan_due cluster band out s hdue
    refine ⟨t, ht, ?_, hnext, ?_, fun hout => ?_, fun hout hle => ?_⟩
    · omega
    · omega
    · simp [hstate, hout]
    · simp [hstate, hout, hle]

end Sys2Proof.Machine

/-! PROOFS. The core's own state: jumps and branches, dead and empty registers, prefixes, queues, successors and deadlines,
and the system registers (R66 to R70, R77 to R90, R173, R191, R197, R198, R207, R220, R222, R234, R238). The layers: what
stops an instruction at a gate, what a retirement leaves, what a register access does, and then one part for each
statement. -/

namespace Sys2Proof.Machine

/-! ### What stops an instruction at a gate (R68, R70, R173, R417) -/

section Gates

variable {s : State} {i : Instr} {srcs es : List XReg} {dst r : XReg} {k : State → State}
  (hacq : s.frame.acq = none) (hup : s.me.upset = 0) (hbr : s.me.breaks = false)
include hacq hup hbr

/-- Past the start acquire, the checker and the breakpoints, a TSTAT.PP that the instruction
does not ask for traps. -/
theorem run_badPrefix (hpp : s.frame.pp ≠ isPrefixed i) :
    s.run i srcs es dst k = .next (s.trap 2 (wordOf i)) := by
  simp [State.run, State.begin, State.startGate, State.checker, State.fetchGate, hacq, hup, hbr, hpp]

/-- With the TSTAT.PP that the instruction asks for, its registers decide. -/
theorem begin_eq_regGate (hpp : s.frame.pp = isPrefixed i) : s.begin i srcs es dst = s.regGate srcs es dst := by
  simp [State.begin, State.startGate, State.checker, State.fetchGate, hacq, hup, hbr, hpp]

/-- The first empty source whose e bit is 1 raises the EMPTY trap. -/
theorem run_empty_source (hpp : s.frame.pp = isPrefixed i) (hr : es.find? (fun q => !s.frame.isFull q) = some r) :
    s.run i srcs es dst k = .next (s.trap 3 (r.setWidth 64)) := by
  simp only [State.run, begin_eq_regGate hacq hup hbr hpp, State.regGate, hr]

/-- Any other empty register makes the instruction wait. -/
theorem run_empty_waits (hpp : s.frame.pp = isPrefixed i) (he : es.find? (fun q => !s.frame.isFull q) = none)
    (hr : ¬ ∀ q ∈ dst :: srcs, s.frame.isFull q = true) : s.run i srcs es dst k = .next (s.stall .reg) := by
  obtain ⟨q, hq, hempty⟩ : ∃ q ∈ dst :: srcs, ¬ s.frame.isFull q = true := by
    simpa only [not_forall, exists_prop] using hr
  have hany : (dst :: srcs).any (fun q => !s.frame.isFull q) = true :=
    List.any_eq_true.2 ⟨q, hq, by simpa using hempty⟩
  simp only [State.run, begin_eq_regGate hacq hup hbr hpp, State.regGate, he, hany, if_true]

end Gates

/-- The registers are full, none waits for a load, no live source is poisoned, and the banks are awake. -/
def State.readable (s : State) (srcs : List XReg) (dst : XReg) : Bool :=
  (dst :: srcs).all (fun r => s.frame.isFull r && !s.frame.isBusy r) &&
  srcs.all (fun r => !s.frame.isLive r || !s.frame.isPois r) && !s.me.bankWaits srcs dst s.now

/-- At readable registers with a dead source, the gate traps with the first dead one or lets the instruction pass. -/
theorem regGate_dead {s : State} {srcs : List XReg} {dst r : XReg} (h : s.readable srcs dst = true)
    (hr : srcs.find? (fun q => !s.frame.isLive q) = some r) :
    s.regGate srcs [] dst = if s.frame.drt then .done (s.trap 4 (r.setWidth 64)) else .go (s.wake srcs dst) := by
  simp only [State.readable, Bool.and_eq_true, Bool.not_eq_true', List.all_eq_true] at h
  obtain ⟨⟨hfull, hclean⟩, hbank⟩ := h
  have hempty : (dst :: srcs).any (fun q => !s.frame.isFull q) = false := by
    simpa only [List.any_eq_false, Bool.not_eq_true', Bool.not_eq_false] using fun q hq => (hfull q hq).1
  have hbusy : (dst :: srcs).any (fun q => s.frame.isBusy q) = false := by
    simpa only [List.any_eq_false, Bool.not_eq_true] using fun q hq => (hfull q hq).2
  have hpois : srcs.find? (fun q => s.frame.isLive q && s.frame.isPois q) = none := by
    refine List.find?_eq_none.2 fun q hq => ?_
    have hq' := hclean q hq
    cases hl : s.frame.isLive q with
    | false => simp
    | true => simpa [hl] using hq'
  simp only [State.regGate, List.find?_nil, hempty, hbusy, hr, hpois, State.bankGate, hbank,
    Bool.false_eq_true, if_false]

/-! ### What a retirement leaves (R8, R87) -/

section Retired

variable {u t : State} {n : Word} (h : u.Retires t n)
include h

theorem Retires.me_eq : t.me = { u.me with
    run := { u.me.run with pc := n, lastPc := u.me.run.pc, exempt := false, pendStep := t.me.run.pendStep },
    instret := u.me.instret + 1, stalled := none, alignAt := none, again := false, got := [],
    evs := t.me.evs, ready := t.me.ready } := h.1

theorem Retires.frame_eq : t.frame =
    { u.frame with pc := n, lastPc := u.frame.pc, exempt := false, pendStep := t.frame.pendStep } :=
  congrArg Core.run h.1

theorem Retires.pc : t.frame.pc = n := by rw [Retires.frame_eq h]

theorem Retires.x (r : XReg) : t.x r = u.x r := by rw [State.x, Retires.frame_eq h]; rfl

theorem Retires.instret : t.me.instret = u.me.instret + 1 := by rw [Retires.me_eq h]

theorem Retires.csr : t.me.csr = u.me.csr := by rw [Retires.me_eq h]

theorem Retires.under : t.me.under = u.me.under := by rw [Retires.me_eq h]

theorem Retires.readByte (p : Nat) : t.readByte p = u.readByte p := by rw [h.2]; rfl

theorem Retires.dl : t.frame.dl = u.frame.dl := by rw [Retires.frame_eq h]

end Retired

end Sys2Proof.Machine

/-! PROOFS. Jumps, branches and reads of dead registers (R70, R191, R197, R198). -/

namespace Sys2Proof.Machine

/-! ### Jumps and branches (R191, R198) -/

/-- JAL to an aligned target writes the return address, after a call's dead marks, and goes to the target. -/
theorem jal_completes {s : State} {rd : XReg} {up : BitVec 20} (hc : s.clear false [] rd = true)
    (ha : (s.frame.pc + offJ up).toNat % 4 = 0) :
    s.completes (.jal rd up)
      ((if rd = 1 then (s.wake [] rd).onFrame Frame.markDead else s.wake [] rd).setX rd (s.frame.pc + 4))
      (s.frame.pc + offJ up) :=
  completes_of_run (cost := 2) (exec_jal s rd up) hc (by simp) (by simp [aligned4, ha, -BitVec.toNat_add])

/-- JALR to an aligned target, after the dead marks of a call or of a return. -/
theorem jalr_completes {s : State} {rd rs1 : XReg} {imm : BitVec 12} (hc : s.clear false [rs1] rd = true)
    (ha : (jalrTarget (s.x rs1) imm).toNat % 4 = 0) :
    s.completes (.jalr rd rs1 imm)
      ((if rd = 1 ∨ (rd = 0 ∧ rs1 = 1 ∧ imm = 0) then (s.wake [rs1] rd).onFrame Frame.markDead
        else s.wake [rs1] rd).setX rd (s.frame.pc + 4))
      (jalrTarget (s.x rs1) imm) :=
  completes_of_run (cost := 3) (exec_jalr s rd rs1 imm) hc (by simp) (by simp [aligned4, ha])

/-- A branch whose condition stands for `p` goes to its aligned target or to the next word. -/
theorem branch_goes {s : State} {i : Instr} {rs1 rs2 : XReg} {imm : BitVec 12} {c : Word → Word → Bool} {p : Prop}
    (he : exec i s = branch i rs1 rs2 imm c s) (hc : s.clear (isPrefixed i) [rs1, rs2] 0 = true)
    (hp : c (s.x rs1) (s.x rs2) = true ↔ p) :
    (p → (s.frame.pc + offB imm).toNat % 4 = 0 →
      s.completes i (s.wake [rs1, rs2] 0) (s.frame.pc + offB imm)) ∧
    (¬ p → s.completes i (s.wake [rs1, rs2] 0) (s.frame.pc + 4)) :=
  ⟨fun h ha => branch_taken he hc (hp.2 h) ha, 
    fun h => branch_not_taken he hc (Bool.eq_false_iff.2 fun ht => h (hp.1 ht))⟩

/-! ### Reads of dead registers (R70) -/

/-- A dead register reads as 0. -/
theorem x_dead {s : State} {r : XReg} (h : s.frame.isLive r = false) : s.x r = 0 := by
  have h' : r ≠ 0 ∧ s.frame.live.getLsbD r.toNat = false := by simpa [Frame.isLive] using h
  simp [State.x, Frame.x, h']

/-- What a core holds after an instruction that read a dead register has retired (R70). -/
def Core.sawDead (c : Core) : Core :=
  { c with
    run := { c.run with dr := true },
    ck := c.ck.map (fun (k : Ckpt) => if k.frame = c.run then { k with frame := { k.frame with dr := true } } else k) }

theorem afterDead_of_retires {b u t : State} {n : Word} (h : u.Retires t n) (hb : b.me.instret = u.me.instret) :
    b.afterDead t = t.onMe Core.sawDead := by
  have hne : t.me.instret ≠ b.me.instret := by rw [Retires.instret h, hb]; exact Nat.succ_ne_self _
  rw [State.afterDead, if_neg hne]
  rfl

theorem sawDead_goneOn {s t : State} {n : Word} {m : Nat} (h : s.goneOn t n m) : s.goneOn (t.onMe Core.sawDead) n m := by
  obtain ⟨hcur, hpc, hret⟩ := h
  exact ⟨hcur, by rw [onMe_frame]; exact hpc, by rw [onMe_me]; exact hret⟩

theorem sawDead_keepsBut {s t : State} {rd : XReg} (h : s.keepsBut t rd) : s.keepsBut (t.onMe Core.sawDead) rd := by
  obtain ⟨hx, hcsr, hunder, hmem⟩ := h
  refine ⟨fun q hq => ?_, by rw [onMe_me]; exact hcsr, by rw [onMe_me]; exact hunder, hmem⟩
  rw [State.x, onMe_frame]
  exact hx q hq

/-- An instruction whose effect is a write of rd goes on, and keeps everything but rd. -/
theorem setX_retires_keepsBut {s t : State} {srcs : List XReg} {rd : XReg} {v n : Word}
    (h : ((s.wake srcs rd).setX rd v).Retires t (s.frame.pc + n)) : s.goneOn t n 1 ∧ s.keepsBut t rd := by
  obtain ⟨b, hb⟩ := wake_me s srcs rd
  refine ⟨⟨?cur, Retires.pc h, ?instret⟩, ?regs, ?csr, ?under, fun p => Retires.readByte h p⟩
  case cur => rw [Retires.cur h, setX_cur, wake_cur]
  case instret => rw [Retires.instret h]; simp [State.setX, hb]
  case regs => exact fun q hq => by rw [Retires.x h, State.x, setX_frame, Frame.x_setX_other _ _ _ _ hq, wake_frame]; rfl
  case csr => rw [Retires.csr h]; simp [State.setX, hb]
  case under => rw [Retires.under h]; simp [State.setX, hb]

/-- An instruction that writes rd from registers of which one is dead: the first dead one traps under TSTAT.DRT; else it
reads as 0, TSTAT.DR is set, and the instruction does what it does. -/
theorem dead_read {s : State} {i : Instr} {srcs : List XReg} {rd r : XReg} {k : State → State} {v : Word} {cost : Nat}
    (hacq : s.frame.acq = none) (hup : s.me.upset = 0) (hbr : s.me.breaks = false) (hpp : s.frame.pp = isPrefixed i)
    (he : exec i s = s.run i srcs [] rd k) (hk : k (s.wake srcs rd) = ((s.wake srcs rd).setX rd v).retire cost)
    (hready : s.readable srcs rd = true) (hr : srcs.find? (fun q => !s.frame.isLive q) = some r) :
    (s.frame.drt = true → exec i s = .next (s.trap 4 (r.zeroExtend 64))) ∧
    (s.frame.drt = false → ∃ t, exec i s = .next t ∧ s.goneOn t 4 1 ∧ s.keepsBut t rd ∧ t.frame.dr = true ∧
      (rd ≠ 0 → t.x rd = v)) := by
  have hgate := regGate_dead hready hr
  rw [he, State.run, begin_eq_regGate hacq hup hbr hpp, hgate]
  refine ⟨fun hd => by rw [if_pos hd], fun hd => ?_⟩
  have hdead : srcs.any (fun q => !(s.wake srcs rd).frame.isLive q) = true := by
    have hrd := List.find?_some hr
    rw [wake_frame]
    exact List.any_eq_true.2 ⟨r, List.mem_of_find?_eq_some hr, hrd⟩
  have hret := retire_retires ((s.wake srcs rd).setX rd v) cost
  have hpc : ((s.wake srcs rd).setX rd v).frame.pc = s.frame.pc := by simp
  obtain ⟨hgone, hkeeps⟩ := setX_retires_keepsBut (hpc ▸ hret)
  have hval : rd ≠ 0 → (((s.wake srcs rd).setX rd v).retire cost).x rd = v := fun h0 => by
    rw [Retires.x hret, State.x, setX_frame, Frame.x_setX, if_neg h0]
  rw [if_neg (by simp [hd])]
  refine ⟨_, congrArg Host.Outcome.next ?_, sawDead_goneOn hgone, sawDead_keepsBut hkeeps, by rw [onMe_frame]; rfl,
    fun h0 => ?_⟩
  · rw [if_pos hdead, hk, afterDead_of_retires hret (by simp [State.setX])]
  · rw [State.x, onMe_frame]
    exact hval h0

/-- Settles O11: each jump, branch and dead read by the lemma above that says what its form does. -/
theorem jumpsAndBranchesGoToTheirTarget : Obligations.JumpsAndBranchesGoToTheirTarget := by
  refine ⟨?jumps, ?branches, ?dead⟩
  case jumps =>
    intro s rd rs1 up imm pc hi jal jalr w w1
    refine ⟨fun hc => ⟨?lui, ?auipc, fun ha => jal_completes hc ha⟩, fun hc ha => jalr_completes hc ha⟩
    case lui => exact aluU_puts (exec_lui s rd up) hc rfl
    case auipc => exact aluU_puts (exec_auipc s rd up) hc (by simp [immU, pc, hi])
  case branches =>
    intro s rs1 rs2 imm hc a b tgt goes
    have hge : (!a.slt b) = true ↔ b.toInt ≤ a.toInt := by
      rw [Bool.not_eq_true', Bool.eq_false_iff, ne_eq, BitVec.slt_iff_toInt_lt, not_lt]
    have hgeu : (!a.ult b) = true ↔ b.toNat ≤ a.toNat := by
      rw [Bool.not_eq_true', Bool.eq_false_iff, ne_eq, BitVec.ult_iff_lt, BitVec.lt_def, not_lt]
    exact ⟨branch_goes (exec_beq ..) hc beq_iff_eq, branch_goes (exec_bne ..) hc bne_iff_ne,
      branch_goes (exec_blt ..) hc BitVec.slt_iff_toInt_lt, branch_goes (exec_bge ..) hc hge,
      branch_goes (exec_bltu ..) hc BitVec.ult_iff_lt, branch_goes (exec_bgeu ..) hc hgeu⟩
  case dead =>
    intro s rd rs1 rs2 imm hacq hup hbr hpp f ready reads r hr
    exact ⟨x_dead hr, dead_read hacq hup hbr hpp (cost := 1) (exec_add ..) (by simp),
      dead_read hacq hup hbr hpp (cost := 1) (exec_sub ..) (by simp),
      dead_read hacq hup hbr hpp (cost := 1) (exec_addi ..) (by simp [immI])⟩

end Sys2Proof.Machine

/-! PROOFS. Successors and deadlines (R81, R220, R222). -/

namespace Sys2Proof.Machine

/-! ### An instruction with nothing in its way -/

theorem eSrc_mem {r : XReg} {e : BitVec 1} : ∀ q ∈ eSrc r e, q ∈ [r] := fun q hq => by simp [eSrc_sub r e q hq]

theorem eSrc_append_mem {r1 r2 : XReg} {e1 e2 : BitVec 1} : ∀ q ∈ eSrc r1 e1 ++ eSrc r2 e2, q ∈ [r1, r2] :=
    fun q hq => by
  rcases List.mem_append.1 hq with h | h
  · simp [eSrc_sub r1 e1 q h]
  · simp [eSrc_sub r2 e2 q h]

section Clear

variable {s t u : State} {i : Instr} {srcs es : List XReg} {dst : XReg} {k : State → State}

/-- The instruction's step is its own part. -/
theorem exec_of_run (he : exec i s = s.run i srcs es dst k) (hc : s.clear (isPrefixed i) srcs dst = true)
    (hs : ∀ r ∈ es, r ∈ srcs) (hk : k (s.wake srcs dst) = t) : exec i s = .next t := by
  rw [he, run_clear hc hs, hk]

/-- An own part that retires at the next word completes with the state it retires. -/
theorem completes_of_retire {cost : Nat} (he : exec i s = s.run i srcs es dst k)
    (hc : s.clear (isPrefixed i) srcs dst = true) (hs : ∀ r ∈ es, r ∈ srcs) (hk : k (s.wake srcs dst) = u.retire cost)
    (hpc : u.frame.pc = s.frame.pc) : s.completes i u (s.frame.pc + 4) :=
  completes_of_run he hc hs (hk.trans (by rw [State.retire, hpc]))

end Clear

/-! ### Successors and deadlines -/

/-- A multiple of 64 has no bits below bit 6. -/
theorem and_not_63_of_aligned {a : Word} (h : a.toNat % 64 = 0) : a &&& ~~~63#64 = a := by
  have hlow : a &&& 63#64 = 0#64 := by
    apply BitVec.eq_of_toNat_eq
    rw [BitVec.toNat_and]
    exact (Nat.and_two_pow_sub_one_eq_mod a.toNat 6).trans h
  calc a &&& ~~~63#64 = (a &&& 63#64) ||| (a &&& ~~~63#64) := by rw [hlow, BitVec.zero_or]
    _ = a &&& (63#64 ||| ~~~63#64) := BitVec.and_or_distrib_left.symm
    _ = a := BitVec.and_allOnes

theorem succWord_of_aligned {a : Word} (h : a.toNat % 64 = 0) : succWord a = a ||| 1#64 := by
  rw [succWord, and_not_63_of_aligned h]
  rfl

@[simp] theorem disarm_pc (c : Core) : c.disarm.run.pc = c.run.pc := by
  unfold Core.disarm
  split <;> rfl

theorem onMe_disarm_pc (s : State) (srcs : List XReg) (dst : XReg) :
    ((s.wake srcs dst).onMe Core.disarm).frame.pc = s.frame.pc := by
  rw [onMe_frame, disarm_pc]
  exact congrArg Frame.pc (wake_frame s srcs dst)

theorem armed_pc (s : State) (n : Nat) (succ : Option TaskRec) : (s.arm n succ).frame.pc = s.frame.pc := by
  rw [State.arm, onMe_frame]
  exact disarm_pc s.me

/-- Settles O24: each form by the branch that its operands choose. -/
theorem successorsAndDeadlinesAreArmed : Obligations.SuccessorsAndDeadlinesAreArmed := by
  intro s rs1 rs2 e1 e2 pc4
  refine ⟨fun hc => ⟨fun h0 => ?disarms, fun h0 ha => ?arms, fun h0 ha => ?misaligned⟩,
    fun hc hn => ?zero, fun hc => ?sets, fun hc => ?clears⟩
  case disarms => exact completes_of_retire (cost := 1) (exec_succ ..) hc eSrc_mem (if_pos h0) (by simp)
  case arms =>
    refine completes_of_retire (cost := 1) (exec_succ ..) hc eSrc_mem ((if_neg h0).trans ?_) (by simp)
    rw [wake_x, if_neg (not_not.2 ha), succWord_of_aligned ha]
  case misaligned =>
    refine exec_of_run (exec_succ ..) hc eSrc_mem ((if_neg h0).trans ?_)
    rw [wake_x, if_pos ha]
  case zero =>
    exact completes_of_retire (cost := 1) (exec_dlset ..) hc eSrc_append_mem (if_pos (by rw [wake_x, hn]))
      (onMe_disarm_pc ..)
  case sets =>
    intro w n hn
    have hpc : (w.arm n none).frame.pc = s.frame.pc := (armed_pc ..).trans (congrArg Frame.pc (wake_frame ..))
    obtain ⟨t, ht, hret⟩ : s.completes (.dlset rs1 0 e1 e2) (w.arm n none) pc4 :=
      completes_of_retire (cost := 1) (exec_dlset ..) hc eSrc_append_mem (by simp [w, n, hn]) hpc
    exact ⟨t, ht, hret, by rw [Retires.dl hret, State.arm, onMe_frame]⟩
  case clears => exact completes_of_retire (cost := 1) (exec_dlclr s) hc (by simp) rfl (onMe_disarm_pc ..)

end Sys2Proof.Machine

/-! PROOFS. Prefixes, checkpoints, the kiln queues and empty registers (R68, R165, R173, R234, R238, R407). -/

namespace Sys2Proof.Machine

/-! ### Prefixes (R173) -/

/-- Every instruction with a word goes through the gates of R417: as `run` puts them, or, for a kiln command, as `runKiln`
does. -/
theorem exec_eq_run_or_runKiln {i : Instr} {w : BitVec 32} (h : encode i = some w) (s : State) :
    (∃ srcs es dst k, exec i s = s.run i srcs es dst k) ∨ ∃ srcs k, exec i s = s.runKiln i srcs k := by
  cases i
  -- the part's own steps have no word
  all_goals try exact (Option.some_ne_none w h.symm).elim
  all_goals dsimp only [exec]
  case vspl | vsplq | voutq | vmv | vlane | vld | vst | vlds | vgth | vsct | vadd | vsub | vmul | vfma | vmax | vmin |
      vabs | vneg | viadd | visub | vimul | vand | vor | vxor | vshl | vshr | vsra | viadds | vcvt | vcvti | vcmpeq |
      vcmplt | vcmple | vsel | vbq | vsum | vrmax | vrmin | vperm | vrot | vexp2 | vrcp | vrsq | vlog2 | vseed | lease |
      unlease | ringdef | ringq | ringadv | kmma | kmmas | kmmat | kmman | kzero | kld | kst | krow | kputrow | keep |
      kscq | kfac | ktrsl | ktrsu | kmv | kmvt | kdiag | kchkq | kflg => exact .inr ⟨_, _, rfl⟩
  all_goals exact .inl ⟨_, _, _, _, rfl⟩

theorem wordOf_encode {i : Instr} {w : BitVec 32} (h : encode i = some w) : wordOf i = w.zeroExtend 64 := by
  rw [wordOf, h]

/-- A TSTAT.PP that the instruction does not ask for raises the bad-prefix trap. -/
theorem exec_badPrefix {s : State} {i : Instr} {w : BitVec 32} (hacq : s.frame.acq = none) (hup : s.me.upset = 0)
    (hbr : s.me.breaks = false) (hw : encode i = some w) (hpp : s.frame.pp ≠ isPrefixed i) :
    exec i s = .next (s.trap 2 (w.zeroExtend 64)) := by
  rw [← wordOf_encode hw]
  rcases exec_eq_run_or_runKiln hw s with ⟨srcs, es, dst, k, he⟩ | ⟨srcs, k, he⟩
  · rw [he, run_badPrefix hacq hup hbr hpp]
  · simp [he, State.runKiln, State.startGate, State.checker, State.fetchGate, hacq, hup, hbr, hpp]

/-! ### Empty registers (R68) -/

theorem find?_eSrc (p : XReg → Bool) (r : XReg) (e : BitVec 1) :
    (eSrc r e).find? p = if e = 1 ∧ p r = true then some r else none := by
  by_cases he : e = 1
  · cases hp : p r <;> simp [eSrc, he, hp]
  · rw [eSrc, if_neg he, if_neg fun h => he h.1]
    rfl

/-- What an E-format instruction of two sources does with empty registers: the trap of the first source whose e bit is 1,
else the wait. -/
theorem eFormat_meets_empty {s : State} {i : Instr} {rs1 rs2 dst : XReg} {e1 e2 : BitVec 1} {k : State → State}
    (hacq : s.frame.acq = none) (hup : s.me.upset = 0) (hbr : s.me.breaks = false) (hpp : s.frame.pp = isPrefixed i)
    (he : exec i s = s.run i [rs1, rs2] (eSrc rs1 e1 ++ eSrc rs2 e2) dst k) :
    (e1 = 1 → ¬ s.frame.isFull rs1 = true → exec i s = .next (s.trap 3 (rs1.zeroExtend 64))) ∧
    (e1 = 0 ∨ s.frame.isFull rs1 = true →
      (e2 = 1 → ¬ s.frame.isFull rs2 = true → exec i s = .next (s.trap 3 (rs2.zeroExtend 64))) ∧
      (e2 = 0 ∨ s.frame.isFull rs2 = true →
        ¬ (s.frame.isFull dst = true ∧ s.frame.isFull rs1 = true ∧ s.frame.isFull rs2 = true) →
        exec i s = .next (s.stall .reg))) := by
  have hpass : ∀ (r : XReg) (e : BitVec 1), e = 0 ∨ s.frame.isFull r = true →
      (eSrc r e).find? (fun q => !s.frame.isFull q) = none := by
    rintro r e (rfl | hfull)
    · rfl
    · simp [find?_eSrc, hfull]
  have hmeet : ∀ r : XReg, ¬ s.frame.isFull r = true → (eSrc r 1).find? (fun q => !s.frame.isFull q) = some r :=
    fun r hr => by simp [find?_eSrc, hr]
  rw [he]
  refine ⟨fun h1 hr => ?_, fun hpass1 => ⟨fun h2 hr => ?_, fun hpass2 hwait => ?_⟩⟩
  · subst h1
    exact run_empty_source hacq hup hbr hpp (by rw [List.find?_append, hmeet _ hr]; rfl)
  · subst h2
    exact run_empty_source hacq hup hbr hpp (by rw [List.find?_append, hpass _ _ hpass1, hmeet _ hr]; rfl)
  · refine run_empty_waits hacq hup hbr hpp (by rw [List.find?_append, hpass _ _ hpass1, hpass _ _ hpass2]; rfl)
      fun h => ?_
    exact hwait ⟨h _ (by simp), h _ (by simp), h _ (by simp)⟩

/-! ### The queues (R234) -/

@[simp] theorem wake_kset (s : State) (srcs : List XReg) (dst : XReg) : (s.wake srcs dst).kset = s.kset := by
  obtain ⟨b, hb⟩ := wake_me s srcs dst
  simp [State.kset, hb]

@[simp] theorem onKset_pc (s : State) (f : KSet → KSet) : (s.onKset f).frame.pc = s.frame.pc := by
  rw [State.onKset, onMe_frame]
  rfl

theorem setX_pc (s : State) (r : XReg) (v : Word) : (s.setX r v).frame.pc = s.frame.pc := by simp

@[simp] theorem Frame.setEmpty_pc (f : Frame) (r : XReg) : (f.setEmpty r).pc = f.pc := by
  unfold Frame.setEmpty
  split <;> rfl

/-- A change of the running level's state set depends on that set alone. -/
theorem onKset_congr {s : State} {f g : KSet → KSet} (h : f s.kset = g s.kset) : s.onKset f = s.onKset g :=
  congrArg (fun k => s.onMe (fun c => { c with sets := tset c.sets c.run.level k })) h

/-- QPOP of a queue with a sound oldest entry. -/
theorem qpop_entry_completes {s : State} {rd : XReg} {q : BitVec 5} {v : Word} {f : KSet → KSet}
    (hc : s.clear false [] rd = true) (hq : q = 1 ∨ q = 2 ∨ q = 4) (hpop : s.kset.pop q.toNat = some (v, f s.kset))
    (hclean : s.kset.bad.contains (queueItem q.toNat) = false) :
    s.completes (.qpop rd q) (((s.wake [] rd).onKset f).setX rd v) (s.frame.pc + 4) := by
  have hf : (s.wake [] rd).onKset f = (s.wake [] rd).onKset (fun _ => f s.kset) := onKset_congr (by rw [wake_kset])
  refine completes_of_retire (cost := 1) (exec_qpop ..) hc (by simp) ?_ (by simp)
  rw [if_neg (by tauto), wake_kset, hpop, hf]
  simp only [hclean, Bool.false_eq_true, if_false]

/-- QPOP of an empty queue leaves rd empty and waits for the queue's next entry. -/
theorem qpop_empty_completes {s : State} {rd : XReg} {q : BitVec 5} (hc : s.clear false [] rd = true)
    (hq : q = 1 ∨ q = 2 ∨ q = 4) (hpop : s.kset.pop q.toNat = none) :
    s.completes (.qpop rd q) ((s.wake [] rd).onMe (fun c => { c with
      pops := c.pops ++ [{ fid := c.run.fid, level := c.run.level, q := q.toNat, rd := rd }],
      run := c.run.setEmpty rd })) (s.frame.pc + 4) := by
  refine completes_of_retire (cost := 1) (exec_qpop ..) hc (by simp) ?_ ?_
  · rw [if_neg (by tauto), wake_kset, hpop]
  · rw [onMe_frame, Frame.setEmpty_pc]
    exact congrArg Frame.pc (wake_frame ..)

/-- CKPT retires, and then takes a checkpoint of the frame as it stands (R238, R368). -/
theorem ckpt_checkpoints {s : State} (hc : s.clear false [] 0 = true) :
    ∃ t u, exec .ckpt s = .next t ∧ (s.wake [] 0).Retires u (s.frame.pc + 4) ∧ t = u.checkpoint u.cur ∧
      ∃ k, t.me.ck = some k ∧ k.frame = t.frame := by
  have hret := retire_retires (s.wake [] 0) 4
  rw [wake_frame] at hret
  refine ⟨_, _, exec_of_run (exec_ckpt s) hc (by simp) rfl, hret, by rw [Retires.cur hret], ?_⟩
  rw [← Retires.cur hret]
  generalize (s.wake [] 0).retire 4 = u
  have hme : (u.checkpoint u.cur).me = ((u.checkpoint u.cur).core u.cur) := rfl
  rw [State.frame, hme, State.checkpoint, onCore_core]
  exact ⟨_, rfl, rfl⟩

/-- Settles O25: each instruction by the branch that its queue chooses, the waits and traps by the gates above. -/
theorem prefixesCheckpointsAndQueues : Obligations.PrefixesCheckpointsAndQueues := by
  refine ⟨fun s f1 f2 hc => ⟨?fmt, ckpt_checkpoints hc⟩, ?queues, fun s hacq hup hbr =>
    ⟨fun i w hw hpp => exec_badPrefix hacq hup hbr hw hpp, fun hpp => ⟨?base, ?eFormat⟩⟩⟩
  case fmt => exact completes_of_retire (cost := 1) (exec_fmt ..) hc (by simp) rfl (by simp)
  case queues =>
    intro s rd rs1 e1 q pc4 clean
    refine ⟨fun hc => ⟨fun hlen => ?push, fun hlen => ?full, fun hq => ?noQueue⟩, fun hc => ⟨fun v l hv hb => ?pop1,
      fun v l hv hb => ?pop2, fun v l hv hb => ?pop4, ?popEmpty, fun h1 h2 h4 => ?popNone, fun hq => ?len⟩⟩
    case push =>
      refine completes_of_retire (cost := 1) (exec_qpush ..) hc eSrc_mem ?_ (by simp)
      rw [if_neg (not_not.2 rfl), wake_kset, if_neg (Nat.not_le.2 hlen), wake_x]
    case full =>
      refine exec_of_run (exec_qpush ..) hc eSrc_mem ?_
      rw [if_neg (not_not.2 rfl), wake_kset, if_pos hlen]
    case noQueue => exact exec_of_run (exec_qpush ..) hc eSrc_mem (if_pos hq)
    case pop1 => exact qpop_entry_completes hc (.inl rfl) (by simp [KSet.pop, hv]) hb
    case pop2 => exact qpop_entry_completes hc (.inr (.inl rfl)) (by simp [KSet.pop, hv]) hb
    case pop4 => exact qpop_entry_completes hc (.inr (.inr rfl)) (by simp [KSet.pop, hv]) hb
    case popEmpty =>
      rintro (⟨rfl, hv⟩ | ⟨rfl, hv⟩ | ⟨rfl, hv⟩)
      · exact qpop_empty_completes hc (.inl rfl) (by simp [KSet.pop, hv])
      · exact qpop_empty_completes hc (.inr (.inl rfl)) (by simp [KSet.pop, hv])
      · exact qpop_empty_completes hc (.inr (.inr rfl)) (by simp [KSet.pop, hv])
    case popNone => exact exec_of_run (exec_qpop ..) hc (by simp) (if_pos ⟨h1, h2, h4⟩)
    case len =>
      refine completes_of_retire (cost := 1) (exec_qlen ..) hc (by simp) ?_ (by simp)
      rw [if_neg (Nat.not_lt.2 hq), wake_kset]
  case base =>
    have waits : ∀ {i : Instr} {srcs : List XReg} {dst : XReg} {k : State → State}, exec i s = s.run i srcs [] dst k →
        s.frame.pp = isPrefixed i → ¬ (∀ q ∈ dst :: srcs, s.frame.isFull q = true) → exec i s = .next (s.stall .reg) :=
      fun he hp hn => he.trans (run_empty_waits hacq hup hbr hp rfl hn)
    intro rd rs1 rs2 imm
    refine ⟨fun hn => ?_, fun hn => ⟨?_, ?_⟩, fun hn => ⟨?_, ?_⟩⟩
    · exact waits (exec_add ..) hpp fun h => hn ⟨h _ (by simp), h _ (by simp), h _ (by simp)⟩
    · exact waits (exec_addi ..) hpp fun h => hn ⟨h _ (by simp), h _ (by simp)⟩
    · exact waits (exec_ld ..) hpp fun h => hn ⟨h _ (by simp), h _ (by simp)⟩
    · exact waits (exec_sd ..) hpp fun h => hn ⟨h _ (by simp), h _ (by simp)⟩
    · exact waits (exec_beq ..) hpp fun h => hn ⟨h _ (by simp), h _ (by simp)⟩
  case eFormat =>
    intro rd rs1 rs2 e1 e2 meets
    have stops : ∀ {i : Instr} {dst : XReg} {k : State → State},
        exec i s = s.run i [rs1, rs2] (eSrc rs1 e1 ++ eSrc rs2 e2) dst k → s.frame.pp = isPrefixed i → meets i dst :=
      fun he hp => eFormat_meets_empty hacq hup hbr hp he
    exact ⟨stops (exec_poste ..) hpp, stops (exec_send ..) hpp, stops (exec_atomAdd ..) hpp, stops (exec_redAdd ..) hpp,
      stops (exec_tjmp ..) hpp, stops (exec_dlset ..) hpp, stops (exec_tfwr ..) hpp, stops (exec_xinv ..) hpp⟩

end Sys2Proof.Machine

/-! PROOFS. The system registers: the Zicsr instructions and the register-write steps (R77 to R90, R207, R208, R345, R358,
R379, R410, R423, R429, R430). -/

namespace Sys2Proof.Machine

@[simp] theorem bitOf_toNat {n : Nat} (v : BitVec n) (i : Nat) : bitOf v.toNat i = v.getLsbD i := by
  rw [bitOf, BitVec.getLsbD, Nat.testBit_eq_decide_div_mod_eq]

/-! ### Which accesses are legal (R77) -/

/-- A register that an access reaches without another unit's answer. -/
def csrOwn (a : Nat) : Bool := csrNamed a && !csrRemote a

/-- A task's frame reaches the registers below the supervisor's, a supervisor's frame these too. -/
theorem csrOk_of_own {s : State} {a : Nat} (ha : csrOwn a = true) (hs : csrSup a = false ∨ s.frame.sup = true) :
    s.csrOk a = true := by
  obtain ⟨hn, hr⟩ : csrNamed a = true ∧ csrRemote a = false := by simpa [csrOwn] using ha
  have h1 : ¬ (a = 0x5D1 ∨ a = 0x5D2) := by
    rintro (rfl | rfl) <;> exact absurd hr (by decide)
  have h4 : a ≠ 0x5D4 := by
    rintro rfl
    exact absurd hr (by decide)
  rw [State.csrOk, if_neg h1, if_neg h4, hn]
  rcases hs with hs | hs <;> simp [hs]

theorem csrWaits_of_own {c : Core} {a : Nat} (ha : csrOwn a = true) : c.csrWaits a = false := by
  obtain ⟨-, hr⟩ : csrNamed a = true ∧ csrRemote a = false := by simpa [csrOwn] using ha
  rw [Core.csrWaits, hr, Bool.false_and]

theorem csrOk_of_not_named {s : State} {a : Nat} (h : csrNamed a = false) : s.csrOk a = false := by
  rw [State.csrOk, h, Bool.false_and, Bool.false_and]

theorem csrOk_of_supervisor {s : State} {a : Nat} (h : csrSup a = true) (hs : s.frame.sup = false) : s.csrOk a = false := by
  simp [State.csrOk, h, hs]

/-! ### The register-write steps (log entry 30) -/

section Step

variable {s t : State} {csr : BitVec 12} {v : Word}

theorem csrStep_of_refused (h : s.csrOk csr.toNat = false ∨ csrReadOnly csr.toNat = true) :
    s.csrStep csr v = s.trap 1 (wordOf (.csrrw 0 0 csr)) :=
  if_pos (by rcases h with h | h <;> simp [h])

theorem csrStep_of_written (hok : s.csrOk csr.toNat = true) (hro : csrReadOnly csr.toNat = false)
    (hw : s.csrWrite csr.toNat v = .ok t) : s.csrStep csr v = t := by
  simp only [State.csrStep, hok, hro, hw, Bool.not_true, Bool.or_false, Bool.false_eq_true, if_false]

theorem csrStep_of_illegal (hok : s.csrOk csr.toNat = true) (hro : csrReadOnly csr.toNat = false)
    (hw : s.csrWrite csr.toNat v = .illegal) : s.csrStep csr v = s.trap 1 (wordOf (.csrrw 0 0 csr)) := by
  simp only [State.csrStep, hok, hro, hw, Bool.not_true, Bool.or_false, Bool.false_eq_true, if_false, State.illegal]

end Step

/-- Freeing a reservation of the device that runs. -/
theorem freeSpill_me {s : State} {v : Nat} (h : s.me.on = true ∧ s.me.vdev = v) :
    (s.freeSpill s.cur v).me = { s.me with spillRes := s.me.spillRes - 1 } :=
  (onMe_me ..).trans (if_pos h)

theorem freeSpill_gbars (s : State) (v : Nat) : (s.freeSpill s.cur v).me.gbars = s.me.gbars := by
  refine (congrArg Core.gbars (onMe_me ..)).trans ?_
  split
  · rfl
  · split <;> rfl

/-- The part without the current core's arrival at its team's barrier. -/
def State.dropArrival (s : State) : State :=
  s.onCluster (clusterOf s.cur) (fun k => { k with
    arr := k.arr.filter (fun b => !(b.core == s.cur && b.vdev == s.me.vdev)) })

theorem dropArrival_arr (s : State) : (s.dropArrival.cluster (clusterOf s.cur)).arr =
    (s.cluster (clusterOf s.cur)).arr.filter (fun b => !(b.core == s.cur && b.vdev == s.me.vdev)) :=
  congrArg Cluster.arr (onCluster_cluster ..)

/-- Withdrawing the core's arrival frees what it held (R429). -/
theorem tbctl_withdraws {s : State} {a : Arrival}
    (ha : (s.cluster (clusterOf s.cur)).arr.find? (fun b => b.core == s.cur && b.vdev == s.me.vdev) = some a)
    (hon : s.me.on = true) :
    ((s.writeTbctl 0x10000).cluster (clusterOf s.cur)).arr =
      (s.cluster (clusterOf s.cur)).arr.filter (fun b => !(b.core == s.cur && b.vdev == s.me.vdev)) ∧
    (s.writeTbctl 0x10000).me.spillRes = s.me.spillRes - a.succ.isSome.toNat := by
  have hv : s.me.vdev = a.vdev := by
    have hmine := List.find?_some ha
    simp only [Bool.and_eq_true, beq_iff_eq] at hmine
    exact hmine.2.symm
  have hw : s.writeTbctl 0x10000 = if a.succ.isSome then s.dropArrival.freeSpill s.cur a.vdev else s.dropArrival := by
    rw [State.writeTbctl, if_neg (by decide)]
    dsimp only
    rw [ha]
    rfl
  by_cases hsucc : a.succ.isSome = true
  · rw [hw, if_pos hsucc, hsucc]
    exact ⟨dropArrival_arr s, congrArg Core.spillRes (freeSpill_me (s := s.dropArrival) ⟨hon, hv⟩)⟩
  · rw [hw, if_neg hsucc, Bool.eq_false_iff.2 hsucc]
    exact ⟨dropArrival_arr s, rfl⟩

/-- Withdrawing an open arrival at a gang barrier (R430). -/
theorem gbstat_withdraws {s : State} {g : GBar} (hg : s.me.gbOpen = some g) :
    (s.writeGbstat 0x200000000).me.gbars = s.me.gbars.filter (fun h => !(h.bid == g.bid)) := by
  have hdrop : (s.onMe (fun c => { c with gbars := c.gbars.filter (fun h => !(h.bid == g.bid)) })).me.gbars =
      s.me.gbars.filter (fun h => !(h.bid == g.bid)) := congrArg Core.gbars (onMe_me ..)
  rw [State.writeGbstat, if_neg (by decide), hg]
  dsimp only
  split
  · exact (freeSpill_gbars (s.onMe _) _).trans hdrop
  · exact hdrop

/-- A write of BKCFG makes its arbiter enforce the bucket that it describes (R345). -/
theorem bkcfg_sets (s : State) (v : Word) :
    let w := s.me.csr.bksel.toNat
    let a := s.arb (bkKind w) (bkUnit w)
    let key := bucketKey (bkKind w) (bkVdev w) (bkClass w)
    let b := tget a.buckets key Bucket.reset
    let depth := max (arbMax (bkKind w)) (v.toNat / 2 ^ 16 % 2 ^ 16)
    let c := tget (s.writeBkcfg v).arbs (arbKey (bkKind w) (bkUnit w)) Arb.reset
    c.enforcing = true ∧ tget c.buckets key Bucket.reset =
      { rate := v.toNat % 2 ^ 16, depth := depth, lend := v.getLsbD 32, borrow := v.getLsbD 33,
        tok := min depth b.tok, fr := b.fr } := by
  intro w a key b depth c
  simp [c, State.writeBkcfg, State.setArb, bitsOf, w, key, b, depth, a]

/-- A rectangle that may become a saggar's, where the saggar is absent or keeps its rectangle (R358). -/
theorem sgrect_sets {s : State} {v : Word} (hen : v.getLsbD 63 = true)
    (hok : s.rectOk s.me.csr.sgsel (v.toNat % 2 ^ 24) = true)
    (hkeep : (s.sag s.me.csr.sgsel).en = false ∨ v.toNat % 2 ^ 24 = (s.sag s.me.csr.sgsel).rect) :
    s.writeSgrect v = .ok (s.onSag s.me.csr.sgsel (fun h => { h with en := true, rect := v.toNat % 2 ^ 24 })) := by
  have hmoves : ((s.sag s.me.csr.sgsel).en && !(v.toNat % 2 ^ 24 == (s.sag s.me.csr.sgsel).rect)) = false := by
    rcases hkeep with h | h
    · rw [h, Bool.false_and]
    · rw [h, beq_self_eq_true, Bool.not_true, Bool.and_false]
  simp only [State.writeSgrect, bitOf_toNat, hen, hok, hmoves, Bool.not_true, Bool.and_false, Bool.false_and,
    Bool.false_eq_true, if_false]

/-- A write of ERRCTL keeps its fields, and with EN 1 clears the pointers (R410). -/
theorem errctl_sets (s : State) (v : Word) :
    (s.errctl v.toNat true).mmioWord errBase = v.toNat / 2 ^ 12 % 2 ^ 36 * 4096 + v.toNat % 32 ∧
    (v.getLsbD 0 = true → (s.errctl v.toNat true).mmioWord (errBase + 8) = 0) := by
  have hkept : bitsOf v.toNat 12 36 * 4096 + bitsOf v.toNat 0 5 = v.toNat / 2 ^ 12 % 2 ^ 36 * 4096 + v.toNat % 32 := by
    simp [bitsOf]
  have hfits : (v.toNat / 2 ^ 12 % 2 ^ 36 * 4096 + v.toNat % 32) % 2 ^ 64 =
      v.toNat / 2 ^ 12 % 2 ^ 36 * 4096 + v.toNat % 32 :=
    Nat.mod_eq_of_lt (by omega)
  simp only [State.errctl, bitOf_toNat, hkept, Bool.true_and]
  cases v.getLsbD 0 with
  | false => exact ⟨by rw [if_neg Bool.false_ne_true, mmioWord_setMmio, if_pos rfl, hfits], nofun⟩
  | true =>
    rw [if_pos rfl]
    refine ⟨?_, fun _ => by rw [mmioWord_setMmio, if_pos rfl, Nat.zero_mod]⟩
    rw [mmioWord_setMmio, if_neg (by decide), mmioWord_setMmio, if_pos rfl, hfits]

/-- Settles O50: each step by what a write of its register does. -/
theorem registerWriteStepsSetTheirRegister : Obligations.RegisterWriteStepsSetTheirRegister := by
  intro s v csr c illegal k ks
  have written : ∀ {a : BitVec 12} {x : Word} {t : State}, csrOwn a.toNat = true → csrReadOnly a.toNat = false →
      csrSup a.toNat = false ∨ s.frame.sup = true → s.csrWrite a.toNat x = .ok t →
      (.next (s.csrStep a x) : Out) = .next t := fun hown hro hs hw =>
    congrArg Host.Outcome.next (csrStep_of_written (csrOk_of_own hown hs) hro hw)
  have refused : ∀ {a : BitVec 12} {x : Word}, csrSup a.toNat = true → s.frame.sup = false →
      (.next (s.csrStep a x) : Out) = .next (illegal a) := fun ha hs =>
    congrArg Host.Outcome.next (csrStep_of_refused (.inl (csrOk_of_supervisor ha hs)))
  refine ⟨written rfl rfl (.inl rfl) rfl,
    fun hidle => ⟨written rfl rfl (.inl rfl) ?ktol, written rfl rfl (.inl rfl) ?kfloor⟩,
    written rfl rfl (.inl rfl) rfl, written rfl rfl (.inl rfl) rfl, ?illegal,
    fun hs => ⟨refused rfl hs, refused rfl hs, refused rfl hs⟩,
    fun hs => ⟨?teamstg, ?teamstgRefused, ?tbctl, ?gbstat, ?bkcfg, ?sgrect⟩, _, rfl, errctl_sets s v⟩
  case ktol => exact if_neg (by simp [hidle])
  case kfloor => exact if_neg (by simp [hidle])
  case illegal =>
    exact fun h => congrArg Host.Outcome.next (csrStep_of_refused (h.imp csrOk_of_not_named id))
  case teamstg =>
    intro h
    have hkeeps : (bitOf v.toNat 8 && !bitOf v.toNat (coreNo s.cur)) = false := by
      rcases h with h | h
      · rw [bitOf_toNat, h, Bool.false_and]
      · rw [bitOf_toNat v (coreNo s.cur), h, Bool.not_true, Bool.and_false]
    refine written rfl rfl (.inr hs) ((if_neg (Bool.eq_false_iff.1 hkeeps)).trans ?_)
    rw [bitOf_toNat]
  case teamstgRefused =>
    intro hen hmask
    have hdrops : (bitOf v.toNat 8 && !bitOf v.toNat (coreNo s.cur)) = true := by
      rw [bitOf_toNat, bitOf_toNat, hen, hmask]
      rfl
    have hrefused : s.csrWrite (0x5E3#12).toNat v = .illegal := if_pos hdrops
    exact congrArg Host.Outcome.next (csrStep_of_illegal (csrOk_of_own rfl (.inr hs)) rfl hrefused)
  case tbctl =>
    exact fun a ha hon => ⟨_, written rfl rfl (.inr hs) rfl, tbctl_withdraws ha hon⟩
  case gbstat => exact fun g hg => ⟨_, written rfl rfl (.inr hs) rfl, gbstat_withdraws hg⟩
  case bkcfg =>
    intro w hw hk a key b depth
    have hok : s.csrOk (0x5D1#12).toNat = true := by
      have h : (bkNames w && !(bkKind w == 5)) = true := by simp [hw, hk]
      simpa [State.csrOk, csrNamed, hs] using h
    exact ⟨_, congrArg Host.Outcome.next (csrStep_of_written hok rfl rfl), bkcfg_sets s v⟩
  case sgrect =>
    exact fun hen hok hkeep => written rfl rfl (.inr hs) (sgrect_sets hen hok hkeep)

/-! ### The Zicsr instructions (R207, R208) -/

/-- The event selections of a core, whatever they are, do not show in what its retirement leaves. -/
theorem Retires.onMe_evs {u t : State} {n : Word} (h : u.Retires t n) (g : Core → Evs) :
    u.Retires (t.onMe (fun c => { c with evs := g c })) n := by
  obtain ⟨hme, ht⟩ := h
  have hcur : t.cur = u.cur := by rw [ht]; rfl
  refine ⟨by rw [onMe_me, hme], ?_⟩
  rw [onMe_me, ht]
  simp [State.onMe, State.onCore, State.setCore, State.me]

theorem Retires.of_onMe_evs {u t : State} {n : Word} {g : Core → Evs}
    (h : (u.onMe (fun c => { c with evs := g c })).Retires t n) : u.Retires t n := by
  obtain ⟨hme, ht⟩ := h
  rw [onMe_me] at hme
  refine ⟨hme, ?_⟩
  rw [State.onMe, State.onCore, setCore_cur, setCore_setCore] at ht
  exact ht

/-- A register write retires as every instruction does (R208). -/
theorem retireWrite_retires (s t : State) (a : Nat) : t.Retires (s.retireWrite t a) (t.frame.pc + 4) := by
  unfold State.retireWrite
  exact Retires.onMe_evs (Retires.of_onMe_evs (retireUnder_retires _ _ _ _)) _

section Zicsr

variable {s : State} {rd rs1 : XReg} {csr : BitVec 12}

/-- CSRRW of a register that the frame may write puts the old value in rd. -/
theorem csrrw_completes {u : State} (hc : s.clear false [rs1] rd = true) (hown : csrOwn csr.toNat = true)
    (hro : csrReadOnly csr.toNat = false) (hs : csrSup csr.toNat = false ∨ s.frame.sup = true)
    (hw : (s.wake [rs1] rd).csrWrite csr.toNat (s.x rs1) = .ok u)
    (hfid : u.frame.fid = s.frame.fid) (hpc : u.frame.pc = s.frame.pc) :
    s.completes (.csrrw rd rs1 csr) (u.setX rd ((s.wake [rs1] rd).csrRead csr.toNat)) (s.frame.pc + 4) := by
  have hok : (s.wake [rs1] rd).csrOk csr.toNat = true := csrOk_of_own hown (by rwa [wake_frame])
  have hret := retireWrite_retires (s.wake [rs1] rd) (u.setX rd ((s.wake [rs1] rd).csrRead csr.toNat)) csr.toNat
  rw [setX_pc, hpc] at hret
  refine ⟨_, exec_of_run (exec_csrrw ..) hc (by simp) ?_, hret⟩
  simp only [csrOp, hok, hro, csrWaits_of_own hown, wake_x, hw, wake_frame, hfid, Bool.not_true,
    Bool.false_eq_true, if_false, if_true]

/-- CSRRW of a register of the running frame. -/
theorem csrrw_sets_frame {g : Frame → Frame} (hc : s.clear false [rs1] rd = true) (hown : csrOwn csr.toNat = true)
    (hro : csrReadOnly csr.toNat = false) (hs : csrSup csr.toNat = false ∨ s.frame.sup = true)
    (hw : (s.wake [rs1] rd).csrWrite csr.toNat (s.x rs1) = .ok ((s.wake [rs1] rd).onFrame g))
    (hg : ∀ f : Frame, (g f).fid = f.fid ∧ (g f).pc = f.pc) :
    s.completes (.csrrw rd rs1 csr)
      (((s.wake [rs1] rd).onFrame g).setX rd ((s.wake [rs1] rd).csrRead csr.toNat)) (s.frame.pc + 4) :=
  csrrw_completes hc hown hro hs hw (by simp [hg]) (by simp [hg])

/-- CSRRW of a register that stands beside the frame. -/
theorem csrrw_sets_csr {g : Csrs → Csrs} (hc : s.clear false [rs1] rd = true) (hown : csrOwn csr.toNat = true)
    (hro : csrReadOnly csr.toNat = false) (hs : csrSup csr.toNat = false ∨ s.frame.sup = true)
    (hw : (s.wake [rs1] rd).csrWrite csr.toNat (s.x rs1) =
      .ok ((s.wake [rs1] rd).onMe (fun c => { c with csr := g c.csr }))) :
    s.completes (.csrrw rd rs1 csr)
      (((s.wake [rs1] rd).onMe (fun c => { c with csr := g c.csr })).setX rd ((s.wake [rs1] rd).csrRead csr.toNat))
      (s.frame.pc + 4) := by
  have hframe : ((s.wake [rs1] rd).onMe (fun c => { c with csr := g c.csr })).frame = s.frame :=
    (onMe_frame ..).trans (wake_frame ..)
  exact csrrw_completes hc hown hro hs hw (by rw [hframe]) (by rw [hframe])

/-- CSRRS with x0 only reads. -/
theorem csrrs_reads {v : Word} (hc : s.clear false [0] rd = true) (hown : csrOwn csr.toNat = true)
    (hs : csrSup csr.toNat = false) (hv : (s.wake [0] rd).csrRead csr.toNat = v) :
    s.completes (.csrrs rd 0 csr) ((s.wake [0] rd).setX rd v) (s.frame.pc + 4) := by
  have hok : (s.wake [0] rd).csrOk csr.toNat = true := csrOk_of_own hown (.inl hs)
  refine completes_of_retire (cost := 1) (exec_csrrs ..) hc (by simp) ?_ (by simp)
  simp only [csrOp, hok, csrWaits_of_own hown, hv, Bool.not_true, Bool.false_eq_true, if_false, if_true]

/-- An access that R77 refuses is illegal. -/
theorem csrrw_refused (hc : s.clear false [rs1] rd = true)
    (h : csrNamed csr.toNat = false ∨ (csrSup csr.toNat = true ∧ s.frame.sup = false) ∨ csrReadOnly csr.toNat = true) :
    exec (.csrrw rd rs1 csr) s = .next ((s.wake [rs1] rd).trap 1 (wordOf (.csrrw rd rs1 csr))) := by
  refine exec_of_run (exec_csrrw ..) hc (by simp) ?_
  rcases h with hn | ⟨hsup, hs⟩ | hro
  · exact if_pos (by rw [csrOk_of_not_named hn]; rfl)
  · exact if_pos (by rw [csrOk_of_supervisor hsup (by rwa [wake_frame])]; rfl)
  · cases hok : (s.wake [rs1] rd).csrOk csr.toNat with
    | false => exact if_pos (by rw [hok]; rfl)
    | true => simp only [csrOp, hok, hro, Bool.not_true, Bool.false_eq_true, if_false, if_true, State.illegal]

end Zicsr

/-! ### What a register reads as (R86, R379, R423) -/

section Wake

variable (s : State) (srcs : List XReg) (dst : XReg)

theorem wake_run : (s.wake srcs dst).me.run = s.me.run := wake_frame s srcs dst

theorem wake_csr : (s.wake srcs dst).me.csr = s.me.csr := by
  obtain ⟨b, hb⟩ := wake_me s srcs dst
  rw [hb]

theorem wake_evs : (s.wake srcs dst).me.evs = s.me.evs := by
  obtain ⟨b, hb⟩ := wake_me s srcs dst
  rw [hb]

theorem wake_dbg : (s.wake srcs dst).me.dbg = s.me.dbg := by
  obtain ⟨b, hb⟩ := wake_me s srcs dst
  rw [hb]

theorem wake_instret : (s.wake srcs dst).me.instret = s.me.instret := by
  obtain ⟨b, hb⟩ := wake_me s srcs dst
  rw [hb]

end Wake

theorem getD_fin {n : Nat} (r : Vector Word n) (i : Fin n) : r.getD i 0 = r[i] := by
  simp [Vector.getD]

/-- Where the counters' selections, the counters, their images and the debug registers begin. -/
def csrFiles : List Nat := [0x810, 0x814, 0xC03, 0x820, 0x824, 0x828, 0x82C]

theorem csrOwn_files : ∀ i : Fin 4, ∀ n ∈ csrFiles,
    csrOwn (BitVec.ofNat 12 (n + i)).toNat = true ∧ csrSup (BitVec.ofNat 12 (n + i)).toNat = false := by decide

theorem csrOwn_image_unused : ∀ j : Fin 25,
    csrOwn (BitVec.ofNat 12 (0xC07 + j)).toNat = true ∧ csrSup (BitVec.ofNat 12 (0xC07 + j)).toNat = false := by decide

/-- The counters, their selections and images, and the debug registers, four of each. -/
theorem csrRead_files (s : State) (i : Fin 4) :
    s.csrRead (BitVec.ofNat 12 (0x810 + i)).toNat = s.me.evs.sel[i] ∧
    s.csrRead (BitVec.ofNat 12 (0x814 + i)).toNat = s.me.evs.cnt[i] ∧
    s.csrRead (BitVec.ofNat 12 (0xC03 + i)).toNat = s.me.evs.cnt[i] ∧
    s.csrRead (BitVec.ofNat 12 (0x820 + i)).toNat = s.me.dbg.dba[i] ∧
    s.csrRead (BitVec.ofNat 12 (0x824 + i)).toNat = s.me.dbg.dbm[i] ∧
    s.csrRead (BitVec.ofNat 12 (0x828 + i)).toNat = s.me.dbg.dwa[i] ∧
    s.csrRead (BitVec.ofNat 12 (0x82C + i)).toNat = s.me.dbg.dwm[i] := by
  simp only [← getD_fin]
  fin_cases i <;> exact ⟨rfl, rfl, rfl, rfl, rfl, rfl, rfl⟩

/-- A counter image that no event counter stands behind reads as 0. -/
theorem csrRead_image_unused (s : State) (j : Fin 25) : s.csrRead (BitVec.ofNat 12 (0xC07 + j)).toNat = 0 := by
  fin_cases j <;> rfl

/-- DLREM with a deadline armed. -/
theorem csrRead_dlrem {s : State} {d : Deadline} (h : s.me.run.dl = some d) :
    s.csrRead 0x80B = BitVec.ofNat 64 ((d.expiry - s.after s.cur 1) % 2 ^ 32) := by
  have hleft : s.me.run.left (s.after s.cur 1) = d.expiry - s.after s.cur 1 := by simp only [Frame.left, h]
  exact congrArg (fun n => BitVec.ofNat 64 (n % 2 ^ 32)) hleft

theorem csrRead_dlrem_none {s : State} (h : s.me.run.dl = none) : s.csrRead 0x80B = 0 := by
  have hleft : s.me.run.left (s.after s.cur 1) = 0 := by simp only [Frame.left, h]
  exact congrArg (fun n => BitVec.ofNat 64 (n % 2 ^ 32)) hleft

/-- The cycle counter of a cluster that is not derated counts the package's own cycles (R408). -/
theorem csrRead_cycle {s : State} (h : (s.cluster (clusterOf s.cur)).derateAt = none) :
    s.csrRead 0xC00 = BitVec.ofNat 64 (s.now + 1) := by
  have hcycle : s.own s.cur (s.after s.cur 1) = s.now + 1 := by simp only [State.own, State.after, State.ownAfter, h]
  exact congrArg (BitVec.ofNat 64) hcycle

theorem csrWrite_corenxr (s : State) (v : Word) :
    s.csrWrite 0x5C6 v = .ok (s.onMe (fun c => { c with csr := { c.csr with corenxr := v.getLsbD 0 } })) := by
  rw [← bitOf_toNat]
  rfl

/-- Settles O17: writes and refusals by the lemmas on CSRRW, and each read by what its register holds. -/
theorem registerWritesAndRefusals : Obligations.RegisterWritesAndRefusals := by
  intro s rd rs1 csr hc v w sets
  refine ⟨?tstat, ?holdm, ?deadm, ?succ, ?super, fun h => csrrw_refused hc h, ?reads⟩
  case tstat => exact csrrw_sets_frame hc rfl rfl (.inl rfl) rfl fun _ => ⟨rfl, rfl⟩
  case holdm => exact csrrw_sets_csr (g := fun c => { c with holdm := v &&& ~~~1#64 }) hc rfl rfl (.inl rfl) rfl
  case deadm => exact csrrw_sets_frame hc rfl rfl (.inl rfl) rfl fun _ => ⟨rfl, rfl⟩
  case succ => exact csrrw_sets_frame hc rfl rfl (.inl rfl) rfl fun _ => ⟨rfl, rfl⟩
  case super =>
    intro hs super
    exact ⟨csrrw_sets_csr (g := fun c => { c with ceilsel := v.toNat % 64 }) hc rfl rfl (.inr hs) rfl,
      csrrw_sets_csr (g := fun c => { c with gpv := v }) hc rfl rfl (.inr hs) rfl,
      csrrw_sets_csr (g := fun c => { c with corenxr := v.getLsbD 0 }) hc rfl rfl (.inr hs) (csrWrite_corenxr w v),
      csrrw_sets_csr (g := fun c => { c with sgsel := v.toNat % 64 }) hc rfl rfl (.inr hs) rfl,
      csrrw_sets_csr (g := fun c => { c with gbsel := v.toNat % 2 ^ 32 }) hc rfl rfl (.inr hs) rfl⟩
  case reads =>
    intro c soon shows
    have read : ∀ {a : BitVec 12} {x : Word}, csrOwn a.toNat = true → csrSup a.toNat = false →
        (s.wake [0] rd).csrRead a.toNat = x → shows a x := fun hown hs hx hc => csrrs_reads hc hown hs hx
    refine ⟨read rfl rfl (congrArg Csrs.holdm (wake_csr ..)),
      read rfl rfl (congrArg (fun f : Frame => f.deadm.setWidth 64) (wake_run ..)),
      read rfl rfl (congrArg Frame.succ (wake_run ..)), fun hdl => ?dlremNone, fun d hdl => ?dlrem, fun i => ?files,
      read rfl rfl (congrArg Evs.ovf (wake_evs ..)), read rfl rfl (congrArg Dbg.stepc (wake_dbg ..)),
      fun hd => read rfl rfl (csrRead_cycle (s := s.wake [0] rd) hd), read rfl rfl rfl,
      read rfl rfl (congrArg (BitVec.ofNat 64) (wake_instret ..)), fun j => ?unused⟩
    case dlremNone => exact read rfl rfl (csrRead_dlrem_none (by rw [wake_run]; exact hdl))
    case dlrem => exact read rfl rfl (csrRead_dlrem (s := s.wake [0] rd) (by rw [wake_run]; exact hdl))
    case files =>
      obtain ⟨hsel, hcnt, himg, hdba, hdbm, hdwa, hdwm⟩ := csrRead_files (s.wake [0] rd) i
      rw [wake_evs] at hsel hcnt himg
      rw [wake_dbg] at hdba hdbm hdwa hdwm
      have file : ∀ n ∈ csrFiles, ∀ x, (s.wake [0] rd).csrRead (BitVec.ofNat 12 (n + i)).toNat = x →
          shows (BitVec.ofNat 12 (n + i)) x := fun n hn x hx => read (csrOwn_files i n hn).1 (csrOwn_files i n hn).2 hx
      exact ⟨file _ (by decide) _ hsel, file _ (by decide) _ hcnt, file _ (by decide) _ himg, file _ (by decide) _ hdba,
        file _ (by decide) _ hdbm, file _ (by decide) _ hdwa, file _ (by decide) _ hdwm⟩
    case unused =>
      obtain ⟨hown, hsup⟩ := csrOwn_image_unused j
      exact read hown hsup (csrRead_image_unused ..)

end Sys2Proof.Machine

/-! PROOFS. The kiln's own steps: retirement, solve steps and scale frames (R110, R234, R278, R287, R288, R290, R293,
R297). The layers: what the shared operations leave of the state sets and of the kilns, what a product does to k0 and the
rings, which branch each step takes when one command or frame is there, and what each step leaves. -/

namespace Sys2Proof.Machine

/-! ### State sets and kilns under the shared operations -/

@[simp] theorem ksetOf_onKiln (s : State) (q ep lvl : Nat) (g : Kiln → Kiln) :
    (s.onKiln q g).ksetOf ep lvl = s.ksetOf ep lvl := rfl

@[simp] theorem ksetOf_endFiring (s : State) (q ep lvl : Nat) : (s.endFiring q).ksetOf ep lvl = s.ksetOf ep lvl := rfl

@[simp] theorem ksetOf_land (s : State) (q : Nat) (f : Flight) (ep lvl : Nat) :
    (s.land q f).ksetOf ep lvl = s.ksetOf ep lvl := rfl

@[simp] theorem ksetOf_onCluster (s : State) (k ep lvl : Nat) (g : Cluster → Cluster) :
    (s.onCluster k g).ksetOf ep lvl = s.ksetOf ep lvl := rfl

theorem ksetOf_congr {s t : State} {ep : Nat} (h : (t.core ep).sets = (s.core ep).sets) (lvl : Nat) :
    t.ksetOf ep lvl = s.ksetOf ep lvl := congrArg (fun sets => tget sets lvl KSet.reset) h

theorem sets_setCore {s : State} {ep : Nat} {c : Core} (h : c.sets = (s.core ep).sets) :
    ((s.setCore ep c).core ep).sets = (s.core ep).sets := by rw [core_setCore, h]

theorem sets_onCore {s : State} {ep : Nat} {g : Core → Core} (h : (g (s.core ep)).sets = (s.core ep).sets) :
    ((s.onCore ep g).core ep).sets = (s.core ep).sets := sets_setCore h

/-- A core changed so that a level's state set becomes k. -/
theorem ksetOf_onCore {s : State} {ep lvl : Nat} {g : Core → Core} {k : KSet}
    (h : (g (s.core ep)).sets = tset (s.core ep).sets lvl k) : (s.onCore ep g).ksetOf ep lvl = k := by
  simp [State.ksetOf, h]

theorem kiln_onCore (s : State) (ep q : Nat) (g : Core → Core) : (s.onCore ep g).kiln q = s.kiln q := rfl

@[simp] theorem ksetOf_onSet (s : State) (ep : Nat) (c : KCmd) (g : KSet → KSet) :
    (s.onSet ep c g).ksetOf ep c.level = g (s.ksetOf ep c.level) := by
  refine ksetOf_onCore ?_
  dsimp only
  split
  · split <;> rfl
  · rfl

@[simp] theorem kiln_onSet (s : State) (ep : Nat) (c : KCmd) (g : KSet → KSet) (q : Nat) :
    (s.onSet ep c g).kiln q = s.kiln q := rfl

@[simp] theorem pops_onSet (s : State) (ep : Nat) (c : KCmd) (g : KSet → KSet) :
    ((s.onSet ep c g).core ep).pops = (s.core ep).pops := by
  simp only [State.onSet, onCore_core]
  split
  · split <;> rfl
  · rfl

theorem overflowPost_keeps (s : State) (ep : Nat) :
    ((s.overflowPost ep).core ep).sets = (s.core ep).sets ∧ (s.overflowPost ep).kilns = s.kilns := by
  unfold State.overflowPost
  dsimp only
  split
  · exact ⟨rfl, rfl⟩
  · split <;> exact ⟨sets_setCore rfl, rfl⟩

/-- Counting moves event counters alone, no state set and no kiln (R379). -/
theorem countAt_keeps (s : State) (ep lvl ev n : Nat) :
    ((s.countAt ep lvl ev n).core ep).sets = (s.core ep).sets ∧ (s.countAt ep lvl ev n).kilns = s.kilns := by
  unfold State.countAt
  extract_lets c hit bump wrap ovfBits evs s1
  have hsets : (s1.core ep).sets = (s.core ep).sets := sets_setCore rfl
  split
  · exact ⟨rfl, rfl⟩
  split
  · exact ⟨hsets, rfl⟩
  split
  · exact ⟨(overflowPost_keeps s1 ep).1.trans hsets, (overflowPost_keeps s1 ep).2⟩
  · exact ⟨hsets, rfl⟩

@[simp] theorem ksetOf_countAt (s : State) (ep lvl ev n l : Nat) :
    (s.countAt ep lvl ev n).ksetOf ep l = s.ksetOf ep l := ksetOf_congr (countAt_keeps ..).1 l

@[simp] theorem kiln_countAt (s : State) (ep lvl ev n q : Nat) : (s.countAt ep lvl ev n).kiln q = s.kiln q :=
  congrArg (fun kilns => tget kilns q Kiln.reset) (countAt_keeps ..).2

@[simp] theorem flight_endFiring (s : State) (q : Nat) : ((s.endFiring q).kiln q).flight = (s.kiln q).flight := by
  simp only [State.endFiring, onKiln_kiln]
  split
  · split <;> rfl
  · rfl

/-- The only command in flight leaves none when it lands. -/
theorem flight_land {s : State} {q : Nat} {f : Flight} (h : (s.kiln q).flight = [f]) :
    ((s.land q f).kiln q).flight = [] := by
  simp [State.land, h]

/-! ### Room in the journal and queue entries (R73, R234, R368, R369) -/

theorem checkpoint_keeps (s : State) (ep : Nat) :
    ((s.checkpoint ep).core ep).sets = (s.core ep).sets ∧ ((s.checkpoint ep).core ep).pops = (s.core ep).pops := by
  simp only [State.checkpoint, onCore_core]
  exact ⟨rfl, rfl⟩

theorem flight_checkpoint {s : State} {q : Nat} (h : (s.kiln q).flight = []) (ep : Nat) :
    ((s.checkpoint ep).kiln q).flight = [] := by
  rw [State.checkpoint, kiln_onCore]
  by_cases hq : q = quadOf ep
  · subst hq; simp [h]
  · rw [State.kiln, State.onKiln, tget_tset_other _ _ _ _ _ hq]; exact h

/-- Making room changes no state set, no waiting QPOP and no empty kiln, and of the command its age alone (R368). -/
theorem makeRoom_keeps (s : State) (f : Flight) : ∃ (u : State) (c : KCmd), s.makeRoom f = (u, c) ∧ c.level = f.cmd.level ∧
    c.ins = f.cmd.ins ∧ (u.core f.core).sets = (s.core f.core).sets ∧ (u.core f.core).pops = (s.core f.core).pops ∧
    ∀ q, (s.kiln q).flight = [] → (u.kiln q).flight = [] := by
  unfold State.makeRoom
  dsimp only
  split
  · obtain ⟨hsets, hpops⟩ := checkpoint_keeps s f.core
    exact ⟨_, _, rfl, rfl, rfl, hsets, hpops, fun q hq => flight_checkpoint hq f.core⟩
  · exact ⟨_, _, rfl, rfl, rfl, rfl, rfl, fun q hq => hq⟩

/-- With no QPOP waiting, an entry goes to its queue. -/
theorem pushQ_appends {s : State} {ep : Nat} (h : (s.core ep).pops = []) (lvl n : Nat) (v : Word) :
    (s.pushQ ep lvl n v).ksetOf ep lvl = (s.ksetOf ep lvl).push n v ∧ (s.pushQ ep lvl n v).kilns = s.kilns := by
  simp only [State.pushQ, h, takeFirst]
  exact ⟨ksetOf_onCore rfl, rfl⟩

theorem pushKept_appends {s : State} {ep : Nat} (h : (s.core ep).pops = []) (lvl n : Nat) (v : Word) :
    (s.pushKept ep lvl n v).ksetOf ep lvl = (s.ksetOf ep lvl).push n v ∧ (s.pushKept ep lvl n v).kilns = s.kilns := by
  obtain ⟨hset, hkilns⟩ := pushQ_appends h lvl n v
  have hwaits : (s.core ep).popWaits lvl n = false := by simp [Core.popWaits, h]
  simp only [State.pushKept, hwaits, Bool.false_eq_true, if_false]
  exact ⟨(ksetOf_congr (sets_onCore rfl) lvl).trans hset, hkilns⟩

/-! ### Retirement without a product or a scratchpad write (R278) -/

/-- The results that a command computed as it issued, written to its state set. -/
def State.wroteOut (s : State) (f : Flight) (c : KCmd) : State :=
  f.out.elim s fun o => s.onSet f.core c o.write

/-- The queue entry of a command, pushed. -/
def State.pushedOut (s : State) (f : Flight) (c : KCmd) : State :=
  f.push.elim s fun e => if c.old then s.pushKept f.core c.level e.1 e.2 else s.pushQ f.core c.level e.1 e.2

theorem KOut.write_q1 (o : KOut) (k : KSet) : (o.write k).q1 = k.q1 := by
  unfold KOut.write
  cases o.v <;> cases o.k0 <;> rfl

theorem wroteOut_keeps (s : State) (f : Flight) (c : KCmd) :
    ((s.wroteOut f c).ksetOf f.core c.level).q1 = (s.ksetOf f.core c.level).q1 ∧
    ((s.wroteOut f c).core f.core).pops = (s.core f.core).pops ∧ (s.wroteOut f c).kilns = s.kilns := by
  unfold State.wroteOut
  cases f.out with
  | none => exact ⟨rfl, rfl, rfl⟩
  | some o => exact ⟨by simp [KOut.write_q1], pops_onSet .., rfl⟩

/-- A command that is neither a product nor a solve command and writes no scratchpad: from a state with the same state
sets, its results are written, then its entry is pushed. -/
theorem retireFlight_plain {s : State} {q : Nat} {f : Flight} (hf : (s.kiln q).flight = [f])
    (hprod : prodOf f.cmd.ins = none) (hsolve : isSolve f.cmd.ins = false) (hw : f.writes = []) :
    ∃ (u : State) (c : KCmd), s.retireFlight q f = (u.wroteOut f c).pushedOut f c ∧ c.level = f.cmd.level ∧
      u.ksetOf f.core f.cmd.level = s.ksetOf f.core f.cmd.level ∧ (u.core f.core).pops = (s.core f.core).pops ∧
      (u.kiln q).flight = [] := by
  obtain ⟨u, c, hroom, hlevel, hins, hsets, hpops, hflight⟩ := makeRoom_keeps (s.land q f) f
  refine ⟨u, c, ?_, hlevel, ksetOf_congr hsets _, hpops, hflight q (flight_land hf)⟩
  simp only [State.retireFlight, hprod, hroom, hins, hsolve, hw, List.foldl_nil, State.clearPairs, Bool.false_eq_true,
    if_false, State.wroteOut, State.pushedOut]
  cases f.out <;> cases f.push <;> rfl

/-- The only command of a kiln, when it may retire. -/
theorem exec_kilnCommandRetire_one {s : State} {q : Nat} {f : Flight} (hf : (s.kiln q).flight = [f])
    (hm : s.mayRetire (s.kiln q) f = true) :
    exec (.kilnCommandRetire q) s = .next ((s.retireFlight q f).endFiring q) := by
  simp [exec_kilnCommandRetire, execKilnCommandRetire, hf, hm]

theorem kilnCommandRetire_pushes {s : State} {q : Nat} {f : Flight} {v : Word} (hf : (s.kiln q).flight = [f])
    (hm : s.mayRetire (s.kiln q) f = true) (hprod : prodOf f.cmd.ins = none) (hsolve : isSolve f.cmd.ins = false)
    (hw : f.writes = []) (hpush : f.push = some (1, v)) (hpops : (s.core f.core).pops = []) :
    ∃ t, exec (.kilnCommandRetire q) s = .next t ∧ (t.kiln q).flight = [] ∧
      (t.ksetOf f.core f.cmd.level).q1 = (s.ksetOf f.core f.cmd.level).q1 ++ [v] := by
  obtain ⟨u, c, hret, hlevel, hset, hupops, hflight⟩ := retireFlight_plain hf hprod hsolve hw
  obtain ⟨hq1, hwpops, hkilns⟩ := wroteOut_keeps u f c
  have hnone : ((u.wroteOut f c).core f.core).pops = [] := hwpops.trans (hupops.trans hpops)
  have happends : (s.retireFlight q f).ksetOf f.core c.level = ((u.wroteOut f c).ksetOf f.core c.level).push 1 v ∧
      (s.retireFlight q f).kilns = (u.wroteOut f c).kilns := by
    rw [hret, State.pushedOut, hpush, Option.elim_some]
    split
    · exact pushKept_appends hnone ..
    · exact pushQ_appends hnone ..
  refine ⟨_, exec_kilnCommandRetire_one hf hm, ?_, ?_⟩
  · rw [flight_endFiring, State.kiln, happends.2, hkilns]; exact hflight
  · rw [ksetOf_endFiring, ← hset, ← hlevel, happends.1, ← hq1]; rfl

theorem kilnCommandRetire_writes {s : State} {q : Nat} {f : Flight} {o : KOut} (hf : (s.kiln q).flight = [f])
    (hm : s.mayRetire (s.kiln q) f = true) (hprod : prodOf f.cmd.ins = none) (hsolve : isSolve f.cmd.ins = false)
    (hw : f.writes = []) (hpush : f.push = none) (hout : f.out = some o) :
    ∃ t, exec (.kilnCommandRetire q) s = .next t ∧ (t.kiln q).flight = [] ∧
      t.ksetOf f.core f.cmd.level = o.write (s.ksetOf f.core f.cmd.level) := by
  obtain ⟨u, c, hret, hlevel, hset, -, hflight⟩ := retireFlight_plain hf hprod hsolve hw
  simp only [State.wroteOut, State.pushedOut, hpush, hout, Option.elim_some, Option.elim_none] at hret
  refine ⟨_, exec_kilnCommandRetire_one hf hm, ?_, ?_⟩
  · rw [flight_endFiring, hret, kiln_onSet]; exact hflight
  · rw [ksetOf_endFiring, hret, ← hset, ← hlevel, ksetOf_onSet]

/-! ### Products (R110, R287, R288, R290) -/

theorem ring_setRing_same (k : KSet) (i : BitVec 2) (r : Ring) : (k.setRing i r).ring i = r := by
  simp [KSet.setRing, KSet.ring]

theorem ring_setRing_other (k : KSet) {i j : BitVec 2} (r : Ring) (h : j ≠ i) : (k.setRing i r).ring j = k.ring j := by
  have hn : i.toNat ≠ j.toNat := fun e => h (BitVec.eq_of_toNat_eq e).symm
  simp [KSet.setRing, KSet.ring, hn]

/-- Element t of k0 set and its flags raised. -/
def KSet.putK0 (k : KSet) (t : Nat) (r : Nat × BitVec 7) : KSet :=
  (k.setK0 (t / 32) (t % 32) (BitVec.ofNat 32 r.1)).flag r.2

/-- Elements of k0 set one after another, each to a value of its own. -/
def KSet.putAll (k : KSet) (ts : List Nat) (val : Nat → Nat × BitVec 7) : KSet :=
  ts.foldl (fun acc t => acc.putK0 t (val t)) k

theorem putK0_k0 (k : KSet) (t n : Nat) (r : Nat × BitVec 7) :
    tget (k.putK0 t r).k0 n 0 = if n = t then BitVec.ofNat 32 r.1 else tget k.k0 n 0 := by
  have hk0 : (k.putK0 t r).k0 = tput k.k0 t (BitVec.ofNat 32 r.1) 0 :=
    congrArg (fun key => tput k.k0 key (BitVec.ofNat 32 r.1) 0) (Nat.div_add_mod t 32)
  rw [hk0]
  split
  · next h => rw [h, tget_tput_same]
  · next h => exact tget_tput_other _ _ _ _ _ h

theorem putAll_k0 (ts : List Nat) (val : Nat → Nat × BitVec 7) (n : Nat) (k : KSet) :
    tget (k.putAll ts val).k0 n 0 = if n ∈ ts then BitVec.ofNat 32 (val n).1 else tget k.k0 n 0 := by
  induction ts generalizing k with
  | nil => rfl
  | cons t ts ih =>
    rw [KSet.putAll, List.foldl_cons, ← KSet.putAll, ih, putK0_k0]
    by_cases hmem : n ∈ ts
    · simp [hmem]
    · by_cases ht : n = t
      · simp [ht]
      · simp [hmem, ht]

theorem putAll_rings (ts : List Nat) (val : Nat → Nat × BitVec 7) (k : KSet) :
    (k.putAll ts val).rings = k.rings := by
  induction ts generalizing k with
  | nil => rfl
  | cons t ts ih => exact ih (k.putK0 t (val t))

/-- What a product makes of an element of k0, with its flags (R290). -/
def KSet.productAt (k : KSet) (p : Prod) (nxr : Bool) (A B : Array (BitVec 16)) (errs : List (Nat × Nat × Int × Int))
    (f : Option ScaleFrame) (i j : Nat) : Nat × BitVec 7 :=
  let m : Fmt := if p.fa = .int8 then .int32 else .fp32
  m.enc false .ne false ((if p.mode = 1 then Fp.zero else m.dec false (k.k0At i j).toNat).add
    (p.term f (p.s nxr A B errs i j) i j))

section Product

variable (k : KSet) (p : Prod) (nxr : Bool) (A B : Array (BitVec 16)) (errs : List (Nat × Nat × Int × Int))
  (f : Option ScaleFrame)

theorem product_eq_putAll : k.product p nxr A B errs f =
    k.putAll (List.range 1024) fun t => k.productAt p nxr A B errs f (t / 32) (t % 32) := rfl

theorem product_k0At {i j : Nat} (hi : i < 32) (hj : j < 32) :
    (k.product p nxr A B errs f).k0At i j = BitVec.ofNat 32 (k.productAt p nxr A B errs f i j).1 := by
  have hmem : 32 * i + j ∈ List.range 1024 := List.mem_range.mpr (by omega)
  have hdiv : (32 * i + j) / 32 = i := by omega
  have hmod : (32 * i + j) % 32 = j := by omega
  rw [KSet.k0At, product_eq_putAll, putAll_k0, if_pos hmem, hdiv, hmod]

theorem product_ring (i : BitVec 2) : (k.product p nxr A B errs f).ring i = k.ring i :=
  congrArg (fun rings : Vector Ring 4 => rings[i.toNat]) (putAll_rings ..)

end Product

theorem kiln_popTiles (s : State) (ep : Nat) (c : KCmd) (p : Prod) (q : Nat) :
    (s.popTiles ep c p).kiln q = s.kiln q := rfl

/-- Both rings of a product without their head tiles. -/
def KSet.popHeads (k : KSet) (p : Prod) : KSet := (k.setRing p.ia (k.ring p.ia).pop).setRing p.ib (k.ring p.ib).pop

theorem ksetOf_popTiles (s : State) (ep : Nat) (c : KCmd) (p : Prod) :
    (s.popTiles ep c p).ksetOf ep c.level = (s.ksetOf ep c.level).popHeads p := by
  rw [State.popTiles, ksetOf_onCluster, ksetOf_onSet]
  rfl

theorem popHeads_k0At (k : KSet) (p : Prod) (i j : Nat) : (k.popHeads p).k0At i j = k.k0At i j := rfl

theorem popHeads_cmds (k : KSet) (p : Prod) : (k.popHeads p).cmds = k.cmds := rfl

/-- The head of each ring of a product moves past its tile (R287). -/
theorem popHeads_head (k : KSet) {p : Prod} (hne : p.ia ≠ p.ib) {i : BitVec 2} (hi : i = p.ia ∨ i = p.ib) :
    ((k.popHeads p).ring i).head = ((k.ring i).head + 1) % 65536 := by
  unfold KSet.popHeads
  obtain rfl | rfl := hi
  · rw [ring_setRing_other _ _ hne, ring_setRing_same]; rfl
  · rw [ring_setRing_same]; rfl

/-- A state set with its count of commands set (R302). -/
def KSet.setCmds (k : KSet) (n : Nat) : KSet := { k with cmds := n }

theorem setCmds_k0At (k : KSet) (n i j : Nat) : (k.setCmds n).k0At i j = k.k0At i j := rfl

theorem setCmds_ring (k : KSet) (n : Nat) (i : BitVec 2) : (k.setCmds n).ring i = k.ring i := rfl

/-- A product with no error of the array and no successor, whose check passes. -/
theorem retireFlight_product {s : State} {q : Nat} {f : Flight} {p : Prod} (hf : (s.kiln q).flight = [f])
    (hprod : prodOf f.cmd.ins = some p) (hup : (s.kiln q).upset = []) (hsucc : f.cmd.succ = none)
    (hcheck : p.mismatch f.cmd.nxr f.tileA.toArray f.tileB.toArray [] (s.ksetOf f.core f.cmd.level).ktol = false) :
    ((s.retireFlight q f).kiln q).flight = [] ∧
    (s.retireFlight q f).ksetOf f.core f.cmd.level =
      (((s.ksetOf f.core f.cmd.level).product p f.cmd.nxr f.tileA.toArray f.tileB.toArray [] f.frame).setCmds
        (((s.ksetOf f.core f.cmd.level).cmds + 1) % 2 ^ 32)).popHeads p := by
  simp only [State.retireFlight, hprod, State.retireProduct, hup, List.headD_nil, hcheck, Bool.false_eq_true, if_false,
    State.postPass, hsucc]
  refine ⟨flight_land ?_, ?_⟩
  · rw [kiln_countAt, kiln_popTiles, kiln_onSet, onKiln_kiln, hf]
  · rw [ksetOf_land, ksetOf_countAt, ksetOf_popTiles, ksetOf_onSet, ksetOf_onKiln]
    rfl

/-- An element of KMMA's product: the exact sum of the 32 products of elements, added to the element of k0, or to zero in
mode 1, and rounded once (R110, R288, R290). -/
theorem productAt_kmma {ia ib : BitVec 2} {fa fb : BitVec 3} {mode : BitVec 2} {p : Prod}
    (hp : prodOf (.kmma ia ib fa fb mode) = some p) (k : KSet) (nxr : Bool) (tA tB : List (BitVec 16))
    (f : Option ScaleFrame) (i j : Nat) :
    k.productAt p nxr tA.toArray tB.toArray [] f i j =
      let acc : Fmt := if Fmt.ofCode fa.toNat = .int8 then .int32 else .fp32
      acc.enc false .ne false ((if mode = 1 then Fp.zero else acc.dec false (k.k0At i j).toNat).add
        (fpSum ((List.range 32).map fun q =>
          ((Fmt.ofCode fa.toNat).dec nxr (tA.getD (32 * i + q) 0).toNat).mul
            ((Fmt.ofCode fb.toNat).dec nxr (tB.getD (32 * q + j) 0).toNat)))) := by
  obtain rfl := Option.some.inj hp
  simp [KSet.productAt, Prod.term, Prod.s, Prod.a, Prod.b]

/-! ### Solve steps and scale frames (R293, R297) -/

/-- A solve command after the step under way, the next due a step's own cycles later (R300). -/
def Flight.stepped (f : Flight) (s : State) : Flight :=
  { f with step := f.step + 1, stepAt := s.ownAfter f.core f.stepAt (solveTimes f.cmd.ins).2 }

/-- The only command of a kiln, a solve command with a further step ahead, neither ended nor suspended: the step that is due
writes its results. -/
theorem exec_solveStepComplete_one {s : State} {q : Nat} {f : Flight} (hf : (s.kiln q).flight = [f])
    (hsolve : isSolve f.cmd.ins = true) (hstep : f.step + 1 < solveSteps f.cmd.ins) (hat : f.stepAt ≤ s.now)
    (habort : f.aborting = false) (hsusp : f.suspending = false) :
    exec (.solveStepComplete q) s = .next ((s.onSet f.core f.cmd fun k => k.solveStep f.cmd.ins f.step).onKiln q fun n =>
      { n with flight := n.flight.map fun g =>
          if g.core == f.core && g.cmd.kseq == f.cmd.kseq then f.stepped s else g }) := by
  have hlt : f.step < solveSteps f.cmd.ins := Nat.lt_of_succ_lt hstep
  simp only [exec_solveStepComplete, execSolveStepComplete, hf, List.find?_cons, hsolve, hlt, hat, decide_true,
    Bool.and_self, hstep.ne, habort, hsusp, Bool.false_eq_true, if_false, Flight.stepped]

theorem solveStepComplete_steps {s : State} {q : Nat} {f : Flight} (hf : (s.kiln q).flight = [f])
    (hsolve : isSolve f.cmd.ins = true) (hstep : f.step + 1 < solveSteps f.cmd.ins) (hat : f.stepAt ≤ s.now)
    (habort : f.aborting = false) (hsusp : f.suspending = false) :
    ∃ t, exec (.solveStepComplete q) s = .next t ∧
      t.ksetOf f.core f.cmd.level = (s.ksetOf f.core f.cmd.level).solveStep f.cmd.ins f.step ∧
      (t.kiln q).flight = [f.stepped s] := by
  refine ⟨_, exec_solveStepComplete_one hf hsolve hstep hat habort hsusp, ?_, ?_⟩
  · rw [ksetOf_onKiln, ksetOf_onSet]
  · simp [hf]

/-- A frame entering q3, in a core and in the snapshot of its checkpoint (R370). -/
def Core.takeFrame (c : Core) (r : FrameOut) : Core :=
  let k := tget c.sets r.level KSet.reset
  { c with sets := tset c.sets r.level { k with q3 := k.q3 ++ [r.frame] },
           ck := c.ck.map fun p => if p.frame.level = r.level then
             { p with kset := p.kset.map fun u => { u with q3 := u.q3 ++ [r.frame] } } else p }

/-- The only frame on its way, due and with room in its target's q3, goes there. -/
theorem exec_scaleFrameDelivery_one {s : State} {q : Nat} {r : FrameOut} (hfr : (s.kiln q).frames = [r])
    (hat : r.at' ≤ s.now) (hv : (s.core (quadCore q r.target)).vdev = r.vdev)
    (hroom : (s.ksetOf (quadCore q r.target) r.level).q3.length < 2) :
    exec (.scaleFrameDelivery q) s = .next ((s.onKiln q fun k => { k with frames := [] }).onCore (quadCore q r.target)
      fun c => c.takeFrame r) := by
  simp only [exec_scaleFrameDelivery, execScaleFrameDelivery, hfr, takeFirst, hat, hv, hroom, decide_true,
    beq_self_eq_true, Bool.and_self, if_true]
  rfl

theorem scaleFrameDelivery_delivers {s : State} {q : Nat} {r : FrameOut} (hfr : (s.kiln q).frames = [r])
    (hat : r.at' ≤ s.now) (hv : (s.core (quadCore q r.target)).vdev = r.vdev)
    (hroom : (s.ksetOf (quadCore q r.target) r.level).q3.length < 2) :
    ∃ t, exec (.scaleFrameDelivery q) s = .next t ∧ (t.kiln q).frames = [] ∧
      (t.ksetOf (quadCore q r.target) r.level).q3 = (s.ksetOf (quadCore q r.target) r.level).q3 ++ [r.frame] := by
  refine ⟨_, exec_scaleFrameDelivery_one hfr hat hv hroom, ?_, ?_⟩
  · rw [kiln_onCore, onKiln_kiln]
  · rw [ksetOf_onCore rfl]
    rfl

/-- Settles O47: each clause by the lemma above on its step; a KMMA's elements, heads and count by what a product that
passes its check leaves of its state set. -/
theorem kilnCommandsRetireStepAndDeliver : Obligations.KilnCommandsRetireStepAndDeliver := by
  intro s quad f v r o k
  refine ⟨kilnCommandRetire_pushes, kilnCommandRetire_writes, ?product, solveStepComplete_steps,
    scaleFrameDelivery_delivers⟩
  case product =>
    intro ia ib fa fb mode p hins hprod hne hf hm hup hsucc old hcheck A B acc base
    obtain ⟨hflight, hset⟩ := retireFlight_product hf hprod hup hsucc hcheck
    rw [hins] at hprod
    have hia : p.ia = ia := by obtain rfl := Option.some.inj hprod; rfl
    have hib : p.ib = ib := by obtain rfl := Option.some.inj hprod; rfl
    refine ⟨_, exec_kilnCommandRetire_one hf hm, (flight_endFiring ..).trans hflight, ?_⟩
    rw [ksetOf_endFiring, hset]
    refine ⟨fun i j hi hj => ?elements, fun i hi => ?heads, ?count⟩
    case elements => rw [popHeads_k0At, setCmds_k0At, product_k0At _ _ _ _ _ _ _ hi hj, productAt_kmma hprod]
    case heads => subst hia hib; rw [popHeads_head _ hne hi, setCmds_ring, product_ring]
    case count => rw [popHeads_cmds]; rfl

end Sys2Proof.Machine

/-! PROOFS. Memory stays canonical (R117, log entry 1): reset, a core's turn, the agenda's turns, and the step. -/

namespace Sys2Proof.Machine

/-- Settles O2. -/
theorem resetMemoryIsCanonical : Obligations.ResetMemoryIsCanonical :=
  ⟨memOk_State_reset, fun _ => rfl⟩

/-- What a core does at a boundary, in the order of R418, keeps memory canonical. -/
theorem memOk_State_coreTurn {s : State} (h : s.memOk) : OutOk s.coreTurn := by
  have overflow : (if s.overflowRead.me.evs.due = true then s.overflowRead.spend s.overflowRead.cur 1
      else s.overflowRead).memOk :=
    memOk_ite (memOk_State_spend (memOk_State_overflowRead h)) (memOk_State_overflowRead h)
  exact outOk_ite (outOk_next overflow) <|
    outOk_ite (memOk_State_instrTurn h) <|
    outOk_ite (outOk_next (memOk_State_tick h)) <|
    outOk_ite (memOk_tickOut (memOk_execCarveOutApply h)) <|
    outOk_ite (memOk_tickOut (memOk_execDeadlineExpiry h)) <|
    outOk_ite (outOk_next (memOk_State_spend (memOk_State_onMe h))) <|
    outOk_ite (memOk_execBoundaryTrap h) <|
    outOk_ite (memOk_execPushFrame h) (outOk_next (memOk_State_spend h))

/-- A turn that the agenda names keeps memory canonical. -/
theorem memOk_State_takeTurn {s : State} (t : Turn) (h : s.memOk) : OutOk (s.takeTurn t) := by
  cases t with
  | core ep => exact outOk_ite (outOk_next h) (outOk_fault _)
  | ev i => exact outOk_ite (memOk_acted (memOk_exec h)) (outOk_next h)
  | pfWrite a n v => exact outOk_next (memOk_State_pfWrite h)
  | pfRead a n => exact outOk_next (memOk_State_pfRead h)
  | farSpad ep size => exact outOk_next (memOk_State_tellSpad h)
  | farTab chip v i e => exact outOk_next (memOk_State_tellTab h)
  | wire p k => exact outOk_next h
  | linkAck p => exact outOk_next (memOk_State_linkAck h)
  | pasid v on => exact outOk_next (memOk_State_onVdev h)
  | hostMem a bs => exact outOk_next (memOk_State_hostMem h)
  | sram a double => exact outOk_next (memOk_State_sramError h)
  | pass n => exact outOk_next (memOk_State_tick h)

/-- A step is a cycle that passes, a core's turn or a turn of the agenda. -/
theorem memOk_State_advance {s : State} (h : s.memOk) : OutOk s.advance := by
  unfold State.advance
  split
  case h_1 => exact outOk_ite (outOk_next (memOk_State_tick h)) (memOk_State_coreTurn h)
  case h_2 t rest _ =>
    exact outOk_ite (outOk_next (memOk_State_tick h)) (outOk_ite (memOk_State_takeTurn t h) (outOk_next h))

/-- Settles O3: whatever the step is, each operation it is made of keeps the canonical form. -/
theorem everyStepKeepsMemoryCanonical : Obligations.EveryStepKeepsMemoryCanonical :=
  fun _ t h hstep => (memOk_State_advance h).of t hstep

end Sys2Proof.Machine

/-! PROOFS. Writes at a home whose handler entry is poisoned (R144 to R148, R366, R407, R410). A write to an overflow line posts
the directory-overflow handler, whose entry the part reads from the trap table. Where a word of that entry is poisoned the
read is a machine check, and its record goes to the error log's ring: memory outside the written bytes. -/

namespace Sys2Proof.Machine

/-- An outcome that goes on to a state with a property. -/
def reaches (o : Out) (p : State → Bool) : Bool :=
  match o with
  | .next t => p t
  | _ => false

theorem of_reaches {o : Out} {p : State → Bool} {t : State} (h : reaches o p = true) (ht : o = .next t) : p t = true := by
  subst ht
  exact h

/-- The line at address 0, held by slice 0 with every sector valid, its sharers beyond what its directory holds. -/
def overflowLine : L2Line :=
  { slice := 0, set := 0, way := 0, line := 0, owner := 0, mkey := noKey, valid := 15, dirty := 0, data := [], pois := [],
    sharers := [], ovf := true, age := 0 }

/-- That line at the home core 0, which runs a device whose trap table stands at address 0; the first word of entry 32, at
address 512, is poisoned, and the error log is on with its ring at address 4096. -/
def poisonedEntry : State :=
  { State.reset with
    cores := [(0, { Core.reset 0 with on := true })], l2 := [overflowLine], poison := [512 / 8],
    mmio := [(errBase / 8, 4096 + 1)] }

/-- A published record of one byte at address 0, from core 1. -/
def publishedByte : LogRec :=
  { addr := 0, mask := 1, data := 7, csel := 0, home := 0, set := 0, owner := .stamped 1, spilled := false, pois := false }

def publishedPkt : Pkt :=
  { src := 1, dst := 0, cls := 3, sseq := 0, vdev := 0, gen := 0, fkey := 0, len := 24, redok := false,
    body := .rcd publishedByte, pos := 0, numbered := true, link := none }

/-- That record delivered at its home. -/
def publishedThere : State := { poisonedEntry with inbox := [(0, [publishedPkt])] }

/-- The record's compaction logs the machine check of the entry: class 3, in the ring's first byte. -/
theorem compaction_logs_poisoned_entry :
    reaches (exec (.compaction 0) publishedThere) (fun t => t.readByte 4096 == 3) = true := by decide +kernel

/-- A host write of one byte at address 0 logs it too. -/
theorem hostWrite_logs_poisoned_entry :
    reaches (exec (.hostCxlMemWrite 0 [1] false) poisonedEntry) (fun t => t.readByte 4096 == 3) = true := by decide +kernel

/-- Refutes O55: the compaction of a record at `publishedThere` writes the error log's ring, whose bytes are none of the
record's. -/
theorem not_homesApplyWhatReachesThem : ¬ Obligations.HomesApplyWhatReachesThem := by
  unfold Obligations.HomesApplyWhatReachesThem
  intro h
  obtain ⟨-, compaction, -⟩ := h publishedThere 0 publishedPkt [] rfl rfl (by simp)
  obtain ⟨t, ht, -, hframe, -⟩ := (compaction publishedByte 1 rfl rfl rfl).2 (by decide +kernel) (.inl rfl)
  have hlogged : t.readByte 4096 = 3 := beq_iff_eq.1 (of_reaches compaction_logs_poisoned_entry ht)
  have hkept : t.readByte 4096 = 0 :=
    (hframe 4096 fun i hi _ => by show 4096 ≠ 0 + i; omega).trans (by decide +kernel)
  exact absurd (hlogged.symm.trans hkept) (by decide)

/-- Refutes O53: the host's write of one byte at `poisonedEntry` writes the error log's ring, outside that byte. -/
theorem not_theHostReachesMemoryAndTranslations : ¬ Obligations.TheHostReachesMemoryAndTranslations := by
  unfold Obligations.TheHostReachesMemoryAndTranslations
  intro h
  obtain ⟨-, write, -⟩ := h poisonedEntry 0 0 [1]
  have hpass : (poisonedEntry.ingress 0 1).1 = true := by decide +kernel
  obtain ⟨t, ht, -, hframe⟩ :=
    (write rfl (by decide +kernel) rfl (poisonedEntry.ingress 0 1).2 (Prod.ext hpass rfl)).2 (by decide +kernel) (.inl rfl)
  have hlogged : t.readByte 4096 = 3 := beq_iff_eq.1 (of_reaches hostWrite_logs_poisoned_entry ht)
  have hkept : t.readByte 4096 = 0 := (hframe 4096 (.inr (by decide))).trans (by decide +kernel)
  exact absurd (hlogged.symm.trans hkept) (by decide)

end Sys2Proof.Machine

/-! PROOFS. Work beneath the cores: what slices, arbiters, walks and the error log do for an access leaves of every core all
that its tasks hold (R129, R144 to R148, R337, R361, R410). One lemma for each operation, in the order in which they call one
another. -/

namespace Sys2Proof.Machine

/-- The part of a core that work beneath it leaves: all but its ready records with their counts, its event counters, its
saved contexts, its cached lines and translations, and the timers of its banks. -/
def Core.ownPart (c : Core) : Core :=
  { c with ready := [], stampN := 0, pseq := 0, evs := Evs.reset, saved := [], utlb := [], l1 := [],
           bankAt := Vector.replicate 4 0 }

/-- `t` is `s` after work beneath the cores: the same part and core, and each core keeps its own part. -/
structure State.Beneath (s t : State) : Prop where
  cur : t.cur = s.cur
  chip : t.chip = s.chip
  core : ∀ ep, (t.core ep).ownPart = (s.core ep).ownPart

namespace State.Beneath

variable {s t u : State}

theorem refl (s : State) : s.Beneath s := ⟨rfl, rfl, fun _ => rfl⟩

theorem trans (h : s.Beneath t) (g : t.Beneath u) : s.Beneath u :=
  ⟨g.cur.trans h.cur, g.chip.trans h.chip, fun ep => (g.core ep).trans (h.core ep)⟩

theorem of_cores (hcur : t.cur = s.cur := by rfl) (hcores : t.cores = s.cores := by rfl)
    (hchip : t.chip = s.chip := by rfl) : s.Beneath t :=
  ⟨hcur, hchip, fun ep => by rw [State.core, hcores]; rfl⟩

theorem of_eq (h : s.Beneath t) (hcur : u.cur = t.cur := by rfl) (hcores : u.cores = t.cores := by rfl)
    (hchip : u.chip = t.chip := by rfl) : s.Beneath u := h.trans (of_cores hcur hcores hchip)

theorem setCore {ep : Nat} {c : Core} (h : c.ownPart = (s.core ep).ownPart) : s.Beneath (s.setCore ep c) := by
  refine ⟨rfl, rfl, fun e => ?_⟩
  by_cases he : e = ep
  · subst he
    rw [core_setCore, h]
  · rw [core_setCore_other _ _ _ _ he]

theorem onCore {ep : Nat} {f : Core → Core} (h : ∀ c, (f c).ownPart = c.ownPart) : s.Beneath (s.onCore ep f) :=
  setCore (h _)

theorem ite {c : Prop} [Decidable c] (h : s.Beneath t) (g : s.Beneath u) : s.Beneath (if c then t else u) := by
  split <;> assumption

theorem foldl {β : Type} {l : List β} {f : State → β → State} (hf : ∀ t b, State.Beneath t (f t b)) (s : State) :
    s.Beneath (l.foldl f s) := by
  induction l generalizing s with
  | nil => exact refl s
  | cons b l ih => exact (hf s b).trans (ih _)

/-! ### What a core keeps -/

theorem me (h : s.Beneath t) : t.me.ownPart = s.me.ownPart := by
  rw [State.me, h.cur]
  exact h.core s.cur

theorem frame (h : s.Beneath t) : t.frame = s.frame := (congrArg Core.run h.me :)

theorem x (h : s.Beneath t) (r : XReg) : t.x r = s.x r := by rw [State.x, h.frame]; rfl

theorem csr (h : s.Beneath t) : t.me.csr = s.me.csr := (congrArg Core.csr h.me :)

theorem under (h : s.Beneath t) : t.me.under = s.me.under := (congrArg Core.under h.me :)

theorem instret (h : s.Beneath t) : t.me.instret = s.me.instret := (congrArg Core.instret h.me :)

/-! ### Memory and the error log -/

theorem writeBytes (s : State) (pa : Nat) (bs : List Byte) : s.Beneath (s.writeBytes pa bs) := by
  obtain ⟨_, _, _, h⟩ := writeBytes_frame bs s pa
  rw [h]
  exact of_cores

theorem report (s : State) (e : ErrRec) : s.Beneath (s.report e) := by
  obtain ⟨_, _, _, _, _, h⟩ := report_frame s e
  rw [h]
  exact of_cores

theorem mergeHit (s : State) (k : Nat) : s.Beneath (s.mergeHit k) := by
  unfold State.mergeHit
  split
  · exact refl s
  · exact ite (writeBytes ..) (refl s)

theorem onSag (s : State) (k : Nat) (f : Saggar → Saggar) : s.Beneath (s.onSag k f) := of_cores

theorem machineCheck (s : State) (ep src code addr detail pc : Nat) :
    s.Beneath (s.machineCheck ep src code addr detail pc) := by
  unfold State.machineCheck
  dsimp only
  split
  · exact report ..
  · split
    · exact mergeHit ..
    · exact (report ..).trans (onSag ..)

theorem eccStep (owner : Nat) (s : State) (e : Nat × Bool) : s.Beneath (eccStep owner s e) := by
  unfold Machine.eccStep
  extract_lets r t
  have hlog : s.Beneath (t.report r) := trans of_cores (report t r)
  exact ite hlog (hlog.of_eq)

theorem readEcc (s : State) (sector owner : Nat) : s.Beneath (s.readEcc sector owner) := by
  rw [readEcc_eq_foldl]
  exact foldl (fun t e => eccStep owner t e) s

theorem scanEcc (s : State) (lo n owner : Nat) : s.Beneath (s.scanEcc lo n owner) := foldl (fun _ _ => readEcc ..) s

theorem readEntry (s : State) (ep e : Nat) : s.Beneath (s.readEntry ep e) :=
  ite ((scanEcc ..).trans (machineCheck ..)) (scanEcc ..)

theorem rekey (s : State) (key sector : Nat) : s.Beneath (s.rekey key sector) := by
  unfold State.rekey
  refine ite (refl s) ?_
  extract_lets s1
  have hopen : s.Beneath s1 := ite of_cores (refl s)
  split
  · exact hopen.of_eq
  · exact hopen

theorem writeKeyed (s : State) (key pa : Nat) (bs : List Byte) : s.Beneath (s.writeKeyed key pa bs) :=
  (foldl (fun _ _ => rekey ..) s).trans (writeBytes ..)

/-! ### Posts by the part -/

theorem saveReady (s : State) (v ep : Nat) (l : List Ready) (inj : List TaskRec) : s.Beneath (s.saveReady v ep l inj) :=
  (((writeKeyed ..).trans (writeKeyed ..)).trans (writeKeyed ..)).trans (writeKeyed ..)

theorem putSaved (s : State) (ep v : Nat) (x : Ctx) : s.Beneath (s.putSaved ep v x) :=
  (onCore fun _ => by rfl).trans (saveReady ..)

theorem hwPost (s : State) (ep : Nat) (r : TaskRec) (p : Place) (o l : Bool) : s.Beneath (s.hwPost ep r p o l) := by
  rcases hwPost_cases s ep r p o l with h | ⟨_, h⟩ | ⟨_, _, _, h⟩
  · rw [h]; exact refl s
  · rw [h]; exact setCore rfl
  · rw [h]; exact (setCore (by rfl)).trans (putSaved ..)

theorem overflowPost (s : State) (ep : Nat) : s.Beneath (s.overflowPost ep) :=
  ite (refl s) (ite (setCore (by rfl)) (setCore (by rfl)))

theorem freeLatch (s : State) (ep : Nat) : s.Beneath (s.freeLatch ep) := of_cores

theorem latchPost (s : State) (l : Latch) (v a0 a1 a2 a3 : Nat) : s.Beneath (s.latchPost l v a0 a1 a2 a3) :=
  (readEntry ..).trans (ite (trans of_cores (hwPost ..)) (freeLatch ..))

theorem send (s : State) (p : Pkt) : s.Beneath (s.send p) := of_cores

theorem tell (s : State) (slice : Nat) (cause : Pkt) (eps : List Nat) (b : Body) : s.Beneath (s.tell slice cause eps b) :=
  foldl (fun _ _ => send ..) s

/-! ### Lines, fills and write-backs -/

theorem lcount (s : State) (slice owner ev : Nat) : s.Beneath (s.lcount slice owner ev) := by
  unfold State.lcount
  refine ite (refl s) (foldl (fun t i => ?_) s)
  extract_lets k n t1 t2
  have h1 : t.Beneath t1 := of_cores
  have h2 : t1.Beneath t2 := onCore fun c => rfl
  exact ite (ite (ite ((h1.trans h2).trans (overflowPost ..)) (h1.trans h2)) h1) (refl t)

theorem evict (s : State) (l : L2Line) : s.Beneath (s.evict l) := by
  unfold State.evict
  extract_lets s1 s2 la
  have h1 : s.Beneath s1 := of_cores
  have h2 : s.Beneath s2 := h1.trans (tell ..)
  exact ite (h2.trans (latchPost ..)) h2

theorem hostPoison (s : State) (slice pa owner : Nat) : s.Beneath (s.hostPoison slice pa owner) :=
  ite (foldl (fun _ _ => report ..) s) (refl s)

theorem putSector (s : State) (slice place v pa : Nat) (whole : Bool) : s.Beneath (s.putSector slice place v pa whole) := by
  unfold State.putSector
  extract_lets key who s0 new r
  have h0 : s.Beneath s0 := ite (refl s) ((readEcc ..).trans (hostPoison ..))
  have hr : s0.Beneath r.2 := by
    unfold r
    split
    · exact of_cores
    · split
      · exact refl s0
      · exact evict ..
      · exact refl s0
  refine trans ?_ (lcount ..)
  exact (h0.trans hr).of_eq

theorem writeBack (s : State) (w : WbSector) : s.Beneath (s.writeBack w) := trans of_cores (lcount ..)

theorem makeFill (s : State) (a : Ask) (ev : Option Nat) : s.Beneath (s.makeFill a ev) := by
  unfold State.makeFill
  split
  · exact refl s
  · dsimp only
    split
    · exact (putSector ..).trans (lcount ..)
    · exact putSector ..

theorem arbGrant (s : State) (kind unit : Nat) : s.Beneath (s.arbGrant kind unit) := by
  unfold State.arbGrant
  dsimp only
  split
  · exact refl s
  · split
    · exact trans of_cores (makeFill ..)
    · split
      · exact trans of_cores (writeBack ..)
      · exact of_cores

theorem ask (s : State) (a : Ask) : s.Beneath (s.ask a) := ite (refl s) of_cores

theorem touch (s : State) (slice place pa : Nat) : s.Beneath (s.touch slice place pa) := by
  unfold State.touch
  split
  · exact of_cores
  · exact refl s

theorem bring (s : State) (slice place v pa : Nat) (whole : Bool) : s.Beneath (s.bring slice place v pa whole) := by
  unfold State.bring
  extract_lets want got t f g
  have ht : s.Beneath t := trans of_cores (touch ..)
  have hg : s.Beneath g := (ask ..).trans (arbGrant ..)
  have hf : s.Beneath ({ g with asks := g.asks.erase got }.touch slice place pa) :=
    (hg.of_eq).trans (touch ..)
  exact ite (ite ht (ht.trans (lcount ..))) (ite (ite (putSector ..) (refl s)) (ite hf hg))

/-! ### Walks and translations -/

theorem reach (s : State) (v pa : Nat) : s.Beneath (s.reach v pa).2 := by
  unfold State.reach
  split
  · exact bring ..
  · exact refl s

theorem reachWalk (v va fuel : Nat) (s : State) (lvl tbl : Nat) : s.Beneath (s.reachWalk v va fuel lvl tbl).2 := by
  induction fuel generalizing s lvl tbl with
  | zero => exact refl s
  | succ fuel ih =>
    unfold State.reachWalk
    dsimp only
    split
    · exact (reach ..).trans (ih ..)
    · exact reach ..

theorem cache (s : State) (ep : Nat) (t : TlbEntry) : s.Beneath (s.cache ep t) :=
  (onCore (f := fun c => { c with utlb := cacheAdd c.utlb t 16 }) fun _ => rfl).of_eq

theorem lookup (s : State) (k : Asker) (va n : Nat) (p : Perm) : s.Beneath (s.lookup k va n p).2 := by
  unfold State.lookup
  split
  · exact refl s
  split
  · split
    · split <;> exact refl s
    · exact refl s
  split
  · exact refl s
  split
  · exact onCore (f := fun c => { c with utlb := cacheAdd c.utlb _ 16 }) fun _ => rfl
  split
  · exact cache ..
  · split
    · split
      · split
        · split
          · exact of_cores
          · exact refl s
        · exact of_cores
      · exact refl s
    · exact refl s
  · exact refl s
  · exact refl s

theorem translate (s : State) (k : Asker) (va n : Nat) (p : Perm) : s.Beneath (s.translate k va n p).2 := by
  unfold State.translate
  split
  · exact lookup ..
  · dsimp only
    split
    · exact (reachWalk ..).trans (lookup ..)
    · exact reachWalk ..

theorem of_translate {k : Asker} {va n : Nat} {p : Perm} {tg : Target} (h : s.translate k va n p = (tg, t)) :
    s.Beneath t := by
  have := translate s k va n p
  rwa [h] at this

theorem wake (s : State) (srcs : List XReg) (dst : XReg) : s.Beneath (s.wake srcs dst) := setCore rfl

end State.Beneath

end Sys2Proof.Machine

/-! PROOFS. The value of loaded bytes (R192): each form of load and what it makes of its n little-endian bytes. -/

namespace Sys2Proof.Machine

/-- The little-endian bytes of a place, as a number of their whole width. -/
def littleEndian (bs : List Byte) : BitVec (8 * bs.length) := BitVec.ofNat _ (leNat bs)

theorem extend_unsigned (bs : List Byte) : extend bs false = (littleEndian bs).zeroExtend 64 := by
  have h : leNat bs < 2 ^ (8 * bs.length) := by
    have := leNat_lt bs
    rwa [Nat.pow_mul]
  apply BitVec.eq_of_toNat_eq
  simp [extend, littleEndian, BitVec.zeroExtend, Nat.mod_eq_of_lt h]

theorem extend_signed (bs : List Byte) (h8 : bs.length ≤ 8) :
    extend bs true = (littleEndian bs).signExtend 64 := by
  have hlt : leNat bs < 2 ^ (8 * bs.length) := by
    have := leNat_lt bs
    rwa [Nat.pow_mul]
  have hmsb : (littleEndian bs).msb = decide (2 ^ (8 * bs.length - 1) ≤ leNat bs) := by
    simp [BitVec.msb_eq_decide, littleEndian, Nat.mod_eq_of_lt hlt]
  have hw : 2 ^ (8 * bs.length) ≤ 2 ^ 64 := Nat.pow_le_pow_right (by decide) (by omega)
  apply BitVec.eq_of_toNat_eq
  rw [BitVec.toNat_signExtend, hmsb]
  have hv : (littleEndian bs).toNat = leNat bs := by simp [littleEndian, Nat.mod_eq_of_lt hlt]
  rw [BitVec.toNat_setWidth, hv, Nat.mod_eq_of_lt (by omega : leNat bs < 2 ^ 64)]
  by_cases hs : 2 ^ (8 * bs.length - 1) ≤ leNat bs
  · simp only [extend, hs, decide_true, Bool.and_self, if_true, BitVec.toNat_ofNat]
    omega
  · simp only [extend, hs, decide_false, Bool.and_false, Bool.false_eq_true, if_false, BitVec.toNat_ofNat]
    omega

/-- `v` is what a load of n bytes makes of them. -/
def Loaded (n : Nat) (signed : Bool) (v : (Nat → Byte) → Word) : Prop :=
  ∀ b, extend ((List.range n).map b) signed = v b

theorem littleEndian_one (b : Byte) : littleEndian [b] = b := by
  apply BitVec.eq_of_toNat_eq
  simp [littleEndian, leNat]

theorem littleEndian_cons (b : Byte) (bs : List Byte) :
    littleEndian (b :: bs) = (littleEndian bs ++ b : BitVec (8 * bs.length + 8)) := by
  have hlt : leNat bs < 2 ^ (8 * bs.length) := by
    have := leNat_lt bs
    rwa [Nat.pow_mul]
  have hb := b.isLt
  apply BitVec.eq_of_toNat_eq
  have hcons : (littleEndian (b :: bs)).toNat = (b.toNat + 256 * leNat bs) % 2 ^ (8 * bs.length + 8) :=
    BitVec.toNat_ofNat ..
  have hv : (littleEndian bs).toNat = leNat bs := by simp [littleEndian, Nat.mod_eq_of_lt hlt]
  rw [hcons, BitVec.toNat_append, hv, Nat.shiftLeft_eq, Nat.mul_comm (leNat bs), ← Nat.two_pow_add_eq_or_of_lt hb,
    Nat.mod_eq_of_lt (by rw [Nat.pow_add]; omega)]
  omega

theorem loaded_byte : Loaded 1 true (fun b => (b 0).signExtend 64) := fun b => by
  rw [extend_signed _ (by simp)]
  exact congrArg (BitVec.signExtend 64) (littleEndian_one (b 0))

theorem loaded_byteU : Loaded 1 false (fun b => (b 0).zeroExtend 64) := fun b => by
  rw [extend_unsigned]
  exact congrArg (BitVec.zeroExtend 64) (littleEndian_one (b 0))

theorem littleEndian_two (b0 b1 : Byte) : littleEndian [b0, b1] = b1 ++ b0 := by
  rw [littleEndian_cons]
  exact congrArg (· ++ b0) (littleEndian_one b1)

theorem littleEndian_four (b0 b1 b2 b3 : Byte) : littleEndian [b0, b1, b2, b3] = b3 ++ b2 ++ b1 ++ b0 := by
  rw [littleEndian_cons, littleEndian_cons]
  exact congrArg (fun w : BitVec 16 => w ++ b1 ++ b0) (littleEndian_two b2 b3)

theorem littleEndian_eight (b0 b1 b2 b3 b4 b5 b6 b7 : Byte) :
    littleEndian [b0, b1, b2, b3, b4, b5, b6, b7] = b7 ++ b6 ++ b5 ++ b4 ++ b3 ++ b2 ++ b1 ++ b0 := by
  rw [littleEndian_cons, littleEndian_cons, littleEndian_cons, littleEndian_cons]
  exact congrArg (fun w : BitVec 32 => w ++ b3 ++ b2 ++ b1 ++ b0) (littleEndian_four b4 b5 b6 b7)

theorem loaded_half : Loaded 2 true (fun b => (b 1 ++ b 0).signExtend 64) := fun b => by
  rw [extend_signed _ (by simp)]
  exact congrArg (BitVec.signExtend 64) (littleEndian_two (b 0) (b 1))

theorem loaded_halfU : Loaded 2 false (fun b => (b 1 ++ b 0).zeroExtend 64) := fun b => by
  rw [extend_unsigned]
  exact congrArg (BitVec.zeroExtend 64) (littleEndian_two (b 0) (b 1))

theorem loaded_word : Loaded 4 true (fun b => (b 3 ++ b 2 ++ b 1 ++ b 0).signExtend 64) := fun b => by
  rw [extend_signed _ (by simp)]
  exact congrArg (BitVec.signExtend 64) (littleEndian_four (b 0) (b 1) (b 2) (b 3))

theorem loaded_wordU : Loaded 4 false (fun b => (b 3 ++ b 2 ++ b 1 ++ b 0).zeroExtend 64) := fun b => by
  rw [extend_unsigned]
  exact congrArg (BitVec.zeroExtend 64) (littleEndian_four (b 0) (b 1) (b 2) (b 3))

theorem loaded_double : Loaded 8 false (fun b => b 7 ++ b 6 ++ b 5 ++ b 4 ++ b 3 ++ b 2 ++ b 1 ++ b 0) := fun b => by
  rw [extend_unsigned]
  exact (BitVec.setWidth_eq _).trans (littleEndian_eight (b 0) (b 1) (b 2) (b 3) (b 4) (b 5) (b 6) (b 7))

/-! ### Reads of n bytes, by their bytes -/

theorem readBytes_eq_map (s : State) (p n : Nat) : s.readBytes p n = (List.range n).map (fun k => s.readByte (p + k)) := by
  induction n generalizing p with
  | zero => rfl
  | succ n ih =>
    rw [State.readBytes, ih, List.range_succ_eq_map, List.map_cons, List.map_map]
    simp [Function.comp_def, Nat.add_assoc, Nat.add_comm 1]

theorem lineBytes_eq_map (l : L1Line) (p n : Nat) : l.bytes p n = (List.range n).map (fun k => tget l.data (p + k) 0) := by
  induction n generalizing p with
  | zero => rfl
  | succ n ih =>
    rw [L1Line.bytes, ih, List.range_succ_eq_map, List.map_cons, List.map_map]
    simp [Function.comp_def, Nat.add_assoc, Nat.add_comm 1]

theorem leBytes_eq_map (v n : Nat) :
    leBytes n v = (List.range n).map (fun k => BitVec.ofNat 8 (v / 2 ^ (8 * k) % 256)) := by
  induction n generalizing v with
  | zero => rfl
  | succ n ih =>
    rw [leBytes, ih, List.range_succ_eq_map, List.map_cons, List.map_map]
    congr 1
    · apply BitVec.eq_of_toNat_eq; simp
    · refine List.map_congr_left fun k _ => ?_
      rw [Function.comp_apply, Nat.div_div_eq_div_mul, Nat.mul_succ, Nat.pow_add, Nat.mul_comm]

theorem take_drop_eq_map {bs : List Byte} {lo n : Nat} (h : lo + n ≤ bs.length) :
    (bs.drop lo).take n = (List.range n).map (fun k => bs.getD (lo + k) 0) := by
  refine List.ext_getElem (by simp; omega) fun k _ hk => ?_
  have hin : lo + k < bs.length := by simp at hk; omega
  simp [List.getElem?_eq_getElem hin]

end Sys2Proof.Machine

/-! PROOFS. An instruction's own part that writes one register: the operations that leave every other register, the system
registers, the frames beneath, the count of instructions and memory, and what follows for the retired state (R8, R87). -/

namespace Sys2Proof.Machine

/-- `u` is `t` with the register rd changed, and of the rest nothing that a task's registers and memory hold. -/
structure State.OnlyX (rd : XReg) (t u : State) : Prop where
  cur : u.cur = t.cur
  pc : u.frame.pc = t.frame.pc
  x : ∀ r, r ≠ rd → u.x r = t.x r
  csr : u.me.csr = t.me.csr
  under : u.me.under = t.me.under
  instret : u.me.instret = t.me.instret
  mem : ∀ p, u.readByte p = t.readByte p

namespace State.OnlyX

variable {rd : XReg} {s t u v : State}

theorem refl (t : State) : t.OnlyX rd t := ⟨rfl, rfl, fun _ _ => rfl, rfl, rfl, rfl, fun _ => rfl⟩

theorem trans (h : t.OnlyX rd u) (g : u.OnlyX rd v) : t.OnlyX rd v where
  cur := g.cur.trans h.cur
  pc := g.pc.trans h.pc
  x r hr := (g.x r hr).trans (h.x r hr)
  csr := g.csr.trans h.csr
  under := g.under.trans h.under
  instret := g.instret.trans h.instret
  mem p := (g.mem p).trans (h.mem p)

/-- Work beneath the cores that keeps memory. -/
theorem of_beneath (h : t.Beneath u) (hmem : ∀ p, u.readByte p = t.readByte p) : t.OnlyX rd u where
  cur := h.cur
  pc := congrArg Frame.pc h.frame
  x r _ := h.x r
  csr := h.csr
  under := h.under
  instret := h.instret
  mem := hmem

theorem onMe {f : Core → Core} (hpc : (f t.me).run.pc = t.me.run.pc) (hx : ∀ r, r ≠ rd → (f t.me).run.x r = t.me.run.x r)
    (hcsr : (f t.me).csr = t.me.csr := by rfl) (hunder : (f t.me).under = t.me.under := by rfl)
    (hinstret : (f t.me).instret = t.me.instret := by rfl) : t.OnlyX rd (t.onMe f) where
  cur := rfl
  pc := by rw [onMe_frame]; exact hpc
  x r hr := by rw [State.x, onMe_frame]; exact hx r hr
  csr := by rw [onMe_me]; exact hcsr
  under := by rw [onMe_me]; exact hunder
  instret := by rw [onMe_me]; exact hinstret
  mem _ := rfl

/-- A change of any core that keeps its running frame. -/
theorem setCore {ep : Nat} {c : Core} (hrun : c.run = (t.core ep).run) (hcsr : c.csr = (t.core ep).csr)
    (hunder : c.under = (t.core ep).under) (hinstret : c.instret = (t.core ep).instret) : t.OnlyX rd (t.setCore ep c) := by
  by_cases he : ep = t.cur
  · subst he
    exact onMe (f := fun _ => c) (congrArg Frame.pc hrun) (fun r _ => congrArg (Frame.x · r) hrun) hcsr hunder hinstret
  · have hme : (t.setCore ep c).me = t.me := core_setCore_other _ _ _ _ fun h => he h.symm
    exact ⟨rfl, congrArg (fun d => d.run.pc) hme, fun r _ => congrArg (fun d => d.run.x r) hme, congrArg Core.csr hme,
      congrArg Core.under hme, congrArg Core.instret hme, fun _ => rfl⟩

theorem onCore {ep : Nat} {f : Core → Core} (hrun : ∀ c, (f c).run = c.run) (hcsr : ∀ c, (f c).csr = c.csr)
    (hunder : ∀ c, (f c).under = c.under) (hinstret : ∀ c, (f c).instret = c.instret) : t.OnlyX rd (t.onCore ep f) :=
  setCore (hrun _) (hcsr _) (hunder _) (hinstret _)

theorem ite {c : Prop} [Decidable c] (h : s.OnlyX rd t) (g : s.OnlyX rd u) : s.OnlyX rd (if c then t else u) := by
  split <;> assumption

theorem setX (t : State) (rd : XReg) (v : Word) : t.OnlyX rd (t.setX rd v) := by
  unfold State.setX State.onFrame
  exact onMe (Frame.setX_pc ..) fun _ hr => Frame.x_setX_other _ _ _ _ hr

theorem watch (t : State) (va : Word) (n kind : Nat) : t.OnlyX rd (t.watch va n kind) := by
  unfold State.watch
  split
  · unfold State.onFrame
    exact onMe rfl fun _ _ => rfl
  · exact refl t

theorem onKiln (t : State) (q : Nat) (f : Kiln → Kiln) : t.OnlyX rd (t.onKiln q f) := of_beneath .of_cores fun _ => rfl

theorem send (t : State) (p : Pkt) : t.OnlyX rd (t.send p) := of_beneath (Beneath.send t p) fun _ => rfl

theorem deliver (t : State) (ep : Nat) (p : Pkt) : t.OnlyX rd (t.deliver ep p) := of_beneath .of_cores fun _ => rfl

theorem sendSpad (t : State) (ep dst : Nat) (b : Body) : t.OnlyX rd (t.sendSpad ep dst b) := by
  unfold State.sendSpad
  dsimp only
  split
  · exact deliver ..
  · exact send ..

theorem l1Touch (t : State) (ep home line : Nat) : t.OnlyX rd (t.l1Touch ep home line) := by
  unfold State.l1Touch
  exact onCore (fun _ => rfl) (fun _ => rfl) (fun _ => rfl) fun _ => rfl

theorem askFill (t : State) (ep id : Nat) (x : Xlat) : t.OnlyX rd (t.askFill ep id x) := by
  unfold State.askFill
  refine trans ?_ (send ..)
  exact onCore (fun _ => rfl) (fun _ => rfl) (fun _ => rfl) fun _ => rfl

theorem overflowPost (t : State) (ep : Nat) : t.OnlyX rd (t.overflowPost ep) :=
  ite (refl t) (ite (setCore rfl rfl rfl rfl) (setCore rfl rfl rfl rfl))

theorem countAt (t : State) (ep lvl ev n : Nat) : t.OnlyX rd (t.countAt ep lvl ev n) := by
  unfold State.countAt
  extract_lets c hit bump wrap bits evs s1
  have h1 : t.OnlyX rd s1 := setCore rfl rfl rfl rfl
  exact ite (refl t) (ite h1 (ite (h1.trans (overflowPost ..)) h1))

theorem spend (t : State) (ep n : Nat) : t.OnlyX rd (t.spend ep n) := by
  unfold State.spend State.count
  refine trans ?_ (countAt ..)
  exact of_beneath .of_cores fun _ => rfl

theorem checkpoint (t : State) (ep : Nat) : t.OnlyX rd (t.checkpoint ep) := by
  unfold State.checkpoint
  refine trans ?_ (onCore ?_ ?_ ?_ ?_)
  · exact onKiln ..
  all_goals exact fun _ => rfl

theorem ckCycle (t : State) (ep : Nat) : t.OnlyX rd (t.ckCycle ep) := (checkpoint t ep).trans (spend ..)

/-- The state after an own part that writes rd alone, behind work beneath the cores, and its retirement to the next word. -/
theorem goneOn_keepsFrom (hb : s.Beneath t) (ho : t.OnlyX rd u) (hr : u.Retires v (u.frame.pc + 4)) :
    s.goneOn v 4 1 ∧ s.keepsFrom t v rd := by
  refine ⟨⟨?cur, ?pc, ?instret⟩, ?regs, ?csr, ?under, fun p => (Retires.readByte hr p).trans (ho.mem p)⟩
  case cur => rw [Retires.cur hr, ho.cur, hb.cur]
  case pc => rw [Retires.pc hr, ho.pc, hb.frame]
  case instret => rw [Retires.instret hr, ho.instret, hb.instret]
  case regs => exact fun r h => by rw [Retires.x hr, ho.x r h, hb.x]
  case csr => rw [Retires.csr hr, ho.csr, hb.csr]
  case under => rw [Retires.under hr, ho.under, hb.under]

/-- What keeps the state's registers and memory keeps how far it has gone. -/
theorem goneOn (h : s.goneOn u 4 1) (ho : u.OnlyX rd v) : s.goneOn v 4 1 := by
  obtain ⟨hcur, hpc, hret⟩ := h
  exact ⟨ho.cur.trans hcur, ho.pc.trans hpc, ho.instret.trans hret⟩

theorem keepsFrom (h : s.keepsFrom t u rd) (ho : u.OnlyX rd v) : s.keepsFrom t v rd := by
  obtain ⟨hx, hcsr, hunder, hmem⟩ := h
  exact ⟨fun r hr => (ho.x r hr).trans (hx r hr), ho.csr.trans hcsr, ho.under.trans hunder,
    fun p => (ho.mem p).trans (hmem p)⟩

end State.OnlyX

end Sys2Proof.Machine

/-! PROOFS. Loads (R118, R119, R126, R128, R134, R192, R199 to R201, R426): what a load does with each translation of its
address, the bytes that each place gives, and the statement. -/

namespace Sys2Proof.Machine

/-! ### The queue window (R119) -/

@[simp] theorem leBytes_length (n v : Nat) : (leBytes n v).length = n := by simp [leBytes_eq_map]

@[simp] theorem taskRec_bytes_length (r : TaskRec) : r.bytes.length = 64 := by simp [TaskRec.bytes]

theorem queueWindow_length (c : Core) : c.queueWindow.length = 0x1008 := by
  have hrecs : ∀ (l : List TaskRec) (n : Nat),
      ((l.take n).flatMap TaskRec.bytes ++ List.replicate (64 * (n - min n l.length)) (0 : Byte)).length = 64 * n := by
    intro l n
    simp [List.length_flatMap]
    omega
  unfold Core.queueWindow
  extract_lets recs rq
  have h16 := hrecs c.inj 16
  have h32 := hrecs rq 32
  simp only [List.length_append, List.length_replicate, leBytes_length, recs] at h16 h32 ⊢
  omega

theorem classify_ne_queue (s : State) (x : Xlat) (n o : Nat) : s.classify x n ≠ .queue o := by
  unfold State.classify
  dsimp only
  repeat' split
  all_goals exact Target.noConfusion

/-- A leaf leads to a place by the address it makes, or is refused. -/
theorem throughLeaf_cases (s : State) (k : Asker) (t : TlbEntry) (va n : Nat) (p : Perm) :
    (∃ x, s.throughLeaf k t va n p = s.classify x n) ∨ ∃ c, s.throughLeaf k t va n p = .bad c := by
  unfold State.throughLeaf
  dsimp only
  split
  · split
    · exact .inl ⟨_, rfl⟩
    · exact .inr ⟨_, rfl⟩
  split
  · exact .inr ⟨_, rfl⟩
  split
  · exact .inr ⟨_, rfl⟩
  split
  · exact .inr ⟨_, rfl⟩
  split
  · exact .inr ⟨_, rfl⟩
  split
  · exact .inr ⟨_, rfl⟩
  split
  · exact .inr ⟨_, rfl⟩
  · exact .inl ⟨_, rfl⟩

theorem throughLeaf_ne_queue (s : State) (k : Asker) (t : TlbEntry) (va n o : Nat) (p : Perm) :
    s.throughLeaf k t va n p ≠ .queue o := by
  rcases throughLeaf_cases s k t va n p with ⟨x, h⟩ | ⟨c, h⟩
  · rw [h]
    exact classify_ne_queue s x n o
  · rw [h]
    exact Target.noConfusion

theorem window_queue {s : State} {ep va n o : Nat} (h : s.window ep va n = .queue o) : o + n ≤ 0x1008 := by
  unfold State.window at h
  dsimp only at h
  split at h
  · split at h <;> cases h
  split at h
  · split at h
    · split at h <;> cases h
    · cases h
  split at h
  · have := Target.queue.inj h
    omega
  · cases h

theorem lookup_queue {s t : State} {k : Asker} {va n o : Nat} {p : Perm} (h : s.lookup k va n p = (.queue o, t)) :
    o + n ≤ 0x1008 := by
  have hleaf := fun e => throughLeaf_ne_queue s k e va n o p
  have hfst := congrArg Prod.fst h
  unfold State.lookup at hfst
  split at hfst
  · cases hfst
  split at hfst
  · split at hfst
    · next off hw =>
      split at hfst
      · cases hfst
      · rw [Target.queue.inj hfst] at hw
        exact window_queue hw
    · exact window_queue hfst
  split at hfst
  · exact (hleaf _ hfst).elim
  split at hfst
  · exact (hleaf _ hfst).elim
  split at hfst
  · dsimp only at hfst
    exact (hleaf _ hfst).elim
  · repeat' split at hfst
    all_goals cases hfst
  · cases hfst
  · cases hfst

/-- An address that translates to the queue window lies in it whole. -/
theorem translate_queue {s t : State} {k : Asker} {va n o : Nat} {p : Perm} (h : s.translate k va n p = (.queue o, t)) :
    o + n ≤ 0x1008 := by
  unfold State.translate at h
  split at h
  · exact lookup_queue h
  · dsimp only at h
    split at h
    · exact lookup_queue h
    · cases h

/-! ### What a load does with its address (R199 to R201) -/

section Load

variable {w t : State} {rd : XReg} {a : Word} {n : Nat} {signed : Bool} {tg : Target}
  (halign : a.toNat % n = 0) (hcarve : w.carveHolds a.toNat = false) (hwalk : w.walkWaits w.asker a.toNat = false)
include halign hcarve hwalk

theorem load_glob_hit {x : Xlat} {l : L1Line} (htr : w.translate w.asker a.toNat n .r = (.glob x, t))
    (hlock : t.locked w.cur (.glob x) a.toNat n false = false) (hacq : t.me.acqs = [])
    (hl : t.me.l1Find x.home x.pa = some l) (hp : l.pois.contains ((x.pa % 512) / 8) = false) :
    w.load rd a n signed =
      (((t.l1Touch w.cur x.home l.line).setX rd (extend (l.bytes (x.pa % 512) n) signed)).watch a n 1).retire 1 := by
  simp only [State.load, halign, hcarve, hwalk, htr, hlock, hacq, hl, hp, ne_eq, not_true, if_false, Bool.false_eq_true,
    List.isEmpty_nil, Bool.not_true]

theorem load_glob_miss {x : Xlat} (htr : w.translate w.asker a.toNat n .r = (.glob x, t))
    (hlock : t.locked w.cur (.glob x) a.toNat n false = false) (hacq : t.me.acqs = [])
    (hl : t.me.l1Find x.home x.pa = none) :
    w.load rd a n signed = t.startLoad a rd n signed x (fun id u => u.askFill w.cur id x) := by
  simp only [State.load, halign, hcarve, hwalk, htr, hlock, hacq, hl, ne_eq, not_true, if_false, Bool.false_eq_true,
    List.isEmpty_nil, Bool.not_true]

theorem load_spad {e o : Nat} (htr : w.translate w.asker a.toNat n .r = (.spad e o, t))
    (hlock : t.locked w.cur (.spad e o) a.toNat n false = false)
    (hbusy : byArray a.toNat = false ∨ t.arrayBusy w.cur (w.epId e) = false) :
    w.load rd a n signed =
      if e = w.cur then
        (if t.anyPoison (arrayBase e + o) n then t.consume (arrayBase e + o)
         else ((t.setX rd (extend (t.spadBytes e o n) signed)).watch a n 1).retire 1)
      else t.startLoad a rd n signed (arrayXlat w.chip (w.epId e) (arrayBase e + o))
        (fun id u => u.sendSpad w.cur e (.spadLoad id o n)) := by
  have hb : (byArray a.toNat && t.arrayBusy w.cur (w.epId e)) = false := by
    rcases hbusy with h | h <;> simp [h]
  simp only [State.load, halign, hcarve, hwalk, htr, hlock, hb, ne_eq, not_true, if_false, Bool.false_eq_true]

theorem load_spad_locked {e o : Nat} (htr : w.translate w.asker a.toNat n .r = (.spad e o, t))
    (hlock : t.locked w.cur (.spad e o) a.toNat n false = true) : w.load rd a n signed = t.lockTrap a := by
  simp only [State.load, halign, hcarve, hwalk, htr, hlock, ne_eq, not_true, if_false, if_true, Bool.false_eq_true]

theorem load_queue {o : Nat} (htr : w.translate w.asker a.toNat n .r = (.queue o, t)) :
    w.load rd a n signed = ((t.setX rd (extend ((t.me.queueWindow.drop o).take n) signed)).watch a n 1).retire 1 := by
  simp only [State.load, halign, hcarve, hwalk, htr, ne_eq, not_true, if_false, Bool.false_eq_true]

theorem load_mmio {pa : Nat} (htr : w.translate w.asker a.toNat n .r = (.mmio pa, t))
    (hall : mmioAllowed t.frame.sup pa n = true) :
    w.load rd a n signed =
      if t.mmioReady = false then t.stall .mmio
      else ((t.setX rd (extend (leBytes n (t.mmioRead t.frame.sup pa n)) signed)).watch a n 1).retire 1 := by
  simp only [State.load, halign, hcarve, hwalk, htr, hall, ne_eq, not_true, if_false, Bool.false_eq_true, Bool.not_true,
    Bool.not_eq_true']

end Load

/-! ### The outcomes of a load -/

/-- A register written, a watched access noted, and the retirement. -/
theorem gives_of_next {s t u : State} {i : Instr} {rd : XReg} {v a : Word} {n kind cost : Nat} (hb : s.Beneath t)
    (ho : t.OnlyX rd u) (he : exec i s = .next (((u.setX rd v).watch a n kind).retire cost)) :
    ∃ z, exec i s = .next z ∧ s.goneOn z 4 1 ∧ s.keepsFrom t z rd ∧ (rd ≠ 0 → z.x rd = v) := by
  have hret := retire_retires ((u.setX rd v).watch a n kind) cost
  obtain ⟨hgone, hkeeps⟩ := State.OnlyX.goneOn_keepsFrom hb
    ((ho.trans (.setX u rd v)).trans (.watch _ a n kind)) hret
  refine ⟨_, he, hgone, hkeeps, fun h0 => ?_⟩
  have hwatch : ((u.setX rd v).watch a n kind).x rd = (u.setX rd v).x rd := by
    unfold State.watch
    split
    · rw [State.x, onFrame_frame]; rfl
    · rfl
  rw [Retires.x hret, hwatch, State.x, setX_frame, Frame.x_setX, if_neg h0]

theorem isBusy_setBusy {f : Frame} {r : XReg} (h : r ≠ 0) : (f.setBusy r).isBusy r = true := by
  have h' : ¬ r = 0#5 := h
  simp [Frame.setBusy, Frame.isBusy, h', regBit_getLsbD]

theorem x_setBusy_other {f : Frame} {r q : XReg} (h : q ≠ r) : (f.setBusy r).x q = f.x q := by
  by_cases h0 : r = 0#5
  · simp [Frame.setBusy, h0]
  · simp [Frame.setBusy, Frame.x, h0, regBit_getLsbD, h]

theorem setBusy_pc (f : Frame) (r : XReg) : (f.setBusy r).pc = f.pc := by
  unfold Frame.setBusy
  split <;> rfl

/-- The load that a core has under way for rd. -/
def State.newLoad (t : State) (rd : XReg) (n : Nat) (signed : Bool) (x : Xlat) : Load :=
  { id := t.me.nextId, rd := rd, n := n, signed := signed, x := x,
    own := (List.range n).map (fun i => t.ownByte t.cur x.chip (x.pa + i)), pc := t.me.run.pc }

/-- The state with a load under way for rd. -/
def State.loading (t : State) (rd : XReg) (n : Nat) (signed : Bool) (x : Xlat) : State :=
  t.onMe (fun e => { e with loads := e.loads ++ [t.newLoad rd n signed x], nextId := e.nextId + 1, run := e.run.setBusy rd })

theorem startLoad_room {t : State} {va : Word} {rd : XReg} {n : Nat} {signed : Bool} {x : Xlat} {ask : Nat → State → State}
    (h : t.me.loads.length < 4) :
    t.startLoad va rd n signed x ask = ((ask t.me.nextId (t.loading rd n signed x)).watch va n 1).retire 1 := by
  unfold State.startLoad
  rw [if_neg (Nat.not_le.2 h)]
  rfl

theorem onlyX_loading (t : State) (rd : XReg) (n : Nat) (signed : Bool) (x : Xlat) : t.OnlyX rd (t.loading rd n signed x) := by
  unfold State.loading
  exact .onMe (setBusy_pc ..) fun _ hr => x_setBusy_other hr

/-- A watchpoint's note changes the running frame alone, and no register of it. -/
theorem watch_eq (s : State) (va : Word) (n kind : Nat) :
    (∃ p : Frame → Option Word, s.watch va n kind = s.onFrame (fun f => { f with pendWatch := p f })) ∨
      s.watch va n kind = s := by
  unfold State.watch
  split
  · exact .inl ⟨_, rfl⟩
  · exact .inr rfl

theorem watch_loads (s : State) (va : Word) (n kind : Nat) : (s.watch va n kind).me.loads = s.me.loads := by
  obtain ⟨p, h⟩ | h := watch_eq s va n kind <;> rw [h]
  rw [onFrame_me]

theorem watch_isBusy (s : State) (va : Word) (n kind : Nat) (r : XReg) :
    (s.watch va n kind).frame.isBusy r = s.frame.isBusy r := by
  obtain ⟨p, h⟩ | h := watch_eq s va n kind <;> rw [h]
  rw [onFrame_frame]
  rfl

theorem watch_egress (s : State) (va : Word) (n kind : Nat) : (s.watch va n kind).egress = s.egress := by
  obtain ⟨p, h⟩ | h := watch_eq s va n kind <;> rw [h]
  rfl

theorem watch_inbox (s : State) (va : Word) (n kind : Nat) : (s.watch va n kind).inbox = s.inbox := by
  obtain ⟨p, h⟩ | h := watch_eq s va n kind <;> rw [h]
  rfl

/-- What a request of a load leaves of its core: the loads under way and the registers that wait. -/
structure Asks (t u : State) : Prop where
  only : ∀ rd, t.OnlyX rd u
  loads : u.me.loads = t.me.loads
  frame : u.frame = t.frame

/-- A load under way, a watched access noted, and the retirement. -/
theorem waits_of_next {s t : State} {i : Instr} {rd : XReg} {a : Word} {n : Nat} {signed : Bool} {x : Xlat}
    {ask : Nat → State → State} (hb : s.Beneath t) (hroom : t.me.loads.length < 4)
    (hask : Asks (t.loading rd n signed x) (ask t.me.nextId (t.loading rd n signed x)))
    (he : exec i s = .next (t.startLoad a rd n signed x ask)) :
    ∃ z, exec i s = .next z ∧ s.goneOn z 4 1 ∧ s.keepsFrom t z rd ∧ (rd ≠ 0 → z.frame.isBusy rd = true) ∧
      t.newLoad rd n signed x ∈ z.me.loads ∧ z.egress = (ask t.me.nextId (t.loading rd n signed x)).egress ∧
      z.inbox = (ask t.me.nextId (t.loading rd n signed x)).inbox := by
  rw [startLoad_room hroom] at he
  generalize ask t.me.nextId (t.loading rd n signed x) = u at *
  have hret := retire_retires (u.watch a n 1) 1
  obtain ⟨hgone, hkeeps⟩ := State.OnlyX.goneOn_keepsFrom hb
    (((onlyX_loading t rd n signed x).trans (hask.only rd)).trans (.watch _ a n 1)) hret
  refine ⟨_, he, hgone, hkeeps, fun h0 => ?busy, ?load, ?egress, ?inbox⟩
  case busy =>
    rw [Retires.frame_eq hret]
    refine (watch_isBusy u a n 1 rd).trans ?_
    rw [hask.frame, State.loading, onMe_frame]
    exact isBusy_setBusy h0
  case load =>
    rw [Retires.me_eq hret]
    show _ ∈ (u.watch a n 1).me.loads
    rw [watch_loads, hask.loads, State.loading, onMe_me]
    exact List.mem_append_right _ (List.mem_singleton_self _)
  case egress => rw [hret.2]; exact watch_egress ..
  case inbox => rw [hret.2]; exact watch_inbox ..

theorem asks_askFill (t : State) (id : Nat) (x : Xlat) : Asks t (t.askFill t.cur id x) where
  only _ := .askFill ..
  loads := by
    have h : (t.askFill t.cur id x).me = (t.onMe fun c => { c with
      fills := c.fills ++ [{ id := id, home := x.home, sector := x.pa / 128, barred := false }] }).me := rfl
    rw [h, onMe_me]
  frame := by
    have h : (t.askFill t.cur id x).frame = (t.onMe fun c => { c with
      fills := c.fills ++ [{ id := id, home := x.home, sector := x.pa / 128, barred := false }] }).frame := rfl
    rw [h, onMe_frame]
    rfl

theorem mem_insertPkt (dst : Nat) (p : Pkt) (l : List Pkt) : p ∈ insertPkt dst p l := by
  induction l with
  | nil => exact List.mem_singleton_self p
  | cons q l ih =>
    unfold insertPkt
    split
    · exact List.mem_cons_self
    · exact List.mem_cons_of_mem _ ih

/-- A packet delivered stands in the endpoint's inbox. -/
theorem mem_deliver (s : State) (ep : Nat) (p : Pkt) : { p with arr := s.now } ∈ tget (s.deliver ep p).inbox ep [] := by
  rw [State.deliver, tget_tset_same]
  exact mem_insertPkt ..

/-- A request to a core of the own cluster arrives in its inbox. -/
theorem sendSpad_arrives {t : State} {ep dst : Nat} {b : Body} (h : clusterOf ep = clusterOf dst) :
    ∃ p ∈ tget (t.sendSpad ep dst b).inbox dst [], p.src = t.epId ep ∧ p.body = b := by
  unfold State.sendSpad
  rw [if_pos h]
  exact ⟨_, mem_deliver .., rfl, rfl⟩

theorem asks_sendSpad {t : State} {ep dst : Nat} {b : Body} (h : clusterOf ep = clusterOf dst) :
    Asks t (t.sendSpad ep dst b) := by
  refine ⟨fun _ => .sendSpad .., ?_, ?_⟩ <;> unfold State.sendSpad <;> rw [if_pos h] <;> rfl

/-! ### The own window (R118, R120) -/

/-- The fixed sizes of an access, of which each divides the place of the own window. -/
theorem own_aligned {a : Word} {off n : Nat} (ha : a.toNat = 0x7E0000000000 + off) (hn : n = 1 ∨ n = 2 ∨ n = 4 ∨ n = 8)
    (hoff : off % n = 0) : a.toNat % n = 0 := by
  rw [ha]
  rcases hn with rfl | rfl | rfl | rfl <;> omega

theorem own_carveHolds {s : State} {va off : Nat} (ha : va = 0x7E0000000000 + off) (hoff : off < 131072) :
    s.carveHolds va = false := by
  have h : inTeamWindow va = false := by
    rw [inTeamWindow, decide_eq_false (by omega), Bool.false_and]
  rw [State.carveHolds, h, Bool.false_and]

theorem own_walkWaits {s : State} {k : Asker} {va off : Nat} (ha : va = 0x7E0000000000 + off) (hoff : off < 131072) :
    s.walkWaits k va = false := by
  have hwin : (decide (0x7E0000000000 ≤ va) && decide (va < 0x7F0000000000)) = true := by
    rw [decide_eq_true (by omega), decide_eq_true (by omega), Bool.and_self]
  have h : s.noWalk k va = true := by
    rw [State.noWalk, hwin, Bool.or_true, Bool.true_or, Bool.true_or]
  rw [State.walkWaits, h, Bool.not_true, Bool.and_false]

/-- No access of the own window is one that reaches a scratchpad by a page entry. -/
theorem own_byArray {va off : Nat} (ha : va = 0x7E0000000000 + off) (hoff : off < 131072) : byArray va = false := by
  rw [byArray, decide_eq_true (by omega : 0x7E0000000000 ≤ va), decide_eq_true (by omega : va < 0x7F0000000000)]
  rfl

theorem wake_asker_ep (s : State) (srcs : List XReg) (dst : XReg) : (s.wake srcs dst).asker.ep = s.cur := rfl

theorem wake_readByte (s : State) (srcs : List XReg) (dst : XReg) (p : Nat) : (s.wake srcs dst).readByte p = s.readByte p :=
  rfl

theorem wake_anyPoison (s : State) (srcs : List XReg) (dst : XReg) (p n : Nat) :
    (s.wake srcs dst).anyPoison p n = s.anyPoison p n := rfl

section Outcomes

variable {s : State} {i : Instr} {rd rs1 : XReg} {a : Word} {n off : Nat} {signed : Bool} {v : (Nat → Byte) → Word}
  (he : exec i s = .next ((s.wake [rs1] rd).load rd a n signed)) (hv : Loaded n signed v)

include he hv in
/-- A load from the own window gives its bytes at once, or meets a range lock. -/
theorem load_own_window (hn : n = 1 ∨ n = 2 ∨ n = 4 ∨ n = 8) (ha : a.toNat = 0x7E0000000000 + off) (hoff : off < 131072)
    (hal : off % n = 0) (hfit : off + n ≤ s.me.carve.spadSize) :
    (s.locked s.cur (.spad s.cur off) a.toNat n false = false → s.anyPoison (arrayBase s.cur + off) n = false →
      s.completes i (((s.wake [rs1] rd).setX rd (v (fun k => s.readByte (arrayBase s.cur + off + k)))).watch a n 1)
        (s.frame.pc + 4)) ∧
    (s.locked s.cur (.spad s.cur off) a.toNat n false = true → exec i s = .next ((s.wake [rs1] rd).lockTrap a)) := by
  have hal' := own_aligned ha hn hal
  have hcarve : (s.wake [rs1] rd).carveHolds a.toNat = false := own_carveHolds ha hoff
  have hwalk : (s.wake [rs1] rd).walkWaits (s.wake [rs1] rd).asker a.toNat = false := own_walkWaits ha hoff
  have htr : (s.wake [rs1] rd).translate (s.wake [rs1] rd).asker a.toNat n .r = (.spad s.cur off, s.wake [rs1] rd) := by
    rw [ha]
    exact wake_translate s [rs1] rd off n .r (s.wake [rs1] rd).asker hoff hfit
  refine ⟨fun hlock hpois => ?_, fun hlock => ?_⟩
  · have hbytes : extend ((s.wake [rs1] rd).spadBytes s.cur off n) signed =
        v (fun k => s.readByte (arrayBase s.cur + off + k)) := by
      rw [wake_spad, State.spadBytes, readBytes_eq_map]
      exact hv _
    have hload := load_spad (rd := rd) (signed := signed) hal' hcarve hwalk htr (by rw [wake_locked]; exact hlock)
      (.inl (own_byArray ha hoff))
    rw [wake_cur, if_pos rfl, wake_anyPoison, if_neg (by simp [hpois]), hbytes] at hload
    refine ⟨_, he.trans (congrArg Host.Outcome.next hload), ?_⟩
    have hpc : (((s.wake [rs1] rd).setX rd (v (fun k => s.readByte (arrayBase s.cur + off + k)))).watch a n 1).frame.pc =
        s.frame.pc := by
      rw [(State.OnlyX.watch (rd := rd) ..).pc, setX_pc, wake_frame]
    rw [← hpc]
    exact retire_retires ..
  · rw [he, load_spad_locked hal' hcarve hwalk htr (by rw [wake_locked]; exact hlock)]

/-- The state behind the translation of a load's address is the state before it, after work beneath the cores. -/
theorem beneath_wake_translate {srcs : List XReg} {dst : XReg} {t : State} {k : Asker} {va m : Nat} {p : Perm} {tg : Target}
    (htr : (s.wake srcs dst).translate k va m p = (tg, t)) : s.Beneath t :=
  (State.Beneath.wake s srcs dst).trans (.of_translate htr)

variable {t : State} (halign : a.toNat % n = 0) (hcarve : (s.wake [rs1] rd).carveHolds a.toNat = false)
  (hwalk : (s.wake [rs1] rd).walkWaits (s.wake [rs1] rd).asker a.toNat = false)

/-- The load goes on with the value of the bytes in rd. -/
def LoadGives (s : State) (i : Instr) (t : State) (rd : XReg) (val : Word) : Prop :=
  ∃ u, exec i s = .next u ∧ s.goneOn u 4 1 ∧ s.keepsFrom t u rd ∧ (rd ≠ 0 → u.x rd = val)

/-- The load goes on and leaves rd waiting, with its request made. -/
def LoadWaits (s : State) (i : Instr) (t : State) (rd : XReg) (n : Nat) (signed : Bool) (asked : State → Load → Prop) : Prop :=
  ∃ u, exec i s = .next u ∧ s.goneOn u 4 1 ∧ s.keepsFrom t u rd ∧ (rd ≠ 0 → u.frame.isBusy rd = true) ∧
    ∃ d ∈ u.me.loads, d.rd = rd ∧ d.n = n ∧ d.signed = signed ∧ asked u d

include he hv halign hcarve hwalk in
theorem load_hit_gives {x : Xlat} {l : L1Line}
    (htr : (s.wake [rs1] rd).translate (s.wake [rs1] rd).asker a.toNat n .r = (.glob x, t))
    (hlock : t.locked s.cur (.glob x) a.toNat n false = false) (hacq : t.me.acqs = [])
    (hl : t.me.l1Find x.home x.pa = some l) (hp : l.pois.contains ((x.pa % 512) / 8) = false) :
    LoadGives s i t rd (v (fun k => tget l.data (x.pa % 512 + k) 0)) := by
  rw [load_glob_hit halign hcarve hwalk htr hlock hacq hl hp, lineBytes_eq_map, hv] at he
  exact gives_of_next (beneath_wake_translate htr) (.l1Touch ..) he

include he halign hcarve hwalk in
theorem load_miss_waits {x : Xlat}
    (htr : (s.wake [rs1] rd).translate (s.wake [rs1] rd).asker a.toNat n .r = (.glob x, t))
    (hlock : t.locked s.cur (.glob x) a.toNat n false = false) (hacq : t.me.acqs = [])
    (hl : t.me.l1Find x.home x.pa = none) (hroom : t.me.loads.length < 4) :
    LoadWaits s i t rd n signed (fun u d => d.x = x ∧
      ∃ p ∈ u.egress, p.dst = x.home ∧ p.cls = 0 ∧ p.body = .fill d.id (x.pa - x.pa % 128) x.set) := by
  have hb := beneath_wake_translate htr
  have hcur : (s.wake [rs1] rd).cur = (t.loading rd n signed x).cur := hb.cur.symm
  rw [load_glob_miss halign hcarve hwalk htr hlock hacq hl, hcur] at he
  obtain ⟨u, hu, hgone, hkeeps, hbusy, hload, hegress, -⟩ :=
    waits_of_next (a := a) hb hroom (asks_askFill (t.loading rd n signed x) t.me.nextId x) he
  refine ⟨u, hu, hgone, hkeeps, hbusy, _, hload, rfl, rfl, rfl, rfl, ?_⟩
  rw [hegress]
  exact ⟨_, List.mem_append_right _ (List.mem_singleton_self _), rfl, rfl, rfl⟩

include he halign hcarve hwalk in
theorem load_member_waits {e o : Nat}
    (htr : (s.wake [rs1] rd).translate (s.wake [rs1] rd).asker a.toNat n .r = (.spad e o, t)) (hne : e ≠ s.cur)
    (hcluster : clusterOf s.cur = clusterOf e) (hlock : t.locked s.cur (.spad e o) a.toNat n false = false)
    (hbusy : byArray a.toNat = false ∨ t.arrayBusy s.cur (s.epId e) = false) (hroom : t.me.loads.length < 4) :
    LoadWaits s i t rd n signed (fun u d =>
      ∃ p ∈ tget u.inbox e [], p.src = t.epId s.cur ∧ p.body = .spadLoad d.id o n) := by
  have hb := beneath_wake_translate htr
  rw [load_spad halign hcarve hwalk htr hlock hbusy, wake_cur, if_neg hne] at he
  obtain ⟨u, hu, hgone, hkeeps, hbusy, hload, -, hinbox⟩ := waits_of_next (a := a) hb hroom (asks_sendSpad hcluster) he
  refine ⟨u, hu, hgone, hkeeps, hbusy, _, hload, rfl, rfl, rfl, ?_⟩
  dsimp only
  rw [hinbox]
  exact sendSpad_arrives hcluster

include he hv halign hcarve hwalk in
theorem load_queue_gives {o : Nat}
    (htr : (s.wake [rs1] rd).translate (s.wake [rs1] rd).asker a.toNat n .r = (.queue o, t)) :
    LoadGives s i t rd (v (fun k => t.me.queueWindow.getD (o + k) 0)) := by
  have hin : o + n ≤ t.me.queueWindow.length := by
    rw [queueWindow_length]
    exact translate_queue htr
  rw [load_queue halign hcarve hwalk htr, take_drop_eq_map hin, hv] at he
  exact gives_of_next (beneath_wake_translate htr) (.refl t) he

include he hv halign hcarve hwalk in
theorem load_mmio_outcomes {pa : Nat}
    (htr : (s.wake [rs1] rd).translate (s.wake [rs1] rd).asker a.toNat n .r = (.mmio pa, t))
    (hall : mmioAllowed s.frame.sup pa n = true) :
    (t.mmioReady = false → exec i s = .next (t.stall .mmio)) ∧
    (t.mmioReady = true →
      LoadGives s i t rd (v (fun k => BitVec.ofNat 8 (t.mmioRead s.frame.sup pa n / 2 ^ (8 * k) % 256)))) := by
  have hb := beneath_wake_translate htr
  rw [load_mmio halign hcarve hwalk htr (by rw [hb.frame]; exact hall), hb.frame] at he
  refine ⟨fun h => by rw [he, if_pos h], fun h => ?_⟩
  rw [if_neg (by simp [h]), leBytes_eq_map, hv] at he
  exact gives_of_next hb (.refl t) he

end Outcomes

/-- Settles O12: each clause by the lemma above for the place that the address translates to, each form by what it makes of
its bytes. -/
theorem loadsReadTheOwnScratchpad : Obligations.LoadsReadTheOwnScratchpad := by
  intro s rd rs1 imm off hc a w loads
  have hloads : ∀ {i : Instr} {n : Nat} {signed : Bool} {v : (Nat → BitVec 8) → Word},
      exec i s = loadI i rd rs1 imm n signed s → isPrefixed i = false → (n = 1 ∨ n = 2 ∨ n = 4 ∨ n = 8) →
      Loaded n signed v → loads i n signed v := by
    intro i n signed v hi hpre hn hv
    have he : exec i s = .next ((s.wake [rs1] rd).load rd a n signed) :=
      exec_of_run hi (by rw [hpre]; exact hc) (by simp) (by rw [wake_x]; rfl)
    refine ⟨load_own_window he hv hn, fun t hal hcarve hwalk => ⟨fun x htr hlock hacq => ⟨fun l hl hp => ?hit,
      fun hl hroom => ?miss⟩, fun e o htr hne hcl hlock hbusy hroom => ?member, fun o htr => ?queue,
      fun pa htr hall => ?mmio⟩⟩
    case hit => exact load_hit_gives he hv hal hcarve hwalk htr hlock hacq hl hp
    case miss => exact load_miss_waits he hal hcarve hwalk htr hlock hacq hl hroom
    case member => exact load_member_waits he hal hcarve hwalk htr hne hcl hlock hbusy hroom
    case queue => exact load_queue_gives he hv hal hcarve hwalk htr
    case mmio => exact load_mmio_outcomes he hv hal hcarve hwalk htr hall
  exact ⟨(hloads (exec_lb s rd rs1 imm) rfl (by decide) loaded_byte :),
    (hloads (exec_lh s rd rs1 imm) rfl (by decide) loaded_half :),
    (hloads (exec_lw s rd rs1 imm) rfl (by decide) loaded_word :),
    (hloads (exec_ld s rd rs1 imm) rfl (by decide) loaded_double :),
    (hloads (exec_lbu s rd rs1 imm) rfl (by decide) loaded_byteU :),
    (hloads (exec_lhu s rd rs1 imm) rfl (by decide) loaded_halfU :),
    (hloads (exec_lwu s rd rs1 imm) rfl (by decide) loaded_wordU :)⟩

end Sys2Proof.Machine

/-! PROOFS. Stores (R118, R126, R134, R192, R199, R202, R368): writes of the own scratchpad, of MMIO, and stores on their
way to another member. -/

namespace Sys2Proof.Machine

/-! ### Writes of a scratchpad and of MMIO leave the cores -/

theorem beneath_setPoison (s : State) (pa : Nat) (p : Bool) : s.Beneath (s.setPoison pa p) := by
  unfold State.setPoison
  dsimp only
  exact .ite .of_cores .of_cores

theorem beneath_clearWhole (s : State) (pa n : Nat) : s.Beneath (s.clearWhole pa n) :=
  .foldl (fun _ _ => .ite (beneath_setPoison ..) (.refl _)) s

theorem beneath_spadWrite (s : State) (ep off : Nat) (bs : List Byte) : s.Beneath (s.spadWrite ep off bs) :=
  (State.Beneath.writeBytes ..).trans (beneath_clearWhole ..)

theorem beneath_mmioWrite (s : State) (sup : Bool) (a n v : Nat) : s.Beneath (s.mmioWrite sup a n v) := by
  have hset : ∀ (t : State) k w, t.Beneath (t.setMmio k w) := fun _ _ _ => .of_cores
  have hkiln : ∀ (t : State) q f, t.Beneath (t.onKiln q f) := fun _ _ _ => .of_cores
  have hnm : ∀ op, s.Beneath (s.nmcmd op) := fun op => by
    unfold State.nmcmd
    split
    · exact .refl s
    · exact .ite .of_cores .of_cores
  have herr : ∀ w low, s.Beneath (s.errctl w low) := fun w low => by
    unfold State.errctl
    exact .ite ((hset ..).trans (hset ..)) (hset ..)
  have hdir : ∀ slice target inv, s.Beneath (s.dirPort slice target inv) := fun slice target inv => by
    unfold State.dirPort
    split
    · exact .refl s
    · exact .of_cores
  unfold State.mmioWrite
  dsimp only
  split
  · exact hset ..
  refine .ite (.ite (.ite (hnm _) (.refl s)) (.ite (hset ..) (.refl s))) ?_
  refine .ite (.ite (herr ..) (hset ..)) ?_
  refine .ite (.ite ((State.Beneath.ite (hkiln ..) (.refl s)).trans (hkiln ..)) (.ite (hkiln ..) (.refl s))) ?_
  refine .ite (.ite (hdir ..) (.refl s)) ?_
  refine .ite (.ite .of_cores (.ite .of_cores (.refl s))) ?_
  exact .ite (.ite (.refl s) (.ite .of_cores (.ite .of_cores (.refl s)))) (.refl s)

/-! ### The bytes of a scratchpad after a write -/

theorem readByte_setPoison (s : State) (pa : Nat) (p : Bool) (x : Nat) : (s.setPoison pa p).readByte x = s.readByte x := by
  have hl2 : (s.setPoison pa p).l2 = mapFirst (fun l => l.holds pa) (fun l =>
      { l with pois := (l.pois.filter (fun w => !(w == (pa % 512) / 8))) ++ (if p then [(pa % 512) / 8] else []) }) s.l2 := by
    unfold State.setPoison
    dsimp only
    split <;> rfl
  have hlow : (s.setPoison pa p).lowByte x = s.lowByte x := by
    unfold State.setPoison
    dsimp only
    split <;> rfl
  unfold State.readByte State.l2Find
  rw [hl2, hlow]
  rcases find_mapFirst_other s.l2 (fun l => l.holds pa) (fun l => l.holds x) (fun l =>
      { l with pois := (l.pois.filter (fun w => !(w == (pa % 512) / 8))) ++ (if p then [(pa % 512) / 8] else []) })
      fun _ => rfl with h | ⟨l, hl, -, h⟩
  · rw [h]
  · rw [h, hl]

theorem readByte_clearWhole (s : State) (pa n x : Nat) : (s.clearWhole pa n).readByte x = s.readByte x := by
  unfold State.clearWhole
  generalize List.range (n / 8 + 1) = l
  induction l generalizing s with
  | nil => rfl
  | cons i l ih =>
    rw [List.foldl_cons, ih]
    dsimp only
    split
    · exact readByte_setPoison ..
    · rfl

theorem readByte_spadWrite_inside (s : State) (ep off : Nat) (bs : List Byte) (k : Nat) (h : k < bs.length) :
    (s.spadWrite ep off bs).readByte (arrayBase ep + off + k) = bs[k] :=
  (readByte_clearWhole ..).trans (readByte_writeBytes_inside bs s _ k h)

theorem readByte_spadWrite_outside (s : State) (ep off : Nat) (bs : List Byte) (x : Nat)
    (h : x < arrayBase ep + off ∨ arrayBase ep + off + bs.length ≤ x) :
    (s.spadWrite ep off bs).readByte x = s.readByte x :=
  (readByte_clearWhole ..).trans (readByte_writeBytes_outside bs s _ x h)

/-! ### A write of the own scratchpad (R368, R369) -/

theorem onlyX_journal {rd : XReg} (s : State) (ep off n : Nat) : s.OnlyX rd (s.journal ep off n) := by
  unfold State.journal
  refine .onCore (fun c => ?_) (fun c => ?_) (fun c => ?_) fun c => ?_ <;> cases c.ck <;> rfl

/-- The state in which an own-scratchpad range may be written: with a checkpoint first where the journal is full, and the
range's sectors in it. -/
def State.journaled (s : State) (off n : Nat) : State :=
  (if s.me.journalFull [(off, n)] then s.ckCycle s.cur else s).journal s.cur off n

theorem ownSpadStore_eq (s : State) (off : Nat) (bs : List Byte) :
    s.ownSpadStore off bs = (s.journaled off bs.length).spadWrite s.cur off bs := rfl

theorem onlyX_journaled {rd : XReg} (s : State) (off n : Nat) : s.OnlyX rd (s.journaled off n) :=
  (State.OnlyX.ite (.ckCycle ..) (.refl s)).trans (onlyX_journal ..)

/-- Registers of a state that changes none: x0 reads 0 throughout. -/
theorem State.OnlyX.x_all {t u : State} (h : t.OnlyX 0 u) (r : XReg) : u.x r = t.x r := by
  by_cases hr : r = 0
  · subst hr; rfl
  · exact h.x r hr

theorem ownSpadStore_keeps (s : State) (off : Nat) (bs : List Byte) :
    (s.ownSpadStore off bs).frame.pc = s.frame.pc ∧ (∀ r, (s.ownSpadStore off bs).x r = s.x r) ∧
    (∀ x, x < arrayBase s.cur + off ∨ arrayBase s.cur + off + bs.length ≤ x →
      (s.ownSpadStore off bs).readByte x = s.readByte x) ∧
    ∀ k (h : k < bs.length), (s.ownSpadStore off bs).readByte (arrayBase s.cur + off + k) = bs[k] := by
  have ho : s.OnlyX 0 (s.journaled off bs.length) := onlyX_journaled ..
  have hb := beneath_spadWrite (s.journaled off bs.length) s.cur off bs
  rw [ownSpadStore_eq]
  refine ⟨?pc, fun r => (hb.x r).trans (ho.x_all r), fun x hx => ?outside, fun k hk => readByte_spadWrite_inside ..⟩
  case pc => rw [hb.frame, ho.pc]
  case outside => rw [readByte_spadWrite_outside _ _ _ _ _ hx, ho.mem]

/-! ### What a store does with its address (R199, R202) -/

section Store

variable {w t : State} {a v : Word} {n : Nat}
  (halign : a.toNat % n = 0) (hcarve : w.carveHolds a.toNat = false)
include halign hcarve

theorem store_spad {e o : Nat} (htr : w.translate w.asker a.toNat n .w = (.spad e o, t))
    (hlock : t.locked w.cur (.spad e o) a.toNat n true = false)
    (hbusy : byArray a.toNat = false ∨ t.arrayBusy w.cur (w.epId e) = false) :
    w.store a v n =
      if e = w.cur then ((t.ownSpadStore o (leBytes n v.toNat)).watch a n 2).retire 1
      else if inTeamWindow a.toNat then (((t.sendSpad w.cur e (.spadStore o n v)).watch a n 2).retire 1).ckCycle w.cur
      else ((t.sendSpad w.cur e (.spadStore o n v)).watch a n 2).retire 1 := by
  have hb : (byArray a.toNat && t.arrayBusy w.cur (w.epId e)) = false := by
    rcases hbusy with h | h <;> simp [h]
  simp only [State.store, halign, hcarve, htr, hlock, hb, ne_eq, not_true, if_false, Bool.false_eq_true]

theorem store_spad_locked {e o : Nat} (htr : w.translate w.asker a.toNat n .w = (.spad e o, t))
    (hlock : t.locked w.cur (.spad e o) a.toNat n true = true) : w.store a v n = t.lockTrap a := by
  simp only [State.store, halign, hcarve, htr, hlock, ne_eq, not_true, if_false, if_true, Bool.false_eq_true]

theorem store_mmio {pa : Nat} (htr : w.translate w.asker a.toNat n .w = (.mmio pa, t))
    (hall : mmioAllowed t.frame.sup pa n = true) :
    w.store a v n =
      if t.mmioReady = false then t.stall .mmio
      else ((t.mmioWrite t.frame.sup pa n (v.toNat % 2 ^ (8 * n))).watch a n 2).retire 1 := by
  simp only [State.store, halign, hcarve, htr, hall, ne_eq, not_true, if_false, Bool.false_eq_true, Bool.not_true,
    Bool.not_eq_true']

theorem store_glob {x : Xlat} (htr : w.translate w.asker a.toNat n .w = (.glob x, t))
    (hlock : t.locked w.cur (.glob x) a.toNat n true = false) (hroom : t.me.logRoom x = .ok) :
    w.store a v n = ((t.logStore w.cur x n v).watch a n 2).retire 1 := by
  simp only [State.store, halign, hcarve, htr, hlock, hroom, ne_eq, not_true, if_false, Bool.false_eq_true]

end Store

/-! ### The outcomes of a store -/

/-- Byte k of the low bytes of a value. -/
theorem leBytes_getElem (v : Word) (n k : Nat) (h : k < (leBytes n v.toNat).length) :
    (leBytes n v.toNat)[k] = v.extractLsb' (8 * k) 8 := by
  simp only [leBytes_eq_map, List.getElem_map, List.getElem_range]
  apply BitVec.eq_of_toNat_eq
  simp [BitVec.extractLsb', Nat.shiftRight_eq_div_pow]

theorem watch_pc (s : State) (va : Word) (n kind : Nat) : (s.watch va n kind).frame.pc = s.frame.pc :=
  (State.OnlyX.watch (rd := 0) s va n kind).pc

/-- An own part that keeps the PC, a watched access noted, and the retirement to the next word. -/
theorem completes_of_watched {s u : State} {i : Instr} {a : Word} {n kind cost : Nat}
    (he : exec i s = .next ((u.watch a n kind).retire cost)) (hpc : u.frame.pc = s.frame.pc) :
    s.completes i (u.watch a n kind) (s.frame.pc + 4) := by
  refine ⟨_, he, ?_⟩
  rw [← hpc, ← watch_pc u a n kind]
  exact retire_retires ..

/-! ### A checkpoint and its cycle -/

theorem overflowPost_frame (s : State) (ep : Nat) : ∃ cores, s.overflowPost ep = { s with cores := cores } := by
  unfold State.overflowPost
  dsimp only
  split
  · exact ⟨_, rfl⟩
  · split <;> exact ⟨_, rfl⟩

theorem countAt_frame (s : State) (ep lvl ev n : Nat) : ∃ cores, s.countAt ep lvl ev n = { s with cores := cores } := by
  unfold State.countAt
  extract_lets c hit bump wrap bits evs s1
  obtain ⟨cores, h⟩ := overflowPost_frame s1 ep
  split
  · exact ⟨_, rfl⟩
  split
  · exact ⟨_, rfl⟩
  split
  · exact ⟨cores, h⟩
  · exact ⟨_, rfl⟩

/-- Counting and its time change the cores and the clock alone. -/
theorem spend_frame (s : State) (ep n : Nat) : ∃ cores now, s.spend ep n = { s with cores := cores, now := now } := by
  obtain ⟨cores, h⟩ := countAt_frame { s with now := s.after ep n } ep (s.core ep).run.level 1 n
  exact ⟨cores, _, h⟩

theorem ckCycle_inbox (s : State) (ep : Nat) : (s.ckCycle ep).inbox = s.inbox := by
  obtain ⟨cores, now, h⟩ := spend_frame (s.checkpoint ep) ep 1
  rw [State.ckCycle, h]
  rfl

theorem beneath_countAt (s : State) (ep lvl ev n : Nat) : s.Beneath (s.countAt ep lvl ev n) := by
  unfold State.countAt
  extract_lets c hit bump wrap bits evs s1
  have h1 : s.Beneath s1 := .setCore rfl
  exact .ite (.refl s) (.ite h1 (.ite (h1.trans (.overflowPost ..)) h1))

theorem beneath_spend (s : State) (ep n : Nat) : s.Beneath (s.spend ep n) := by
  unfold State.spend State.count
  refine .trans ?_ (beneath_countAt ..)
  exact .of_cores

theorem ckCycle_ck (u : State) : ∃ k, (u.ckCycle u.cur).me.ck = some k ∧ k.frame = u.frame := by
  have hspend : (u.ckCycle u.cur).me.ck = (u.checkpoint u.cur).me.ck :=
    (congrArg Core.ck (beneath_spend (u.checkpoint u.cur) u.cur 1).me :)
  have hck : (u.checkpoint u.cur).me = (u.checkpoint u.cur).core u.cur := rfl
  rw [hspend, hck, State.checkpoint, onCore_core]
  exact ⟨_, rfl, rfl⟩

section Outcomes

variable {s : State} {i : Instr} {rs1 rs2 : XReg} {a v : Word} {n off : Nat}
  (he : exec i s = .next ((s.wake [rs1, rs2] 0).store a v n))

include he in
/-- A store to the own window writes its bytes at once, or meets a range lock. -/
theorem store_own_window (hn : n = 1 ∨ n = 2 ∨ n = 4 ∨ n = 8) (ha : a.toNat = 0x7E0000000000 + off) (hoff : off < 131072)
    (hal : off % n = 0) (hfit : off + n ≤ s.me.carve.spadSize) :
    (s.locked s.cur (.spad s.cur off) a.toNat n true = false →
      ∃ t, exec i s = .next t ∧
        ((((s.wake [rs1, rs2] 0).ownSpadStore off (leBytes n v.toNat)).watch a n 2).Retires t (s.frame.pc + 4)) ∧
        (∀ k, k < n → t.readByte (arrayBase s.cur + off + k) = v.extractLsb' (8 * k) 8) ∧
        (∀ x, x < arrayBase s.cur + off ∨ arrayBase s.cur + off + n ≤ x → t.readByte x = s.readByte x) ∧
        (∀ r, t.x r = s.x r)) ∧
    (s.locked s.cur (.spad s.cur off) a.toNat n true = true → exec i s = .next ((s.wake [rs1, rs2] 0).lockTrap a)) := by
  have hal' := own_aligned ha hn hal
  have hcarve : (s.wake [rs1, rs2] 0).carveHolds a.toNat = false := own_carveHolds ha hoff
  have htr : (s.wake [rs1, rs2] 0).translate (s.wake [rs1, rs2] 0).asker a.toNat n .w =
      (.spad s.cur off, s.wake [rs1, rs2] 0) := by
    rw [ha]
    exact wake_translate s [rs1, rs2] 0 off n .w (s.wake [rs1, rs2] 0).asker hoff hfit
  refine ⟨fun hlock => ?_, fun hlock => ?_⟩
  · have hstore := store_spad (v := v) hal' hcarve htr (by rw [wake_locked]; exact hlock) (.inl (own_byArray ha hoff))
    rw [wake_cur, if_pos rfl] at hstore
    obtain ⟨hpc, hx, hout, hin⟩ := ownSpadStore_keeps (s.wake [rs1, rs2] 0) off (leBytes n v.toNat)
    rw [wake_frame] at hpc
    rw [wake_cur, leBytes_length] at hout
    rw [wake_cur] at hin
    obtain ⟨t, ht, hret⟩ := completes_of_watched (he.trans (congrArg Host.Outcome.next hstore)) hpc
    have hwatch : ((s.wake [rs1, rs2] 0).ownSpadStore off (leBytes n v.toNat)).OnlyX 0
      (((s.wake [rs1, rs2] 0).ownSpadStore off (leBytes n v.toNat)).watch a n 2) := .watch ..
    refine ⟨t, ht, hret, fun k hk => ?inside, fun x hx => ?outside, fun r => ?reg⟩
    case inside =>
      have hk' : k < (leBytes n v.toNat).length := by rwa [leBytes_length]
      rw [Retires.readByte hret, hwatch.mem, hin k hk', leBytes_getElem]
    case outside => rw [Retires.readByte hret, hwatch.mem, hout x hx, wake_readByte]
    case reg => rw [Retires.x hret, hwatch.x_all, hx, wake_x]
  · rw [he, store_spad_locked hal' hcarve htr (by rw [wake_locked]; exact hlock)]

variable {t : State} (halign : a.toNat % n = 0) (hcarve : (s.wake [rs1, rs2] 0).carveHolds a.toNat = false)

include he halign hcarve in
theorem store_mmio_outcomes {pa : Nat}
    (htr : (s.wake [rs1, rs2] 0).translate (s.wake [rs1, rs2] 0).asker a.toNat n .w = (.mmio pa, t))
    (hall : mmioAllowed s.frame.sup pa n = true) :
    (t.mmioReady = false → exec i s = .next (t.stall .mmio)) ∧
    (t.mmioReady = true → s.completes i ((t.mmioWrite s.frame.sup pa n (v.toNat % 2 ^ (8 * n))).watch a n 2)
      (s.frame.pc + 4)) := by
  have hb := beneath_wake_translate htr
  rw [store_mmio halign hcarve htr (by rw [hb.frame]; exact hall), hb.frame] at he
  refine ⟨fun h => by rw [he, if_pos h], fun h => ?_⟩
  rw [if_neg (by simp [h])] at he
  exact completes_of_watched he (by rw [(beneath_mmioWrite ..).frame, hb.frame])

include he halign hcarve in
/-- A store to another member of the team is on its way, and one by the team window takes a checkpoint. -/
theorem store_member_goes {e o : Nat}
    (htr : (s.wake [rs1, rs2] 0).translate (s.wake [rs1, rs2] 0).asker a.toNat n .w = (.spad e o, t)) (hne : e ≠ s.cur)
    (hcluster : clusterOf s.cur = clusterOf e) (hlock : t.locked s.cur (.spad e o) a.toNat n true = false)
    (hbusy : byArray a.toNat = false ∨ t.arrayBusy s.cur (s.epId e) = false) :
    ∃ u, exec i s = .next u ∧ s.goneOn u 4 1 ∧ s.keepsFrom t u 0 ∧
      (∃ p ∈ tget u.inbox e [], p.src = t.epId s.cur ∧ p.body = .spadStore o n v) ∧
      (inTeamWindow a.toNat = true → ∃ k, u.me.ck = some k ∧ k.frame.pc = s.frame.pc + 4) := by
  have hb := beneath_wake_translate htr
  rw [store_spad halign hcarve htr hlock hbusy, wake_cur, if_neg hne] at he
  obtain ⟨p, hp, hsrc, hbody⟩ := sendSpad_arrives (t := t) (b := .spadStore o n v) hcluster
  have hsent : t.OnlyX 0 (t.sendSpad s.cur e (.spadStore o n v)) := .sendSpad ..
  have hret := retire_retires ((t.sendSpad s.cur e (.spadStore o n v)).watch a n 2) 1
  obtain ⟨hgone, hkeeps⟩ := State.OnlyX.goneOn_keepsFrom hb (hsent.trans (.watch _ a n 2)) hret
  generalize hz : ((t.sendSpad s.cur e (.spadStore o n v)).watch a n 2).retire 1 = z at *
  have hin : z.inbox = (t.sendSpad s.cur e (.spadStore o n v)).inbox := by
    rw [hret.2]
    exact watch_inbox ..
  have hcur : z.cur = s.cur := hgone.1
  by_cases hteam : inTeamWindow a.toNat = true
  · rw [if_pos hteam, ← hcur] at he
    obtain ⟨k, hk, hframe⟩ := ckCycle_ck z
    refine ⟨_, he, State.OnlyX.goneOn hgone (.ckCycle (rd := 0) ..), State.OnlyX.keepsFrom hkeeps (.ckCycle ..), ⟨p, ?_, hsrc, hbody⟩, fun _ => ⟨k, hk, ?_⟩⟩
    · rw [ckCycle_inbox, hin]
      exact hp
    · rw [hframe]
      exact hgone.2.1
  · rw [if_neg hteam] at he
    refine ⟨_, he, hgone, hkeeps, ⟨p, ?_, hsrc, hbody⟩, fun h => absurd h hteam⟩
    rw [hin]
    exact hp

end Outcomes

/-- Settles O13: the own window, another member and MMIO each by the lemma above, for each of the four sizes. -/
theorem storesWriteTheOwnScratchpad : Obligations.StoresWriteTheOwnScratchpad := by
  intro s rs1 rs2 imm off hc a v w lo stores others
  have hnext : ∀ {i : Instr} {n : Nat}, exec i s = storeI i rs1 rs2 imm n s → isPrefixed i = false →
      exec i s = .next ((s.wake [rs1, rs2] 0).store a v n) := fun hi hpre =>
    exec_of_run hi (by rw [hpre]; exact hc) (by simp) (by rw [wake_x, wake_x]; rfl)
  have hstores : ∀ {i : Instr} {n : Nat}, exec i s = .next ((s.wake [rs1, rs2] 0).store a v n) →
      (n = 1 ∨ n = 2 ∨ n = 4 ∨ n = 8) → stores i n := fun he hn ha hoff hal hfit => store_own_window he hn ha hoff hal hfit
  have hothers : ∀ {i : Instr} {n : Nat}, exec i s = .next ((s.wake [rs1, rs2] 0).store a v n) → others i n :=
    fun he hal hcarve => ⟨fun e o t htr hne hcl hlock hbusy => store_member_goes he hal hcarve htr hne hcl hlock hbusy,
      fun pa t htr hall => store_mmio_outcomes he hal hcarve htr hall⟩
  have hb := hnext (exec_sb s rs1 rs2 imm) rfl
  have hh := hnext (exec_sh s rs1 rs2 imm) rfl
  have hw := hnext (exec_sw s rs1 rs2 imm) rfl
  have hd := hnext (exec_sd s rs1 rs2 imm) rfl
  exact ⟨(hstores hb (by decide) :), (hstores hh (by decide) :), (hstores hw (by decide) :), (hstores hd (by decide) :),
    (hothers hb :), (hothers hh :), (hothers hw :), (hothers hd :)⟩

end Sys2Proof.Machine

/-! PROOFS. Stores to global memory (R137, R138, R202) and the translation through a cached leaf (R116, R130, R361 to R363). -/

namespace Sys2Proof.Machine

/-! ### The store log (R137, R138) -/

/-- The team window names scratchpads alone, so that what translates to global memory lies outside it. -/
theorem carveHolds_of_glob {s w t : State} {k : Asker} {va n : Nat} {p : Perm} {x : Xlat}
    (h : s.translate k va n p = (.glob x, t)) : w.carveHolds va = false := by
  have hteam : inTeamWindow va = false := by
    rw [Bool.eq_false_iff]
    intro hin
    obtain ⟨hlo, hhi⟩ : 0x7E1000000000 ≤ va ∧ va < 0x7E1000100000 := by simpa [inTeamWindow] using hin
    have hloc : (decide (0x7E0000000000 ≤ va) && decide (va < 0x7F0000000000)) = true := by
      rw [decide_eq_true (by omega), decide_eq_true (by omega), Bool.and_self]
    have hcanon : canonical va = true := by
      rw [canonical, decide_eq_true (by omega), Bool.true_or]
    have hwin : ∀ y, s.window k.ep va n ≠ .glob y := fun y hy => by
      unfold State.window at hy
      rw [if_neg (by omega), if_pos ⟨hlo, hhi⟩] at hy
      dsimp only at hy
      split at hy
      · split at hy <;> cases hy
      · cases hy
    have hlook : (s.lookup k va n p).1 = .glob x := by
      unfold State.translate at h
      rw [if_pos (by rw [State.noWalk, hloc, Bool.or_true, Bool.true_or, Bool.true_or])] at h
      rw [h]
    unfold State.lookup at hlook
    rw [if_neg (by simp [hcanon]), if_pos hloc] at hlook
    split at hlook
    · split at hlook <;> cases hlook
    · exact hwin x hlook
  rw [State.carveHolds, hteam, Bool.false_and]

/-- With room in the log, a record changes the log, its checkpoint's count and the L1 alone. -/
theorem onlyX_logStore {rd : XReg} {s : State} {ep n : Nat} {x : Xlat} {v : Word} (h : (s.core ep).logRoom x = .ok) :
    s.OnlyX rd (s.logStore ep x n v) := by
  simp only [State.logStore, h]
  exact .onCore (fun _ => rfl) (fun _ => rfl) (fun _ => rfl) fun _ => rfl

theorem store_glob_goes {s t : State} {i : Instr} {rs1 rs2 : XReg} {a v : Word} {n : Nat} {x : Xlat}
    (he : exec i s = .next ((s.wake [rs1, rs2] 0).store a v n)) (halign : a.toNat % n = 0)
    (hcarve : (s.wake [rs1, rs2] 0).carveHolds a.toNat = false)
    (htr : (s.wake [rs1, rs2] 0).translate (s.wake [rs1, rs2] 0).asker a.toNat n .w = (.glob x, t))
    (hlock : t.locked t.cur (.glob x) a.toNat n true = false) (hroom : t.me.logRoom x = .ok) :
    ∃ u, exec i s = .next u ∧ ((t.logStore t.cur x n v).watch a n 2).Retires u (s.frame.pc + 4) ∧
      (∀ p, u.readByte p = t.readByte p) ∧ ∀ r, u.x r = s.x r := by
  have hb := beneath_wake_translate htr
  have hcur : (s.wake [rs1, rs2] 0).cur = t.cur := hb.cur.symm
  rw [store_glob halign hcarve htr (by rw [hcur]; exact hlock) hroom, hcur] at he
  have hlog : t.OnlyX 0 (t.logStore t.cur x n v) := onlyX_logStore hroom
  obtain ⟨u, hu, hret⟩ := completes_of_watched he (by rw [hlog.pc, hb.frame])
  have ho : t.OnlyX 0 ((t.logStore t.cur x n v).watch a n 2) := hlog.trans (.watch ..)
  exact ⟨u, hu, hret, fun p => (Retires.readByte hret p).trans (ho.mem p),
    fun r => by rw [Retires.x hret, ho.x_all, hb.x]⟩

/-! ### A cached leaf (R361 to R363) -/

section Leaf

variable {s : State} {k : Asker} {va n : Nat} {p : Perm} {e : TlbEntry}

/-- An address outside the windows that a cached entry of the own core covers translates through its leaf. -/
theorem translate_of_utlb (hcanon : canonical va = true) (hwin : va < 0x7E0000000000 ∨ 0x7F0000000000 ≤ va)
    (hfind : (s.core k.ep).utlb.find? (fun q => q.hit k va) = some e) :
    s.translate k va n p = (s.throughLeaf k e va n p, s) := by
  have hw : (decide (0x7E0000000000 ≤ va) && decide (va < 0x7F0000000000)) = false := by
    rcases hwin with h | h
    · rw [decide_eq_false (Nat.not_le.2 h), Bool.false_and]
    · rw [decide_eq_false (Nat.not_lt.2 h), Bool.and_false]
  have hany : (s.core k.ep).utlb.any (fun q => q.hit k va) = true :=
    List.any_eq_true.2 ⟨e, List.mem_of_find?_eq_some hfind, List.find?_some (p := fun q : TlbEntry => q.hit k va) hfind⟩
  have hno : s.noWalk k va = true := by
    rw [State.noWalk, hcanon, hw, hany]
    rfl
  unfold State.translate
  rw [if_pos hno]
  unfold State.lookup
  rw [if_neg (by simp [hcanon]), hw, if_neg Bool.false_ne_true, hfind]

theorem perm_writes : p.writes = true ↔ p = .w ∨ p = .rw := by
  cases p <;> simp [Perm.writes]

theorem perm_granted (leaf : Nat) : p.granted leaf = true ↔
    ((p = .r ∨ p = .rw) → bitOf leaf 1 = true) ∧ ((p = .w ∨ p = .rw) → bitOf leaf 2 = true) ∧
      (p = .x → bitOf leaf 3 = true) := by
  cases p <;> simp [Perm.granted]

variable (hats : e.ats = none)
include hats

theorem throughLeaf_foreign_key
    (hkey : ¬ (s.descMkey k.ep k.vdev ≤ bitsOf e.leaf.toNat 6 10 ∧
      bitsOf e.leaf.toNat 6 10 ≤ s.descMkey k.ep k.vdev + s.descMkn k.ep k.vdev)) :
    s.throughLeaf k e va n p = .bad 8 := by
  unfold State.throughLeaf
  rw [hats]
  dsimp only
  rw [if_pos (by simpa [imp_iff_not_or] using hkey)]

variable (hkey : s.descMkey k.ep k.vdev ≤ bitsOf e.leaf.toNat 6 10 ∧
  bitsOf e.leaf.toNat 6 10 ≤ s.descMkey k.ep k.vdev + s.descMkn k.ep k.vdev)
include hkey

theorem throughLeaf_replicated_write (hdup : bitOf e.leaf.toNat 5 = true) (hw : p.writes = true) :
    s.throughLeaf k e va n p = .bad 16 := by
  unfold State.throughLeaf
  rw [hats]
  dsimp only
  rw [if_neg (by simpa using hkey), if_pos (by simp [hdup, hw])]

theorem throughLeaf_not_granted (hdup : (bitOf e.leaf.toNat 5 && p.writes) = false)
    (hg : p.granted e.leaf.toNat = false) : s.throughLeaf k e va n p = .bad 8 := by
  unfold State.throughLeaf
  rw [hats]
  dsimp only
  rw [if_neg (by simpa using hkey), if_neg (by rw [hdup]; exact Bool.false_ne_true), if_pos (by simp [hg])]

/-- A leaf of the own chip that names its home directly gives the page's address there. -/
theorem throughLeaf_glob (hg : p.granted e.leaf.toNat = true) (hdup : bitOf e.leaf.toNat 5 = false)
    (hhash : bitOf e.leaf.toNat 4 = false) (hcsel : bitsOf e.leaf.toNat 56 8 = 0)
    (hglob : isGlobal (65536 * bitsOf e.leaf.toNat 16 32 + va % e.size) = true) :
    ∃ y, s.throughLeaf k e va n p = .glob y ∧ y.pa = 65536 * bitsOf e.leaf.toNat 16 32 + va % e.size ∧ y.csel = 0 ∧
      y.home = s.chip * 65536 +
        bitsOf (s.readNat (s.descTabb k.ep k.vdev + 0x540 + 4 * bitsOf e.leaf.toNat 48 8) 4) 0 16 := by
  unfold State.throughLeaf
  rw [hats]
  dsimp only
  rw [if_neg (by simpa using hkey), if_neg (by simp [hdup]), if_neg (by simp [hg])]
  simp only [hdup, hcsel, State.chipOf, State.leafHome, hhash, State.classify, hglob, Bool.false_eq_true, if_false, if_true,
    beq_self_eq_true]
  exact ⟨_, rfl, rfl, rfl, rfl⟩

end Leaf

/-- Settles O15: a store by the store log's lemma, a translation by the cached leaf's clause that applies. -/
theorem globalStoresGoToTheLog : Obligations.GlobalStoresGoToTheLog := by
  intro s rs1 rs2 imm x t hc a w stores
  have hstores : ∀ {i : Instr} {n : Nat}, exec i s = storeI i rs1 rs2 imm n s → isPrefixed i = false → stores i n :=
    fun hi hpre hal htr hlock hroom => store_glob_goes (exec_of_run hi (by rw [hpre]; exact hc) (by simp)
      (by rw [wake_x, wake_x]; rfl)) hal (carveHolds_of_glob htr) htr hlock hroom
  refine ⟨⟨(hstores (exec_sb s rs1 rs2 imm) rfl :), (hstores (exec_sh s rs1 rs2 imm) rfl :),
    (hstores (exec_sw s rs1 rs2 imm) rfl :), (hstores (exec_sd s rs1 rs2 imm) rfl :)⟩, ?_⟩
  intro k va n p e hcanon hwin hfind hats leaf mk keyOk writes granted pa
  rw [translate_of_utlb hcanon hwin hfind]
  refine ⟨fun hkey => ?_, fun hkey hdup hw => ?_, fun hkey hdup hg => ?_, fun hkey hg hdup hhash hcsel hglob => ?_⟩
  · rw [throughLeaf_foreign_key hats hkey]
  · rw [throughLeaf_replicated_write hats hkey hdup (perm_writes.2 hw)]
  · have hdup' : (bitOf e.leaf.toNat 5 && p.writes) = false := by
      rw [Bool.eq_false_iff, ne_eq, Bool.and_eq_true, perm_writes]
      exact hdup
    rw [throughLeaf_not_granted hats hkey hdup' (by rw [Bool.eq_false_iff, ne_eq, perm_granted]; exact hg)]
  · obtain ⟨y, hy, hpa, hc0, hhome⟩ := throughLeaf_glob hats hkey ((perm_granted _).2 hg) hdup hhash hcsel hglob
    exact ⟨y, by rw [hy], hpa, hc0, hhome⟩

end Sys2Proof.Machine

/-! PROOFS. Remote loads (R126, R150, R214, R232): the request that LDR and LDRW leave, and where it goes. -/

namespace Sys2Proof.Machine

/-! ### What a retirement with its checkpoint leaves (R87, R213, R368) -/

/-- A checkpoint and its cycle change the checkpoint, the kiln commands' age and what work beneath the core may change. -/
theorem ckCycle_own (u : State) : ∃ ck pub dq parked, (u.ckCycle u.cur).me.ownPart =
    { u.me.ownPart with ck := ck, pub := pub, dq := dq, parked := parked } := by
  have hspend : (u.ckCycle u.cur).me.ownPart = (u.checkpoint u.cur).me.ownPart := (beneath_spend ..).me
  have hck : (u.checkpoint u.cur).me = (u.checkpoint u.cur).core u.cur := rfl
  rw [hspend, hck, State.checkpoint, onCore_core]
  exact ⟨_, _, _, _, rfl⟩

/-- Beside the cores, a checkpoint and its cycle change the kilns and the clock alone. -/
theorem ckCycle_frame (s : State) (ep : Nat) :
    ∃ cores kilns now, s.ckCycle ep = { s with cores := cores, kilns := kilns, now := now } := by
  obtain ⟨cores, now, h⟩ := spend_frame (s.checkpoint ep) ep 1
  exact ⟨cores, _, now, by rw [State.ckCycle, h]; rfl⟩

/-- `t` is `v` retired to the next word, its checkpoint taken. -/
structure RetiredCk (v t : State) : Prop where
  cur : t.cur = v.cur
  pc : t.frame.pc = v.frame.pc + 4
  x : ∀ r, t.x r = v.x r
  full : ∀ r, t.frame.isFull r = v.frame.isFull r
  level : t.frame.level = v.frame.level
  instret : t.me.instret = v.me.instret + 1
  csr : t.me.csr = v.me.csr
  under : t.me.under = v.me.under
  reqs : t.me.reqs = v.me.reqs
  pops : t.me.pops = v.me.pops
  sets : t.me.sets = v.me.sets
  tag : t.me.tag = v.me.tag
  clusters : t.clusters = v.clusters
  egress : t.egress = v.egress
  inbox : t.inbox = v.inbox
  mem : ∀ p, t.readByte p = v.readByte p

theorem retiredCk (v : State) (cost : Nat) : RetiredCk v (v.retireCk cost) := by
  have hret := retire_retires v cost
  obtain ⟨ck, pub, dq, parked, hown⟩ := ckCycle_own (v.retire cost)
  obtain ⟨cores, kilns, now, hstate⟩ := ckCycle_frame (v.retire cost) (v.retire cost).cur
  have hcur : v.cur = (v.retire cost).cur := (Retires.cur hret).symm
  have hme := Retires.me_eq hret
  rw [State.retireCk, hcur]
  have hrun : (State.ckCycle (v.retire cost) (v.retire cost).cur).me.run = (v.retire cost).me.run := (congrArg Core.run hown :)
  have hx : ∀ r, (State.ckCycle (v.retire cost) (v.retire cost).cur).x r = v.x r := fun r =>
    (congrArg (Frame.x · r) hrun).trans (Retires.x hret r)
  constructor
  case cur => rw [hstate]; exact hcur.symm
  case pc => exact (congrArg Frame.pc hrun).trans (Retires.pc hret)
  case x => exact hx
  case full => exact fun r => (congrArg (Frame.isFull · r) (hrun.trans (Retires.frame_eq hret)) :)
  case level => exact (congrArg Frame.level (hrun.trans (Retires.frame_eq hret)) :)
  case instret => exact (congrArg Core.instret hown :).trans (congrArg Core.instret hme :)
  case csr => exact (congrArg Core.csr hown :).trans (congrArg Core.csr hme :)
  case under => exact (congrArg Core.under hown :).trans (congrArg Core.under hme :)
  case reqs => exact (congrArg Core.reqs hown :).trans (congrArg Core.reqs hme :)
  case pops => exact (congrArg Core.pops hown :).trans (congrArg Core.pops hme :)
  case sets => exact (congrArg Core.sets hown :).trans (congrArg Core.sets hme :)
  case tag => exact (congrArg Core.tag hown :).trans (congrArg Core.tag hme :)
  case clusters => rw [hstate, hret.2]; rfl
  case egress => rw [hstate, hret.2]; rfl
  case inbox => rw [hstate, hret.2]; rfl
  case mem =>
    intro p
    rw [hstate]
    exact Retires.readByte hret p

/-- An own part that writes rd alone, behind work beneath the cores, retired with its checkpoint. -/
theorem RetiredCk.goneOn_keepsFrom {s u v t : State} {rd : XReg} (h : RetiredCk v t) (hb : s.Beneath u)
    (ho : u.OnlyX rd v) : s.goneOn t 4 1 ∧ s.keepsFrom u t rd := by
  refine ⟨⟨?cur, ?pc, ?instret⟩, fun r hr => ?reg, ?csr, ?under, fun p => (h.mem p).trans (ho.mem p)⟩
  case cur => rw [h.cur, ho.cur, hb.cur]
  case pc => rw [h.pc, ho.pc, hb.frame]
  case instret => rw [h.instret, ho.instret, hb.instret]
  case reg => rw [h.x, ho.x r hr, hb.x]
  case csr => rw [h.csr, ho.csr, hb.csr]
  case under => rw [h.under, ho.under, hb.under]

/-! ### A register left empty (R67, R214) -/

theorem isFull_setEmpty {f : Frame} {r : XReg} (h : r ≠ 0) : (f.setEmpty r).isFull r = false := by
  have h' : ¬ r = 0#5 := h
  simp [Frame.setEmpty, Frame.isFull, h', regBit_getLsbD]

theorem x_setEmpty_other {f : Frame} {r q : XReg} (h : q ≠ r) : (f.setEmpty r).x q = f.x q := by
  by_cases h0 : r = 0#5
  · simp [Frame.setEmpty, h0]
  · simp [Frame.setEmpty, Frame.x, h0, regBit_getLsbD, h]

/-- The state with a request under way that will fill rd. -/
def State.withReq (u : State) (rd : XReg) (q : Req) : State :=
  u.onMe (fun d => { d with reqs := d.reqs ++ [q], nextId := d.nextId + 1, run := d.run.setEmpty rd })

theorem onlyX_withReq (u : State) (rd : XReg) (q : Req) : u.OnlyX rd (u.withReq rd q) := by
  unfold State.withReq
  exact .onMe (Frame.setEmpty_pc ..) fun _ hr => x_setEmpty_other hr

theorem withReq_frame (u : State) (rd : XReg) (q : Req) : (u.withReq rd q).frame = u.frame.setEmpty rd := by
  rw [State.withReq, onMe_frame]
  rfl

theorem withReq_reqs (u : State) (rd : XReg) (q : Req) : (u.withReq rd q).me.reqs = u.me.reqs ++ [q] := by
  rw [State.withReq, onMe_me]

theorem watch_reqs (s : State) (va : Word) (n kind : Nat) : (s.watch va n kind).me.reqs = s.me.reqs := by
  obtain ⟨p, h⟩ | h := watch_eq s va n kind <;> rw [h]
  rw [onFrame_me]

theorem watch_isFull (s : State) (va : Word) (n kind : Nat) (r : XReg) :
    (s.watch va n kind).frame.isFull r = s.frame.isFull r := by
  obtain ⟨p, h⟩ | h := watch_eq s va n kind <;> rw [h]
  rw [onFrame_frame]
  rfl

/-- A request made and on its way, a watched access noted, the retirement and the checkpoint. -/
theorem requested_of_next {s u v : State} {i : Instr} {rd : XReg} {q : Req} {a : Word} {n cost : Nat} (hb : s.Beneath u)
    (hid : q.id = u.me.nextId) (hrd : q.rd = rd) (hfid : q.fid = u.frame.fid)
    (hv : v = { u.withReq rd q with egress := v.egress, inbox := v.inbox })
    (he : exec i s = .next ((v.watch a n 1).retireCk cost)) :
    ∃ t, exec i s = .next t ∧ s.goneOn t 4 1 ∧ s.keepsFrom u t rd ∧ u.requested t q.kind rd ∧ t.egress = v.egress ∧
      t.inbox = v.inbox := by
  have hsent : (u.withReq rd q).OnlyX rd v := by
    rw [hv]
    exact .of_beneath .of_cores fun _ => rfl
  have hframe : v.frame = u.frame.setEmpty rd := by
    rw [hv]
    exact withReq_frame u rd q
  have hreqs : v.me.reqs = u.me.reqs ++ [q] := by
    rw [hv]
    exact withReq_reqs u rd q
  have hret := retiredCk (v.watch a n 1) cost
  obtain ⟨hgone, hkeeps⟩ := hret.goneOn_keepsFrom hb (((onlyX_withReq u rd q).trans hsent).trans (.watch _ a n 1))
  refine ⟨_, he, hgone, hkeeps, ⟨fun h0 => ?empty, q, ?request, hid, rfl, hrd, hfid⟩, ?egress, ?inbox⟩
  case empty => rw [hret.full, watch_isFull, hframe, isFull_setEmpty h0]
  case request =>
    rw [hret.reqs, watch_reqs, hreqs]
    exact List.mem_append_right _ (List.mem_singleton_self q)
  case egress => rw [hret.egress, watch_egress]
  case inbox => rw [hret.inbox, watch_inbox]

/-! ### What LDR does with its address (R126, R232) -/

/-- The request of a remote load with no successor. -/
def State.ldrReq (u : State) (rd : XReg) (n : Nat) (x : Xlat) (spad : Bool) : Req :=
  { id := u.me.nextId, kind := .ldr n, rd := rd, fid := u.me.run.fid, level := u.me.run.level, vdev := u.me.vdev,
    gen := u.me.gen, x := x, succ := none,
    own := if spad then [] else (List.range n).map (fun i => u.ownByte u.cur x.chip (x.pa + i)), pc := u.me.run.pc }

section Ldr

variable {w u : State} {rd : XReg} {a : Word} {n : Nat}
  (halign : a.toNat % n = 0) (hcarve : w.carveHolds a.toNat = false)
include halign hcarve

theorem ldr_waits (hwalk : w.walkWaits w.asker a.toNat = true) : w.ldr rd a n = w.stall .acquire := by
  simp only [State.ldr, halign, hcarve, hwalk, ne_eq, not_true, if_false, if_true, Bool.false_eq_true]

variable (hwalk : w.walkWaits w.asker a.toNat = false) (hacq : u.me.acqs = []) (hres : u.me.reserved < 16)
  (hsucc : u.frame.succ.getLsbD 0 = false)
include hwalk hacq hres hsucc

/-- A global address asks its home. -/
theorem ldr_glob {x : Xlat} (htr : w.translate w.asker a.toNat n .r = (.glob x, u))
    (hlock : u.locked w.cur (.glob x) a.toNat n false = false) :
    let v := u.withReq rd (u.ldrReq rd n x false)
    w.ldr rd a n =
      ((v.send (v.pktFrom v.cur x.home 0 16 (.ldr u.me.nextId x.pa x.set n false))).watch a n 1).retireCk 1 := by
  simp only [State.ldr, halign, hcarve, hwalk, htr, hlock, hacq, Nat.not_le.2 hres, State.withSucc, hsucc, ne_eq, not_true,
    if_false, Bool.false_eq_true, List.isEmpty_nil, Bool.not_true, Bool.false_and]
  rfl

/-- An address of a scratchpad: the own one is read at once, and another member is asked. -/
theorem ldr_spad {e o : Nat} (htr : w.translate w.asker a.toNat n .r = (.spad e o, u))
    (hlock : u.locked w.cur (.spad e o) a.toNat n false = false)
    (hbusy : byArray a.toNat = false ∨ u.arrayBusy w.cur (w.epId e) = false) :
    let x := arrayXlat w.chip (w.epId e) (arrayBase e + o)
    let v := u.withReq rd (u.ldrReq rd n x true)
    let off := x.pa % 131072
    let p := v.pktFrom v.cur (w.epId e) 0 16 (.ldr u.me.nextId off x.set n true)
    w.ldr rd a n =
      ((if w.epId e == v.epId v.cur then
          v.deliver v.cur (p.answer (w.epId e) 1 24 (.ldrRep u.me.nextId off
            (BitVec.ofNat 64 (leNat (v.spadBytes v.cur off n))) (v.anyPoison x.pa n)))
        else if clusterOf (w.epId e) == clusterOf v.cur && w.epId e / 65536 == v.chip then
          v.deliver (w.epId e % 65536) p
        else v.send p).watch a n 1).retireCk 1 := by
  have hb : (byArray a.toNat && u.arrayBusy w.cur (w.epId e)) = false := by
    rcases hbusy with h | h <;> simp [h]
  simp only [State.ldr, halign, hcarve, hwalk, htr, hlock, hb, hacq, Nat.not_le.2 hres, State.withSucc, hsucc, ne_eq, not_true,
    if_false, Bool.false_eq_true, List.isEmpty_nil, Bool.not_true, Bool.true_and, if_true]
  rfl

end Ldr

/-! ### The outcomes of a remote load -/

/-- What a remote load leaves behind the translation of its address. -/
def State.Requests (s : State) (i : Instr) (u : State) (rd : XReg) (kind : ReqKind) (sent : State → Prop) : Prop :=
  ∃ t, exec i s = .next t ∧ s.goneOn t 4 1 ∧ s.keepsFrom u t rd ∧ u.requested t kind rd ∧ sent t

section Outcomes

variable {s u : State} {i : Instr} {rd rs1 : XReg} {a : Word} {n : Nat}
  (he : exec i s = .next ((s.wake [rs1] rd).ldr rd a n)) (hsucc : s.frame.succ.getLsbD 0 = false)
  (halign : a.toNat % n = 0) (hcarve : (s.wake [rs1] rd).carveHolds a.toNat = false)
  (hwalk : (s.wake [rs1] rd).walkWaits (s.wake [rs1] rd).asker a.toNat = false) (hacq : u.me.acqs = [])
  (hres : u.me.reserved < 16)
include he hsucc halign hcarve hwalk hacq hres

theorem ldr_asks_home {x : Xlat} (htr : (s.wake [rs1] rd).translate (s.wake [rs1] rd).asker a.toNat n .r = (.glob x, u))
    (hlock : u.locked s.cur (.glob x) a.toNat n false = false) :
    s.Requests i u rd (.ldr n) (fun t => ∃ p ∈ t.egress, p.dst = x.home ∧ p.cls = 0 ∧
      p.body = .ldr u.me.nextId x.pa x.set n false) := by
  have hb := beneath_wake_translate htr
  rw [ldr_glob halign hcarve hwalk hacq hres (by rw [hb.frame]; exact hsucc) htr hlock] at he
  obtain ⟨t, ht, hgone, hkeeps, hreq, hegress, -⟩ := requested_of_next (q := u.ldrReq rd n x false) hb rfl rfl rfl rfl he
  refine ⟨t, ht, hgone, hkeeps, hreq, ?_⟩
  dsimp only
  rw [hegress]
  exact ⟨_, List.mem_append_right _ (List.mem_singleton_self _), rfl, rfl, rfl⟩

/-- The own scratchpad is read at once, and the reply is on its way; another member of the cluster is asked. -/
theorem ldr_asks_scratchpad {e o : Nat}
    (htr : (s.wake [rs1] rd).translate (s.wake [rs1] rd).asker a.toNat n .r = (.spad e o, u))
    (hcluster : clusterOf e = clusterOf s.cur) (he16 : e < 65536) (hcur16 : s.cur < 65536) (ho : o < 131072)
    (hlock : u.locked s.cur (.spad e o) a.toNat n false = false)
    (hbusy : byArray a.toNat = false ∨ u.arrayBusy s.cur (s.epId e) = false) :
    s.Requests i u rd (.ldr n) (fun t => ∃ p ∈ tget t.inbox e [], p.dst = u.epId e ∧
      (e ≠ s.cur → p.body = .ldr u.me.nextId o 0 n true) ∧
      (e = s.cur → p.body = .ldrRep u.me.nextId o (BitVec.ofNat 64 (leNat (u.spadBytes e o n)))
        (u.anyPoison (arrayBase e + o) n))) := by
  have hb := beneath_wake_translate htr
  have hoff : (arrayBase e + o) % 131072 = o := by
    unfold arrayBase
    omega
  have hid : (s.wake [rs1] rd).epId e = u.chip * 65536 + e := by
    rw [State.epId, hb.chip, Nat.mod_eq_of_lt he16]
    rfl
  rw [ldr_spad halign hcarve hwalk hacq hres (by rw [hb.frame]; exact hsucc) htr hlock hbusy] at he
  generalize hq : u.ldrReq rd n (arrayXlat (s.wake [rs1] rd).chip ((s.wake [rs1] rd).epId e) (arrayBase e + o)) true = q at he
  have hkind : q.kind = .ldr n := hq ▸ rfl
  have hqid : q.id = u.me.nextId := hq ▸ rfl
  have hqrd : q.rd = rd := hq ▸ rfl
  have hqfid : q.fid = u.frame.fid := hq ▸ rfl
  have hv : (u.withReq rd q).epId (u.withReq rd q).cur = u.chip * 65536 + s.cur := by
    rw [State.epId, (onlyX_withReq u rd q).cur, hb.cur, Nat.mod_eq_of_lt hcur16]
    rfl
  have hue : u.epId e = u.chip * 65536 + e := by rw [State.epId, Nat.mod_eq_of_lt he16]
  have hpa : (arrayXlat (s.wake [rs1] rd).chip ((s.wake [rs1] rd).epId e) (arrayBase e + o)).pa = arrayBase e + o := rfl
  rw [hpa, hoff, hid, hv] at he
  by_cases hcur : e = s.cur
  · have hbytes : (u.withReq rd q).spadBytes e o n = u.spadBytes e o n := by
      rw [State.spadBytes, State.spadBytes, readBytes_eq_map, readBytes_eq_map]
      rfl
    have hep : (u.withReq rd q).cur = e := (onlyX_withReq u rd q).cur.trans (hb.cur.trans hcur.symm)
    rw [if_pos (by rw [hcur]; exact beq_self_eq_true _), hep, hbytes] at he
    obtain ⟨t, ht, hgone, hkeeps, hreq, -, hinbox⟩ := requested_of_next hb hqid hqrd hqfid rfl he
    rw [hkind] at hreq
    refine ⟨t, ht, hgone, hkeeps, hreq, _, hinbox ▸ mem_deliver .., ?_, fun h => absurd hcur h, fun _ => rfl⟩
    exact (congrArg (State.epId _) hep.symm).trans (hv.trans (by rw [hue, hcur]))
  · have hdst : (u.chip * 65536 + e == u.chip * 65536 + s.cur) = false := beq_eq_false_iff_ne.2 (by omega)
    have hcl : clusterOf (u.chip * 65536 + e) = clusterOf (u.withReq rd q).cur := by
      rw [(onlyX_withReq u rd q).cur, hb.cur, ← hcluster, clusterOf, clusterOf, Nat.mul_add_mod_self_right]
    have hchip : (u.chip * 65536 + e) / 65536 = (u.withReq rd q).chip :=
      (by omega : (u.chip * 65536 + e) / 65536 = u.chip)
    have hlow : (u.chip * 65536 + e) % 65536 = e := by omega
    rw [if_neg (by rw [hdst]; exact Bool.false_ne_true), if_pos (by rw [hcl, hchip]; simp), hlow] at he
    obtain ⟨t, ht, hgone, hkeeps, hreq, -, hinbox⟩ := requested_of_next hb hqid hqrd hqfid rfl he
    rw [hkind] at hreq
    exact ⟨t, ht, hgone, hkeeps, hreq, _, hinbox ▸ mem_deliver .., hue.symm, fun _ => rfl, fun h => absurd h hcur⟩

end Outcomes

/-- Settles O30: behind an acquire by the wait, else by the place that the address translates to. -/
theorem remoteLoadsLeaveTheirRegisterEmpty : Obligations.RemoteLoadsLeaveTheirRegisterEmpty := by
  intro s rd rs1 e1 u hc hsucc a w loads
  have hloads : ∀ {i : Instr} {n : Nat},
      exec i s = s.run i [rs1] (eSrc rs1 e1) rd (fun t => t.ldr rd (t.x rs1) n) → isPrefixed i = false → loads i n := by
    intro i n hi hpre hal hcarve
    have he : exec i s = .next ((s.wake [rs1] rd).ldr rd a n) :=
      exec_of_run hi (by rw [hpre]; exact hc) eSrc_mem (by rw [wake_x])
    exact ⟨fun hwalk => by rw [he, ldr_waits hal hcarve hwalk], fun hwalk hacq hres =>
      ⟨fun x htr hlock => ldr_asks_home he hsucc hal hcarve hwalk hacq hres htr hlock,
        fun e o htr hcl he16 hcur16 ho hlock hbusy =>
          ldr_asks_scratchpad he hsucc hal hcarve hwalk hacq hres htr hcl he16 hcur16 ho hlock hbusy⟩⟩
  exact ⟨(hloads (exec_ldr s rd rs1 e1) rfl :), (hloads (exec_ldrw s rd rs1 e1) rfl :)⟩


end Sys2Proof.Machine

/-! PROOFS. Copies (R133, R234, R244 to R247): the translations of a copy's ends, its entry into the engine, and a copy of no
bytes. -/

namespace Sys2Proof.Machine

/-! ### The ends of a copy (R244) -/

theorem beneath_asker {s t : State} (h : s.Beneath t) : t.asker = s.asker := by
  have hv : t.me.vdev = s.me.vdev := (congrArg Core.vdev h.me :)
  rw [State.asker, State.asker, h.cur, hv, h.frame]

/-- Ends that translate to where a copy may lie go on to its issue. -/
theorem copyEnds_ok {w u v : State} {a b : Word} {ts td : Target} {k : Target → Target → State → State}
    (h1 : w.translate w.asker a.toNat 1 .r = (ts, u)) (hs : ts.copyable = true)
    (h2 : u.translate u.asker b.toNat 1 .w = (td, v)) (hd : td.copyable = true) : w.copyEnds a b k = k ts td v := by
  rw [beneath_asker (.of_translate h1)] at h2
  cases ts with
  | glob _ | spad _ _ | spadFar _ _ _ =>
    cases td with
    | glob _ | spad _ _ | spadFar _ _ _ =>
      simp only [State.copyEnds, h1, h2, Target.fault, Target.copyable, Bool.not_true, Bool.false_eq_true, if_false]
    | _ => cases hd
  | _ => cases hs

/-! ### Reads of a descriptor (R246) -/

theorem beneath_globGet {s t : State} {ep n : Nat} {x : Xlat} {l : List Byte} (h : s.globGet ep x n = (.data l, t)) :
    s.Beneath t := by
  unfold State.globGet at h
  dsimp only at h
  split at h
  · cases h
  split at h
  · split at h
    · cases h
    · cases h
      unfold State.l1Touch
      exact .onCore fun _ => rfl
  · split at h
    · cases h
    · split at h <;> cases h

theorem beneath_farGet {s t : State} {chip dst pa n : Nat} {b : Nat → Body} {l : List Byte}
    (h : s.farGet chip dst pa n b = (.data l, t)) : s.Beneath t := by
  unfold State.farGet at h
  dsimp only at h
  split at h
  · split at h
    · cases h
    · cases h
      exact .refl s
  · split at h
    · cases h
    split at h
    · cases h
    split at h <;> cases h

/-- A read of the running instruction that has its bytes leaves the cores' own part. -/
theorem beneath_fetchData {s t : State} {va n : Nat} {wide : Bool} {l : List Byte}
    (h : s.fetchData va n wide = (.data l, t)) : s.Beneath t := by
  have htr := State.Beneath.translate s s.asker va n .r
  unfold State.fetchData State.fetchFor at h
  split at h
  · cases h
  split at h
  · cases h
  dsimp only at h
  split at h
  · cases h
  · cases h
  · cases h
  split at h
  · cases h
  split at h
  · exact htr.trans (beneath_globGet h)
  · cases congrArg Prod.snd h
    exact htr
  · split at h
    · cases h
      exact htr
    · cases h
  · split at h
    · cases congrArg Prod.snd h
      exact htr
    · cases h
  · split at h
    · exact htr.trans (beneath_farGet h)
    · cases h
  · exact htr.trans (beneath_farGet h)
  · cases h

theorem desc2d_ok {w u0 u1 u2 u3 : State} {c : Word} {d0 d1 d2 d3 : List Byte} {k : List Byte → State → State}
    (h0 : w.fetchData c.toNat 8 true = (.data d0, u0)) (h1 : u0.fetchData (c + 8).toNat 8 true = (.data d1, u1))
    (h2 : u1.fetchData (c + 16).toNat 8 true = (.data d2, u2)) (h3 : u2.fetchData (c + 24).toNat 8 true = (.data d3, u3)) :
    desc2d w c k = k (d0 ++ d1 ++ d2 ++ d3) u3 := by
  simp only [desc2d, State.withData, h0, h1, h2, h3]

/-! ### Issue (R133, R244) -/

/-- The state whose next tag a copy has taken for rd. -/
def State.withTag (z : State) (rd : XReg) : State :=
  (z.onMe (fun d => { d with tag := (d.tag + 1) % 65536, run := { d.run with counter := none } })).setX rd
    (BitVec.ofNat 64 z.me.tag)

theorem onlyX_withTag (z : State) (rd : XReg) : z.OnlyX rd (z.withTag rd) := by
  unfold State.withTag
  refine .trans ?_ (.setX ..)
  exact .onMe rfl fun _ _ => rfl

theorem withTag_me (z : State) (rd : XReg) : (z.withTag rd).me =
    { z.me with tag := (z.me.tag + 1) % 65536, run := ({ z.me.run with counter := none } : Frame).setX rd (BitVec.ofNat 64 z.me.tag) } := by
  rw [State.withTag, State.setX, onFrame_me, onMe_me]

theorem withTag_x {z : State} {rd : XReg} (h : rd ≠ 0) : (z.withTag rd).x rd = BitVec.ofNat 64 z.me.tag := by
  rw [State.withTag, State.x, setX_frame, Frame.x_setX, if_neg h]

/-- The copy that a plan puts into the engine. -/
def State.newCopy (z : State) (p : CopyPlan) : Copy :=
  { id := (z.cluster (clusterOf z.cur)).nextCopy, core := z.cur, tag := z.me.tag, level := z.me.run.level, vdev := z.me.vdev,
    gen := z.me.gen, fkey := z.me.fkey, sup := z.me.run.sup, rows := p.rows, members := p.members, path := p.path,
    pasid := z.me.run.pasid, nextNo := 0, flight := [], srcs := [], landed := 0, homes := [], seq := none, stamps := 0,
    succ := none, hasSucc := false, counter := z.me.run.counter, nxr := z.me.run.nxr, failed := none, silent := false,
    paused := false }

/-- The copies of the running core that hold a slot of the engine. -/
def State.copySlots (z : State) : Nat :=
  ((z.cluster (clusterOf z.cur)).copies.filter (fun c => c.core == z.cur && !c.paused)).length

/-- The state with a plan's copy in the engine, its locks set. -/
def State.withCopy (z : State) (p : CopyPlan) : State :=
  (z.withTag p.rd).onCluster (clusterOf z.cur) (fun d => { d with
    copies := d.copies ++ [z.newCopy p],
    locks := d.locks ++ p.locks.map (fun l => { l with owner := 2 * (z.cluster (clusterOf z.cur)).nextCopy }),
    nextCopy := (z.cluster (clusterOf z.cur)).nextCopy + 1 })

section Issue

variable {z : State} {p : CopyPlan}

theorem issueCopy_slots (hp : p.empty = false) (h : 8 ≤ z.copySlots) : z.issueCopy p = z.stall .copySlot := by
  have hslots : (!p.empty && decide (8 ≤ z.copySlots)) = true := by rw [hp, decide_eq_true h]; rfl
  exact if_pos hslots

theorem issueCopy_locks (hp : p.empty = false) (hs : z.copySlots < 8)
    (h : 32 < (z.cluster (clusterOf z.cur)).liveLocks.length + p.locks.length) : z.issueCopy p = z.stall .locks := by
  have hslots : ¬ (!p.empty && decide (8 ≤ z.copySlots)) = true := by rw [decide_eq_false (Nat.not_le.2 hs)]; simp
  have hlocks : (!p.empty && decide (32 < (z.cluster (clusterOf z.cur)).liveLocks.length + p.locks.length)) = true := by
    rw [hp, decide_eq_true h]
    rfl
  exact (if_neg hslots).trans (if_pos hlocks)

theorem issueCopy_enters (hp : p.empty = false) (hs : z.copySlots < 8)
    (h : (z.cluster (clusterOf z.cur)).liveLocks.length + p.locks.length ≤ 32) (hsucc : z.frame.succ.getLsbD 0 = false) :
    z.issueCopy p = (z.withCopy p).retireCk 2 := by
  have hslots : ¬ (!p.empty && decide (8 ≤ z.copySlots)) = true := by rw [decide_eq_false (Nat.not_le.2 hs)]; simp
  have hlocks : ¬ (!p.empty && decide (32 < (z.cluster (clusterOf z.cur)).liveLocks.length + p.locks.length)) = true := by
    rw [decide_eq_false (Nat.not_lt.2 h)]
    simp
  unfold State.issueCopy
  refine (if_neg hslots).trans ((if_neg hlocks).trans ?_)
  rw [State.withSucc, if_neg (by rw [hsucc]; decide)]
  simp only [hp, Bool.false_eq_true, if_false]
  rfl

theorem issueCopy_empty (hp : p.empty = true) (hsucc : z.frame.succ.getLsbD 0 = false) :
    z.issueCopy p = ((z.withTag p.rd).pushQ (z.withTag p.rd).cur z.me.run.level 4 (BitVec.ofNat 64 z.me.tag)).retireCk 2 := by
  unfold State.issueCopy
  refine (if_neg (by simp [hp])).trans ((if_neg (by simp [hp])).trans ?_)
  rw [State.withSucc, if_neg (by rw [hsucc]; decide)]
  simp only [hp, if_true]
  rfl

end Issue

/-! ### A copy in the engine -/

/-- `t` is `s` gone on with its tag in rd, behind translations that left `z`. -/
def State.Tagged (s z t : State) (rd : XReg) : Prop :=
  s.goneOn t 4 1 ∧ s.keepsFrom z t rd ∧ (rd ≠ 0 → t.x rd = BitVec.ofNat 64 s.me.tag) ∧ t.me.tag = (s.me.tag + 1) % 65536

/-- The copy waits for its slot or its locks, or enters the engine with its rows. -/
def State.CopyEnters (s : State) (i : Instr) (rd : XReg) (z : State) (rows : List (Nat × Nat × Nat)) (members : List Nat) :
    Prop :=
  (8 ≤ ((z.cluster (clusterOf s.cur)).copies.filter (fun c => c.core == z.cur && !c.paused)).length →
    exec i s = .next (z.stall .copySlot)) ∧
  (((z.cluster (clusterOf s.cur)).copies.filter (fun c => c.core == z.cur && !c.paused)).length < 8 →
    30 < (z.cluster (clusterOf s.cur)).liveLocks.length → exec i s = .next (z.stall .locks)) ∧
  (((z.cluster (clusterOf s.cur)).copies.filter (fun c => c.core == z.cur && !c.paused)).length < 8 →
    (z.cluster (clusterOf s.cur)).liveLocks.length ≤ 30 → ∃ t, exec i s = .next t ∧ s.Tagged z t rd ∧
      ∃ c ∈ (t.cluster (clusterOf s.cur)).copies, c.core = s.cur ∧ c.tag = s.me.tag ∧ c.rows = rows ∧ c.members = members ∧
        c.landed = 0 ∧ c.level = s.frame.level ∧
        ((t.cluster (clusterOf s.cur)).locks.filter (fun l => l.owner == 2 * c.id)).length ≥ 2)

theorem beneath_tag {s z : State} (h : s.Beneath z) : z.me.tag = s.me.tag := (congrArg Core.tag h.me :)

theorem tagged_of_retiredCk {s z v t : State} {rd : XReg} (hb : s.Beneath z) (hv : (z.withTag rd).OnlyX rd v)
    (htag : v.me.tag = (z.withTag rd).me.tag) (hrd : v.x rd = (z.withTag rd).x rd) (h : RetiredCk v t) : s.Tagged z t rd := by
  obtain ⟨hgone, hkeeps⟩ := h.goneOn_keepsFrom hb ((onlyX_withTag z rd).trans hv)
  refine ⟨hgone, hkeeps, fun h0 => ?_, ?_⟩
  · rw [h.x, hrd, withTag_x h0, beneath_tag hb]
  · rw [h.tag, htag, withTag_me, ← beneath_tag hb]

theorem copyEnters_of_next {s z : State} {i : Instr} {p : CopyPlan} (hb : s.Beneath z) (hp : p.empty = false)
    (hlen : p.locks.length = 2) (hsucc : s.frame.succ.getLsbD 0 = false) (he : exec i s = .next (z.issueCopy p)) :
    s.CopyEnters i p.rd z p.rows p.members := by
  have hcur : z.cur = s.cur := hb.cur
  rw [State.CopyEnters, ← hcur]
  refine ⟨fun h => he.trans (by rw [issueCopy_slots hp h]), fun hs h => he.trans ?locks, fun hs h => ?enters⟩
  case locks => rw [issueCopy_locks hp hs (by omega)]
  case enters =>
    rw [issueCopy_enters hp hs (by omega) (by rw [hb.frame]; exact hsucc)] at he
    have hret := retiredCk (z.withCopy p) 2
    have hk : State.cluster ((z.withCopy p).retireCk 2) (clusterOf z.cur) = (z.withCopy p).cluster (clusterOf z.cur) := by
      rw [State.cluster, hret.clusters]
      rfl
    refine ⟨_, he, tagged_of_retiredCk (v := z.withCopy p) hb (.of_beneath .of_cores fun _ => rfl) rfl rfl hret, z.newCopy p, ?copy,
      rfl, beneath_tag hb,
      rfl, rfl, rfl, ?level, ?lock⟩
    case level => exact congrArg Frame.level hb.frame
    case copy =>
      rw [hk, State.withCopy, onCluster_cluster]
      exact List.mem_append_right _ (List.mem_singleton_self _)
    case lock =>
      rw [hk, State.withCopy, onCluster_cluster]
      dsimp only
      rw [List.filter_append, List.length_append]
      have hall : ((p.locks.map (fun l => ({ l with owner := 2 * (z.cluster (clusterOf z.cur)).nextCopy } : RangeLock))).filter
          (fun l => l.owner == 2 * (z.newCopy p).id)).length = 2 := by
        rw [List.filter_eq_self.2, List.length_map, hlen]
        intro l hl
        obtain ⟨_, -, rfl⟩ := List.mem_map.1 hl
        exact beq_self_eq_true _
      omega

/-! ### A copy of no bytes (R234, R247) -/

theorem rekey_clusters (s : State) (key sector : Nat) : (s.rekey key sector).clusters = s.clusters := by
  unfold State.rekey
  dsimp only
  repeat' split
  all_goals rfl

theorem writeKeyed_clusters (s : State) (key pa : Nat) (bs : List Byte) : (s.writeKeyed key pa bs).clusters = s.clusters := by
  unfold State.writeKeyed
  obtain ⟨_, _, _, h⟩ := writeBytes_frame bs ((List.range ((pa + bs.length + 127) / 128 - pa / 128)).foldl
    (fun t i => State.rekey t key (pa / 128 + i)) s) pa
  rw [h]
  dsimp only
  clear h
  generalize List.range ((pa + bs.length + 127) / 128 - pa / 128) = l
  induction l generalizing s with
  | nil => rfl
  | cons i l ih => rw [List.foldl_cons, ih, rekey_clusters]

theorem setPoison_clusters (s : State) (pa : Nat) (p : Bool) : (s.setPoison pa p).clusters = s.clusters := by
  unfold State.setPoison
  dsimp only
  split <;> rfl

/-- Of a fill of a register, all but the issuing core's frames lies beneath the cores. -/
theorem fillReg_beneath (s : State) (ep fid : Nat) (rd : XReg) (v : Word) (p : Bool) :
    (s.onCore ep (fun c => c.fill fid rd v p)).Beneath (s.fillReg ep fid rd v p) ∧
      (s.fillReg ep fid rd v p).clusters = s.clusters := by
  unfold State.fillReg
  dsimp only
  split
  · split
    · exact ⟨.refl _, rfl⟩
    · refine ⟨(State.Beneath.writeKeyed ..).trans (beneath_setPoison ..), ?_⟩
      rw [setPoison_clusters, writeKeyed_clusters]
      rfl
  · exact ⟨.refl _, rfl⟩

theorem fillX_pc (f : Frame) (r : XReg) (v : Word) (p : Bool) : (f.fillX r v p).pc = f.pc := by
  unfold Frame.fillX
  dsimp only
  split
  · rfl
  · split <;> exact Frame.setX_pc f r v

/-- A sound fill writes the register as the frame's own write does. -/
theorem fillX_sound (f : Frame) (r : XReg) (v : Word) : f.fillX r v false = f.setX r v := by
  unfold Frame.fillX
  split
  · next h => subst h; rfl
  · rfl

theorem isFull_setX {f : Frame} {r : XReg} {v : Word} : (f.setX r v).isFull r = true := by
  by_cases h : r = 0#5
  · simp [Frame.isFull, h]
  · simp [Frame.setX, Frame.isFull, h, regBit_getLsbD]

theorem takeFirst_eq_none {α : Type} {p : α → Bool} {l : List α} (h : l.any p = false) : takeFirst p l = none := by
  induction l with
  | nil => rfl
  | cons a l ih =>
    rw [List.any_cons, Bool.or_eq_false_iff] at h
    rw [takeFirst, if_neg (by simp [h.1]), ih h.2]

/-- A copy of no bytes has completed: its tag is in rd and in q4, or in a register whose QPOP waited. -/
def State.CopyDone (s : State) (i : Instr) (rd : XReg) (z : State) : Prop :=
  ∃ t, exec i s = .next t ∧ s.goneOn t 4 1 ∧
    (rd ≠ 0 → t.x rd = BitVec.ofNat 64 s.me.tag) ∧ t.me.tag = (s.me.tag + 1) % 65536 ∧
    (t.cluster (clusterOf s.cur)).copies = (z.cluster (clusterOf s.cur)).copies ∧
    (t.cluster (clusterOf s.cur)).locks = (z.cluster (clusterOf s.cur)).locks ∧
    (s.me.popWaits s.frame.level 4 = false → s.Tagged z t rd ∧ ∃ q, t.kset.q4 = q ++ [s.me.tag % 65536]) ∧
    (∀ p l, takeFirst (fun (p : Pop) => p.level == s.frame.level && p.q == 4) s.me.pops = some (p, l) →
      t.me.pops = l ∧ (p.fid = s.frame.fid → p.rd ≠ 0 → p.rd ≠ rd →
        t.frame.isFull p.rd = true ∧ t.frame.x p.rd = BitVec.ofNat 64 s.me.tag))

theorem beneath_pops {s z : State} (h : s.Beneath z) : z.me.pops = s.me.pops := (congrArg Core.pops h.me :)

theorem withTag_pops (z : State) (rd : XReg) : (z.withTag rd).me.pops = z.me.pops := by rw [withTag_me]

/-- A write of a register leaves the frame's level and identity. -/
theorem setX_level_fid (f : Frame) (r : XReg) (v : Word) : (f.setX r v).level = f.level ∧ (f.setX r v).fid = f.fid := by
  unfold Frame.setX
  split <;> exact ⟨rfl, rfl⟩

theorem withTag_level_fid (z : State) (rd : XReg) :
    (z.withTag rd).frame.level = z.frame.level ∧ (z.withTag rd).frame.fid = z.frame.fid := by
  rw [State.frame, withTag_me]
  exact setX_level_fid ..

theorem pushQ_queued {s : State} {ep lvl q : Nat} {v : Word}
    (h : takeFirst (fun (p : Pop) => p.level == lvl && p.q == q) (s.core ep).pops = none) :
    s.pushQ ep lvl q v =
      s.onCore ep (fun c => { c with sets := tset c.sets lvl (KSet.push (tget c.sets lvl KSet.reset) q v) }) := by
  rw [State.pushQ, h]

theorem pushQ_popped {s : State} {ep lvl q : Nat} {v : Word} {p : Pop} {l : List Pop}
    (h : takeFirst (fun (p : Pop) => p.level == lvl && p.q == q) (s.core ep).pops = some (p, l)) :
    s.pushQ ep lvl q v = (s.onCore ep (fun c => { c with pops := l })).fillReg ep p.fid p.rd v false := by
  rw [State.pushQ, h]

/-- With no QPOP waiting, the tag goes to the end of q4. -/
theorem copyDone_queued {s z : State} {i : Instr} {rd : XReg} (hb : s.Beneath z)
    (hnone : takeFirst (fun (p : Pop) => p.level == s.frame.level && p.q == 4) s.me.pops = none)
    (he : exec i s = .next (((z.withTag rd).pushQ (z.withTag rd).cur z.me.run.level 4 (BitVec.ofNat 64 z.me.tag)).retireCk 2)) :
    s.CopyDone i rd z := by
  have hlevel : z.me.run.level = s.frame.level := congrArg Frame.level hb.frame
  have hpops : ((z.withTag rd).core (z.withTag rd).cur).pops = s.me.pops := (withTag_pops z rd).trans (beneath_pops hb)
  rw [hlevel, pushQ_queued (by rw [hpops]; exact hnone)] at he
  generalize hv : State.onCore _ _ _ = v at he
  have hvme : v.me = { (z.withTag rd).me with
      sets := tset (z.withTag rd).me.sets s.frame.level
        (KSet.push (tget (z.withTag rd).me.sets s.frame.level KSet.reset) 4 (BitVec.ofNat 64 z.me.tag)) } := by
    rw [← hv]
    exact onMe_me ..
  have honly : (z.withTag rd).OnlyX rd v := by
    rw [← hv]
    exact .onCore (fun _ => rfl) (fun _ => rfl) (fun _ => rfl) fun _ => rfl
  have hvframe : v.frame = (z.withTag rd).frame := (congrArg Core.run hvme :)
  have hret := retiredCk v 2
  have htagged : s.Tagged z (v.retireCk 2) rd :=
    tagged_of_retiredCk hb honly (congrArg Core.tag hvme :) (congrArg (Frame.x · rd) hvframe) hret
  have hclusters : (v.retireCk 2).clusters = z.clusters := by
    rw [hret.clusters, ← hv]
    rfl
  have hq4 : ∃ q, (v.retireCk 2).kset.q4 = q ++ [s.me.tag % 65536] := by
    have hlvl : (v.retireCk 2).frame.level = s.frame.level := by
      rw [hret.level, hvframe, (withTag_level_fid z rd).1, hb.frame]
    have htag : (BitVec.ofNat 64 s.me.tag).toNat % 65536 = s.me.tag % 65536 := by
      rw [BitVec.toNat_ofNat]
      omega
    rw [State.kset, hlvl, hret.sets, hvme, tget_tset_same, beneath_tag hb, ← htag]
    exact ⟨_, rfl⟩
  obtain ⟨hgone, hkeeps, hx, htag⟩ := htagged
  exact ⟨_, he, hgone, hx, htag, by rw [State.cluster, hclusters]; rfl, by rw [State.cluster, hclusters]; rfl,
    fun _ => ⟨⟨hgone, hkeeps, hx, htag⟩, hq4⟩, fun p l h => absurd (hnone.symm.trans h) nofun⟩

theorem popWaits_of_takeFirst {c : Core} {lvl q : Nat} {p : Pop} {l : List Pop}
    (h : takeFirst (fun (p : Pop) => p.level == lvl && p.q == q) c.pops = some (p, l)) : c.popWaits lvl q = true := by
  by_contra hn
  rw [takeFirst_eq_none (Bool.eq_false_iff.2 hn)] at h
  cases h

/-- A waiting QPOP takes the tag into its register. -/
theorem copyDone_popped {s z : State} {i : Instr} {rd : XReg} {p : Pop} {l : List Pop} (hb : s.Beneath z)
    (hpop : takeFirst (fun (p : Pop) => p.level == s.frame.level && p.q == 4) s.me.pops = some (p, l))
    (he : exec i s = .next (((z.withTag rd).pushQ (z.withTag rd).cur z.me.run.level 4 (BitVec.ofNat 64 z.me.tag)).retireCk 2)) :
    s.CopyDone i rd z := by
  have hlevel : z.me.run.level = s.frame.level := congrArg Frame.level hb.frame
  have hpops : ((z.withTag rd).core (z.withTag rd).cur).pops = s.me.pops := (withTag_pops z rd).trans (beneath_pops hb)
  rw [hlevel, pushQ_popped (by rw [hpops]; exact hpop)] at he
  obtain ⟨hfill, hfillk⟩ := fillReg_beneath ((z.withTag rd).onCore (z.withTag rd).cur (fun c => { c with pops := l }))
    (z.withTag rd).cur p.fid p.rd (BitVec.ofNat 64 z.me.tag) false
  generalize hv : State.fillReg _ _ _ _ _ _ = v at he hfill hfillk
  have hfid : (z.withTag rd).frame.fid = s.frame.fid := (withTag_level_fid z rd).2.trans (congrArg Frame.fid hb.frame)
  have hme : v.me.ownPart =
      (Core.fill { (z.withTag rd).me with pops := l } p.fid p.rd (BitVec.ofNat 64 z.me.tag) false).ownPart := by
    have hcore : (((z.withTag rd).onCore (z.withTag rd).cur (fun c => { c with pops := l })).onCore (z.withTag rd).cur
        (fun c => c.fill p.fid p.rd (BitVec.ofNat 64 z.me.tag) false)).me =
        Core.fill { (z.withTag rd).me with pops := l } p.fid p.rd (BitVec.ofNat 64 z.me.tag) false := by
      rw [State.me, onCore_cur, onCore_cur, onCore_core, onCore_core]
      rfl
    rw [hfill.me, hcore]
  have hframe : v.frame = if (z.withTag rd).frame.fid = p.fid then (z.withTag rd).frame.setX p.rd (BitVec.ofNat 64 z.me.tag)
      else (z.withTag rd).frame := by
    rw [← fillX_sound]
    exact (congrArg Core.run hme :)
  have hret := retiredCk v 2
  have hpc : v.frame.pc = s.frame.pc := by
    rw [hframe, apply_ite Frame.pc, Frame.setX_pc, ite_self, (onlyX_withTag z rd).pc, hb.frame]
  have hx : rd ≠ 0 → v.x rd = BitVec.ofNat 64 s.me.tag := fun h0 => by
    have htag : (z.withTag rd).frame.x rd = BitVec.ofNat 64 s.me.tag := (withTag_x h0).trans (by rw [beneath_tag hb])
    rw [State.x, hframe]
    split
    · by_cases hrd : rd = p.rd
      · rw [← hrd, Frame.x_setX, if_neg h0, beneath_tag hb]
      · rw [Frame.x_setX_other _ _ _ _ hrd, htag]
    · exact htag
  have htag : v.me.tag = (s.me.tag + 1) % 65536 := by
    rw [← beneath_tag hb]
    exact (congrArg Core.tag hme :).trans (by rw [withTag_me]; rfl)
  have hinstret : v.me.instret = s.me.instret :=
    (congrArg Core.instret hme :).trans ((onlyX_withTag z rd).instret.trans hb.instret)
  have hclusters : (v.retireCk 2).clusters = z.clusters := by
    rw [hret.clusters, hfillk]
    rfl
  refine ⟨_, he, ⟨hret.cur.trans (hfill.cur.trans hb.cur), by rw [hret.pc, hpc], by rw [hret.instret, hinstret]⟩,
    fun h0 => by rw [hret.x, hx h0], by rw [hret.tag, htag], by rw [State.cluster, hclusters]; rfl,
    by rw [State.cluster, hclusters]; rfl, fun h => ?quiet, fun p' l' h => ?popped⟩
  case quiet =>
    rw [popWaits_of_takeFirst hpop] at h
    cases h
  case popped =>
    obtain ⟨rfl, rfl⟩ : p' = p ∧ l' = l := by
      rw [hpop] at h
      cases h
      exact ⟨rfl, rfl⟩
    refine ⟨hret.pops.trans (congrArg Core.pops hme :), fun hpf h0 _ => ?_⟩
    rw [if_pos (hfid.trans hpf.symm)] at hframe
    refine ⟨by rw [hret.full, hframe, isFull_setX], ?_⟩
    exact (hret.x p'.rd).trans (by rw [State.x, hframe, Frame.x_setX, if_neg h0, beneath_tag hb])

theorem copyDone_of_next {s z : State} {i : Instr} {p : CopyPlan} (hb : s.Beneath z) (hp : p.empty = true)
    (hsucc : s.frame.succ.getLsbD 0 = false) (he : exec i s = .next (z.issueCopy p)) : s.CopyDone i p.rd z := by
  rw [issueCopy_empty hp (by rw [hb.frame]; exact hsucc)] at he
  cases hpop : takeFirst (fun (p : Pop) => p.level == s.frame.level && p.q == 4) s.me.pops with
  | none => exact copyDone_queued hb hpop he
  | some e => exact copyDone_popped hb hpop he

/-! ### The three forms (R245 to R247) -/

section Forms

variable {s : State} {rd rs1 rs2 rs3 : XReg} (hc : s.clear false [rs1, rs2, rs3] rd = true)
include hc

theorem exec_copy_of_clear {t : State} (h : (s.wake [rs1, rs2, rs3] rd).copyEnds (s.x rs1) (s.x rs2) (fun ts td u =>
      u.issueCopy { rd := rd, rows := [((s.x rs1).toNat, (s.x rs2).toNat, (s.x rs3).toNat)], members := [],
                    path := u.pathOf td,
                    locks := [lockOf 0 false u.me.vdev u.chip ts (s.x rs1).toNat (s.x rs1).toNat (s.x rs3).toNat,
                      lockOf 0 true u.me.vdev u.chip td (s.x rs2).toNat (s.x rs2).toNat (s.x rs3).toNat],
                    empty := (s.x rs3).toNat == 0 }) = t) (hn : (s.x rs3).toNat < 2 ^ 32) :
    exec (.copy rd rs1 rs2 rs3) s = .next t := by
  refine exec_of_run (exec_copy ..) hc (by simp) ?_
  simp only [wake_x]
  rw [if_neg (Nat.not_le.2 hn)]
  exact h

theorem exec_copy_too_long (hn : 2 ^ 32 ≤ (s.x rs3).toNat) : exec (.copy rd rs1 rs2 rs3) s =
    .next ((s.wake [rs1, rs2, rs3] rd).trap 1 (wordOf (.copy rd rs1 rs2 rs3))) := by
  refine exec_of_run (exec_copy ..) hc (by simp) ?_
  simp only [wake_x]
  exact if_pos hn

theorem exec_copy2d_of_clear {t u : State} {d : List Byte} (hal : (s.x rs3).toNat % 8 = 0)
    (hdesc : ∀ k, desc2d (s.wake [rs1, rs2, rs3] rd) (s.x rs3) k = k d u)
    (hok : ¬ (natAt d 0 4 = 0 ∨ natAt d 4 4 = 0 ∨ 65535 < natAt d 4 4 ∨ 2 ^ 32 ≤ natAt d 0 4 * natAt d 4 4 ∨ natAt d 24 8 ≠ 0))
    (h : u.copyEnds (s.x rs1) (s.x rs2) (fun ts td v =>
      v.issueCopy { rd := rd,
                    rows := (List.range (natAt d 4 4)).map (fun j =>
                      (rowAddr (s.x rs1) (wordAt d 8) j, rowAddr (s.x rs2) (wordAt d 16) j, natAt d 0 4)),
                    members := [], path := v.pathOf td,
                    locks := [lockOf 0 false v.me.vdev v.chip ts (s.x rs1).toNat
                        (rowSpan (s.x rs1) (wordAt d 8) (natAt d 4 4) (natAt d 0 4)).1
                        (rowSpan (s.x rs1) (wordAt d 8) (natAt d 4 4) (natAt d 0 4)).2,
                      lockOf 0 true v.me.vdev v.chip td (s.x rs2).toNat
                        (rowSpan (s.x rs2) (wordAt d 16) (natAt d 4 4) (natAt d 0 4)).1
                        (rowSpan (s.x rs2) (wordAt d 16) (natAt d 4 4) (natAt d 0 4)).2],
                    empty := false }) = t) :
    exec (.copy2d rd rs1 rs2 rs3) s = .next t := by
  refine exec_of_run (exec_copy2d ..) hc (by simp) ?_
  simp only [wake_x]
  rw [if_neg (not_not.2 hal), hdesc]
  exact (if_neg hok).trans h

theorem exec_copyb_of_clear {t : State} {ts : Target} {m : List Nat} (hlt : (s.x rs3).toNat < 2 ^ 40)
    (hmask : bitsOf (s.x rs3).toNat 32 8 ≠ 0)
    (hteam : (maskCores (bitsOf (s.x rs3).toNat 32 8)).map (fun i =>
      (s.wake [rs1, rs2, rs3] rd).teamMember (s.wake [rs1, rs2, rs3] rd).cur i) = m.map some)
    (hoff : (s.x rs2).toNat < 0x20000)
    (hfit : m.all (fun e => decide ((s.x rs2).toNat + bitsOf (s.x rs3).toNat 0 32 ≤
      ((s.wake [rs1, rs2, rs3] rd).core e).carve.spadSize)) = true)
    (htr : (s.wake [rs1, rs2, rs3] rd).translate (s.wake [rs1, rs2, rs3] rd).asker (s.x rs1).toNat 1 .r = (ts, t))
    (hts : ts.copyable = true) :
    exec (.copyb rd rs1 rs2 rs3) s = .next (t.issueCopy
      { rd := rd, rows := [((s.x rs1).toNat, (s.x rs2).toNat, bitsOf (s.x rs3).toNat 0 32)], members := m, path := 0,
        locks := [lockOf 0 false t.me.vdev s.chip ts (s.x rs1).toNat (s.x rs1).toNat (bitsOf (s.x rs3).toNat 0 32),
          { owner := 0, dst := true, space := .array s.chip, lo := (s.x rs2).toNat, len := bitsOf (s.x rs3).toNat 0 32,
            cores := m.map coreNo }],
        empty := bitsOf (s.x rs3).toNat 0 32 == 0 }) := by
  refine exec_of_run (exec_copyb ..) hc (by simp) ?_
  simp only [wake_x]
  have hmembers : (m.map some).filterMap (fun e => e) = m := by simp
  have hall : (m.map some).all (fun e => match e with
      | some e => decide ((s.x rs2).toNat + bitsOf (s.x rs3).toNat 0 32 ≤
          ((s.wake [rs1, rs2, rs3] rd).core e).carve.spadSize)
      | none => false) = true := by
    rw [List.all_map]
    exact hfit
  rw [if_neg (by omega), hteam, hmembers, htr]
  refine (if_neg ?_).trans ?_
  · rw [decide_eq_true hoff]
    exact fun h => absurd hall (by simpa using h)
  cases ts with
  | glob _ | spad _ _ | spadFar _ _ _ => rfl
  | _ => cases hts

end Forms

/-- Settles O38: each copy's operands are checked by the lemmas above, and its plan issued. -/
theorem copiesEnterTheEngine : Obligations.CopiesEnterTheEngine := by
  intro s rd rs1 rs2 rs3 ts td u v hc hsucc a b n w k slots locks tagged enters done ends
  have hw : s.Beneath w := .wake ..
  have hends : ∀ {t : State}, s.Beneath t → ends t → s.Beneath v ∧
      ∀ f : Target → Target → State → State, t.copyEnds a b f = f ts td v := fun ht ⟨h1, hs, h2, hd⟩ =>
    ⟨ht.trans ((State.Beneath.of_translate h1).trans (.of_translate h2)), fun f => copyEnds_ok h1 hs h2 hd⟩
  refine ⟨fun hlt hn he => ?copy, fun hn he => ?copyNone, fun hge => exec_copy_too_long hc hge, ?copy2d, ?copyb⟩
  case copy =>
    obtain ⟨hv, hplan⟩ := hends hw he
    have h := copyEnters_of_next hv (beq_eq_false_iff_ne.2 hn) rfl hsucc (exec_copy_of_clear hc (hplan _) hlt)
    exact h
  case copyNone =>
    obtain ⟨hv, hplan⟩ := hends hw he
    have h := copyDone_of_next hv (beq_iff_eq.2 hn) hsucc (exec_copy_of_clear hc (hplan _) (by omega))
    exact h
  case copy2d =>
    intro d0 d1 d2 d3 u0 u1 u2 u3 c d rb rows hal h0 h1 h2 h3 hrb hrows hmax hsize hzero he
    have hu3 : s.Beneath u3 := ((((hw.trans (beneath_fetchData h0)).trans (beneath_fetchData h1)).trans
      (beneath_fetchData h2)).trans (beneath_fetchData h3))
    obtain ⟨hv, hplan⟩ := hends hu3 he
    have hok : ¬ (rb = 0 ∨ rows = 0 ∨ 65535 < rows ∨ 2 ^ 32 ≤ rb * rows ∨ natAt d 24 8 ≠ 0) := by
      rintro (h | h | h | h | h)
      exacts [hrb h, hrows h, absurd h (Nat.not_lt.2 hmax), absurd h (Nat.not_le.2 hsize), h hzero]
    have h := copyEnters_of_next hv rfl rfl hsucc
      (exec_copy2d_of_clear hc hal (fun _ => desc2d_ok h0 h1 h2 h3) hok (hplan _))
    exact h
  case copyb =>
    intro m hlt hmask hteam hoff hfit htr hts
    have hu : s.Beneath u := hw.trans (.of_translate htr)
    have hex := exec_copyb_of_clear hc hlt hmask hteam hoff hfit htr hts
    refine ⟨fun hn => ?_, fun hn => ?_⟩
    · have h := copyEnters_of_next hu (beq_eq_false_iff_ne.2 hn) rfl hsucc hex
      exact h
    · have h := copyDone_of_next hu (beq_iff_eq.2 hn) hsucc hex
      exact h

end Sys2Proof.Machine

/-! PROOFS. Frames (R37, R38, R45, R46, R368): what moves of windows, counting and checkpoints leave of every core's running
frame, of the frames beneath it and of its ready records, and what a frame put on the stack leaves of its own. -/

namespace Sys2Proof.Machine

/-! ### Work that leaves the frames as they stand -/

/-- The arrival stamps of a core's ready records. -/
def Core.stamps (c : Core) : List Nat := c.ready.map (fun q => q.stamp)

/-- `t` is `s` with each core's running frame, the frames beneath it wherever their windows lie, and its ready records in
their order. -/
structure State.Stands (s t : State) : Prop where
  cur : t.cur = s.cur
  run : ∀ e, (t.core e).run = (s.core e).run
  stack : ∀ e, (t.core e).stack = (s.core e).stack
  stamps : ∀ e, (t.core e).stamps = (s.core e).stamps

namespace State.Stands

variable {s t u : State}

theorem refl (s : State) : s.Stands s := ⟨rfl, fun _ => rfl, fun _ => rfl, fun _ => rfl⟩

theorem trans (h : s.Stands t) (g : t.Stands u) : s.Stands u :=
  ⟨g.cur.trans h.cur, fun e => (g.run e).trans (h.run e), fun e => (g.stack e).trans (h.stack e),
    fun e => (g.stamps e).trans (h.stamps e)⟩

theorem ite {c : Prop} [Decidable c] (h : s.Stands t) (g : s.Stands u) : s.Stands (if c then t else u) := by
  split <;> assumption

theorem of_cores (hcur : t.cur = s.cur := by rfl) (hcores : t.cores = s.cores := by rfl) : s.Stands t := by
  have h : ∀ e, t.core e = s.core e := fun e => by rw [State.core, hcores]; rfl
  exact ⟨hcur, fun e => by rw [h], fun e => by rw [h], fun e => by rw [h]⟩

theorem setCore {ep : Nat} {c : Core} (hrun : c.run = (s.core ep).run) (hstack : c.stack = (s.core ep).stack)
    (hstamps : c.stamps = (s.core ep).stamps) : s.Stands (s.setCore ep c) := by
  have hother : ∀ e, e ≠ ep → (s.setCore ep c).core e = s.core e := fun e he => core_setCore_other _ _ _ _ he
  refine ⟨rfl, fun e => ?_, fun e => ?_, fun e => ?_⟩ <;> by_cases he : e = ep
  · rw [he, core_setCore, hrun]
  · rw [hother e he]
  · rw [he, core_setCore, hstack]
  · rw [hother e he]
  · rw [he, core_setCore, hstamps]
  · rw [hother e he]

theorem onCore {ep : Nat} {f : Core → Core} (hrun : ∀ c, (f c).run = c.run) (hstack : ∀ c, (f c).stack = c.stack)
    (hstamps : ∀ c, (f c).stamps = c.stamps) : s.Stands (s.onCore ep f) := setCore (hrun _) (hstack _) (hstamps _)

/-! ### Counting and checkpoints -/

theorem overflowPost (s : State) (ep : Nat) : s.Stands (s.overflowPost ep) := by
  unfold State.overflowPost
  dsimp only
  refine ite (refl s) (ite (setCore rfl rfl ?_) (setCore rfl rfl rfl))
  rw [Core.stamps, Core.stamps, List.map_map]
  refine List.map_congr_left fun q _ => ?_
  rw [Function.comp_apply]
  split <;> rfl

theorem countAt (s : State) (ep lvl ev n : Nat) : s.Stands (s.countAt ep lvl ev n) := by
  unfold State.countAt
  extract_lets c hit bump wrap bits evs s1
  have h1 : s.Stands s1 := setCore rfl rfl rfl
  exact ite (refl s) (ite h1 (ite (h1.trans (overflowPost ..)) h1))

theorem spend (s : State) (ep n : Nat) : s.Stands (s.spend ep n) := by
  unfold State.spend State.count
  refine .trans ?_ (countAt ..)
  exact of_cores

theorem onKiln (s : State) (q : Nat) (f : Kiln → Kiln) : s.Stands (s.onKiln q f) := of_cores

theorem checkpoint (s : State) (ep : Nat) : s.Stands (s.checkpoint ep) := by
  unfold State.checkpoint
  refine trans ?_ (onCore ?_ ?_ ?_)
  · exact onKiln ..
  all_goals exact fun _ => rfl

theorem preempt (s : State) (ep lvl : Nat) : s.Stands (s.preempt ep lvl) := by
  unfold State.preempt
  dsimp only
  refine trans ?_ (onKiln ..)
  exact onCore (fun _ => rfl) (fun _ => rfl) fun _ => rfl

/-! ### Windows (R45) -/

theorem rekey (s : State) (key sector : Nat) : s.Stands (s.rekey key sector) := by
  unfold State.rekey
  refine ite (refl s) ?_
  extract_lets s1
  have h1 : s.Stands s1 := ite of_cores (refl s)
  split
  · exact h1.trans of_cores
  · exact h1

theorem writeBytes (s : State) (pa : Nat) (bs : List Byte) : s.Stands (s.writeBytes pa bs) := by
  obtain ⟨_, _, _, h⟩ := writeBytes_frame bs s pa
  rw [h]
  exact of_cores

theorem foldl {β : Type} {l : List β} {f : State → β → State} (hf : ∀ t b, State.Stands t (f t b)) (s : State) :
    s.Stands (l.foldl f s) := by
  induction l generalizing s with
  | nil => exact refl s
  | cons b l ih => exact (hf s b).trans (ih _)

theorem spillWindow (s : State) (ep : Nat) (f : Frame) : s.Stands (s.spillWindow ep f) :=
  (foldl (fun _ _ => rekey ..) s).trans (writeBytes ..)

theorem spadWrite (s : State) (ep off : Nat) (bs : List Byte) : s.Stands (s.spadWrite ep off bs) := by
  have hpois : ∀ (t : State) pa p, t.Stands (t.setPoison pa p) := fun t pa p => by
    unfold State.setPoison
    dsimp only
    exact ite of_cores of_cores
  exact (writeBytes ..).trans (foldl (fun _ _ => ite (hpois ..) (refl _)) _)

/-- A change of where some windows lie. -/
theorem onUnder {ep : Nat} {g : List Frame → List Frame}
    (hg : ∀ l, (g l).map (fun f => { f with win := .loc }) = l.map (fun f => { f with win := .loc })) :
    s.Stands (s.onCore ep (fun c => { c with under := g c.under })) := onCore (fun _ => rfl) (fun _ => hg _) fun _ => rfl

theorem revokeOne (s : State) (ep : Nat) : s.Stands (s.revokeOne ep) := by
  unfold State.revokeOne
  split
  · dsimp only
    split
    · refine (spillWindow ..).trans (onUnder (g := List.map _) fun l => ?_)
      rw [List.map_map]
      refine List.map_congr_left fun f _ => ?_
      rw [Function.comp_apply]
      split <;> rfl
    · exact refl s
  · exact refl s

end State.Stands

/-! ### The move of the oldest local window -/

theorem map_setAt {α β : Type} {f : α → β} {l : List α} {i : Nat} {a b : α} (ha : l[i]? = some a) (hb : f b = f a) :
    (setAt l i b).map f = l.map f := by
  induction l generalizing i with
  | nil => rfl
  | cons x l ih =>
    cases i with
    | zero =>
      cases ha
      rw [setAt, List.map_cons, List.map_cons, hb]
    | succ i => rw [setAt, List.map_cons, List.map_cons, ih (by simpa using ha)]

theorem takeFirst_mem {α : Type} {p : α → Bool} {l l' : List α} {a : α} (h : takeFirst p l = some (a, l')) : a ∈ l := by
  induction l generalizing l' with
  | nil => cases h
  | cons x l ih =>
    unfold takeFirst at h
    split at h
    · cases h
      exact List.mem_cons_self
    · split at h
      · next heq =>
        cases h
        exact List.mem_cons_of_mem _ (ih heq)
      · cases h

theorem moveOldest_local (l : List Frame) (w : Win) :
    (moveOldest l w).map (fun f => { f with win := .loc }) = l.map (fun f => { f with win := .loc }) := by
  unfold moveOldest
  split
  · next p rest h =>
    have hmem := List.mem_reverse.1 (takeFirst_mem h)
    obtain ⟨i, hi, hp⟩ := List.getElem_of_mem hmem
    have hli : l[p.2]? = some p.1 := by
      rw [← hp]
      simp at hi ⊢
    exact map_setAt hli rfl
  · rfl

/-! ### A frame put on the stack (R37, R38) -/

/-- The running frame covered, its window free. -/
def State.pushed (s : State) (ep : Nat) : State :=
  s.onCore ep (fun c => { c with under := { c.run with win := .loc } :: c.under })

/-- To cover a frame is to push it, among moves of windows. -/
theorem cover_stands (s : State) (ep : Nat) : ∃ a, s.Stands a ∧ (a.pushed ep).Stands (s.cover ep) := by
  have hmove : ∀ (t : State) w, t.Stands (t.onCore ep (fun c => { c with under := moveOldest c.under w })) := fun t w =>
    .onUnder fun l => moveOldest_local l w
  unfold State.cover
  dsimp only
  split
  · exact ⟨s, .refl s, .spend ..⟩
  split
  · exact ⟨s.revokeOne ep, .revokeOne .., .spend ..⟩
  split
  · exact ⟨s, .refl s, (hmove ..).trans (.spend ..)⟩
  · refine ⟨s, .refl s, .trans ?_ (.spend ..)⟩
    split
    · exact (State.Stands.spillWindow ..).trans (hmove ..)
    · exact hmove ..

/-- A frame put on a core's stack runs there, over the frame that ran. -/
theorem putFrame_core (s : State) (ep : Nat) (r : TaskRec) (f : Frame) :
    (s.putFrame ep r f).cur = s.cur ∧ ((s.putFrame ep r f).core ep).run = f ∧
    ((s.putFrame ep r f).core ep).stack = { (s.core ep).run with win := .loc } :: (s.core ep).stack ∧
    ((s.putFrame ep r f).core ep).stamps = (s.core ep).stamps := by
  obtain ⟨a, hsa, hat⟩ := cover_stands s ep
  have hrest : ((s.cover ep).onCore ep (fun c => { c with
      run := f, nextFid := c.nextFid + 1, stalled := none, alignAt := none, again := false, got := [] })).Stands
      (s.putFrame ep r f) := ((State.Stands.spadWrite ..).trans (.checkpoint ..)).trans (.countAt ..)
  have hcover : ((s.cover ep).core ep).stack = { (s.core ep).run with win := .loc } :: (s.core ep).stack := by
    rw [hat.stack, State.pushed, onCore_core, ← hsa.run ep, ← hsa.stack ep]
    rfl
  refine ⟨hrest.cur.trans (hat.cur.trans hsa.cur), ?run, ?stack, ?stamps⟩
  case run => rw [hrest.run, onCore_core]
  case stack => rw [hrest.stack, onCore_core]; exact hcover
  case stamps =>
    rw [hrest.stamps, onCore_core]
    refine (hat.stamps ep).trans ?_
    rw [State.pushed, onCore_core]
    exact hsa.stamps ep

end Sys2Proof.Machine

/-! PROOFS. Selection and boundary traps (R34, R37, R38, R413, R416, R418): the frame that a record starts, and the handler's
frame over the trapped one. -/

namespace Sys2Proof.Machine

/-! ### The frame that a record starts (R38) -/

/-- A write of a register leaves all that is no register. -/
theorem setX_eq (f : Frame) (r : XReg) (v : Word) :
    ∃ regs full live pois busy,
      f.setX r v = { f with regs := regs, full := full, live := live, pois := pois, busy := busy } := by
  unfold Frame.setX
  split <;> exact ⟨_, _, _, _, _, rfl⟩

theorem startFrame_fields (c : Core) (r : TaskRec) (nxr : Bool) :
    (c.startFrame r nxr).level = r.prio ∧ (c.startFrame r nxr).pc = r.pc ∧ (c.startFrame r nxr).thr = r.prio := by
  unfold Core.startFrame
  extract_lets base sp f0
  have hset : ∀ (f : Frame) q v, (f.setX q v).level = f.level ∧ (f.setX q v).pc = f.pc ∧ (f.setX q v).thr = f.thr :=
    fun f q v => by
      obtain ⟨_, _, _, _, _, h⟩ := setX_eq f q v
      rw [h]
      exact ⟨rfl, rfl, rfl⟩
  simp only [hset]
  exact ⟨rfl, rfl, rfl⟩

theorem x_of_regs {f g : Frame} {r : XReg} (hregs : g.regs = f.regs) (hlive : g.live = f.live) : g.x r = f.x r := by
  rw [Frame.x, Frame.x, hregs, hlive]

theorem startFrame_args (c : Core) (r : TaskRec) (nxr : Bool) :
    (c.startFrame r nxr).x 10 = r.a0 ∧ (c.startFrame r nxr).x 11 = r.a1 ∧ (c.startFrame r nxr).x 12 = r.a2 ∧
    (c.startFrame r nxr).x 13 = r.a3 ∧ (c.startFrame r nxr).x 3 = c.csr.gpv ∧
    (c.startFrame r nxr).x 2 = BitVec.ofNat 64 (0x7E0000000000 + (c.run.base - 64)) := by
  unfold Core.startFrame
  extract_lets base sp f0
  have hsame : ∀ (f : Frame) (q : XReg) v, q ≠ 0 → (f.setX q v).x q = v := fun f q v h => by rw [Frame.x_setX, if_neg h]
  have hother : ∀ (f : Frame) (q p : XReg) v, p ≠ q → (f.setX q v).x p = f.x p := fun f q p v h =>
    Frame.x_setX_other f q p v h
  refine ⟨?_, ?_, ?_, ?_, hsame _ _ _ (by decide), ?_⟩
  · iterate 6 rw [hother _ _ _ _ (by decide)]
    exact hsame _ _ _ (by decide)
  · iterate 5 rw [hother _ _ _ _ (by decide)]
    exact hsame _ _ _ (by decide)
  · iterate 4 rw [hother _ _ _ _ (by decide)]
    exact hsame _ _ _ (by decide)
  · iterate 3 rw [hother _ _ _ _ (by decide)]
    exact hsame _ _ _ (by decide)
  · rw [hother _ _ _ _ (by decide)]
    exact hsame _ _ _ (by decide)

/-! ### Selection (R34, R37) -/

/-- A removed record's stamp is gone from the ready records. -/
theorem takeReady_all (l : List Ready) (stamp : Nat) : (takeReady l stamp).all (fun q => !(q.stamp == stamp)) = true := by
  have hl : (l.filter (fun r => !(r.stamp == stamp))).all (fun q => !(q.stamp == stamp)) = true :=
    List.all_eq_true.2 fun q hq => (List.mem_filter.1 hq).2
  unfold takeReady
  dsimp only
  split
  · split
    · exact hl
    · rw [List.all_map]
      refine List.all_eq_true.2 fun q hq => ?_
      have hstamp := (List.mem_filter.1 hq).2
      rw [Function.comp_apply]
      split <;> exact hstamp
  · exact hl

/-- Whether no ready record has a stamp depends on the stamps alone. -/
theorem ready_all_of_stamps {c d : Core} {stamp : Nat} (h : c.stamps = d.stamps)
    (hd : d.ready.all (fun q => !(q.stamp == stamp)) = true) : c.ready.all (fun q => !(q.stamp == stamp)) = true := by
  have hmap : ∀ e : Core, e.ready.all (fun q => !(q.stamp == stamp)) = e.stamps.all (fun n => !(n == stamp)) := fun e => by
    rw [Core.stamps, List.all_map]
    rfl
  rw [hmap, h, ← hmap, hd]

theorem dropReady_core (s : State) (ep stamp : Nat) : (s.dropReady ep stamp).core ep =
    { s.core ep with ready := takeReady (s.core ep).ready stamp, idleAt := s.now } := onCore_core ..

theorem start_core {s : State} {ep : Nat} {r : Ready} (hnxr : r.task.nxr = (s.core ep).csr.corenxr) :
    ((s.start ep r).core ep).run = (s.core ep).taskFrame r ∧
    ((s.start ep r).core ep).stack = { (s.core ep).run with win := .loc } :: (s.core ep).stack ∧
    ((s.start ep r).core ep).ready.all (fun q => !(q.stamp == r.stamp)) = true := by
  have hstart : s.start ep r = State.putFrame (State.preempt ((s.dropReady ep r.stamp).spend ep
      (if r.place = .slot ∨ r.place = .recvq then 0 else l2Cycles)) ep (s.core ep).run.level) ep r.task
      ((s.core ep).taskFrame r) := if_pos hnxr
  have hdrop := dropReady_core s ep r.stamp
  have hstand := (State.Stands.spend (s.dropReady ep r.stamp) ep
    (if r.place = .slot ∨ r.place = .recvq then 0 else l2Cycles)).trans (.preempt _ ep (s.core ep).run.level)
  rw [hstart]
  obtain ⟨-, hrun, hstack, hstamps⟩ := putFrame_core (State.preempt ((s.dropReady ep r.stamp).spend ep
      (if r.place = .slot ∨ r.place = .recvq then 0 else l2Cycles)) ep (s.core ep).run.level) ep r.task
      ((s.core ep).taskFrame r)
  refine ⟨hrun, ?_, ready_all_of_stamps (hstamps.trans (hstand.stamps ep)) ?_⟩
  · rw [hstack, hstand.run, hstand.stack, hdrop]
    rfl
  · rw [hdrop]
    exact takeReady_all ..

theorem exec_pushFrame_selected {s : State} {ep : Nat} {r : Ready} (hs : s.stopped ep = false)
    (hcarve : (s.core ep).carving = false) (hsel : (s.core ep).selectable s.now = true)
    (hr : (s.core ep).selected s.now = some r) (hbad : r.task.bad = false) (hfit : (s.core ep).fits r.task.frame = true)
    (hnxr : r.task.nxr = (s.core ep).csr.corenxr) : exec (.pushFrame ep) s = .next (s.start ep r) := by
  rw [exec_pushFrame]
  simp only [execPushFrame, hs, hcarve, hsel, hr, hbad, hfit, hnxr, Bool.not_true, Bool.or_false, Bool.false_eq_true, if_false,
    if_true]

/-! ### Boundary traps (R413, R416, R418) -/

theorem trapReady_beneath (s : State) (ep cause : Nat) : s.Beneath (s.trapReady ep cause).2 := by
  unfold State.trapReady
  dsimp only
  split
  · exact .refl s
  split
  · exact .refl s
  · exact .reach ..

theorem readBytes_congr {s t : State} (h : ∀ p, t.readByte p = s.readByte p) (p n : Nat) :
    t.readBytes p n = s.readBytes p n := by
  rw [readBytes_eq_map, readBytes_eq_map]
  exact List.map_congr_left fun k _ => h _

/-- The record of a trap's handler (R413, R416). -/
def State.trapRecord (s : State) (ep cause : Nat) (tval pc : Word) (boundary : Bool) : TaskRec :=
  let bs := s.readBytes ((s.core ep).csr.traptb + 16 * cause) 16
  { pc := wordAt bs 0 &&& ~~~3#64, a0 := BitVec.ofNat 64 (cause + 256 * boundary.toNat), a1 := tval, a2 := pc,
    a3 := (s.core ep).run.tstat, origin := s.epId ep, oseq := 0, prio := 7, nxr := false,
    s := bitOf (natAt bs 9 1) 1 || supervisorCause cause, cls := 0, frame := natAt bs 8 1, pan := 0,
    vdev := 0, gen := 0, deadline := 0, pseq := 0 }

/-- The frame of a trap's handler. -/
def State.trapFrame (s : State) (ep cause : Nat) (tval pc : Word) (boundary : Bool) : Frame :=
  { (s.core ep).startFrame (s.trapRecord ep cause tval pc boundary) (s.core ep).csr.corenxr with
    vdev := (s.core ep).run.vdev, gen := (s.core ep).run.gen, hseq := (s.core ep).run.hseq,
    trap := some { cause := cause, boundary := boundary, tval := tval } }

section EnterTrap

variable {s : State} {ep cause : Nat} (tval pc : Word) (boundary : Bool) (hlevel : (s.core ep).run.level ≠ 7)
  (hpois : s.anyPoison ((s.core ep).csr.traptb + 16 * cause) 16 = false)
  (hvalid : bitOf (natAt (s.readBytes ((s.core ep).csr.traptb + 16 * cause) 16) 9 1) 0 = true)
  (hfit : (s.core ep).fits (natAt (s.readBytes ((s.core ep).csr.traptb + 16 * cause) 16) 8 1) = true)
include hlevel hpois hvalid hfit

theorem enterTrap_open : s.enterTrap ep cause tval pc boundary =
    s.putFrame ep (s.trapRecord ep cause tval pc boundary) (s.trapFrame ep cause tval pc boundary) := by
  unfold State.enterTrap
  dsimp only
  rw [if_neg hlevel, if_neg (by rw [hpois]; exact Bool.false_ne_true), if_neg (by rw [hvalid]; decide),
    if_neg (by rw [hfit]; decide)]
  rfl

/-- With an entry that is there, clean and valid and with room, the handler's frame stands over the trapped one. -/
theorem enterTrap_core :
    (s.enterTrap ep cause tval pc boundary).cur = s.cur ∧
    ((s.enterTrap ep cause tval pc boundary).core ep).run.level = 7 ∧
    ((s.enterTrap ep cause tval pc boundary).core ep).run.x 10 = BitVec.ofNat 64 (cause + 256 * boundary.toNat) ∧
    ((s.enterTrap ep cause tval pc boundary).core ep).run.x 11 = tval ∧
    ((s.enterTrap ep cause tval pc boundary).core ep).run.x 12 = pc ∧
    ((s.enterTrap ep cause tval pc boundary).core ep).stack = { (s.core ep).run with win := .loc } :: (s.core ep).stack := by
  rw [enterTrap_open tval pc boundary hlevel hpois hvalid hfit]
  obtain ⟨hcur, hrun, hstack, -⟩ := putFrame_core s ep (s.trapRecord ep cause tval pc boundary)
    (s.trapFrame ep cause tval pc boundary)
  have hx : ∀ q, (s.trapFrame ep cause tval pc boundary).x q =
      ((s.core ep).startFrame (s.trapRecord ep cause tval pc boundary) (s.core ep).csr.corenxr).x q := fun _ => x_of_regs rfl rfl
  obtain ⟨h10, h11, h12, -⟩ := startFrame_args (s.core ep) (s.trapRecord ep cause tval pc boundary) (s.core ep).csr.corenxr
  obtain ⟨hlvl, -⟩ := startFrame_fields (s.core ep) (s.trapRecord ep cause tval pc boundary) (s.core ep).csr.corenxr
  rw [hrun, hx, hx, hx]
  exact ⟨hcur, hlvl, h10, h11, h12, hstack⟩

end EnterTrap

/-- A trap whose entry is still on its way waits. -/
theorem boundaryTrap_waits {s : State} {cause : Nat} {v : Word} {done : Frame → Frame} (h : s.trapMeets cause = false) :
    s.boundaryTrap s.cur cause v done = (s.trapAt cause).trapWait s.cur :=
  if_neg (by rw [show (s.trapReady s.cur cause).1 = false from h]; exact Bool.false_ne_true)

/-- A pending trap that can be taken leaves its handler's frame over the frame, in which it is no longer pending. -/
theorem boundaryTrap_open {s : State} {cause : Nat} {v : Word} {done : Frame → Frame} (h : s.trapOpen cause = true)
    (hlevel : ∀ f, (done f).level = f.level) (hbase : ∀ f, (done f).base = f.base) :
    (s.boundaryTrap s.cur cause v done).frame.level = 7 ∧
    (s.boundaryTrap s.cur cause v done).x 10 = BitVec.ofNat 64 (cause + 256) ∧
    (s.boundaryTrap s.cur cause v done).x 11 = v ∧ (s.boundaryTrap s.cur cause v done).x 12 = s.frame.lastPc ∧
    (s.boundaryTrap s.cur cause v done).me.stack = { done s.frame with win := .loc } :: s.me.stack := by
  simp only [State.trapOpen, Bool.and_eq_true, Bool.not_eq_true', beq_eq_false_iff_ne, ne_eq] at h
  obtain ⟨⟨⟨⟨h7, hmeets⟩, hpois⟩, hvalid⟩, hfit⟩ := h
  have hb : s.Beneath (s.trapAt cause) := trapReady_beneath ..
  have hme : (s.trapAt cause).core s.cur = (s.trapAt cause).me := by rw [State.me, hb.cur]
  generalize hu : (s.trapAt cause).onCore s.cur (fun d => { d with run := done d.run }) = u
  have hucore : u.core s.cur = { (s.trapAt cause).me with run := done s.frame } := by
    rw [← hu, onCore_core, hme, ← hb.frame]
    rfl
  have hbytes : ∀ p n, u.readBytes p n = (s.trapAt cause).readBytes p n := by
    rw [← hu]
    exact readBytes_congr fun _ => rfl
  have hupois : ∀ p n, u.anyPoison p n = (s.trapAt cause).anyPoison p n := by
    rw [← hu]
    exact fun _ _ => rfl
  have hufit : ∀ n, (u.core s.cur).fits n = (s.trapAt cause).me.fits n := fun n => by
    rw [hucore, Core.fits, Core.fits, hbase, ← hb.frame]
    rfl
  have htraptb : (u.core s.cur).csr.traptb = (s.trapAt cause).me.csr.traptb := by rw [hucore]
  have htake : s.boundaryTrap s.cur cause v done = u.enterTrap s.cur cause v s.frame.lastPc true := by
    rw [← hu]
    exact if_pos hmeets
  obtain ⟨hcur, h7', h10, h11, h12, hstack⟩ := enterTrap_core (s := u) (ep := s.cur) v s.frame.lastPc true
    (cause := cause) (by rw [hucore, hlevel]; exact h7) (by rw [hupois, htraptb]; exact hpois)
    (by rw [hbytes, htraptb]; exact hvalid) (by rw [hufit, hbytes, htraptb]; exact hfit)
  have hat : (u.enterTrap s.cur cause v s.frame.lastPc true).me = (u.enterTrap s.cur cause v s.frame.lastPc true).core s.cur := by
    rw [State.me, hcur, ← hu, onCore_cur, hb.cur]
  rw [htake, State.x, State.x, State.x, State.frame, hat]
  refine ⟨h7', h10, h11, h12, hstack.trans ?_⟩
  have hunder : (u.core s.cur).stack = s.me.stack := by
    rw [hucore, Core.stack, Core.stack, ← hb.under]
  rw [hunder, hucore]

end Sys2Proof.Machine

/-! PROOFS. A selected record's frame, the trap of a boundary, and deadlines (R38, R45, R46, R53, R223, R418). -/

namespace Sys2Proof.Machine

/-! ### The frame of a selected record (R38) -/

theorem taskFrame_fields (c : Core) (r : Ready) : (c.taskFrame r).level = r.task.prio ∧ (c.taskFrame r).pc = r.task.pc ∧
    (c.taskFrame r).thr = r.task.prio ∧ (c.taskFrame r).x 10 = r.task.a0 ∧ (c.taskFrame r).x 11 = r.task.a1 ∧
    (c.taskFrame r).x 12 = r.task.a2 ∧ (c.taskFrame r).x 13 = r.task.a3 ∧ (c.taskFrame r).x 3 = c.csr.gpv ∧
    (c.taskFrame r).x 2 = BitVec.ofNat 64 (0x7E0000000000 + (c.run.base - 64)) ∧
    (c.taskFrame r).acq = some (r.task.origin, r.task.oseq) := by
  have hx : ∀ q, (c.taskFrame r).x q = (c.startFrame r.task c.csr.corenxr).x q := fun _ => x_of_regs rfl rfl
  obtain ⟨hlevel, hpc, hthr⟩ := startFrame_fields c r.task c.csr.corenxr
  obtain ⟨h10, h11, h12, h13, h3, h2⟩ := startFrame_args c r.task c.csr.corenxr
  refine ⟨hlevel, hpc, hthr, ?_, ?_, ?_, ?_, ?_, ?_, rfl⟩
  all_goals rw [hx]; assumption

/-! ### The trap that a boundary takes (R418) -/

section BoundaryTrap

variable {s : State} {ep : Nat} {v : Word} (hs : s.stopped ep = false) (hloads : (s.core ep).loads = [])
  (hdue : (s.core ep).overdue s.now = false)
include hs hloads hdue

theorem exec_boundaryTrap_fault (h : (s.core ep).run.pendFault = some v) :
    exec (.boundaryTrap ep) s = .next (s.boundaryTrap ep 8 v (fun f => { f with pendFault := none })) := by
  rw [exec_boundaryTrap]
  simp [execBoundaryTrap, hs, hloads, hdue, h]

theorem exec_boundaryTrap_step (hfault : (s.core ep).run.pendFault = none) (h : (s.core ep).run.pendStep = some v) :
    exec (.boundaryTrap ep) s = .next (s.boundaryTrap ep 23 v (fun f => { f with pendStep := none })) := by
  rw [exec_boundaryTrap]
  simp [execBoundaryTrap, hs, hloads, hdue, hfault, h]

theorem exec_boundaryTrap_watch (hfault : (s.core ep).run.pendFault = none) (hstep : (s.core ep).run.pendStep = none)
    (h : (s.core ep).run.pendWatch = some v) :
    exec (.boundaryTrap ep) s = .next (s.boundaryTrap ep 22 v (fun f => { f with pendWatch := none })) := by
  rw [exec_boundaryTrap]
  simp [execBoundaryTrap, hs, hloads, hdue, hfault, hstep, h]

theorem exec_boundaryTrap_chk (hfault : (s.core ep).run.pendFault = none) (hstep : (s.core ep).run.pendStep = none)
    (hwatch : (s.core ep).run.pendWatch = none) (h : (s.core ep).run.pendChk = some v) :
    exec (.boundaryTrap ep) s = .next (s.boundaryTrap ep 20 v (fun f => { f with pendChk := none })) := by
  rw [exec_boundaryTrap]
  simp [execBoundaryTrap, hs, hloads, hdue, hfault, hstep, hwatch, h]

end BoundaryTrap

/-- What a trap taken at the boundary leaves, of the core whose turn it is. -/
theorem boundaryTrap_raises {s : State} {ep cause : Nat} {v : Word} {done : Frame → Frame}
    (hlevel : ∀ f, (done f).level = f.level) (hbase : ∀ f, (done f).base = f.base) :
    (s.cur = ep → s.trapMeets cause = false → s.boundaryTrap ep cause v done = (s.trapAt cause).trapWait ep) ∧
    (s.cur = ep → s.trapOpen cause = true →
      (s.boundaryTrap ep cause v done).frame.level = 7 ∧
      (s.boundaryTrap ep cause v done).x 10 = BitVec.ofNat 64 (cause + 256) ∧
      (s.boundaryTrap ep cause v done).x 11 = v ∧ (s.boundaryTrap ep cause v done).x 12 = (s.core ep).run.lastPc ∧
      (s.boundaryTrap ep cause v done).me.stack = { done (s.core ep).run with win := .loc } :: (s.core ep).stack) := by
  refine ⟨fun hcur h => ?_, fun hcur h => ?_⟩ <;> subst hcur
  · exact boundaryTrap_waits h
  · exact boundaryTrap_open h hlevel hbase

/-! ### Deadlines (R53, R223) -/

/-- With no command of a level left at the kiln, its deadline finds none to deal with there. -/
theorem expireKiln_idle {s : State} {ep lvl : Nat} (h : s.kilnBusy ep lvl = false) :
    s.expireKiln ep lvl = (s.onKiln (quadOf ep) (fun k => k)).onCore ep (fun c => c) := by
  simp only [State.kilnBusy, Bool.or_eq_false_iff, List.any_eq_false] at h
  obtain ⟨⟨⟨hdq, hparked⟩, hflight⟩, -⟩ := h
  have hfilter : ∀ l : List KCmd, (∀ d ∈ l, ¬ (d.level == lvl) = true) →
      l.filter (fun d => !(d.level == lvl && isSolve d.ins)) = l := fun l hl =>
    List.filter_eq_self.2 fun d hd => by simp [hl d hd]
  have hnone : ∀ (l : List KCmd) n, (∀ d ∈ l, ¬ (d.level == lvl) = true) →
      l.find? (fun c => c.level == lvl && c.kseq == n) = none := fun l n hl =>
    List.find?_eq_none.2 fun d hd => by simp [hl d hd]
  have hmap : (s.kiln (quadOf ep)).flight.map (fun f =>
      if f.core == ep && f.cmd.level == lvl && isSolve f.cmd.ins && decide (f.step < solveSteps f.cmd.ins)
      then { f with aborting := true } else f) = (s.kiln (quadOf ep)).flight := by
    refine (List.map_congr_left fun f hf => ?_).trans (List.map_id _)
    have hother := hflight f hf
    rw [if_neg fun hc => hother ?_]
    · rfl
    · simp only [Bool.and_eq_true] at hc ⊢
      exact hc.1.1
  have hkiln : s.onKiln (quadOf ep) (fun n => { n with flight := n.flight.map (fun f =>
      if f.core == ep && f.cmd.level == lvl && isSolve f.cmd.ins && decide (f.step < solveSteps f.cmd.ins)
      then { f with aborting := true } else f) }) = s.onKiln (quadOf ep) (fun k => k) := by
    rw [State.onKiln, hmap]
    rfl
  have hcore : ∀ t : State, t.core ep = s.core ep → t.onCore ep (fun c => { c with
      dq := c.dq.filter (fun d => !(d.level == lvl && isSolve d.ins)),
      parked := c.parked.filter (fun d => !(d.level == lvl && isSolve d.ins)) }) = t.onCore ep (fun c => c) := fun t ht => by
    rw [State.onCore, ht, hfilter _ hdq, hfilter _ hparked, State.onCore, ht]
  unfold State.expireKiln
  dsimp only
  rw [hkiln]
  split
  · next c hc =>
    split at hc
    · rw [hnone _ _ hparked, hnone _ _ hdq] at hc
      cases hc
    · cases hc
  · exact hcore _ rfl

/-! ### Poisoned words, which writes of records leave -/

/-- `t` is `s` with the same poisoned words and the same control registers and saggars. -/
structure State.Marked (s t : State) : Prop where
  pois : ∀ pa, t.isPoison pa = s.isPoison pa
  mmio : t.mmio = s.mmio
  sags : t.sags = s.sags

namespace State.Marked

variable {s t u : State}

theorem refl (s : State) : s.Marked s := ⟨fun _ => rfl, rfl, rfl⟩

theorem trans (h : s.Marked t) (g : t.Marked u) : s.Marked u :=
  ⟨fun pa => (g.pois pa).trans (h.pois pa), g.mmio.trans h.mmio, g.sags.trans h.sags⟩

theorem ite {c : Prop} [Decidable c] (h : s.Marked t) (g : s.Marked u) : s.Marked (if c then t else u) := by
  split <;> assumption

theorem of_eq (hl2 : t.l2 = s.l2 := by rfl) (hpoison : t.poison = s.poison := by rfl) (hmmio : t.mmio = s.mmio := by rfl)
    (hsags : t.sags = s.sags := by rfl) : s.Marked t :=
  ⟨fun pa => by rw [State.isPoison, State.isPoison, State.l2Find, State.l2Find, hl2, hpoison], hmmio, hsags⟩

theorem writeByte (s : State) (pa : Nat) (b : Byte) : s.Marked (s.writeByte pa b) := by
  unfold State.writeByte
  refine ite ⟨fun x => ?_, rfl, rfl⟩ (ite of_eq of_eq)
  unfold State.isPoison State.l2Find
  rcases find_mapFirst_other s.l2 (fun l => l.holds pa) (fun l => l.holds x) (fun l =>
      { l with data := tput l.data (pa % 512) b Memory.unwritten,
               dirty := l.dirty ||| BitVec.ofNat 4 (2 ^ ((pa / 128) % 4)) }) fun _ => rfl with h | ⟨l, hl, -, h⟩
  · rw [h]
  · rw [h, hl]

theorem writeBytes (s : State) (pa : Nat) (bs : List Byte) : s.Marked (s.writeBytes pa bs) := by
  induction bs generalizing s pa with
  | nil => exact refl s
  | cons b bs ih => exact (writeByte ..).trans (ih ..)

theorem rekey (s : State) (key sector : Nat) : s.Marked (s.rekey key sector) := by
  unfold State.rekey
  refine ite (refl s) ?_
  extract_lets s1
  have h1 : s.Marked s1 := ite of_eq (refl s)
  split
  · exact h1.trans of_eq
  · exact h1

theorem writeKeyed (s : State) (key pa : Nat) (bs : List Byte) : s.Marked (s.writeKeyed key pa bs) := by
  unfold State.writeKeyed
  refine trans ?_ (writeBytes ..)
  generalize List.range ((pa + bs.length + 127) / 128 - pa / 128) = l
  induction l generalizing s with
  | nil => exact refl s
  | cons i l ih => exact (rekey ..).trans (ih _)

theorem saveReady (s : State) (v ep : Nat) (l : List Ready) (inj : List TaskRec) : s.Marked (s.saveReady v ep l inj) :=
  (((writeKeyed ..).trans (writeKeyed ..)).trans (writeKeyed ..)).trans (writeKeyed ..)

theorem putSaved (s : State) (ep v : Nat) (x : Ctx) : s.Marked (s.putSaved ep v x) := by
  unfold State.putSaved
  refine trans ?_ (saveReady ..)
  exact of_eq

theorem hwPost (s : State) (ep : Nat) (r : TaskRec) (p : Place) (o l : Bool) : s.Marked (s.hwPost ep r p o l) := by
  rcases hwPost_cases s ep r p o l with h | ⟨_, h⟩ | ⟨_, _, _, h⟩ <;> rw [h]
  · exact refl s
  · exact of_eq
  · exact trans of_eq (putSaved ..)

end State.Marked

/-- Whether a window comes back with a poisoned word is settled by the poison, and by where the own device's regions lie. -/
theorem winBad_of_marked {s t : State} {ep : Nat} (f : Frame) (hm : s.Marked t) (hb : s.Beneath t)
    (hon : (s.core ep).on = true) : t.winBad ep f = s.winBad ep f := by
  have hvdev : (t.core ep).vdev = (s.core ep).vdev := (congrArg Core.vdev (hb.core ep) :)
  have hton : (t.core ep).on = (s.core ep).on := (congrArg Core.on (hb.core ep) :)
  have hdesc : (t.core ep).desc = (s.core ep).desc := (congrArg Core.desc (hb.core ep) :)
  have hspill : t.descSpill ep (t.core ep).vdev = s.descSpill ep (s.core ep).vdev := by
    simp [State.descSpill, State.desc, hton, hon, hdesc]
  have hslots : t.slots = s.slots := by
    funext v
    rw [State.slots, State.slots, hm.sags]
  have hregion : t.regionNo (t.core ep).vdev ep = s.regionNo (s.core ep).vdev ep := by
    rw [State.regionNo, State.regionNo, State.slotOf, State.slotOf, hslots, hvdev]
  have hat : t.windowAt ep f.level = s.windowAt ep f.level := by
    rw [State.windowAt, State.windowAt, State.spillBlock, State.spillBlock, hspill, hregion]
  have hpois : t.anyPoison = s.anyPoison := by
    funext pa n
    simp [State.anyPoison, hm.pois]
  rw [State.winBad, State.winBad, hat, hpois]

/-! ### A frame uncovered (R37, R45, R46) -/

theorem windowBack_eq (s : State) (ep : Nat) (f : Frame) :
    s.windowBack ep f = { f with win := .loc, regs := (s.windowBack ep f).regs } ∧
    (f.win ≠ .l2 → (s.windowBack ep f).regs = f.regs) := by
  unfold State.windowBack
  split
  · next h => exact ⟨rfl, fun hne => absurd h hne⟩
  · exact ⟨rfl, fun _ => rfl⟩

/-- A record with no overflow mark stays as it is among a core's ready records when overflows are posted. -/
theorem mem_overflowPost {s : State} {ep : Nat} {q : Ready} (h : q ∈ (s.core ep).ready) (hq : q.ovf = false) :
    q ∈ ((s.overflowPost ep).core ep).ready := by
  unfold State.overflowPost
  dsimp only
  split
  · exact h
  split
  · rw [core_setCore]
    refine List.mem_map.2 ⟨q, h, ?_⟩
    rw [hq]
    rfl
  · rw [core_setCore]
    exact h

theorem mem_countAt {s : State} {ep lvl ev n : Nat} {q : Ready} (h : q ∈ (s.core ep).ready) (hq : q.ovf = false) :
    q ∈ ((s.countAt ep lvl ev n).core ep).ready := by
  unfold State.countAt
  extract_lets c hit bump wrap bits evs s1
  have h1 : q ∈ (s1.core ep).ready := by
    rw [core_setCore]
    exact h
  split
  · exact h
  split
  · exact h1
  split
  · exact mem_overflowPost h1 hq
  · exact h1

theorem mem_spend {s : State} {ep n : Nat} {q : Ready} (h : q ∈ (s.core ep).ready) (hq : q.ovf = false) :
    q ∈ ((s.spend ep n).core ep).ready :=
  mem_countAt (s := { s with now := s.after ep n }) h hq

/-- The frame beneath runs again, its window back; the ready records with no overflow mark stay as they are. -/
theorem uncover_core {s : State} {ep : Nat} {f : Frame} {rest : List Frame} (hunder : (s.core ep).under = f :: rest)
    (hgood : s.winBad ep f = false) :
    ((s.uncover ep).core ep).under = rest ∧ ((s.uncover ep).core ep).run = s.windowBack ep f ∧
    ∀ q ∈ (s.core ep).ready, q.ovf = false → q ∈ ((s.uncover ep).core ep).ready := by
  unfold State.uncover
  extract_lets c old freed ks
  have hc : c.under = f :: rest := hunder
  rw [hc]
  dsimp -zeta only
  rw [if_neg (by rw [hgood]; exact Bool.false_ne_true)]
  extract_lets cost c1 s1 s2
  have h1 : s1.core ep = c1.unpark f.level := core_setCore ..
  have h2 : s2.core ep = c1.unpark f.level := by
    unfold s2
    split
    · exact h1
    · exact h1
  have hspend := (beneath_spend s2 ep cost).core ep
  rw [h2] at hspend
  have hck : ((s2.spend ep cost).checkpoint ep).core ep = { (s2.spend ep cost).core ep with
      ck := (((s2.spend ep cost).checkpoint ep).core ep).ck, pub := (((s2.spend ep cost).checkpoint ep).core ep).pub,
      dq := (((s2.spend ep cost).checkpoint ep).core ep).dq, parked := (((s2.spend ep cost).checkpoint ep).core ep).parked } := by
    rw [State.checkpoint, onCore_core]
    rfl
  rw [hck]
  refine ⟨(congrArg Core.under hspend :), (congrArg Core.run hspend :), fun q hq hovf => mem_spend ?_ hovf⟩
  rw [h2]
  exact hq

theorem popFrame_core {s : State} {ep : Nat} {f : Frame} {rest : List Frame} (hunder : (s.core ep).under = f :: rest)
    (hgood : s.winBad ep f = false) :
    ((s.popFrame ep).core ep).under = rest ∧
    ((s.popFrame ep).core ep).run = { f with win := .loc, regs := ((s.popFrame ep).core ep).run.regs } ∧
    (f.win ≠ .l2 → ((s.popFrame ep).core ep).run.regs = f.regs) ∧
    ∀ q ∈ (s.core ep).ready, q.ovf = false → q ∈ ((s.popFrame ep).core ep).ready := by
  unfold State.popFrame
  dsimp only
  rw [if_neg (by rw [hunder]; exact Bool.false_ne_true)]
  generalize hu : s.onKiln (quadOf ep) _ = u
  have hcore : u.core ep = s.core ep := by rw [← hu]; rfl
  have hbad : u.winBad ep f = s.winBad ep f := by rw [← hu]; rfl
  obtain ⟨hu, hrun, hready⟩ := uncover_core (hcore ▸ hunder) (hbad.trans hgood)
  obtain ⟨hwin, hregs⟩ := windowBack_eq u ep f
  rw [← hrun] at hwin hregs
  exact ⟨hu, hwin, hregs, hcore ▸ hready⟩

/-! ### The expiry of a deadline (R53, R223) -/

theorem on_of_not_stopped {s : State} {ep : Nat} (h : s.stopped ep = false) : (s.core ep).on = true := by
  rw [State.stopped, Bool.or_eq_false_iff, Bool.not_eq_false'] at h
  exact h.1

theorem exists_mem_arrive (l : List Ready) (r : Ready) : ∃ q ∈ arrive l r, q.task = r.task ∧ q.ovf = r.ovf :=
  ⟨_, List.mem_append_right _ (List.mem_singleton_self _), rfl, rfl⟩

/-- A record posted by the part to the device that a core runs, in the generation that it is in, is among the core's
ready records. -/
theorem hwPost_posts {s : State} {ep : Nat} {r : TaskRec} (p : Place) (o l : Bool) (hon : (s.core ep).on = true)
    (hvdev : (s.core ep).vdev = r.vdev) (hgen : (s.vdevOf r.vdev).gen = r.gen) :
    ∃ q ∈ ((s.hwPost ep r p o l).core ep).ready, q.task = { r with pseq := (s.core ep).pseq } ∧ q.ovf = o := by
  unfold State.hwPost
  dsimp only
  rw [if_neg (not_not.2 hgen), if_pos ⟨hon, hvdev⟩, core_setCore]
  exact exists_mem_arrive ..

theorem succRec_keeps (s : State) (ep : Nat) (r : TaskRec) (oseq : Nat) :
    (s.succRec ep r oseq).vdev = r.vdev ∧ (s.succRec ep r oseq).gen = r.gen := by
  unfold State.succRec TaskRec.cap
  split <;> exact ⟨rfl, rfl⟩

/-- The successor of a deadline, with its reason and the solves done. -/
theorem passedDeadline_successor {f : Frame} {d : Deadline} (h : f.dl = some d) : ∃ e, f.passedDeadline = some e ∧
    e.successor = d.succ.map (fun r =>
      { r with a0 := BitVec.ofNat 64 (if d.passed then 1 else d.reason), a1 := BitVec.ofNat 64 d.solves }) := by
  rw [Frame.passedDeadline, h]
  refine ⟨_, rfl, ?_⟩
  by_cases hp : d.passed = true <;> simp only [hp, if_true, if_false, Bool.false_eq_true] <;> rfl

/-- A task whose deadline has passed, with no command left at the kiln, is popped behind the post of its successor. -/
theorem expire_pops {s : State} {ep : Nat} {d : Deadline} (hon : (s.core ep).on = true) (hd : (s.core ep).run.dl = some d)
    (hidle : s.kilnBusy ep (s.core ep).run.level = false) :
    ∃ v : State, s.expire ep = v.popFrame ep ∧ s.Beneath v ∧ s.Marked v ∧
      ∀ r, d.succ = some r → (s.core ep).vdev = r.vdev → (s.vdevOf r.vdev).gen = r.gen →
        ∃ q ∈ (v.core ep).ready, q.ovf = false ∧ q.task =
          { s.succRec ep { r with a0 := BitVec.ofNat 64 (if d.passed then 1 else d.reason),
                                  a1 := BitVec.ofNat 64 d.solves } (s.core ep).pub.lseq with pseq := (s.core ep).pseq } := by
  obtain ⟨e, he, hsucc⟩ := passedDeadline_successor hd
  have hu := expireKiln_idle hidle
  generalize hexp : s.expireKiln ep (s.core ep).run.level = u at hu
  have hb : s.Beneath u := by
    rw [hu]
    exact .trans .of_cores (.onCore fun _ => rfl)
  have hm : s.Marked u := by
    rw [hu]
    exact .of_eq
  have hcore : u.core ep = s.core ep := by rw [hu, onCore_core]; rfl
  have hkiln : u.kiln (quadOf ep) = s.kiln (quadOf ep) := by
    rw [hu]
    exact (onKiln_kiln s (quadOf ep) fun k => k :)
  have hbusy : u.kilnBusy ep (s.core ep).run.level = false := by
    rw [State.kilnBusy, State.keepWaits, hcore, hkiln]
    exact hidle
  have hrec : ∀ r n, u.succRec ep r n = s.succRec ep r n := fun r n => by
    rw [State.succRec, State.succRec, State.epId, State.epId, hb.chip, State.maxprioAt, State.maxprioAt, hcore,
      State.descWord, State.descWord, State.mmioWord, State.mmioWord, hm.mmio]
  have hvdevs : ∀ v, u.vdevOf v = s.vdevOf v := fun v => by rw [hu]; rfl
  have hpost : ∀ r, e.successor = some r →
      s.expire ep = (u.hwPost ep (u.succRec ep r (u.core ep).pub.lseq) .spill false false).popFrame ep := fun r hr => by
    unfold State.expire
    dsimp only
    simp only [hexp, hbusy, Bool.false_eq_true, if_false, hcore, he, hr]
  have hnone : e.successor = none → s.expire ep = u.popFrame ep := fun h => by
    unfold State.expire
    dsimp only
    simp only [hexp, hbusy, Bool.false_eq_true, if_false, hcore, he, h]
  cases hds : d.succ with
  | none => exact ⟨u, hnone (by rw [hsucc, hds]; rfl), hb, hm, fun r hr => nomatch hr⟩
  | some r0 =>
    rw [hpost _ (by rw [hsucc, hds]; rfl)]
    refine ⟨_, rfl, hb.trans (.hwPost ..), hm.trans (.hwPost ..), fun r hr hvdev hgen => ?_⟩
    cases hr
    generalize hr1 : ({ r0 with a0 := _, a1 := _ } : TaskRec) = r1
    have hr1v : r1.vdev = r0.vdev ∧ r1.gen = r0.gen := by
      rw [← hr1]
      exact ⟨rfl, rfl⟩
    obtain ⟨hv, hg⟩ := succRec_keeps s ep r1 (s.core ep).pub.lseq
    rw [hcore, hrec]
    obtain ⟨q, hq, htask, hovf⟩ := hwPost_posts (s := u) (ep := ep) (r := s.succRec ep r1 (s.core ep).pub.lseq) .spill false
      false (by rw [hcore]; exact hon) (by rw [hcore, hv, hr1v.1]; exact hvdev)
      (by rw [hvdevs, hv, hg, hr1v.1, hr1v.2]; exact hgen)
    rw [hcore] at htask
    subst hr1
    exact ⟨q, hq, hovf, htask⟩

/-- An expired deadline ends the running task: the frame beneath runs again, and the successor is posted. -/
theorem deadlineExpiry_pops {s : State} {ep : Nat} {d : Deadline} {f : Frame} {rest : List Frame} (hs : s.stopped ep = false)
    (hloads : (s.core ep).loads = []) (hd : (s.core ep).run.dl = some d) (hdue : d.expiry ≤ s.now)
    (hidle : s.kilnBusy ep (s.core ep).run.level = false) (hunder : (s.core ep).under = f :: rest)
    (hgood : s.winBad ep f = false) :
    ∃ t, exec (.deadlineExpiry ep) s = .next t ∧ (t.core ep).under = rest ∧
      (t.core ep).run = { f with win := .loc, regs := (t.core ep).run.regs } ∧
      (f.win ≠ .l2 → (t.core ep).run.regs = f.regs) ∧
      ∀ r, d.succ = some r → (s.core ep).vdev = r.vdev → (s.vdevOf r.vdev).gen = r.gen →
        ∃ q ∈ (t.core ep).ready, q.task =
          { s.succRec ep { r with a0 := BitVec.ofNat 64 (if d.passed then 1 else d.reason),
                                  a1 := BitVec.ofNat 64 d.solves } (s.core ep).pub.lseq with pseq := (s.core ep).pseq } := by
  have hon := on_of_not_stopped hs
  obtain ⟨v, hexpire, hb, hm, hpost⟩ := expire_pops hon hd hidle
  have hoverdue : (s.core ep).overdue s.now = true := by rw [Core.overdue, hd]; exact decide_eq_true hdue
  obtain ⟨hrest, hrun, hregs, hready⟩ := popFrame_core (s := v)
    ((congrArg Core.under (hb.core ep) :).trans hunder) ((winBad_of_marked f hm hb hon).trans hgood)
  refine ⟨v.popFrame ep, ?_, hrest, hrun, hregs, fun r hr hvdev hgen => ?_⟩
  · rw [exec_deadlineExpiry, ← hexpire]
    exact if_pos (by simp [hs, hloads, hoverdue])
  · obtain ⟨q, hq, hovf, htask⟩ := hpost r hr hvdev hgen
    exact ⟨q, hready q hq hovf, htask⟩

/-- A record whose deadline passes before it starts is gone. -/
theorem deadlineExpiry_discards {s : State} {ep : Nat} {r : Ready} (hdue : (s.core ep).overdue s.now = false)
    (hr : (s.core ep).ready.find? (fun q => q.expired s.now) = some r) (hlatch : r.latch = false) :
    exec (.deadlineExpiry ep) s = .next (s.dropReady ep r.stamp) := by
  rw [exec_deadlineExpiry, execDeadlineExpiry]
  simp only [hdue, Bool.and_false, Bool.false_eq_true, if_false, hr, hlatch]

end Sys2Proof.Machine

/-! PROOFS. The timers and the carve-out of a core (R58, R72, R124, R368), and all of a core's own steps. -/

namespace Sys2Proof.Machine

/-! ### Timers (R58, R72, R368) -/

theorem spend_now (s : State) (ep n : Nat) : (s.spend ep n).now = s.after ep n := by
  obtain ⟨cores, h⟩ := countAt_frame { s with now := s.after ep n } ep (s.core ep).run.level 1 n
  exact (congrArg State.now h :)

theorem checkpoint_core (s : State) (ep : Nat) : ∃ k, ((s.checkpoint ep).core ep).ck = some k ∧ k.frame = (s.core ep).run ∧
    k.takenAt = s.now ∧ k.jour = [] ∧ k.logNew = 0 := by
  rw [State.checkpoint, onCore_core]
  exact ⟨_, rfl, rfl, rfl, rfl, rfl⟩

/-- The checkpoint timer takes a checkpoint, in one own cycle. -/
theorem checkpointTimer_takes {s : State} {ep : Nat} {k : Ckpt} (hck : (s.core ep).ck = some k)
    (hdue : s.passed ep k.takenAt (s.core ep).csr.cki = true) :
    ∃ t k', exec (.checkpointTimer ep) s = .next t ∧ (t.core ep).ck = some k' ∧ k'.frame = (s.core ep).run ∧
      k'.takenAt = s.now ∧ k'.jour = [] ∧ k'.logNew = 0 ∧ t.now = s.after ep 1 := by
  obtain ⟨k', hk', hframe, hat, hjour, hnew⟩ := checkpoint_core s ep
  have hspend : ((s.ckCycle ep).core ep).ck = ((s.checkpoint ep).core ep).ck :=
    (congrArg Core.ck ((beneath_spend (s.checkpoint ep) ep 1).core ep) :)
  refine ⟨s.ckCycle ep, k', ?_, hspend.trans hk', hframe, hat, hjour, hnew, spend_now ..⟩
  rw [exec_checkpointTimer, execCheckpointTimer, hck]
  exact if_pos hdue

/-- ALIGN gives up once its wait has passed, as an instruction retired on its core. -/
theorem alignTimeout_retires {s : State} {ep t0 : Nat} (hs : s.stopped ep = false) (hat : (s.core ep).alignAt = some t0)
    (hdue : s.passed ep t0 255 = true) :
    ∃ t, exec (.alignTimeout ep) s = .next t ∧ (t.core ep).alignN = (s.core ep).alignN + 1 ∧ (t.core ep).alignAt = none ∧
      (t.core ep).run.pc = (s.core ep).run.pc + 4 ∧ (t.core ep).instret = (s.core ep).instret + 1 := by
  have hexec : exec (.alignTimeout ep) s =
      .next (s.asCore ep (fun u => (u.onMe (fun c => { c with alignN := c.alignN + 1 })).retire 1)) := by
    rw [exec_alignTimeout, execAlignTimeout, hat]
    exact if_neg (by simp [hs, hdue])
  generalize hu : ({ s with cur := ep } : State).onMe (fun c => { c with alignN := c.alignN + 1 }) = u
  have hume : u.me = { s.core ep with alignN := (s.core ep).alignN + 1 } := by
    rw [← hu, onMe_me]
    rfl
  have hret := retire_retires u 1
  have hcur : (u.retire 1).cur = ep := by rw [Retires.cur hret, ← hu]; rfl
  have hcore : (s.asCore ep (fun u => (u.onMe (fun c => { c with alignN := c.alignN + 1 })).retire 1)).core ep =
      (u.retire 1).me := by
    rw [State.me, hcur, ← hu]
    rfl
  have hme := Retires.me_eq hret
  refine ⟨_, hexec, ?_, ?_, ?_, ?_⟩ <;> rw [hcore]
  · rw [hme, hume]
  · rw [hme]
  · rw [hme, State.frame, hume]
  · rw [hme, hume]

/-- A bank idle for 32 cycles goes into retention. -/
theorem bankRetention_retains {s : State} {ep : Nat} {bank : Fin 4} (h : (s.core ep).bankAt[bank] + 32 ≤ s.now) :
    exec (.bankRetention ep bank) s =
      .next (s.setCore ep { s.core ep with bankRet := (s.core ep).bankRet ||| BitVec.ofNat 4 (2 ^ bank.val) }) := by
  rw [exec_bankRetention, execBankRetention]
  exact (dif_pos bank.isLt).trans (congrArg _ (if_pos h))

/-! ### A new carve-out (R124) -/

theorem rekey_cores (s : State) (key sector : Nat) : (s.rekey key sector).cores = s.cores := by
  unfold State.rekey
  dsimp only
  repeat' split
  all_goals rfl

theorem writeKeyed_cores (s : State) (key pa : Nat) (bs : List Byte) : (s.writeKeyed key pa bs).cores = s.cores := by
  unfold State.writeKeyed
  generalize List.range ((pa + bs.length + 127) / 128 - pa / 128) = l
  obtain ⟨_, _, _, h⟩ := writeBytes_frame bs (l.foldl (fun t i => State.rekey t key (pa / 128 + i)) s) pa
  rw [h]
  dsimp only
  clear h
  induction l generalizing s with
  | nil => rfl
  | cons i l ih => exact (ih _).trans (rekey_cores ..)

theorem spadWrite_cores (s : State) (ep off : Nat) (bs : List Byte) : (s.spadWrite ep off bs).cores = s.cores := by
  have hclear : ∀ t : State, (t.clearWhole (arrayBase ep + off) bs.length).cores = t.cores := fun t => by
    unfold State.clearWhole
    generalize List.range (bs.length / 8 + 1) = l
    induction l generalizing t with
    | nil => rfl
    | cons i l ih =>
      refine (ih _).trans ?_
      dsimp only
      split
      · unfold State.setPoison
        dsimp only
        split <;> rfl
      · rfl
  obtain ⟨_, _, _, h⟩ := writeBytes_frame bs s (arrayBase ep + off)
  exact (hclear _).trans (by rw [h])

/-- A revoked window leaves what a core has cached and noted. -/
theorem revokeOne_keeps (s : State) (ep e : Nat) :
    ((s.revokeOne ep).core e).l1 = (s.core e).l1 ∧ ((s.revokeOne ep).core e).notes = (s.core e).notes := by
  unfold State.revokeOne
  split
  · next k _ =>
    dsimp only
    split
    · next f _ =>
      have hspill : (s.spillWindow (8 * clusterOf ep + k) f).core e = s.core e := by
        rw [State.core, State.spillWindow, writeKeyed_cores]
        rfl
      by_cases he : e = 8 * clusterOf ep + k
      · subst he
        rw [onCore_core, hspill]
        exact ⟨rfl, rfl⟩
      · rw [State.onCore, core_setCore_other _ _ _ _ he, hspill]
        exact ⟨rfl, rfl⟩
    · exact ⟨rfl, rfl⟩
  · exact ⟨rfl, rfl⟩

theorem revokeTo_keeps (ep n fuel : Nat) (s : State) (e : Nat) :
    ((s.revokeTo ep n fuel).core e).l1 = (s.core e).l1 ∧ ((s.revokeTo ep n fuel).core e).notes = (s.core e).notes := by
  induction fuel generalizing s with
  | zero => exact ⟨rfl, rfl⟩
  | succ fuel ih =>
    unfold State.revokeTo
    split
    · exact ⟨rfl, rfl⟩
    · obtain ⟨hl1, hnotes⟩ := ih (s.revokeOne ep)
      obtain ⟨hl1', hnotes'⟩ := revokeOne_keeps s ep e
      exact ⟨hl1.trans hl1', hnotes.trans hnotes'⟩

/-- A new carve-out over the idle frame, with nothing in the log: L1 and notes go, and the scratchpad's new bytes are 0. -/
theorem carveOutApply_applies {s : State} {ep : Nat} {w : Carve} (hs : s.stopped ep = false)
    (hnew : (s.core ep).carveNew = some w) (hidle : (s.core ep).idle = true) (hlog : (s.core ep).pub.log = []) :
    ∃ t, exec (.carveOutApply ep) s = .next t ∧ (t.core ep).carve = w ∧ (t.core ep).carveNew = none ∧
      (t.core ep).l1 = [] ∧ (t.core ep).notes = [] ∧ (t.core ep).run.base = w.spadSize ∧
      ∀ x, (s.core ep).carve.spadSize ≤ x → x < w.spadSize → t.readByte (arrayBase ep + x) = 0 := by
  have hexhausted : (s.core ep).pub.exhausted = false := by simp [Pub.exhausted, hlog]
  rw [exec_carveOutApply, execCarveOutApply]
  simp only [hnew, hidle, hs, hexhausted, hlog, List.any_nil, List.isEmpty_nil, Bool.not_true, Bool.or_false,
    Bool.false_eq_true, if_false]
  generalize hs1 : s.onCore ep _ = s1
  obtain ⟨hl1, hnotes⟩ := revokeTo_keeps ep (16 * w.win) (s1.lentBy ep) s1 ep
  generalize s1.revokeTo ep (16 * w.win) (s1.lentBy ep) = s2 at hl1 hnotes
  rw [← hs1, onCore_core] at hl1 hnotes
  have hcore : ∀ off bs, (s2.spadWrite ep off bs).core ep = s2.core ep := fun off bs => by
    rw [State.core, spadWrite_cores]
    rfl
  refine ⟨_, rfl, ?_, ?_, ?_, ?_, ?_, fun x hlo hhi => ?_⟩
  · rw [onCore_core]
  · rw [onCore_core]
  · rw [onCore_core, hcore]
    exact hl1
  · rw [onCore_core, hcore]
    exact hnotes
  · rw [onCore_core]
  · obtain ⟨k, rfl⟩ := Nat.exists_eq_add_of_le hlo
    have hk : k < (List.replicate (w.spadSize - (s.core ep).carve.spadSize) (0 : Byte)).length := by
      rw [List.length_replicate]
      omega
    rw [← Nat.add_assoc]
    exact (readByte_spadWrite_inside s2 ep _ _ k hk).trans (List.getElem_replicate ..)

/-! ### A core's own steps -/

/-- Settles O48: selection, boundary traps, deadlines, timers and the carve-out, each by what its step does to the core. -/
theorem coresSelectTrapExpireAndKeepTime : Obligations.CoresSelectTrapExpireAndKeepTime := by
  intro s ep hs c pushes raises
  have hraises : ∀ cause v (done : Frame → Frame), (∀ f, (done f).level = f.level) → (∀ f, (done f).base = f.base) →
      exec (.boundaryTrap ep) s = .next (s.boundaryTrap ep cause v done) → raises (done c.run) cause v :=
    fun cause v done hlevel hbase h => ⟨_, h, boundaryTrap_raises hlevel hbase⟩
  refine ⟨fun r hcarve hsel hr hbad hfit hnxr _ => ?push, fun v hloads hdue => ⟨fun hfault => ?fault, fun hfault =>
      ⟨fun h => ?step, fun hstep h => ?watch, fun hstep hwatch h => ?chk⟩⟩,
    fun d f rest hloads hd hexp hidle hunder hgood => ?expire, fun r hdue hr hlatch => ?discard,
    fun t0 hat hdue => alignTimeout_retires hs hat hdue, fun bank h => ⟨_, bankRetention_retains h, rfl⟩,
    fun k hck hdue => checkpointTimer_takes hck hdue, fun w hnew hidle hlog => carveOutApply_applies hs hnew hidle hlog⟩
  case push =>
    obtain ⟨hrun, hstack, hready⟩ := start_core hnxr
    obtain ⟨hlevel, hpc, hthr, h10, h11, h12, h13, h3, h2, hacq⟩ := taskFrame_fields c r
    refine ⟨s.start ep r, exec_pushFrame_selected hs hcarve hsel hr hbad hfit hnxr, ?_⟩
    rw [hrun]
    exact ⟨hlevel, hpc, hthr, h10, h11, h12, h13, h3, h2, hacq, hstack, hready⟩
  case fault =>
    refine ⟨_, exec_boundaryTrap_fault hs hloads hdue hfault, fun hcur hopen => ?_⟩
    obtain ⟨-, htaken⟩ := boundaryTrap_raises (s := s) (ep := ep) (cause := 8) (v := v)
      (done := fun f => { f with pendFault := none }) (fun _ => rfl) fun _ => rfl
    obtain ⟨hlevel, -, h11, -⟩ := htaken hcur hopen
    exact ⟨hlevel, h11⟩
  case step =>
    exact hraises 23 v (fun f => { f with pendStep := none }) (fun _ => rfl) (fun _ => rfl)
      (exec_boundaryTrap_step hs hloads hdue hfault h)
  case watch =>
    exact hraises 22 v (fun f => { f with pendWatch := none }) (fun _ => rfl) (fun _ => rfl)
      (exec_boundaryTrap_watch hs hloads hdue hfault hstep h)
  case chk =>
    exact hraises 20 v (fun f => { f with pendChk := none }) (fun _ => rfl) (fun _ => rfl)
      (exec_boundaryTrap_chk hs hloads hdue hfault hstep hwatch h)
  case expire =>
    obtain ⟨t, ht, hrest, hrun, hregs, hpost⟩ := deadlineExpiry_pops hs hloads hd hexp hidle hunder hgood
    exact ⟨t, ht, hrest, hrun, hregs, fun r hr _ hvdev hgen => hpost r hr hvdev hgen⟩
  case discard =>
    refine ⟨_, deadlineExpiry_discards hdue hr hlatch, ?_, ?_⟩ <;> rw [dropReady_core]
    exact takeReady_all ..

end Sys2Proof.Machine

/-! PROOFS. Releases (R139 to R142, R160, R239): the publication that a release leaves, and what a retirement with its
checkpoint keeps of it. -/

namespace Sys2Proof.Machine

/-! ### The state after a publication (R140) -/

/-- The state in which a core's publication is `p` and the packets under way are `eg`. -/
def State.published (s : State) (ep : Nat) (p : Pub) (eg : List Pkt) : State :=
  { s.setCore ep { s.core ep with pub := p } with egress := eg }

theorem published_core (s : State) (ep : Nat) (p : Pub) (eg : List Pkt) :
    (s.published ep p eg).core ep = { s.core ep with pub := p } := core_setCore s ep _

theorem published_published (s : State) (ep : Nat) (p q : Pub) (eg l : List Pkt) :
    (s.published ep p eg).published ep q l = s.published ep q l := by
  rw [State.published, published_core]
  simp only [State.published, State.setCore, tset_tset]

theorem onCore_pub (s : State) (ep : Nat) (f : Pub → Pub) :
    s.onCore ep (fun c => { c with pub := f c.pub }) = s.published ep (f (s.core ep).pub) s.egress := rfl

theorem published_onCore_pub (s : State) (ep : Nat) (p : Pub) (eg : List Pkt) (f : Pub → Pub) :
    (s.published ep p eg).onCore ep (fun c => { c with pub := f c.pub }) = s.published ep (f p) eg := by
  rw [onCore_pub, published_core, published_published]
  rfl

theorem onlyX_published {rd : XReg} (s : State) (ep : Nat) (p : Pub) (eg : List Pkt) : s.OnlyX rd (s.published ep p eg) :=
  (State.OnlyX.setCore (c := { s.core ep with pub := p }) rfl rfl rfl rfl).trans (.of_beneath .of_cores fun _ => rfl)

theorem stream_eq (s : State) (ep : Nat) (rs : List LogRec) : ∃ eg, s.stream ep rs = { s with egress := eg } := by
  induction rs generalizing s with
  | nil => exact ⟨_, rfl⟩
  | cons r rs ih =>
    obtain ⟨eg, h⟩ := ih (s.send (s.pktFrom ep r.home 3 24 (.rcd r)))
    exact ⟨eg, h⟩

/-- Stamping an owner's records leaves none of them in the log. -/
theorem stampOwner_published (s : State) (ep : Nat) {o : RecOwner} {q : Nat} (hq : RecOwner.stamped q ≠ o) :
    ∃ log eg, s.stampOwner ep o q = s.published ep { (s.core ep).pub with log := log } eg ∧
      log.all (fun r => !(r.owner == o)) = true := by
  unfold State.stampOwner
  extract_lets log mine s1
  obtain ⟨eg, h⟩ := stream_eq s1 ep (mine.map (fun r => { r with owner := .stamped q }))
  refine ⟨_, eg, h, ?_⟩
  rw [List.all_map, List.all_eq_true]
  intro r _
  by_cases hr : r.owner = o <;> simp [hr, hq]

section Release

variable {s : State} {ep : Nat}

/-- A release of an open span behind no pending act takes the next seq and leaves no record of the span (R140). -/
theorem release_span (hacts : (s.core ep).pub.acts = [])
    (hspan : (s.core ep).pub.log.any (fun r => r.owner == .free) = true) :
    let q := (s.core ep).pub.nextSeq
    ∃ log eg,
      s.release ep = s.published ep { (s.core ep).pub with opened := false, lseq := q, clk := q, log := log } eg ∧
        log.all (fun r => !(r.owner == .free)) = true := by
  intro q
  have hrel : s.release ep =
      (s.published ep { (s.core ep).pub with opened := false, lseq := q, clk := q } s.egress).stampOwner ep .free q := by
    unfold State.release
    extract_lets p q s0 new
    rw [if_neg (by simp [p, hacts]), if_pos hspan]
    exact congrArg (State.stampOwner · ep .free q)
      (published_onCore_pub s ep _ s.egress fun p => { p with lseq := q, clk := q })
  obtain ⟨log, eg, h, hlog⟩ :=
    stampOwner_published (s.published ep _ s.egress) ep (o := .free) (q := q) RecOwner.noConfusion
  rw [published_published, published_core, ← hrel] at h
  exact ⟨log, eg, h, hlog⟩

end Release

/-- Whatever a release does, it changes the core's publication and the packets under way alone. -/
theorem release_published (s : State) (ep : Nat) : ∃ p eg, s.release ep = s.published ep p eg := by
  by_cases hspan : (s.core ep).pub.acts = [] ∧ (s.core ep).pub.log.any (fun r => r.owner == .free) = true
  · obtain ⟨log, eg, h, -⟩ := release_span hspan.1 hspan.2
    exact ⟨_, eg, h⟩
  · unfold State.release
    extract_lets p q s0 new
    have h0 : s0 = s.published ep { p with opened := false } s.egress := rfl
    split
    · split
      · exact ⟨_, _, h0⟩
      · rw [h0]
        exact ⟨_, _, published_onCore_pub s ep _ s.egress (fun d => { d.claim (.act p.nextAct) with
          acts := p.acts ++ [.rel p.nextAct none], nextAct := p.nextAct + 1 })⟩
    · rename_i hacts
      have hnew : ¬ new = true := fun h => hspan ⟨by simpa using hacts, h⟩
      rw [if_neg hnew]
      exact ⟨_, _, h0⟩

/-! ### Retirements with their checkpoint -/

theorem wake_pub (s : State) (srcs : List XReg) (dst : XReg) : (s.wake srcs dst).me.pub = s.me.pub := by
  obtain ⟨b, h⟩ := wake_me s srcs dst
  rw [h]

theorem ckCycle_pub (u : State) : (u.ckCycle u.cur).me.pub = { u.me.pub with opened := false } := by
  have hspend : (u.ckCycle u.cur).me.pub = (u.checkpoint u.cur).me.pub :=
    (congrArg Core.pub (beneath_spend (u.checkpoint u.cur) u.cur 1).me :)
  have hck : (u.checkpoint u.cur).me = (u.checkpoint u.cur).core u.cur := rfl
  rw [hspend, hck, State.checkpoint, onCore_core]
  rfl

theorem retireCk_eq (v : State) (cost : Nat) : v.retireCk cost = (v.retire cost).ckCycle (v.retire cost).cur := by
  rw [State.retireCk, Retires.cur (retire_retires v cost)]

theorem retireCk_pub (v : State) (cost : Nat) : (v.retireCk cost).me.pub = { v.me.pub with opened := false } := by
  rw [retireCk_eq, ckCycle_pub, Retires.me_eq (retire_retires v cost)]

/-- A retirement with its checkpoint at the PC the instruction began at completes with the state it retires. -/
theorem completesCk_of_retireCk {s u : State} {i : Instr} {cost : Nat} (he : exec i s = .next (u.retireCk cost))
    (hpc : u.frame.pc = s.frame.pc) : s.completesCk i u (s.frame.pc + 4) :=
  ⟨_, he, u.retire cost, hpc ▸ retire_retires u cost, retireCk_eq u cost⟩

/-! ### REL (R142, R239) -/

theorem releasing_exhausted {s : State} {k : State → State} (h : s.me.pub.exhausted = true) :
    s.releasing k = s.trap 24 (BitVec.ofNat 64 s.me.pub.lseq) := if_pos h

theorem releasing_open {s : State} {k : State → State} (h : s.me.pub.exhausted = false) : s.releasing k = k s :=
  if_neg (by simp [h])

section Rel

variable {s : State} (hc : s.clear false [] 0 = true)
include hc

theorem exec_rel_exhausted (h : s.me.pub.exhausted = true) :
    exec .rel s = .next ((s.wake [] 0).trap 24 (BitVec.ofNat 64 s.me.pub.lseq)) := by
  rw [← wake_pub s [] 0] at h ⊢
  exact exec_of_run (exec_rel s) hc (by simp) (releasing_exhausted h)

theorem exec_rel_open (h : s.me.pub.exhausted = false) : exec .rel s = .next (((s.wake [] 0).release s.cur).retireCk 1) := by
  rw [← wake_pub s [] 0] at h
  exact exec_of_run (exec_rel s) hc (by simp) (releasing_open h)

end Rel

/-- Settles O33: the limit's trap, the release's retirement, and the publication that the release of an open span leaves. -/
theorem releasesPublishTheOpenSpan : Obligations.ReleasesPublishTheOpenSpan := by
  intro s hc w p
  have hcur : w.cur = s.cur := wake_cur s [] 0
  have hpub : w.me.pub = p := wake_pub s [] 0
  refine ⟨fun hex => exec_rel_exhausted hc hex, fun hex => ?_, fun hex hacts hspan => ?_⟩
  · obtain ⟨q, eg, hrel⟩ := release_published w s.cur
    have ho : w.OnlyX 0 (w.release s.cur) := hrel ▸ onlyX_published ..
    exact completesCk_of_retireCk (exec_rel_open hc hex) (by rw [ho.pc, wake_frame])
  · have hcore : w.core s.cur = w.me := rfl
    obtain ⟨log, eg, hrel, hlog⟩ := release_span (s := w) (ep := s.cur) (by rw [hcore, hpub]; exact hacts)
      (by rw [hcore, hpub]; exact hspan)
    have ho : w.OnlyX 0 (w.release s.cur) := hrel ▸ onlyX_published ..
    obtain ⟨hgone, -⟩ := (retiredCk (w.release s.cur) 1).goneOn_keepsFrom (.wake ..) ho
    have hpubt : ((w.release s.cur).retireCk 1).me.pub =
        { p with opened := false, lseq := p.nextSeq, clk := p.nextSeq, log := log } := by
      have hme : (w.release s.cur).me.pub = { p with opened := false, lseq := p.nextSeq, clk := p.nextSeq, log := log } := by
        rw [State.me, ho.cur, hcur, hrel, published_core, hcore, hpub]
      rw [retireCk_pub, hme]
    refine ⟨_, exec_rel_open hc hex, hgone, ?_⟩
    rw [hpubt]
    exact ⟨rfl, rfl, hlog, rfl⟩

end Sys2Proof.Machine

/-! PROOFS. Drains and fences (R132, R159, R205, R241): a release, a checkpoint and its cycle leave the copies and the kiln
writes that a drain waits for. -/

namespace Sys2Proof.Machine

/-! ### What a drain waits for (R132) -/

/-- An interval's end as it stands in a command in flight: a core's own is old from then on (R368). -/
def Flight.aged (ep : Nat) (f : Flight) : Flight :=
  if f.core == ep then { f with cmd := { f.cmd with old := true } } else f

theorem Flight.aged_core (ep : Nat) (f : Flight) : (f.aged ep).core = f.core := by
  unfold Flight.aged
  split <;> rfl

theorem Flight.aged_ins (ep : Nat) (f : Flight) : (f.aged ep).cmd.ins = f.cmd.ins := by
  unfold Flight.aged
  split <;> rfl

/-- `t` is `s` with no register changed, no copy more or less, and the same kiln writes of its core under way. -/
structure State.SamePaths (s t : State) : Prop where
  only : s.OnlyX 0 t
  clusters : t.clusters = s.clusters
  stores : t.kilnStorePending s.cur = s.kilnStorePending s.cur

namespace State.SamePaths

variable {s t u : State}

theorem trans (h : s.SamePaths t) (g : t.SamePaths u) : s.SamePaths u :=
  ⟨h.only.trans g.only, g.clusters.trans h.clusters, h.only.cur ▸ (g.stores.trans (h.only.cur ▸ h.stores))⟩

/-- With the kilns untouched, the core's dispatch queue decides. -/
theorem of_dq (ho : s.OnlyX 0 t) (hclusters : t.clusters = s.clusters) (hkilns : t.kilns = s.kilns)
    (hdq : (t.core s.cur).dq = s.me.dq) : s.SamePaths t :=
  ⟨ho, hclusters, by rw [State.kilnStorePending, hdq, State.kiln, hkilns]; rfl⟩

theorem wake (s : State) (srcs : List XReg) (dst : XReg) : s.SamePaths (s.wake srcs dst) := by
  obtain ⟨b, hb⟩ := wake_core s srcs dst s.cur
  exact of_dq (.of_beneath (.wake ..) fun _ => rfl) rfl rfl (by rw [hb]; rfl)

theorem release (s : State) : s.SamePaths (s.release s.cur) := by
  obtain ⟨p, eg, h⟩ := release_published s s.cur
  rw [h]
  exact of_dq (onlyX_published ..) rfl rfl (by rw [published_core]; rfl)

/-- A checkpoint marks the core's kiln commands as old, and drops none. -/
theorem checkpoint (s : State) : s.SamePaths (s.checkpoint s.cur) := by
  refine ⟨.checkpoint s s.cur, rfl, ?_⟩
  have hflight : ((s.checkpoint s.cur).kiln (quadOf s.cur)).flight =
      (s.kiln (quadOf s.cur)).flight.map (Flight.aged s.cur) := by
    rw [State.checkpoint, kiln_onCore]
    exact congrArg Kiln.flight (tget_tset_same ..)
  have hdq : ((s.checkpoint s.cur).core s.cur).dq = (s.core s.cur).dq.map (fun k => { k with old := true }) := by
    rw [State.checkpoint, onCore_core]
    rfl
  simp only [State.kilnStorePending, hflight, hdq, List.any_map, Function.comp_def, Flight.aged_core, Flight.aged_ins]

theorem spend (s : State) (n : Nat) : s.SamePaths (s.spend s.cur n) := by
  obtain ⟨cores, now, h⟩ := spend_frame s s.cur n
  exact of_dq (.spend ..) (by rw [h]) (by rw [h]) (congrArg Core.dq ((beneath_spend s s.cur n).core s.cur) :)

theorem ckCycle (s : State) : s.SamePaths (s.ckCycle s.cur) := (checkpoint s).trans (spend (s.checkpoint s.cur) 1)

theorem releaseOnce (s : State) : s.SamePaths s.releaseOnce := by
  have hck := ckCycle (s.release s.cur)
  rw [(release s).only.cur] at hck
  unfold State.releaseOnce
  split
  · exact (release s).trans hck
  · exact release s

theorem copyPending (h : s.SamePaths t) (path : Nat) : t.copyPending t.cur path = s.copyPending s.cur path := by
  rw [h.only.cur, State.copyPending, State.cluster, h.clusters]
  rfl

theorem kilnStorePending (h : s.SamePaths t) : t.kilnStorePending t.cur = s.kilnStorePending s.cur := by
  rw [h.only.cur, h.stores]

theorem pc (h : s.SamePaths t) : t.frame.pc = s.frame.pc := h.only.pc

end State.SamePaths

/-! ### Drains and fences (R159, R205, R241) -/

section Drain

variable {s : State} {i : Instr} {busy : State → Bool} (he : exec i s = drain i busy s)
  (hc : s.clear (isPrefixed i) [] 0 = true)
include he hc

theorem drain_quiet (h : busy (s.wake [] 0) = false) : s.completes i (s.wake [] 0) (s.frame.pc + 4) :=
  completes_of_retire (cost := 1) he hc (by simp) (if_neg (ne_true_of_eq_false h)) (by rw [wake_frame])

theorem drain_busy (h : busy (s.wake [] 0) = true) : exec i s = .next ((s.wake [] 0).stall .drain) :=
  exec_of_run he hc (by simp) (if_pos h)

end Drain

/-- The state in which a fence has made its release waits for the same paths. -/
theorem samePaths_fence (s : State) : s.SamePaths (s.wake [] 0).releaseOnce :=
  (State.SamePaths.wake s [] 0).trans (.releaseOnce ..)

section Fence

variable {s : State} (hc : s.clear false [] 0 = true) (hopen : s.me.pub.exhausted = false)
  (hstamped : (s.wake [] 0).releaseOnce.me.pub.acts = [])
include hc hopen hstamped

theorem fence_quiet (fm : BitVec 1) (p q : BitVec 4) (hs : s.copyPending s.cur 0 = false)
    (hg : s.copyPending s.cur 1 = false) (hr : s.copyPending s.cur 2 = false) (hstores : s.kilnStorePending s.cur = false) :
    exec (.fence fm p q) s = .next ((s.wake [] 0).releaseOnce.retireCk 1) := by
  have hsame := samePaths_fence s
  refine exec_of_run (exec_fence s fm p q) hc (by simp) ?_
  rw [releasing_open (by rw [wake_pub]; exact hopen)]
  simp only [hsame.copyPending, hsame.kilnStorePending, hs, hg, hr, hstores, hstamped]
  rfl

theorem fenceI_acknowledged
    (hack : (s.wake [] 0).releaseOnce.me.pub.chMeets (s.wake [] 0).releaseOnce.me.pub.lseq = true) :
    exec .fenceI s = .next (((s.wake [] 0).releaseOnce.onMe (fun c => { c with ilines := [] })).retireCk 8) := by
  refine exec_of_run (exec_fenceI s) hc (by simp) ?_
  rw [releasing_open (by rw [wake_pub]; exact hopen)]
  simp only [hack, hstamped]
  rfl

end Fence

/-- Settles O35: each drain by its path, and each fence by the paths that its release leaves as they were. -/
theorem fencesAndDrainsWaitForTheirPaths : Obligations.FencesAndDrainsWaitForTheirPaths := by
  intro s fm p q hc w pc4 drains
  have hwake := State.SamePaths.wake s [] 0
  have hpath : ∀ {i : Instr} (path : Nat), isPrefixed i = false →
      exec i s = drain i (fun t => t.copyPending t.cur path) s → drains i (s.copyPending s.cur path) := fun path hpre he =>
    ⟨fun h => drain_quiet he (by rw [hpre]; exact hc) ((hwake.copyPending path).trans h),
      fun h => drain_busy he (by rw [hpre]; exact hc) ((hwake.copyPending path).trans h)⟩
  refine ⟨hpath 0 rfl (exec_drainS s), hpath 1 rfl (exec_drainG s), hpath 2 rfl (exec_drainR s),
    ⟨fun h => ?_, fun h => ?_⟩, fun hopen => ⟨fun hstamped hs hg hr hk => ?_, fun hstamped hack => ?_⟩⟩
  · exact drain_quiet (exec_drainK s) hc (hwake.kilnStorePending.trans h)
  · exact drain_busy (exec_drainK s) hc (hwake.kilnStorePending.trans h)
  · exact completesCk_of_retireCk (fence_quiet hc hopen hstamped fm p q hs hg hr hk) (samePaths_fence s).pc
  · exact completesCk_of_retireCk (fenceI_acknowledged hc hopen hstamped hack)
      (by rw [onMe_frame]; exact (samePaths_fence s).pc)

end Sys2Proof.Machine

/-! PROOFS. Acquires (R141, R149 to R151, R240): the queries that an acquire sends to its writers, and the loads that wait
behind it. -/

namespace Sys2Proof.Machine

/-! ### The queries of acquires (R149, R150) -/

/-- An acquire as it stands once the queries of the acquires with these identifiers have left. -/
def Acq.sentAmong (ids : List Nat) (b : Acq) : Acq := { b with sent := b.sent || ids.contains b.id }

theorem Acq.sentAmong_nil : Acq.sentAmong [] = fun b => b := funext fun b => by simp [Acq.sentAmong]

theorem Acq.sentAmong_of_mem {a : Acq} {l : List Acq} (h : a ∈ l) :
    a.sentAmong (l.map Acq.id) = { a with sent := true } := by
  have hin : (l.map Acq.id).contains a.id = true := List.contains_iff_mem.2 (List.mem_map_of_mem h)
  rw [Acq.sentAmong, hin, Bool.or_true]

theorem Acq.sentAmong_append (k l : List Nat) (b : Acq) : (b.sentAmong k).sentAmong l = b.sentAmong (k ++ l) := by
  simp [Acq.sentAmong, Bool.or_assoc]

theorem Acq.sentAmong_singleton (a b : Acq) :
    (if b.id = a.id then { b with sent := true } else b) = b.sentAmong [a.id] := by
  unfold Acq.sentAmong
  split
  · next h => simp [h]
  · next h => simp [h]

/-- `t` is `s` after the queries of these acquires of a core have left, or are held at the core itself. -/
structure State.Queried (ep : Nat) (s t : State) (l : List Acq) : Prop where
  only : s.OnlyX 0 t
  chip : t.chip = s.chip
  pub : (t.core ep).pub = (s.core ep).pub
  acqs : (t.core ep).acqs = (s.core ep).acqs.map (Acq.sentAmong (l.map Acq.id))
  egress : ∀ p ∈ s.egress, p ∈ t.egress
  queries : ∀ q ∈ (s.core ep).queries, q ∈ (t.core ep).queries
  asked : ∀ a ∈ l, ∀ w ∈ a.waits, w.1 ≠ s.epId ep →
    ∃ p ∈ t.egress, p.src = s.epId ep ∧ p.dst = w.1 ∧ p.cls = 0 ∧ p.body = .query a.id w.2
  held : ∀ a ∈ l, ∀ w ∈ a.waits, w.1 = s.epId ep →
    ∃ q ∈ (t.core ep).queries, q.src = w.1 ∧ q.id = a.id ∧ q.target = w.2.getD (s.core ep).pub.lseq

namespace State.Queried

variable {ep : Nat} {s t u : State} {k l : List Acq}

theorem refl (s : State) (ep : Nat) : s.Queried ep s [] where
  only := .refl s
  chip := rfl
  pub := rfl
  acqs := by simp [Acq.sentAmong_nil]
  egress _ hp := hp
  queries _ hq := hq
  asked _ ha := absurd ha List.not_mem_nil
  held _ ha := absurd ha List.not_mem_nil

theorem epId (h : s.Queried ep t l) : t.epId ep = s.epId ep := by rw [State.epId, h.chip]; rfl

theorem trans (h : s.Queried ep t k) (g : t.Queried ep u l) : s.Queried ep u (k ++ l) where
  only := h.only.trans g.only
  chip := g.chip.trans h.chip
  pub := g.pub.trans h.pub
  acqs := by
    rw [g.acqs, h.acqs, List.map_map, List.map_append]
    exact List.map_congr_left fun b _ => Acq.sentAmong_append ..
  egress p hp := g.egress p (h.egress p hp)
  queries q hq := g.queries q (h.queries q hq)
  asked a ha w hw hne := by
    rcases List.mem_append.1 ha with hk | hl
    · obtain ⟨p, hp, hsays⟩ := h.asked a hk w hw hne
      exact ⟨p, g.egress p hp, hsays⟩
    · rw [← h.epId] at hne ⊢
      exact g.asked a hl w hw hne
  held a ha w hw heq := by
    rcases List.mem_append.1 ha with hk | hl
    · obtain ⟨q, hq, hsays⟩ := h.held a hk w hw heq
      exact ⟨q, g.queries q hq, hsays⟩
    · rw [← h.pub]
      exact g.held a hl w hw (heq.trans h.epId.symm)

end State.Queried

/-- Queries to other writers leave one behind the other. -/
theorem foldl_query_eq (ep id : Nat) (ws : List (Nat × Option Nat)) (s : State) :
    ∃ ps, ws.foldl (fun t w => t.send (t.pktFrom ep w.1 0 8 (.query id w.2))) s = { s with egress := s.egress ++ ps } ∧
      ∀ w ∈ ws, ∃ p ∈ ps, p.src = s.epId ep ∧ p.dst = w.1 ∧ p.cls = 0 ∧ p.body = .query id w.2 := by
  induction ws generalizing s with
  | nil => exact ⟨[], by simp, by simp⟩
  | cons w ws ih =>
    obtain ⟨ps, heq, hps⟩ := ih (s.send (s.pktFrom ep w.1 0 8 (.query id w.2)))
    refine ⟨_ :: ps, heq.trans (by rw [State.send, List.append_assoc]; rfl), fun v hv => ?_⟩
    rcases List.mem_cons.1 hv with rfl | hv
    · exact ⟨_, List.mem_cons_self, rfl, rfl, rfl, rfl⟩
    · obtain ⟨p, hp, hsays⟩ := hps v hv
      exact ⟨p, List.mem_cons_of_mem _ hp, hsays⟩

theorem queried_sendQueries (s : State) (ep : Nat) (a : Acq) : s.Queried ep (s.sendQueries ep a) [a] := by
  unfold State.sendQueries
  extract_lets me s1
  obtain ⟨ps, heq, hps⟩ := foldl_query_eq ep a.id (a.waits.filter fun w => !(w.1 == me)) s1
  rw [heq]
  have hcore : s1.core ep = { s.core ep with
      acqs := (s.core ep).acqs.map (fun b => if b.id = a.id then { b with sent := true } else b)
      queries := (s.core ep).queries ++ (a.waits.filter (fun w => w.1 == me)).map (fun w =>
        { src := me, id := a.id, target := w.2.getD (s.core ep).pub.lseq, vdev := (s.core ep).vdev,
          fkey := (s.core ep).fkey }) } := onCore_core ..
  constructor
  case only =>
    have h1 : s.OnlyX 0 s1 := .onCore (fun _ => rfl) (fun _ => rfl) (fun _ => rfl) fun _ => rfl
    exact h1.trans (.of_beneath .of_cores fun _ => rfl)
  case chip => rfl
  case pub => exact (congrArg Core.pub hcore :)
  case acqs =>
    refine (congrArg Core.acqs hcore :).trans (List.map_congr_left fun b _ => ?_)
    exact Acq.sentAmong_singleton a b
  case egress => exact fun p hp => List.mem_append_left _ hp
  case queries =>
    intro q hq
    refine (congrArg Core.queries hcore :) ▸ ?_
    exact List.mem_append_left _ hq
  case asked =>
    intro b hb w hw hne
    obtain rfl := List.mem_singleton.1 hb
    obtain ⟨p, hp, hsays⟩ := hps w (List.mem_filter.2 ⟨hw, by simpa [me] using hne⟩)
    exact ⟨p, List.mem_append_right _ hp, hsays⟩
  case held =>
    intro b hb w hw hown
    obtain rfl := List.mem_singleton.1 hb
    refine (congrArg Core.queries hcore :) ▸ ?_
    refine ⟨_, List.mem_append_right _ (List.mem_map_of_mem (List.mem_filter.2 ⟨hw, by simpa [me] using hown⟩)), ?_⟩
    exact ⟨hown.symm, rfl, rfl⟩

theorem queried_foldl (ep : Nat) (l : List Acq) (s : State) :
    s.Queried ep (l.foldl (fun t a => t.sendQueries ep a) s) l := by
  induction l generalizing s with
  | nil => exact .refl s ep
  | cons a l ih => exact (queried_sendQueries s ep a).trans (ih _)

/-! ### An acquire -/

/-- What an acquire of writers does at its core: it waits behind a release or post that is not yet settled, and else has its
queries on their way. -/
def State.Asks (s : State) (i : Instr) (w : State) (ws : List (Nat × Option Nat)) (h : Option (Nat × Nat)) : Prop :=
  (s.me.pub.acts ≠ [] → exec i s = .next (w.stall .acquire)) ∧
  (s.me.pub.acts = [] →
    ∃ t, exec i s = .next t ∧ s.goneOn t 4 1 ∧ s.keepsBut t 0 ∧
      { id := s.me.nextId, got := [], waits := ws, horizon := h, sent := true } ∈ t.me.acqs ∧
      (∀ a ∈ t.me.acqs, a.id ≠ s.me.nextId → ∃ b ∈ s.me.acqs, b.id = a.id ∧ b.waits = a.waits) ∧
      (∀ e ∈ ws, e.1 ≠ s.epId s.cur →
        ∃ p ∈ t.egress, p.src = s.epId s.cur ∧ p.dst = e.1 ∧ p.cls = 0 ∧ p.body = .query s.me.nextId e.2) ∧
      (∀ e ∈ ws, e.1 = s.epId s.cur →
        ∃ q ∈ t.me.queries, q.src = e.1 ∧ q.id = s.me.nextId ∧ q.target = e.2.getD s.me.pub.lseq))

/-- An acquire whose queries have not left. -/
def newAcq (id : Nat) (ws : List (Nat × Option Nat)) (hz : Option (Nat × Nat)) : Acq :=
  { id := id, got := [], waits := ws, horizon := hz, sent := false }

/-- The state with an acquire added, before any query has left. -/
def State.withAcq (s : State) (ws : List (Nat × Option Nat)) (hz : Option (Nat × Nat)) : State :=
  s.onMe (fun c => { c with nextId := c.nextId + 1, acqs := c.acqs ++ [newAcq c.nextId ws hz] })

theorem acquire_waits {w : State} {ws : List (Nat × Option Nat)} {hz : Option (Nat × Nat)} (h : w.me.pub.acts ≠ []) :
    w.acquire ws hz = w.stall .acquire := if_pos (by simpa using h)

/-- With every release stamped, the queries of the new acquire and of every earlier one that waited leave. -/
theorem acquire_goes {w : State} {ws : List (Nat × Option Nat)} {hz : Option (Nat × Nat)} (h : w.me.pub.acts = []) :
    ∃ u l, w.acquire ws hz = u.retire 1 ∧ newAcq w.me.nextId ws hz ∈ l ∧ (w.withAcq ws hz).Queried w.cur u l := by
  have hadd : (w.onMe fun c => { c with nextId := c.nextId + 1 }).onCore w.cur (fun c => { c with
      acqs := c.acqs ++ [newAcq w.me.nextId ws hz] }) = w.withAcq ws hz := by
    rw [State.withAcq, State.onMe, State.onMe, State.onCore, onCore_core, State.onCore, setCore_setCore]
    rfl
  have hacts : ((w.withAcq ws hz).core w.cur).pub.acts = [] := (congrArg (fun c => c.pub.acts) (onMe_me w _)).trans h
  have hacqs : ((w.withAcq ws hz).core w.cur).acqs = w.me.acqs ++ [newAcq w.me.nextId ws hz] :=
    (congrArg Core.acqs (onMe_me w _) :)
  refine ⟨_, _, ?_, ?_, queried_foldl w.cur (((w.withAcq ws hz).core w.cur).acqs.filter fun a => !a.sent) _⟩
  · have hstart : (w.onMe fun c => { c with nextId := c.nextId + 1 }).startAcquire w.cur w.me.nextId ws hz =
        (w.withAcq ws hz).queriesLeave w.cur := congrArg (State.queriesLeave · w.cur) hadd
    rw [State.acquire, if_neg (by simp [h]), hstart, State.queriesLeave, if_pos (by rw [hacts]; rfl)]
  · rw [hacqs]
    exact List.mem_filter.2 ⟨List.mem_append_right _ (List.mem_singleton_self _), rfl⟩

theorem withAcq_me (w : State) (ws : List (Nat × Option Nat)) (hz : Option (Nat × Nat)) : (w.withAcq ws hz).me =
    { w.me with nextId := w.me.nextId + 1, acqs := w.me.acqs ++ [newAcq w.me.nextId ws hz] } := onMe_me ..

theorem onlyX_withAcq (w : State) (ws : List (Nat × Option Nat)) (hz : Option (Nat × Nat)) :
    w.OnlyX 0 (w.withAcq ws hz) := by
  unfold State.withAcq
  exact .onMe rfl fun _ _ => rfl

theorem asks_of_acquire {s : State} {i : Instr} {srcs : List XReg} {ws : List (Nat × Option Nat)} {hz : Option (Nat × Nat)}
    (he : exec i s = .next ((s.wake srcs 0).acquire ws hz)) : s.Asks i (s.wake srcs 0) ws hz := by
  have hpub : (s.wake srcs 0).me.pub = s.me.pub := wake_pub s srcs 0
  obtain ⟨b, hwake⟩ := wake_me s srcs 0
  refine ⟨fun hacts => he.trans (congrArg _ (acquire_waits (by rwa [hpub]))), fun hacts => ?_⟩
  obtain ⟨u, l, hu, hnew, hq⟩ := acquire_goes (ws := ws) (hz := hz) (by rwa [hpub])
  have hret := retire_retires u 1
  obtain ⟨hgone, hx, hcsr, hunder, hmem⟩ :=
    State.OnlyX.goneOn_keepsFrom (.wake s srcs 0) ((onlyX_withAcq ..).trans hq.only) hret
  have hme : (u.retire 1).me.acqs = (u.core s.cur).acqs ∧ (u.retire 1).me.queries = (u.core s.cur).queries := by
    rw [Retires.me_eq hret, State.me, hq.only.cur]
    exact ⟨rfl, rfl⟩
  have hcore : ((s.wake srcs 0).withAcq ws hz).core s.cur = { s.me with
      bankAt := b, nextId := s.me.nextId + 1, acqs := s.me.acqs ++ [newAcq s.me.nextId ws hz] } := by
    have h := withAcq_me (s.wake srcs 0) ws hz
    rwa [hwake] at h
  have hnew' : newAcq s.me.nextId ws hz ∈ l := by rwa [hwake] at hnew
  have hacqs : (u.retire 1).me.acqs = (s.me.acqs ++ [newAcq s.me.nextId ws hz]).map (Acq.sentAmong (l.map Acq.id)) := by
    have h := hq.acqs
    rw [wake_cur, hcore] at h
    exact hme.1.trans h
  refine ⟨_, he.trans (congrArg _ hu), hgone, ⟨hx, hcsr, hunder, hmem⟩, ?new, fun a ha hne => ?old, ?asked, ?held⟩
  case new =>
    rw [hacqs]
    exact List.mem_map.2 ⟨_, List.mem_append_right _ (List.mem_singleton_self _), Acq.sentAmong_of_mem hnew'⟩
  case old =>
    rw [hacqs] at ha
    obtain ⟨b, hb, rfl⟩ := List.mem_map.1 ha
    rcases List.mem_append.1 hb with hb | hb
    · exact ⟨b, hb, rfl, rfl⟩
    · obtain rfl := List.mem_singleton.1 hb
      exact absurd rfl hne
  case asked =>
    rw [hret.2]
    exact hq.asked _ hnew'
  case held =>
    have h := hq.held _ hnew'
    rw [wake_cur, hcore] at h
    rw [hme.2]
    exact h

/-! ### Loads behind an acquire (R149, R150) -/

section Load

variable {s t : State} {i : Instr} {rd rs1 : XReg} {a : Word} {n : Nat} {signed : Bool}
  (he : exec i s = .next ((s.wake [rs1] rd).load rd a n signed)) (hacqs : s.me.acqs ≠ []) (halign : a.toNat % n = 0)
  (hcarve : (s.wake [rs1] rd).carveHolds a.toNat = false)
include he hacqs halign hcarve

theorem load_waits_walk (hwalk : (s.wake [rs1] rd).noWalk (s.wake [rs1] rd).asker a.toNat = false) :
    exec i s = .next ((s.wake [rs1] rd).stall .acquire) := by
  have hme : (s.wake [rs1] rd).me.acqs ≠ [] := by
    obtain ⟨b, hb⟩ := wake_me s [rs1] rd
    rwa [hb]
  have hwaits : (s.wake [rs1] rd).walkWaits (s.wake [rs1] rd).asker a.toNat = true := by
    simp [State.walkWaits, hwalk, hme]
  rw [he]
  simp only [State.load, halign, hcarve, hwaits, ne_eq, not_true, if_false, if_true, Bool.false_eq_true]

theorem load_waits_glob {x : Xlat} (hwalk : (s.wake [rs1] rd).noWalk (s.wake [rs1] rd).asker a.toNat = true)
    (htr : (s.wake [rs1] rd).translate (s.wake [rs1] rd).asker a.toNat n .r = (.glob x, t))
    (hlock : t.locked s.cur (.glob x) a.toNat n false = false) : exec i s = .next (t.stall .acquire) := by
  have hme : t.me.acqs ≠ [] := by
    have hown : t.me.acqs = s.me.acqs := (congrArg Core.acqs (beneath_wake_translate htr).me :)
    rwa [hown]
  have hgoes : (s.wake [rs1] rd).walkWaits (s.wake [rs1] rd).asker a.toNat = false := by
    simp [State.walkWaits, hwalk]
  have hheld : t.me.acqs.isEmpty = false := by simpa using hme
  rw [he]
  simp only [State.load, halign, hcarve, hgoes, htr, wake_cur, hlock, hheld, ne_eq, not_true, if_false, if_true,
    Bool.false_eq_true, Bool.not_false]

end Load

/-- Settles O34: each form by the writers that it names, the traps by their conditions, and a load by its translation. -/
theorem acquiresAskTheirWriters : Obligations.AcquiresAskTheirWriters := by
  refine ⟨fun s rs1 e1 => ⟨fun hc => ?own, fun hc => ?acqv⟩, fun s t rd rs1 imm x hc hacqs => ?loads⟩
  case own =>
    intro w e m
    have hx : w.x rs1 = s.x rs1 := wake_x ..
    refine ⟨fun hp => asks_of_acquire ?acq, fun hp => ?acqTrap, fun hm => asks_of_acquire ?acqm, fun hm => ?acqmTrap,
      fun hm => asks_of_acquire ?acqg, fun hm => ?acqgTrap⟩
    case acq => exact exec_of_run (exec_acq s rs1 e1) hc eSrc_mem (by rw [hx]; exact if_pos hp)
    case acqTrap => exact exec_of_run (exec_acq s rs1 e1) hc eSrc_mem (by rw [hx]; exact if_neg (ne_true_of_eq_false hp))
    case acqm => exact exec_of_run (exec_acqm s rs1 e1) hc eSrc_mem (by rw [hx]; exact if_neg (Nat.not_le.2 hm))
    case acqmTrap => exact exec_of_run (exec_acqm s rs1 e1) hc eSrc_mem (by rw [hx]; exact if_pos hm)
    case acqg => exact exec_of_run (exec_acqg s rs1 e1) hc eSrc_mem (by rw [hx]; exact if_neg (Nat.not_lt.2 hm))
    case acqgTrap => exact exec_of_run (exec_acqg s rs1 e1) hc eSrc_mem (by rw [hx]; exact if_pos hm)
  case acqv => exact asks_of_acquire (exec_of_run (exec_acqv s) hc (by simp) (by rw [wake_pub]))
  case loads =>
    intro w a waits
    have hload : ∀ {i : Instr} {n : Nat} {signed : Bool}, exec i s = loadI i rd rs1 imm n signed s →
        isPrefixed i = false → waits i n := fun hi hpre hal hcarve =>
      have he := exec_of_run hi (by rw [hpre]; exact hc) (by simp) (by rw [wake_x]; rfl)
      ⟨fun hwalk => load_waits_walk he hacqs hal hcarve hwalk,
        fun hwalk htr hlock => load_waits_glob he hacqs hal hcarve hwalk htr hlock⟩
    exact ⟨(hload (exec_lb s rd rs1 imm) rfl :), (hload (exec_lbu s rd rs1 imm) rfl :),
      (hload (exec_lh s rd rs1 imm) rfl :), (hload (exec_lhu s rd rs1 imm) rfl :),
      (hload (exec_lw s rd rs1 imm) rfl :), (hload (exec_lwu s rd rs1 imm) rfl :),
      (hload (exec_ld s rd rs1 imm) rfl :)⟩

end Sys2Proof.Machine

/-! PROOFS. Home atomics and reductions (R157, R158, R214, R242, R243, R325): the own records that they carry and their message
to the home. -/

namespace Sys2Proof.Machine

/-! ### The own records that a message carries (R157) -/

theorem isCarried_acked (x : Xlat) (r : LogRec) : isCarried x { r with owner := .acked } = false := Bool.and_false _

theorem mem_trim {p : Pub} {r : LogRec} (h : r ∈ p.trim.log) : r ∈ p.log := (List.dropWhile_sublist _).subset h

/-- The carried records leave the log; the core's clock and all else of it stay. -/
theorem takeCarried_published (t : State) (x : Xlat) :
    ∃ p, (t.takeCarried t.cur x).2 = t.published t.cur p t.egress ∧ p.clk = t.me.pub.clk ∧
      ∀ r ∈ p.log, isCarried x r = false := by
  refine ⟨_, rfl, rfl, fun r hr => ?_⟩
  obtain ⟨q, hq, rfl⟩ := List.mem_map.1 (mem_trim hr)
  split
  · exact isCarried_acked x q
  · next hout => exact Bool.eq_false_iff.2 hout

/-- With nothing spilled the log is as it stands in the core. -/
theorem readExt_of_unspilled {s : State} {v ep i : Nat} {want : LogRec → Bool} {l : List LogRec}
    (h : l.any (fun r => r.spilled) = false) : s.readExt v ep want i l = l := by
  induction l generalizing i with
  | nil => rfl
  | cons r l ih =>
    rw [List.any_cons, Bool.or_eq_false_iff] at h
    rw [State.readExt, h.1, if_neg Bool.false_ne_true, ih h.2]

theorem takeCarried_records {t : State} {x : Xlat} (h : t.me.pub.log.any (fun r => r.spilled) = false) :
    (t.takeCarried t.cur x).1 = t.me.pub.log.filter (isCarried x) :=
  congrArg (List.filter (isCarried x)) (readExt_of_unspilled h)

/-! ### The address of an atomic or a reduction (R242, R243) -/

section Address

variable {w t : State} {a : Word} {n : Nat} {x : Xlat} {k : Xlat → State → State}

theorem atomAddr_misaligned (h : a.toNat % n ≠ 0) : w.atomAddr a n k = w.trap 6 a := if_pos h

theorem atomAddr_glob (halign : a.toNat % n = 0) (htr : w.translate w.asker a.toNat n .rw = (.glob x, t))
    (hlock : t.locked w.cur (.glob x) a.toNat n true = false) : w.atomAddr a n k = k x t := by
  simp only [State.atomAddr, halign, htr, hlock, ne_eq, not_true, if_false, Bool.false_eq_true]

end Address

/-! ### A message behind a changed publication -/

theorem watch_pub (s : State) (va : Word) (n kind : Nat) : (s.watch va n kind).me.pub = s.me.pub := by
  obtain ⟨p, h⟩ | h := watch_eq s va n kind <;> rw [h]
  rw [onFrame_me]

/-- The last packet under way, as the egress queue holds it. -/
theorem mem_egress_send (s : State) (p : Pkt) :
    ∃ q ∈ (s.send p).egress, q.src = p.src ∧ q.dst = p.dst ∧ q.cls = p.cls ∧ q.body = p.body :=
  ⟨_, List.mem_append_right _ (List.mem_singleton_self _), rfl, rfl, rfl, rfl⟩

/-! ### Home atomics (R157, R214, R242) -/

/-- The request of an atomic with no successor. -/
def State.atomReq (z : State) (rd : XReg) (n : Nat) (x : Xlat) : Req :=
  { id := z.me.nextId, kind := .atom n, rd := rd, fid := z.me.run.fid, level := z.me.run.level, vdev := z.me.vdev,
    gen := z.me.gen, x := x, succ := none, pc := z.me.run.pc, olds := (z.me.pub.log.filter (isLeft x)).length }

section Atom

variable {w u : State} {rd : XReg} {a v c : Word} {n : Nat} {op : AtomOp} {x : Xlat}

theorem atom_misaligned (h : a.toNat % n ≠ 0) : w.atom rd a v c n op = w.trap 6 a := by
  rw [State.atom, if_neg (by simp [h]), atomAddr_misaligned h]

theorem atom_waits (halign : a.toNat % n = 0) (h : w.walkWaits w.asker a.toNat = true) :
    w.atom rd a v c n op = w.stall .acquire := if_pos (by simp [halign, h])

theorem atom_glob (halign : a.toNat % n = 0) (hwalk : w.walkWaits w.asker a.toNat = false)
    (htr : w.translate w.asker a.toNat n .rw = (.glob x, u)) (hlock : u.locked w.cur (.glob x) a.toNat n true = false)
    (hacq : u.me.acqs = []) (hres : u.me.reserved < 16) :
    let z := (u.takeCarried u.cur x).2
    let y := z.withReq rd (z.atomReq rd n x)
    w.atom rd a v c n op = ((y.send (y.pktFrom y.cur x.home 0 40
      (.atom z.me.nextId x.pa x.set n op v c z.me.pub.clk (u.takeCarried u.cur x).1))).watch a n 3).retireCk 1 := by
  rw [State.atom, if_neg (by simp [hwalk]), atomAddr_glob halign htr hlock, if_neg (by simp [hacq]),
    if_neg (Nat.not_le.2 hres)]
  rfl

end Atom

/-- A request's message behind a changed publication: the retired state has the request and the publication. -/
theorem requests_of_published {s u v : State} {i : Instr} {rd : XReg} {q : Req} {p : Pub} {k : Pkt} {a : Word}
    {n kind cost : Nat} (hb : s.Beneath u) (hv : v = ((u.published u.cur p u.egress).withReq rd q).send k)
    (he : exec i s = .next ((v.watch a n kind).retireCk cost)) :
    ∃ t, exec i s = .next t ∧ s.goneOn t 4 1 ∧ s.keepsFrom u t rd ∧ (rd ≠ 0 → t.frame.isFull rd = false) ∧
      q ∈ t.me.reqs ∧ t.me.pub.log = p.log ∧ t.egress = v.egress := by
  have hz : u.OnlyX rd (u.published u.cur p u.egress) := onlyX_published ..
  have hframe : v.frame = u.frame.setEmpty rd := by
    have hpub : (u.published u.cur p u.egress).frame = u.frame :=
      (congrArg Core.run (published_core u u.cur p u.egress) :)
    rw [hv, ← hpub]
    exact withReq_frame ..
  have hme : v.me = ((u.published u.cur p u.egress).withReq rd q).me := by rw [hv]; rfl
  have hlog : v.me.pub.log = p.log := by
    rw [hme, State.withReq, onMe_me]
    exact (congrArg (fun d => d.pub.log) (published_core u u.cur p u.egress) :)
  have ho : u.OnlyX rd v := hv ▸ (hz.trans (onlyX_withReq _ rd q)).trans (.send ..)
  have hret := retiredCk (v.watch a n kind) cost
  obtain ⟨hgone, hkeeps⟩ := hret.goneOn_keepsFrom hb (ho.trans (.watch ..))
  refine ⟨_, he, hgone, hkeeps, fun h0 => ?empty, ?request, ?log, by rw [hret.egress, watch_egress]⟩
  case empty => rw [hret.full, watch_isFull, hframe, isFull_setEmpty h0]
  case request =>
    rw [hret.reqs, watch_reqs, hme, withReq_reqs]
    exact List.mem_append_right _ (List.mem_singleton_self q)
  case log =>
    rw [retireCk_pub, watch_pub]
    exact hlog

section Outcomes

variable {s u : State} {i : Instr} {rd : XReg} {srcs : List XReg} {a v c : Word} {n : Nat} {op : AtomOp} {x : Xlat}

/-- An atomic on a global word is on its way to the word's home, with the records that it carries. -/
theorem atom_goes_home (he : exec i s = .next ((s.wake srcs rd).atom rd a v c n op)) (halign : a.toNat % n = 0)
    (hwalk : (s.wake srcs rd).walkWaits (s.wake srcs rd).asker a.toNat = false)
    (htr : (s.wake srcs rd).translate (s.wake srcs rd).asker a.toNat n .rw = (.glob x, u))
    (hlock : u.locked s.cur (.glob x) a.toNat n true = false) (hacq : u.me.acqs = []) (hres : u.me.reserved < 16) :
    ∃ t, exec i s = .next t ∧ s.goneOn t 4 1 ∧ s.keepsFrom u t rd ∧ u.requested t (.atom n) rd ∧
      (∀ r ∈ t.me.pub.log, isCarried x r = false) ∧
      ∃ p ∈ t.egress, p.dst = x.home ∧ p.cls = 0 ∧
        ∃ rs, p.body = .atom u.me.nextId x.pa x.set n op v c u.me.pub.clk rs ∧
          (u.me.pub.log.any (fun r => r.spilled) = false → rs = u.me.pub.log.filter (isCarried x)) := by
  obtain ⟨p, hz, hclk, hlog⟩ := takeCarried_published u x
  have hme : (u.published u.cur p u.egress).me = { u.me with pub := p } := published_core ..
  rw [atom_glob halign hwalk htr hlock hacq hres, hz] at he
  obtain ⟨t, ht, hgone, hkeeps, hempty, hreq, hpub, hegress⟩ := requests_of_published (beneath_wake_translate htr) rfl he
  obtain ⟨k, hk, -, hdst, hcls, hbody⟩ := mem_egress_send ((u.published u.cur p u.egress).withReq rd _) _
  refine ⟨t, ht, hgone, hkeeps, ⟨hempty, _, hreq, ?id, rfl, rfl, ?fid⟩, fun r hr => hlog r (hpub ▸ hr),
    k, hegress ▸ hk, hdst, hcls, _, ?body, takeCarried_records⟩
  case id => exact (congrArg Core.nextId hme :)
  case fid => exact (congrArg (fun d => d.run.fid) hme :)
  case body =>
    rw [hbody, hme, ← hclk]
    rfl

end Outcomes

/-- Settles O36: the traps and waits by the address, and the message of each form by its operation. -/
theorem atomicsGoToTheirHome : Obligations.AtomicsGoToTheirHome := by
  intro s rd rs1 rs2 rs3 e1 e2 x u a atom op2
  have hatom : ∀ {i : Instr} {srcs : List XReg} {n : Nat} {op : AtomOp} {v c : Word},
      (s.clear false srcs rd = true → exec i s = .next ((s.wake srcs rd).atom rd a v c n op)) →
      atom i srcs n op v c := by
    intro i srcs n op v c hi hc k
    have he := hi hc
    refine ⟨fun h => ?misaligned, fun halign h => ?waits, fun halign hwalk htr hlock hacq hres => ?goes⟩
    case misaligned => rw [he, atom_misaligned h]
    case waits => rw [he, atom_waits halign h]
    case goes => exact atom_goes_home he halign hwalk htr hlock hacq hres
  have hop2 : ∀ {i : Instr} {n : Nat} {op : AtomOp}, exec i s = atomI i rd rs1 rs2 e1 e2 n op s →
      isPrefixed i = false → op2 i n op := fun hi hpre =>
    hatom fun hc => exec_of_run hi (by rw [hpre]; exact hc) eSrc_append_mem (by rw [wake_x, wake_x])
  refine ⟨(hop2 (exec_atomAdd s rd rs1 rs2 e1 e2) rfl :), (hop2 (exec_atomAddW s rd rs1 rs2 e1 e2) rfl :),
    (hop2 (exec_atomAnd s rd rs1 rs2 e1 e2) rfl :), (hop2 (exec_atomAndW s rd rs1 rs2 e1 e2) rfl :),
    (hop2 (exec_atomOr s rd rs1 rs2 e1 e2) rfl :), (hop2 (exec_atomOrW s rd rs1 rs2 e1 e2) rfl :),
    (hop2 (exec_atomXor s rd rs1 rs2 e1 e2) rfl :), (hop2 (exec_atomXorW s rd rs1 rs2 e1 e2) rfl :),
    (hop2 (exec_atomMin s rd rs1 rs2 e1 e2) rfl :), (hop2 (exec_atomMinW s rd rs1 rs2 e1 e2) rfl :),
    (hop2 (exec_atomMax s rd rs1 rs2 e1 e2) rfl :), (hop2 (exec_atomMaxW s rd rs1 rs2 e1 e2) rfl :),
    (hop2 (exec_atomMinu s rd rs1 rs2 e1 e2) rfl :), (hop2 (exec_atomMinuW s rd rs1 rs2 e1 e2) rfl :),
    (hop2 (exec_atomMaxu s rd rs1 rs2 e1 e2) rfl :), (hop2 (exec_atomMaxuW s rd rs1 rs2 e1 e2) rfl :),
    (hop2 (exec_atomSwap s rd rs1 rs2 e1 e2) rfl :), (hop2 (exec_atomSwapW s rd rs1 rs2 e1 e2) rfl :), ?_, ?_⟩
  · exact hatom fun hc => exec_of_run (exec_atomCas s rd rs1 rs2 rs3) hc (by simp) (by rw [wake_x, wake_x, wake_x])
  · exact hatom fun hc => exec_of_run (exec_atomCasW s rd rs1 rs2 rs3) hc (by simp) (by rw [wake_x, wake_x, wake_x])

/-! ### Reductions (R158, R243, R325) -/

section Red

variable {w u : State} {a v : Word} {n : Nat} {op : AtomOp} {x : Xlat}

theorem red_misaligned (h : a.toNat % n ≠ 0) : w.red a v n op = w.trap 6 a := atomAddr_misaligned h

/-- A contribution leaves by the class of the window that its address lies in, and changes the publication alone. -/
theorem red_glob (halign : a.toNat % n = 0) (htr : w.translate w.asker a.toNat n .rw = (.glob x, u))
    (hlock : u.locked w.cur (.glob x) a.toNat n true = false) :
    ∃ p k, w.red a v n op = (((u.published u.cur p u.egress).send k).watch a n 2).retireCk 1 ∧ k.dst = x.home ∧
      k.cls = (if u.inWindow u.me.vdev x then 4 else 0) ∧
      ∃ q c l, k.body = .red x.pa x.set n op v q (u.epId u.cur) 1 (u.inWindow u.me.vdev x) c l := by
  rw [State.red, atomAddr_glob halign htr hlock]
  extract_lets me t0 q t1 enr base cr z
  have h0 : t0 = u.published u.cur { u.me.pub with opened := false } u.egress := rfl
  by_cases hwin : u.inWindow u.me.vdev x = true
  · have hz : z = t1.send _ := if_pos hwin
    have h1 : t1 = u.published u.cur { u.me.pub with opened := false, clk := q } u.egress := by
      rw [← published_onCore_pub u u.cur { u.me.pub with opened := false } u.egress fun p => { p with clk := q }, ← h0]
      rfl
    rw [hz, h1, if_pos hwin, hwin]
    exact ⟨_, _, rfl, rfl, rfl, _, _, _, rfl⟩
  · have hz : z = cr.2.send _ := if_neg hwin
    obtain ⟨p, h2, -⟩ := takeCarried_published t0 x
    have h2' : cr.2 = u.published u.cur p u.egress := h2.trans (by rw [h0]; exact published_published ..)
    rw [hz, if_neg hwin, h2', Bool.eq_false_iff.2 hwin]
    exact ⟨_, _, rfl, rfl, rfl, _, _, _, rfl⟩

end Red

theorem red_goes_home {s u : State} {i : Instr} {srcs : List XReg} {a v : Word} {n : Nat} {op : AtomOp} {x : Xlat}
    (he : exec i s = .next ((s.wake srcs 0).red a v n op)) (halign : a.toNat % n = 0)
    (htr : (s.wake srcs 0).translate (s.wake srcs 0).asker a.toNat n .rw = (.glob x, u))
    (hlock : u.locked s.cur (.glob x) a.toNat n true = false) :
    ∃ t, exec i s = .next t ∧ s.goneOn t 4 1 ∧ s.keepsFrom u t 0 ∧
      ∃ p ∈ t.egress, p.dst = x.home ∧ p.cls = (if u.inWindow u.me.vdev x then 4 else 0) ∧
        ∃ q c l, p.body = .red x.pa x.set n op v q (u.epId u.cur) 1 (u.inWindow u.me.vdev x) c l := by
  obtain ⟨p, k, hred, hdst, hcls, q, c, l, hbody⟩ := red_glob (v := v) (op := op) halign htr hlock
  rw [hred] at he
  have hret := retiredCk (((u.published u.cur p u.egress).send k).watch a n 2) 1
  obtain ⟨hgone, hkeeps⟩ := hret.goneOn_keepsFrom (beneath_wake_translate htr)
    (((onlyX_published u u.cur p u.egress).trans (.send _ k)).trans (.watch _ a n 2))
  obtain ⟨m, hm, -, hmdst, hmcls, hmbody⟩ := mem_egress_send (u.published u.cur p u.egress) k
  refine ⟨_, he, hgone, hkeeps, m, ?_, hmdst.trans hdst, hmcls.trans hcls, q, c, l, hmbody.trans hbody⟩
  rw [hret.egress, watch_egress]
  exact hm

/-- Settles O37: the trap by the address, and the contribution of each form by its operation. -/
theorem reductionsSendTheirContribution : Obligations.ReductionsSendTheirContribution := by
  intro s rs1 rs2 e1 e2 x u hc a k red
  have hred : ∀ {i : Instr} {n : Nat} {op : AtomOp}, exec i s = redI i rs1 rs2 e1 e2 n op s → isPrefixed i = false →
      red i n op := fun {i n op} hi hpre =>
    have he : exec i s = .next (k.red a (s.x rs2) n op) :=
      exec_of_run hi (by rw [hpre]; exact hc) eSrc_append_mem (by rw [wake_x, wake_x])
    ⟨fun h => he.trans (congrArg _ (red_misaligned h)), fun halign htr hlock => red_goes_home he halign htr hlock⟩
  exact ⟨(hred (exec_redAdd s rs1 rs2 e1 e2) rfl :), (hred (exec_redAddW s rs1 rs2 e1 e2) rfl :),
    (hred (exec_redAddf s rs1 rs2 e1 e2) rfl :), (hred (exec_redAddfW s rs1 rs2 e1 e2) rfl :),
    (hred (exec_redMin s rs1 rs2 e1 e2) rfl :), (hred (exec_redMinW s rs1 rs2 e1 e2) rfl :),
    (hred (exec_redMax s rs1 rs2 e1 e2) rfl :), (hred (exec_redMaxW s rs1 rs2 e1 e2) rfl :)⟩

end Sys2Proof.Machine

/-! PROOFS. A chunk at a home whose handler entry is poisoned (R308 to R312, R144 to R148, R407, R410): the landing posts the
directory-overflow handler as a write does, and the machine check of its entry goes to the error log's ring. -/

namespace Sys2Proof.Machine

/-- A copy engine's chunk of one byte for address 0, from core 1. -/
def landedChunkPkt : Pkt := { publishedPkt with body := .chunk 0 0 0 0 [7] [] false }

/-- That chunk delivered at its home, where the overflow handler's entry is poisoned. -/
def chunkThere : State := { poisonedEntry with inbox := [(0, [landedChunkPkt])] }

/-- The chunk's landing logs the machine check of the entry: class 3, in the ring's first byte. -/
theorem chunkLanding_logs_poisoned_entry :
    reaches (exec (.chunkLanding 0) chunkThere) (fun t => t.readByte 4096 == 3) = true := by decide +kernel

/-- Refutes O56: the landing of a chunk at `chunkThere` writes the error log's ring, whose bytes are none of the chunk's. -/
theorem not_copiesIssueLandAndComplete : ¬ Obligations.CopiesIssueLandAndComplete := by
  unfold Obligations.CopiesIssueLandAndComplete
  intro h
  obtain ⟨-, -, landing, -⟩ := h chunkThere 0 (Tests.copyOn 0) landedChunkPkt [] 0
  obtain ⟨-, atHome, -⟩ := landing rfl rfl (by simp)
  obtain ⟨t, ht, -, -, hframe⟩ := (atHome 0 0 0 0 [7] [] rfl (by decide +kernel)).2 (by decide +kernel) (.inl rfl)
  have hlogged : t.readByte 4096 = 3 := beq_iff_eq.1 (of_reaches chunkLanding_logs_poisoned_entry ht)
  have hkept : t.readByte 4096 = 0 := (hframe 4096 (.inr (by decide))).trans (by decide +kernel)
  exact absurd (hlogged.symm.trans hkept) (by decide)

end Sys2Proof.Machine

/-! PROOFS. The encoding (R162 to R174, R191 to R195): the words that the encoder writes have the decoder's fields, by
the table of their major opcode. -/

namespace Sys2Proof

/-! ### Scattered immediates (R191, R192) -/

theorem immS_word (imm : BitVec 12) (rs2 rs1 : BitVec 5) (f3 : BitVec 3) (op : BitVec 7) :
    immS (imm.extractLsb' 5 7 ++ rs2 ++ rs1 ++ f3 ++ imm.extractLsb' 0 5 ++ op) = imm := by
  simp only [immS, field_append_high, field_append_low, field_whole, Nat.reduceSub, Nat.reduceLeDiff]
  rw [field_join imm 0 7 5, field_whole]

theorem immB_word (imm : BitVec 12) (rs2 rs1 : BitVec 5) (f3 : BitVec 3) (op : BitVec 7) :
    immB (imm.extractLsb' 11 1 ++ imm.extractLsb' 4 6 ++ rs2 ++ rs1 ++ f3 ++ imm.extractLsb' 0 4 ++
      imm.extractLsb' 10 1 ++ op) = imm := by
  simp only [immB, field_append_high, field_append_low, field_whole, Nat.reduceSub, Nat.reduceLeDiff]
  rw [field_join imm 10 1 1, field_join imm 4 2 6, field_join imm 0 8 4, field_whole]

theorem immJ_word (imm : BitVec 20) (rd : BitVec 5) (op : BitVec 7) :
    immJ (imm.extractLsb' 19 1 ++ imm.extractLsb' 0 10 ++ imm.extractLsb' 10 1 ++ imm.extractLsb' 11 8 ++ rd ++ op) =
      imm := by
  simp only [immJ, field_append_high, field_append_low, field_whole, Nat.reduceSub, Nat.reduceLeDiff]
  rw [field_join imm 11 1 8, field_join imm 10 9 1, field_join imm 0 10 10, field_whole]

/-! ### The custom tables (R168 to R171): the major opcode in bits [6:0] chooses the table -/

theorem decodeFields_custom0 (x : BitVec 25) : decodeFields (x ++ 11#7) = decodeCustom0 (x ++ 11#7) := by
  simp only [decodeFields, field_append_low, field_whole, Nat.reduceLeDiff, BitVec.reduceExtractLsb',
    BitVec.reduceToNat, ↓reduceIte]

theorem decodeFields_custom1 (x : BitVec 25) : decodeFields (x ++ 43#7) = decodeCustom1 (x ++ 43#7) := by
  simp only [decodeFields, field_append_low, field_whole, Nat.reduceLeDiff, BitVec.reduceExtractLsb',
    BitVec.reduceToNat, ↓reduceIte]

theorem decodeFields_custom2 (x : BitVec 25) : decodeFields (x ++ 91#7) = decodeCustom2 (x ++ 91#7) := by
  simp only [decodeFields, field_append_low, field_whole, Nat.reduceLeDiff, BitVec.reduceExtractLsb',
    BitVec.reduceToNat, ↓reduceIte]

theorem decodeFields_custom3 (x : BitVec 25) : decodeFields (x ++ 123#7) = decodeCustom3 (x ++ 123#7) := by
  simp only [decodeFields, field_append_low, field_whole, Nat.reduceLeDiff, BitVec.reduceExtractLsb',
    BitVec.reduceToNat, ↓reduceIte]

/-! ### Every form -/

/-- Every well-formed instruction has a word, whose selectors name its row and whose other fields are its operands: one
case for the standard tables, and one for each custom table. The part's own steps are not well-formed. -/
theorem exists_encode {i : Instr} (h : i.wellFormed = true) :
    ∃ w, encode i = some w ∧ decodeFields w = .ok i := by
  cases i with
  | lui | auipc | jal | lb | lh | lw | ld | lbu | lhu | lwu | fence | fenceI | addi | slli | slti | sltiu | xori
  | srli | srai | ori | andi | addiw | slliw | srliw | sraiw | sb | sh | sw | sd | add | sub | mul | sll | mulh | slt
  | mulhsu | sltu | mulhu | xor | div | srl | sra | divu | or | rem | and | remu | addw | subw | mulw | sllw | divw
  | srlw | sraw | divuw | remw | remuw | beq | bne | blt | bge | bltu | bgeu | jalr | ecall | ebreak | csrrw | csrrs
  | csrrc | csrrwi | csrrsi | csrrci =>
    exact ⟨_, rfl, by simp only [decodeFields, decodeLoad, decodeMiscMem, decodeOpImm, decodeOpImm32, decodeStore,
      decodeOp, decodeOp32, decodeBranch, decodeJalr, decodeSystem, immS_word, immB_word, immJ_word, funct3, funct6,
      funct7, funct12, fields, field_append_high, field_append_low, field_whole, Nat.reduceSub, Nat.reduceLeDiff,
      BitVec.reduceExtractLsb', BitVec.reduceToNat, ↓reduceIte, and_self]⟩
  | tend | post | poste | succ | dlset | dlclr | spawn | claim | unclaim | hold | unhold | holdm | unholdm | tbar
  | gbar | carve | align | tbarq | send | ldr | ldrw | tjmp | qpush | qpop | qlen | one | fmt | tret | tkill | tfrd
  | tfwr | xinv | ckpt =>
    exact ⟨_, rfl, (decodeFields_custom0 _).trans (by simp only [decodeCustom0, funct3, funct5, fields,
      field_append_high, field_append_low, field_whole, Nat.reduceSub, Nat.reduceLeDiff, BitVec.reduceToNat,
      ↓reduceIte, and_self])⟩
  | rel | acq | acqm | acqg | acqv | drainS | drainG | drainR | drainK | atomAdd | atomAnd | atomOr | atomXor
  | atomMin | atomMax | atomMinu | atomMaxu | atomSwap | atomAddW | atomAndW | atomOrW | atomXorW | atomMinW
  | atomMaxW | atomMinuW | atomMaxuW | atomSwapW | atomCas | atomCasW | redAdd | redAddf | redMin | redMax | redAddW
  | redAddfW | redMinW | redMaxW | copy | copy2d | copyb | cpcnt | copyq | pref =>
    exact ⟨_, rfl, (decodeFields_custom1 _).trans (by simp only [decodeCustom1, funct3, funct5, funct2, fields,
      field_append_high, field_append_low, field_whole, Nat.reduceSub, Nat.reduceLeDiff, BitVec.reduceToNat,
      ↓reduceIte, and_self])⟩
  | vspl | vsplq | voutq | vmv | vlane | vld | vst | vlds | vgth | vsct | vadd | vsub | vmul | vfma | vmax | vmin
  | vabs | vneg | viadd | visub | vimul | vand | vor | vxor | vshl | vshr | vsra | viadds | vcvt | vcvti | vcmpeq
  | vcmplt | vcmple | vsel | vbq | vsum | vrmax | vrmin | vperm | vrot | vexp2 | vrcp | vrsq | vlog2 | vseed =>
    exact ⟨_, rfl, (decodeFields_custom2 _).trans (by simp only [decodeCustom2, funct3, funct6, fields,
      field_append_high, field_append_low, field_whole, Nat.reduceSub, Nat.reduceLeDiff, BitVec.reduceToNat,
      ↓reduceIte, and_self])⟩
  | lease | unlease | ringdef | ringq | ringadv | kmma | kmmas | kmmat | kmman | kzero | kld | kst | krow | kputrow
  | keep | kscq | kfac | ktrsl | ktrsu | kmv | kmvt | kdiag | kchkq | kflg =>
    exact ⟨_, rfl, (decodeFields_custom3 _).trans (by simp only [decodeCustom3, funct3, funct5, fields,
      field_append_high, field_append_low, field_whole, Nat.reduceSub, Nat.reduceLeDiff, BitVec.reduceToNat,
      ↓reduceIte, and_self])⟩
  | _ => cases h

/-- The word of a well-formed instruction decodes to it. -/
theorem decode_encode {i : Instr} {w : BitVec 32} (h : i.wellFormed = true) (he : encode i = some w) :
    decode w = .ok i := by
  obtain ⟨v, hv, hfields⟩ := exists_encode h
  obtain rfl : v = w := Option.some.inj (hv.symm.trans he)
  exact decode_ok hfields h

/-- Settles O4: the word exists, its fields are the instruction's, and its entry accepts a well-formed instruction's
codes. -/
theorem decodingAnEncodedInstructionGivesItBack : Obligations.DecodingAnEncodedInstructionGivesItBack := by
  unfold Obligations.DecodingAnEncodedInstructionGivesItBack
  intro i h
  obtain ⟨w, hw, -⟩ := exists_encode h
  exact ⟨w, hw, decode_encode h hw⟩

/-- Settles O5: each word that stands for an instruction is the one that the encoder writes for it; the others fail the
checks of framing and of the major opcode. -/
theorem wordsDecodeToTheirInstructions : Obligations.WordsDecodeToTheirInstructions := by
  unfold Obligations.WordsDecodeToTheirInstructions
  exact ⟨decode_encode rfl rfl, decode_encode rfl rfl, decode_encode rfl rfl, decode_encode rfl rfl,
    decode_encode rfl rfl, decode_encode rfl rfl, decode_encode rfl rfl, ⟨.framing, rfl⟩, ⟨.opcode, rfl⟩⟩

end Sys2Proof

/-! PROOFS. The step of a core at an instruction boundary (R163, R172, R412, R417, R418): the fetch at the PC, the
decoded instruction, and the traps of a word that is none and of a fetch that fails. -/

namespace Sys2Proof.Machine

/-- With an empty agenda the current core takes its turn, unless a later group has acted or the dies are in reset (R373,
R457). -/
theorem step_of_empty_agenda {s : State} (hagenda : s.agenda = []) :
    step s = if !s.alive || s.late 1 then .next (s.tick 1) else s.coreTurn := by
  simp only [step, State.advance, hagenda]

theorem alive_iff (s : State) : s.alive = true ↔ s.nm.st = 1 ∨ s.nm.st = 2 := by
  simp [State.alive]

/-- The step lets a cycle pass where the first group is late, or where the compute dies are in reset. -/
theorem step_late_or_inReset {s : State} (hagenda : s.agenda = [])
    (h : s.late 1 = true ∨ s.nm.st = 0 ∨ s.nm.st = 3) : step s = .next (s.tick 1) := by
  rw [step_of_empty_agenda hagenda]
  rcases h with hlate | hreset | hreset
  · simp [hlate]
  · simp [State.alive, hreset]
  · simp [State.alive, hreset]

/-- At an instruction boundary a core's turn is its next instruction's (R418). -/
theorem coreTurn_atInstr {s : State} (h : s.atInstr = true) : s.coreTurn = s.instrTurn := by
  have hdue : (s.me.evs.due && !s.stopped s.cur) = false := by
    simp only [State.atInstr, Bool.and_eq_true, Bool.not_eq_true'] at h
    simp [h]
  simp [State.coreTurn, hdue, h]

/-- The step of a core at an instruction boundary. -/
theorem step_atInstr {s : State} (hagenda : s.agenda = []) (hlate : s.late 1 = false)
    (halive : s.nm.st = 1 ∨ s.nm.st = 2) (h : s.atInstr = true) : step s = s.instrTurn := by
  rw [step_of_empty_agenda hagenda, ← coreTurn_atInstr h]
  simp [hlate, (alive_iff s).2 halive]

/-! ### What the fetch answers -/

theorem instrTurn_decoded {s u : State} {w : BitVec 32} {i : Instr} (hf : s.fetch s.frame.pc = (.word w, u))
    (hd : decode w = .ok i) : s.instrTurn = exec i u := by
  simp only [State.instrTurn, hf, hd]

theorem instrTurn_undecoded {s u : State} {w : BitVec 32} {e : DecodeError} (hf : s.fetch s.frame.pc = (.word w, u))
    (hd : decode w = .error e) : s.instrTurn = exec (.illegalInstructionWord w) u := by
  simp only [State.instrTurn, hf, hd, exec_illegalInstructionWord]

/-! ### A fetch leaves the running frame as it is (R129, R136, R361) -/

theorem askFill_frame (s : State) (id : Nat) (x : Xlat) : (s.askFill s.cur id x).frame = s.frame := by
  rw [State.askFill, (State.Beneath.send _ _).frame]
  exact onMe_frame s _

theorem codeLine_frame (s : State) (x : Xlat) : (s.codeLine x).2.frame = s.frame := by
  unfold State.codeLine
  dsimp only
  split
  · rfl
  split
  · exact onMe_frame s _
  split
  · have hbring := (State.Beneath.bring s (x.home % 65536) x.set s.me.vdev x.pa false).frame
    split
    · exact (onMe_frame _ _).trans hbring
    · exact hbring
  split
  · rfl
  · exact (askFill_frame _ _ _).trans (onMe_frame s _)

theorem fetch_frame (s : State) (va : Word) : (s.fetch va).2.frame = s.frame := by
  have htranslate := (State.Beneath.translate s s.asker va.toNat 4 .x).frame
  unfold State.fetch
  split
  · rfl
  dsimp only
  split
  next x _ =>
    have hline := (codeLine_frame (s.translate s.asker va.toNat 4 .x).2 x).trans htranslate
    split
    next heq =>
      rw [heq] at hline
      exact hline
    next heq =>
      rw [heq] at hline
      split
      · exact (onMe_frame _ _).trans hline
      · exact hline
  all_goals exact htranslate

theorem instrTurn_faulted {s u : State} (hf : s.fetch s.frame.pc = (.fault 8, u)) :
    s.instrTurn = exec (.instructionFetchFault s.frame.pc) u := by
  have hframe : u.frame = s.frame := by
    have hfetch := fetch_frame s s.frame.pc
    rwa [hf] at hfetch
  simp only [State.instrTurn, hf, State.noWord, ↓reduceIte, hframe, exec_instructionFetchFault]

/-! ### The traps of the two faults (R163, R172, R412) -/

section Faults

variable {u : State} (hacq : u.frame.acq = none) (hup : u.me.upset = 0) (hbr : u.me.breaks = false)
include hacq hup hbr

theorem exec_illegalInstructionWord_traps (w : BitVec 32) :
    exec (.illegalInstructionWord w) u = .next (u.trap 1 (w.zeroExtend 64)) := by
  simp [exec_illegalInstructionWord, execIllegalInstructionWord, State.startGate, State.checker, hacq, hup, hbr]

theorem exec_instructionFetchFault_traps (pc : Word) :
    exec (.instructionFetchFault pc) u = .next (u.trap 8 pc) := by
  simp [exec_instructionFetchFault, execInstructionFetchFault, State.startGate, State.checker, hacq, hup, hbr]

end Faults

/-- Settles O6: the step is the instruction's turn, and what the fetch answers decides what runs. -/
theorem aStepRunsTheDecodedInstruction : Obligations.AStepRunsTheDecodedInstruction := by
  unfold Obligations.AStepRunsTheDecodedInstruction
  intro s u w i hagenda
  refine ⟨step_late_or_inReset hagenda, fun hlate halive hat => ?_⟩
  rw [step_atInstr hagenda hlate halive hat]
  refine ⟨fun hf => ⟨instrTurn_decoded hf, fun e hd => ⟨instrTurn_undecoded hf hd, fun hacq hup hbr => ?_⟩⟩,
    fun hf => ⟨instrTurn_faulted hf, fun hacq hup hbr => ?_⟩⟩
  · exact exec_illegalInstructionWord_traps hacq hup hbr w
  · exact exec_instructionFetchFault_traps hacq hup hbr _

end Sys2Proof.Machine

/-! PROOFS. Register-immediate and register-register instructions, products and quotients (R193, R194, R196): the
model's word operations as the integers that the tables state, and then one use of the form's own law for each
instruction. -/

namespace Sys2Proof.Machine

/-! ### Comparisons and shifts -/

theorem boolWord_slt (a b : Word) : boolWord (a.slt b) = if a.toInt < b.toInt then 1 else 0 := by
  simp only [boolWord, BitVec.slt_iff_toInt_lt]

theorem boolWord_ult (a b : Word) : boolWord (a.ult b) = if a.toNat < b.toNat then 1 else 0 := by
  simp only [boolWord, BitVec.ult_iff_lt, BitVec.lt_def]

/-- An arithmetic right shift divides by a power of 2, rounding down. -/
theorem toInt_sshiftRight_eq_div {w : Nat} (a : BitVec w) (n : Nat) : (a.sshiftRight n).toInt = a.toInt / 2 ^ n := by
  rw [BitVec.toInt_sshiftRight, Int.shiftRight_eq_div_pow]
  norm_cast

theorem sshiftRight_eq_ofInt {w : Nat} (a : BitVec w) (n : Nat) : a.sshiftRight n = BitVec.ofInt w (a.toInt / 2 ^ n) := by
  rw [← toInt_sshiftRight_eq_div, BitVec.ofInt_toInt]

theorem sext32_sshiftRight (a : BitVec 32) (n : Nat) : sext32 (a.sshiftRight n) = BitVec.ofInt 64 (a.toInt / 2 ^ n) := by
  rw [← toInt_sshiftRight_eq_div]
  rfl

/-- The low word of a sum with an immediate is the sum of the words. -/
theorem lo32_add_immI (a : Word) (imm : BitVec 12) : lo32 (a + immI imm) = lo32 a + imm.signExtend 32 := by
  have himm : lo32 (immI imm) = imm.signExtend 32 := by
    refine BitVec.eq_of_getLsbD_eq fun i hi => ?_
    simp only [lo32, immI, BitVec.getLsbD_setWidth, BitVec.getLsbD_signExtend, hi,
      Nat.lt_trans hi (by decide : 32 < 64), decide_true, Bool.true_and]
  rw [← himm]
  exact BitVec.setWidth_add _ _ (by decide)

/-- Settles O7: each form by the law of register-immediate instructions, its value by the operation's own lemma. -/
theorem immediateInstructionsWriteTheirResult : Obligations.ImmediateInstructionsWriteTheirResult := by
  intro s rd rs1 imm sh shw hc a k lo puts
  exact ⟨aluI_puts (exec_addi ..) hc rfl, aluI_puts (exec_slti ..) hc (boolWord_slt a k),
    aluI_puts (exec_sltiu ..) hc (boolWord_ult a k), aluI_puts (exec_xori ..) hc rfl, aluI_puts (exec_ori ..) hc rfl,
    aluI_puts (exec_andi ..) hc rfl, aluI_puts (exec_slli ..) hc rfl, aluI_puts (exec_srli ..) hc rfl,
    aluI_puts (exec_srai ..) hc (sshiftRight_eq_ofInt a _),
    aluI_puts (exec_addiw ..) hc (congrArg sext32 (lo32_add_immI a imm)),
    aluI_puts (exec_slliw ..) hc rfl, aluI_puts (exec_srliw ..) hc rfl,
    aluI_puts (exec_sraiw ..) hc (sext32_sshiftRight lo _)⟩

/-- Settles O8: each form by the law of register-register instructions, its value by the operation's own lemma. -/
theorem registerInstructionsWriteTheirResult : Obligations.RegisterInstructionsWriteTheirResult := by
  intro s rd rs1 rs2 hc a b lo puts
  exact ⟨aluR_puts (exec_add ..) hc rfl, aluR_puts (exec_sub ..) hc rfl, aluR_puts (exec_sll ..) hc rfl,
    aluR_puts (exec_slt ..) hc (boolWord_slt a b), aluR_puts (exec_sltu ..) hc (boolWord_ult a b),
    aluR_puts (exec_xor ..) hc rfl, aluR_puts (exec_srl ..) hc rfl,
    aluR_puts (exec_sra ..) hc (sshiftRight_eq_ofInt a _), aluR_puts (exec_or ..) hc rfl, aluR_puts (exec_and ..) hc rfl,
    aluR_puts (exec_addw ..) hc rfl, aluR_puts (exec_subw ..) hc rfl, aluR_puts (exec_sllw ..) hc rfl,
    aluR_puts (exec_srlw ..) hc rfl, aluR_puts (exec_sraw ..) hc (sext32_sshiftRight (lo a) _)⟩

/-! ### Products (R194) -/

/-- The upper half of a product of 128 bits is the high word of the exact product. -/
theorem extractLsb'_ofInt_mul (x y : Int) :
    (BitVec.ofInt 128 x * BitVec.ofInt 128 y).extractLsb' 64 64 = mulHigh x y := by
  rw [← BitVec.ofInt_mul, mulHigh]
  generalize x * y = z
  apply BitVec.eq_of_toNat_eq
  simp only [BitVec.extractLsb'_toNat, BitVec.toNat_ofInt, Nat.shiftRight_eq_div_pow]
  omega

theorem zeroExtend_eq_ofInt (a : Word) : a.zeroExtend 128 = BitVec.ofInt 128 a.toNat := by
  rw [BitVec.ofInt_natCast]
  exact (BitVec.ofNat_toNat 128 a).symm

/-- The low word of a product is the product of the low words. -/
theorem lo32_mul (a b : Word) : lo32 a * lo32 b = lo32 (a * b) := (BitVec.setWidth_mul a b (by decide)).symm

/-- Settles O9: each product by the law of register-register instructions, its high word by the exact product's
upper half. -/
theorem multiplicationsWriteTheExactProduct : Obligations.MultiplicationsWriteTheExactProduct := by
  intro s rd rs1 rs2 hc a b high puts
  refine ⟨aluR_puts (exec_mul ..) hc rfl, aluR_puts (exec_mulh ..) hc (extractLsb'_ofInt_mul a.toInt b.toInt).symm,
    aluR_puts (exec_mulhsu ..) hc ?_, aluR_puts (exec_mulhu ..) hc ?_,
    aluR_puts (exec_mulw ..) hc (congrArg sext32 (lo32_mul a b))⟩
  · rw [zeroExtend_eq_ofInt]
    exact (extractLsb'_ofInt_mul a.toInt b.toNat).symm
  · rw [zeroExtend_eq_ofInt, zeroExtend_eq_ofInt]
    exact (extractLsb'_ofInt_mul a.toNat b.toNat).symm

/-! ### Quotients and remainders (R196) -/

section Division

variable {w : Nat} (a b : BitVec w)

theorem toInt_eq_zero_iff : b.toInt = 0 ↔ b = 0 := by
  rw [← BitVec.toInt_zero (w := w)]
  exact BitVec.toInt_inj

theorem toNat_eq_zero_iff : b.toNat = 0 ↔ b = 0 := by
  rw [← BitVec.toNat_zero (w := w)]
  exact BitVec.toNat_inj

/-- The signed quotient is the exact one, truncated toward zero, in w bits: so the one quotient that does not fit is the
dividend. -/
theorem divS_eq_ofInt : divS a b = BitVec.ofInt w (if b.toInt = 0 then -1 else a.toInt.tdiv b.toInt) := by
  simp only [divS, toInt_eq_zero_iff]
  split
  · rw [← BitVec.neg_one_eq_allOnes, BitVec.ofInt_neg]
    rfl
  · apply BitVec.eq_of_toInt_eq
    rw [BitVec.toInt_sdiv, BitVec.toInt_ofInt]

theorem remS_eq_ofInt : remS a b = BitVec.ofInt w (if b.toInt = 0 then a.toInt else a.toInt.tmod b.toInt) := by
  simp only [remS, toInt_eq_zero_iff]
  split
  · exact BitVec.ofInt_toInt.symm
  · rw [← BitVec.toInt_srem, BitVec.ofInt_toInt]

theorem divU_eq_ofNat : divU a b = BitVec.ofNat w (if b.toNat = 0 then 2 ^ w - 1 else a.toNat / b.toNat) := by
  simp only [divU, toNat_eq_zero_iff]
  split
  · rw [← BitVec.toNat_allOnes, BitVec.ofNat_toNat, BitVec.setWidth_eq]
  · rw [← BitVec.toNat_udiv, BitVec.ofNat_toNat, BitVec.setWidth_eq]

theorem remU_eq_ofNat : remU a b = BitVec.ofNat w (if b.toNat = 0 then a.toNat else a.toNat % b.toNat) := by
  simp only [remU, toNat_eq_zero_iff]
  split
  · rw [BitVec.ofNat_toNat, BitVec.setWidth_eq]
  · rw [← BitVec.toNat_umod, BitVec.ofNat_toNat, BitVec.setWidth_eq]

end Division

/-- Settles O10: each form by the law of register-register instructions, its value by the lemma on its quotient or
remainder. -/
theorem divisionFollowsTheCornerTable : Obligations.DivisionFollowsTheCornerTable := by
  intro s rd rs1 rs2 hc quotS remS' quotU remU' a b al bl puts
  exact ⟨aluR_puts (exec_div ..) hc (divS_eq_ofInt a b), aluR_puts (exec_divu ..) hc (divU_eq_ofNat a b),
    aluR_puts (exec_rem ..) hc (remS_eq_ofInt a b), aluR_puts (exec_remu ..) hc (remU_eq_ofNat a b),
    aluR_puts (exec_divw ..) hc (congrArg sext32 (divS_eq_ofInt al bl)),
    aluR_puts (exec_divuw ..) hc (congrArg sext32 (divU_eq_ofNat al bl)),
    aluR_puts (exec_remw ..) hc (congrArg sext32 (remS_eq_ofInt al bl)),
    aluR_puts (exec_remuw ..) hc (congrArg sext32 (remU_eq_ofNat al bl))⟩

end Sys2Proof.Machine

/-! PROOFS. Misaligned jump targets and accesses (R199, R204, R412): the misaligned branch of each shared operation. -/

namespace Sys2Proof.Machine

section Misaligned

variable {s : State} {i : Instr} {rd rs1 rs2 : XReg} {imm : BitVec 12} {n : Nat}

theorem jal_misaligned {up : BitVec 20} (hc : s.clear false [] rd = true) (ha : (s.frame.pc + offJ up).toNat % 4 ≠ 0) :
    exec (.jal rd up) s = .next ((s.wake [] rd).trap 7 (s.frame.pc + offJ up)) :=
  exec_of_run (exec_jal ..) hc (by simp) (by simp [aligned4, ha, -BitVec.toNat_add])

theorem jalr_misaligned (hc : s.clear false [rs1] rd = true) (ha : (jalrTarget (s.x rs1) imm).toNat % 4 ≠ 0) :
    exec (.jalr rd rs1 imm) s = .next ((s.wake [rs1] rd).trap 7 (jalrTarget (s.x rs1) imm)) :=
  exec_of_run (exec_jalr ..) hc (by simp) (by simp [aligned4, ha])

/-- The alignment of a load's address is the first of its own checks. -/
theorem loadI_misaligned {signed : Bool} (he : exec i s = loadI i rd rs1 imm n signed s)
    (hc : s.clear (isPrefixed i) [rs1] rd = true) (ha : (s.x rs1 + immI imm).toNat % n ≠ 0) :
    exec i s = .next ((s.wake [rs1] rd).trap 6 (s.x rs1 + immI imm)) :=
  exec_of_run he hc (by simp) (by rw [wake_x, State.load, if_pos ha])

/-- The alignment of a store's address is the first of its own checks. -/
theorem storeI_misaligned (he : exec i s = storeI i rs1 rs2 imm n s)
    (hc : s.clear (isPrefixed i) [rs1, rs2] 0 = true) (ha : (s.x rs1 + immI imm).toNat % n ≠ 0) :
    exec i s = .next ((s.wake [rs1, rs2] 0).trap 6 (s.x rs1 + immI imm)) :=
  exec_of_run he hc (by simp) (by rw [wake_x, State.store, if_pos ha])

end Misaligned

/-- Settles O14: jumps, branches, loads and stores each by the misaligned branch of the operation that its forms share. -/
theorem misalignmentTraps : Obligations.MisalignmentTraps := by
  intro s rd rs1 rs2 up imm a jal jalr tgt
  refine ⟨fun hc ha => jal_misaligned hc ha, fun hc ha => jalr_misaligned hc ha, fun hc ha => ?branches,
    fun hc => ?loads, fun hc => ?stores⟩
  case branches =>
    refine ⟨fun h => branch_traps (exec_beq ..) hc (beq_iff_eq.2 h) ha,
      fun h => branch_traps (exec_bne ..) hc (bne_iff_ne.2 h) ha,
      fun h => branch_traps (exec_blt ..) hc (BitVec.slt_iff_toInt_lt.2 h) ha,
      fun h => branch_traps (exec_bge ..) hc ?_ ha,
      fun h => branch_traps (exec_bltu ..) hc (BitVec.ult_iff_lt.2 h) ha,
      fun h => branch_traps (exec_bgeu ..) hc ?_ ha⟩
    · rw [Bool.not_eq_true', Bool.eq_false_iff, ne_eq, BitVec.slt_iff_toInt_lt]
      exact not_lt.2 h
    · rw [Bool.not_eq_true', Bool.eq_false_iff, ne_eq, BitVec.ult_iff_lt]
      exact not_lt.2 h
  case loads =>
    exact ⟨loadI_misaligned (exec_lh ..) hc, loadI_misaligned (exec_lhu ..) hc, loadI_misaligned (exec_lw ..) hc,
      loadI_misaligned (exec_lwu ..) hc, loadI_misaligned (exec_ld ..) hc⟩
  case stores =>
    exact ⟨storeI_misaligned (exec_sh ..) hc, storeI_misaligned (exec_sw ..) hc, storeI_misaligned (exec_sd ..) hc⟩

end Sys2Proof.Machine

/-! PROOFS. ECALL, EBREAK, breakpoints and the checker (R206, R402, R425): what a frame put on the stack leaves of the
publication, the handler's frame of a trap that can be taken, and what the gates before an instruction's own part do. -/

namespace Sys2Proof.Machine

/-! ### The publication under a frame put on the stack (R37, R138, R368) -/

/-- Each core holds the publication that it held. -/
structure State.SamePubs (s t : State) : Prop where
  pub : ∀ ep, (t.core ep).pub = (s.core ep).pub

namespace State.SamePubs

variable {s t u : State}

theorem refl (s : State) : s.SamePubs s := ⟨fun _ => rfl⟩

theorem trans (h : s.SamePubs t) (g : t.SamePubs u) : s.SamePubs u :=
  ⟨fun ep => (g.pub ep).trans (h.pub ep)⟩

theorem of_beneath (h : s.Beneath t) : s.SamePubs t := ⟨fun ep => (congrArg Core.pub (h.core ep) :)⟩

theorem onCore {ep : Nat} {f : Core → Core} (hf : ∀ c, (f c).pub = c.pub) : s.SamePubs (s.onCore ep f) := by
  refine ⟨fun e => ?_⟩
  by_cases he : e = ep
  · rw [he, onCore_core, hf]
  · rw [State.onCore, core_setCore_other _ _ _ _ he]

theorem spend (s : State) (ep n : Nat) : s.SamePubs (s.spend ep n) := of_beneath (beneath_spend ..)

theorem spillWindow (s : State) (ep : Nat) (f : Frame) : s.SamePubs (s.spillWindow ep f) :=
  of_beneath (Beneath.writeKeyed ..)

theorem revokeOne (s : State) (ep : Nat) : s.SamePubs (s.revokeOne ep) := by
  unfold State.revokeOne
  split
  · dsimp only
    split
    · exact (spillWindow ..).trans (onCore fun _ => rfl)
    · exact refl s
  · exact refl s

theorem cover (s : State) (ep : Nat) : s.SamePubs (s.cover ep) := by
  have push : ∀ t : State, t.SamePubs (t.pushed ep) := fun t => onCore fun _ => rfl
  have move : ∀ (t : State) w, t.SamePubs (t.onCore ep (fun c => { c with under := moveOldest c.under w })) :=
    fun t w => onCore fun _ => rfl
  unfold State.cover
  dsimp only
  split
  · exact (push s).trans (spend ..)
  split
  · exact ((revokeOne s ep).trans (push _)).trans (spend ..)
  split
  · exact ((push s).trans (move ..)).trans (spend ..)
  · refine .trans ((push s).trans ?_) (spend ..)
    split
    · exact (spillWindow ..).trans (move ..)
    · exact move ..

end State.SamePubs

/-- The checkpoint of a frame put on the stack closes the open record. -/
theorem putFrame_pub (s : State) (ep : Nat) (r : TaskRec) (f : Frame) :
    ((s.putFrame ep r f).core ep).pub = { (s.core ep).pub with opened := false } := by
  unfold State.putFrame
  extract_lets off s1 s2
  have hs2 : (s2.core ep).pub = (s.core ep).pub := by
    rw [onCore_core]
    exact (State.SamePubs.cover s ep).pub ep
  have hwrite : (s2.spadWrite ep off r.bytes).core ep = s2.core ep := by rw [State.core, spadWrite_cores]; rfl
  calc _ = (((s2.spadWrite ep off r.bytes).checkpoint ep).core ep).pub :=
        (State.SamePubs.of_beneath (beneath_countAt ..)).pub ep
    _ = { ((s2.spadWrite ep off r.bytes).core ep).pub with opened := false } := by
        rw [State.checkpoint, onCore_core]; rfl
    _ = { (s.core ep).pub with opened := false } := by rw [hwrite, hs2]

/-! ### A trap that can be taken (R412 to R416) -/

theorem startFrame_rights (c : Core) (r : TaskRec) (nxr : Bool) :
    (c.startFrame r nxr).sup = r.s ∧ (c.startFrame r nxr).nxr = nxr ∧ (c.startFrame r nxr).fid = c.nextFid ∧
    (c.startFrame r nxr).x 4 = BitVec.ofNat 64 (0x7E0000000000 + (c.run.base - 64)) := by
  unfold Core.startFrame
  extract_lets base sp f0
  have hset : ∀ (f : Frame) q v, (f.setX q v).sup = f.sup ∧ (f.setX q v).nxr = f.nxr ∧ (f.setX q v).fid = f.fid :=
    fun f q v => by
      obtain ⟨_, _, _, _, _, h⟩ := setX_eq f q v
      rw [h]
      exact ⟨rfl, rfl, rfl⟩
  simp only [hset]
  refine ⟨rfl, rfl, rfl, ?_⟩
  rw [Frame.x_setX_other _ 3 _ _ (by decide), Frame.x_setX_other _ 2 _ _ (by decide), Frame.x_setX, if_neg (by decide)]

theorem trapAt_beneath (s : State) (cause : Nat) : s.Beneath (s.trapAt cause) := trapReady_beneath ..

theorem trapAt_core (s : State) (cause : Nat) : (s.trapAt cause).core s.cur = (s.trapAt cause).me := by
  rw [State.me, (trapAt_beneath s cause).cur]

/-- The frame of a trap's handler over the entry that was looked up. -/
theorem trapFrame_trapAt (s : State) (cause : Nat) (tval pc : Word) (boundary : Bool) :
    let f := (s.trapAt cause).trapFrame s.cur cause tval pc boundary
    let sp : Word := BitVec.ofNat 64 (0x7E0000000000 + (s.frame.base - 64))
    f.level = 7 ∧ f.pc = wordAt (s.trapEntry cause) 0 &&& ~~~3#64 ∧
    f.sup = (bitOf (natAt (s.trapEntry cause) 9 1) 1 || supervisorCause cause) ∧ f.nxr = s.me.csr.corenxr ∧
    f.fid = s.me.nextFid ∧ f.x 10 = BitVec.ofNat 64 (cause + 256 * boundary.toNat) ∧ f.x 11 = tval ∧ f.x 12 = pc ∧
    f.x 13 = s.frame.tstat ∧ f.x 2 = sp ∧ f.x 4 = sp ∧ f.x 3 = s.me.csr.gpv := by
  intro f sp
  have hcore := (trapAt_beneath s cause).core s.cur
  have hrun : ((s.trapAt cause).core s.cur).run = s.frame := (congrArg Core.run hcore :)
  have hcsr : ((s.trapAt cause).core s.cur).csr = s.me.csr := (congrArg Core.csr hcore :)
  have hentry :
      (s.trapAt cause).readBytes (((s.trapAt cause).core s.cur).csr.traptb + 16 * cause) 16 = s.trapEntry cause := by
    rw [trapAt_core]
    rfl
  obtain ⟨hlevel, hpc, -⟩ := startFrame_fields ((s.trapAt cause).core s.cur)
    ((s.trapAt cause).trapRecord s.cur cause tval pc boundary) ((s.trapAt cause).core s.cur).csr.corenxr
  obtain ⟨hsup, hnxr, hfid, h4⟩ := startFrame_rights ((s.trapAt cause).core s.cur)
    ((s.trapAt cause).trapRecord s.cur cause tval pc boundary) ((s.trapAt cause).core s.cur).csr.corenxr
  obtain ⟨h10, h11, h12, h13, h3, h2⟩ := startFrame_args ((s.trapAt cause).core s.cur)
    ((s.trapAt cause).trapRecord s.cur cause tval pc boundary) ((s.trapAt cause).core s.cur).csr.corenxr
  have hx : ∀ q, f.x q = (((s.trapAt cause).core s.cur).startFrame
      ((s.trapAt cause).trapRecord s.cur cause tval pc boundary) ((s.trapAt cause).core s.cur).csr.corenxr).x q :=
    fun _ => x_of_regs rfl rfl
  rw [hrun] at h2 h4
  simp only [hx]
  dsimp only [f, State.trapFrame]
  rw [hpc, hsup, hnxr, hfid]
  refine ⟨hlevel, ?pc, ?sup, congrArg Csrs.corenxr hcsr, (congrArg Core.nextFid hcore :), h10, h11, h12,
    h13.trans (congrArg Frame.tstat hrun), h2, h4, h3.trans (congrArg Csrs.gpv hcsr)⟩
  case pc => exact congrArg (fun e => wordAt e 0 &&& ~~~3#64) hentry
  case sup => exact congrArg (fun e => bitOf (natAt e 9 1) 1 || supervisorCause cause) hentry

section Taken

variable {s : State} {cause : Nat} (tval : Word) (h : s.trapOpen cause = true)
include h

/-- The handler's frame is put on the stack of the state that has looked its entry up. -/
theorem trap_eq_putFrame : ∃ boundary : Bool, (boundary = true ↔ cause = 5 ∨ cause = 15) ∧
    s.trap cause tval = (s.trapAt cause).putFrame s.cur ((s.trapAt cause).trapRecord s.cur cause tval s.frame.pc boundary)
      ((s.trapAt cause).trapFrame s.cur cause tval s.frame.pc boundary) := by
  simp only [State.trapOpen, Bool.and_eq_true, Bool.not_eq_true', beq_eq_false_iff_ne, ne_eq] at h
  obtain ⟨⟨⟨⟨h7, hmeets⟩, hpois⟩, hvalid⟩, hfit⟩ := h
  refine ⟨decide (cause = 5) || decide (cause = 15), by simp, (if_pos hmeets).trans ?_⟩
  refine enterTrap_open (s := s.trapAt cause) tval _ _ ?_ ?_ ?_ ?_ <;> rw [trapAt_core]
  · exact fun he => h7 ((congrArg Frame.level (trapAt_beneath s cause).frame).symm.trans he)
  · exact hpois
  · exact hvalid
  · exact hfit

/-- A trap that can be taken runs the handler's frame, which has the core's next number, and closes the open record. -/
theorem trap_takes : s.trapTaken (s.trap cause tval) cause tval ∧ (s.trap cause tval).frame.fid = s.me.nextFid ∧
    (s.trap cause tval).me.pub = { s.me.pub with opened := false } := by
  obtain ⟨boundary, hboundary, htrap⟩ := trap_eq_putFrame tval h
  have hb := trapAt_beneath s cause
  obtain ⟨hlevel, hpc, hsup, hnxr, hfid, h10, h11, h12, h13, h2, h4, h3⟩ :=
    trapFrame_trapAt s cause tval s.frame.pc boundary
  generalize (s.trapAt cause).trapRecord s.cur cause tval s.frame.pc boundary = r at htrap
  generalize (s.trapAt cause).trapFrame s.cur cause tval s.frame.pc boundary = f at *
  have hpub := putFrame_pub (s.trapAt cause) s.cur r f
  obtain ⟨hcur, hrun, hstack, -⟩ := putFrame_core (s.trapAt cause) s.cur r f
  rw [← htrap] at hcur hpub hrun hstack
  have hme : (s.trap cause tval).core s.cur = (s.trap cause tval).me := by rw [State.me, hcur, hb.cur]
  rw [hme, trapAt_core] at hpub hstack
  rw [hme] at hrun
  have hframe : (s.trap cause tval).frame = f := hrun
  have hbound : 256 * boundary.toNat = if cause = 5 ∨ cause = 15 then 256 else 0 := by
    simp only [← hboundary]
    cases boundary <;> rfl
  have hunder : (s.trapAt cause).me.stack = s.me.stack := by rw [Core.stack, hb.under]; rfl
  have hrun' : (s.trapAt cause).me.run = s.frame := hb.frame
  rw [hbound] at h10
  rw [hunder, hrun'] at hstack
  simp only [State.trapTaken, State.x, hframe]
  exact ⟨⟨hcur.trans hb.cur, hlevel, hpc, hsup, hnxr, h10, h11, h12, h13, h2, h4, h3, hstack⟩, hfid,
    hpub.trans (congrArg (fun p : Pub => { p with opened := false }) (congrArg Core.pub hb.me :))⟩

end Taken

/-! ### ECALL and EBREAK (R206) -/

theorem trapTaken_onMe {s t : State} {cause : Nat} {tval : Word} {f : Core → Core} (h : s.trapTaken t cause tval)
    (hrun : (f t.me).run = t.me.run) (hunder : (f t.me).under = t.me.under) : s.trapTaken (t.onMe f) cause tval := by
  have hframe : (t.onMe f).frame = t.frame := by rw [onMe_frame]; exact hrun
  have hstack : (t.onMe f).me.stack = t.me.stack := by rw [onMe_me, Core.stack, hunder]; rfl
  simpa only [State.trapTaken, State.x, hframe, hstack, onMe_cur] using h

/-- The trap of ECALL and EBREAK runs the handler's frame, keeps the log, and leaves an open record open. -/
theorem callTrap_takes {s : State} {cause : Nat} (h : s.trapOpen cause = true) :
    s.trapTaken (s.callTrap cause) cause 0 ∧ (s.callTrap cause).me.pub.log = s.me.pub.log ∧
    (s.frame.fid ≠ s.me.nextFid → (s.callTrap cause).me.pub.opened = s.me.pub.opened) := by
  obtain ⟨htaken, hfid, hpub⟩ := trap_takes 0 h
  by_cases hkept : (decide ((s.trap cause 0).frame.fid = s.frame.fid) || !s.me.pub.opened) = true
  · have hcall : s.callTrap cause = s.trap cause 0 := if_pos hkept
    rw [hcall, hpub]
    refine ⟨htaken, rfl, fun hne => ?_⟩
    have hnew : (s.trap cause 0).frame.fid ≠ s.frame.fid := fun he => hne (he.symm.trans hfid)
    rw [decide_eq_false hnew, Bool.false_or] at hkept
    exact (Bool.not_eq_true' _ ▸ hkept).symm
  · have hopened : s.me.pub.opened = true := by
      simp only [Bool.or_eq_true, Bool.not_eq_true', not_or, Bool.not_eq_false] at hkept
      exact hkept.2
    have hcall : s.callTrap cause = (s.trap cause 0).onMe (fun c => { c with
        pub := { c.pub with opened := true }, ck := c.ck.map (fun k => { k with openRec := c.pub.log.getLast? }) }) :=
      if_neg hkept
    rw [hcall]
    refine ⟨trapTaken_onMe htaken rfl rfl, ?_, fun _ => ?_⟩ <;> rw [onMe_me]
    · exact (congrArg Pub.log hpub :)
    · exact hopened.symm

/-! ### The gates before an instruction's own part (R402, R417, R425) -/

section Gates

variable {s t : State} {i : Instr} {w : BitVec 32} (hw : encode i = some w) (hacq : s.frame.acq = none)
include hw hacq

/-- What the checker finds stops every instruction with a word. -/
theorem exec_checked (hc : s.checker = .done t) : exec i s = .next t := by
  rcases exec_eq_run_or_runKiln hw s with ⟨srcs, es, dst, k, he⟩ | ⟨srcs, k, he⟩
  · simp [he, State.run, State.begin, State.startGate, hacq, hc]
  · simp [he, State.runKiln, State.startGate, hacq, hc]

/-- A breakpoint that matches the PC stops every instruction with a word. -/
theorem exec_breaks (hup : s.me.upset = 0) (hbr : s.me.breaks = true) : exec i s = .next (s.trap 21 s.frame.pc) := by
  rcases exec_eq_run_or_runKiln hw s with ⟨srcs, es, dst, k, he⟩ | ⟨srcs, k, he⟩
  · simp [he, State.run, State.begin, State.startGate, State.checker, State.fetchGate, hacq, hup, hbr]
  · simp [he, State.runKiln, State.startGate, State.checker, State.fetchGate, hacq, hup, hbr]

end Gates

/-- A first mismatch leaves the core its own part, but for the mark that the instruction executes again. -/
theorem checker_again {s : State} (hup : s.me.upset ≠ 0) (hagain : s.me.again = false) :
    ∃ t, s.checker = .done t ∧ (s.onMe fun c => { c with upset := c.upset - 1, again := true }).Beneath t :=
  ⟨_, (if_neg hup).trans (if_neg (by rw [hagain]; exact Bool.false_ne_true)),
    (State.Beneath.report ..).trans (beneath_spend ..)⟩

theorem checker_fails {s : State} (hup : s.me.upset ≠ 0) (hagain : s.me.again = true) :
    s.checker = .done ((s.onMe fun c => { c with upset := c.upset - 1, again := false }).machineCheck s.cur 0 0x02 0 0
      s.frame.pc.toNat) := (if_neg hup).trans (if_pos hagain)

/-- Settles O19: the calls by their trap, breakpoints and the checker by the gates that every instruction passes. -/
theorem environmentCallsAndBreakpointsTrap : Obligations.EnvironmentCallsAndBreakpointsTrap := by
  refine ⟨fun s hc => ?calls, fun s i w hw hacq =>
    ⟨exec_breaks hw hacq, fun hup hagain => ?again, fun hup hagain => ?fails⟩⟩
  case calls =>
    intro u calls
    have takes : ∀ {i : Instr} {cause : Nat}, exec i s = .next (u.callTrap cause) → calls i cause :=
      fun he ho => by
        obtain ⟨htaken, hlog, hopened⟩ := callTrap_takes ho
        have hnext : u.me.nextFid = s.me.nextFid := (congrArg Core.nextFid (State.Beneath.wake s [] 0).me :)
        refine ⟨_, he, htaken, hlog.trans (by rw [wake_pub]), fun hne => ?_⟩
        rw [hopened (by rw [wake_frame, hnext]; exact hne), wake_pub]
    exact ⟨takes (exec_of_run (exec_ecall s) hc (by simp) rfl), takes (exec_of_run (exec_ebreak s) hc (by simp) rfl)⟩
  case again =>
    obtain ⟨t, ht, hb⟩ := checker_again hup hagain
    have hme := hb.me
    rw [onMe_me] at hme
    exact ⟨t, exec_checked hw hacq ht, hb.cur, (congrArg Core.run hme :), (congrArg Core.pub hme :),
      (congrArg Core.instret hme :), (congrArg Core.again hme :), (congrArg Core.upset hme :)⟩
  case fails => exact exec_checked hw hacq (checker_fails hup hagain)

end Sys2Proof.Machine

/-! PROOFS. Trap items, the hold mask and table jumps (R50, R210, R225, R233, R236): the time of a retirement, the items of a
trapped frame, and each instruction by the branch that its operands choose. -/

namespace Sys2Proof.Machine

/-! ### The time of a retirement (R210, R408) -/

theorem count_now (s : State) (ep ev n : Nat) : (s.count ep ev n).now = s.now := by
  obtain ⟨cores, h⟩ := countAt_frame s ep (s.core ep).run.level ev n
  exact (congrArg State.now h :)

theorem retireTo_now (u : State) (next : Word) (cost : Nat) :
    (u.retireTo next cost).now = u.after u.cur (u.me.time cost) := by
  unfold State.retireTo State.retireUnder
  extract_lets c f f' s1
  rw [count_now, spend_now]
  rfl

/-- An own part that retires at the next word completes in the time of its cost. -/
theorem completesIn_of_retire {s u : State} {i : Instr} {srcs es : List XReg} {dst : XReg} {k : State → State} {cost : Nat}
    (he : exec i s = s.run i srcs es dst k) (hc : s.clear (isPrefixed i) srcs dst = true) (hs : ∀ r ∈ es, r ∈ srcs)
    (hk : k (s.wake srcs dst) = u.retire cost) (hpc : u.frame.pc = s.frame.pc) :
    s.completesIn i u (s.frame.pc + 4) cost :=
  ⟨_, exec_of_run he hc hs hk, hpc ▸ retire_retires u cost, retireTo_now ..⟩

theorem completes_of_next {s u : State} {i : Instr} {cost : Nat} (he : exec i s = .next (u.retire cost))
    (hpc : u.frame.pc = s.frame.pc) : s.completes i u (s.frame.pc + 4) := ⟨_, he, hpc ▸ retire_retires u cost⟩

/-- An own part that keeps the running frame keeps its PC. -/
theorem onMe_wake_pc {s : State} {srcs : List XReg} {dst : XReg} {f : Core → Core} (hf : ∀ c, (f c).run = c.run) :
    ((s.wake srcs dst).onMe f).frame.pc = s.frame.pc := by
  rw [onMe_frame, hf]
  exact congrArg Frame.pc (wake_frame ..)

/-! ### The items of a trapped frame (R236) -/

theorem wake_under (s : State) (srcs : List XReg) (dst : XReg) : (s.wake srcs dst).me.under = s.me.under :=
  (State.Beneath.wake s srcs dst).under

theorem Frame.item_reg {f g : Frame} {r : XReg} (hfull : f.isFull r = true) (hbusy : f.isBusy r = false) :
    f.item g r.toNat = f.x r := by
  simp [Frame.item, r.isLt, hfull, hbusy]

theorem Frame.setItem_reg (f : Frame) (r : XReg) (v : Word) : f.setItem r.toNat v = f.setX r v := by
  simp [Frame.setItem, r.isLt]

theorem Frame.setItem_unwritten (f : Frame) {sel : Nat} (v : Word) (h : 34 < sel) : f.setItem sel v = f := by
  unfold Frame.setItem
  rw [if_neg (by omega)]
  split
  · omega
  · omega
  · omega
  · rfl

section TrapItems

variable {s : State} {rd rs1 rs2 : XReg} {e1 e2 : BitVec 1} {f : Frame} {rest : List Frame} {ti : TrapInfo}

/-- TFRD in a trap frame, of an item that the table lists. -/
theorem tfrd_puts {v : Word} (hc : s.clear false [rs1] rd = true) (htrap : s.frame.trap = some ti)
    (hunder : s.me.under = f :: rest) (hsel : (s.x rs1).toNat ≤ 63) (hv : f.item s.frame (s.x rs1).toNat = v) :
    s.puts (.tfrd rd rs1 e1) [rs1] rd v := by
  refine completes_of_retire (cost := 1) (exec_tfrd ..) hc eSrc_mem ?_ (by simp)
  simp only [wake_frame, htrap, Core.trapped, wake_under, hunder, List.head?_cons, wake_x, Nat.not_lt.2 hsel, if_false, hv]

/-- TFWR in a trap frame, of an item that is no empty register. -/
theorem tfwr_completes {g : Frame} (hc : s.clear false [rs1, rs2] 0 = true) (htrap : s.frame.trap = some ti)
    (hunder : s.me.under = f :: rest) (hsel : (s.x rs1).toNat ≤ 63)
    (hfull : (s.x rs1).toNat < 32 → f.isFull (BitVec.ofNat 5 (s.x rs1).toNat) = true)
    (hg : f.setItem (s.x rs1).toNat (s.x rs2) = g) :
    s.completes (.tfwr rs1 rs2 e1 e2) ((s.wake [rs1, rs2] 0).onMe (fun c => { c with under := g :: rest }))
      (s.frame.pc + 4) := by
  have hwaits : ¬ ((s.x rs1).toNat < 32 ∧ (!f.isFull (BitVec.ofNat 5 (s.x rs1).toNat)) = true) :=
    fun ⟨hlt, hempty⟩ => by rw [hfull hlt] at hempty; exact Bool.noConfusion hempty
  refine completes_of_retire (cost := 1) (exec_tfwr ..) hc eSrc_append_mem ?_ (onMe_wake_pc fun _ => rfl)
  simp only [wake_frame, htrap, wake_under, hunder, wake_x, Nat.not_lt.2 hsel, hwaits, if_false, hg]

end TrapItems

/-- Settles O21: each item by its line of the table, and outside a trap frame the illegal branch. -/
theorem trapItemsReadAndWriteTheTrappedFrame : Obligations.TrapItemsReadAndWriteTheTrappedFrame := by
  intro s rd rs1 rs2 e1 e2 f rest ti
  refine ⟨fun hc => ⟨fun htrap hunder => ?reads, fun htrap => ?noRead⟩,
    fun hc => ⟨fun htrap hunder => ?writes, fun htrap => ?noWrite⟩⟩
  case reads =>
    have item : ∀ {n : Nat} {v : Word}, n ≤ 63 → f.item s.frame n = v → (s.x rs1).toNat = n →
        s.puts (.tfrd rd rs1 e1) [rs1] rd v :=
      fun hn hv hsel => tfrd_puts hc htrap hunder (hsel ▸ hn) (hsel ▸ hv)
    refine ⟨fun r hsel hfull hbusy => item (by omega) (Frame.item_reg hfull hbusy) hsel, item (by decide) rfl,
      item (by decide) rfl, item (by decide) rfl, item (by decide) rfl, item (by decide) ?cause, item (by decide) ?tval⟩
    case cause => simp [Frame.item, htrap]
    case tval => simp [Frame.item, htrap]
  case noRead =>
    refine exec_of_run (exec_tfrd ..) hc eSrc_mem ?_
    simp only [wake_frame, htrap]
    rfl
  case writes =>
    have item : ∀ {n : Nat} {g : Frame}, 32 ≤ n → n ≤ 63 → f.setItem n (s.x rs2) = g → (s.x rs1).toNat = n →
        s.completes (.tfwr rs1 rs2 e1 e2) ((s.wake [rs1, rs2] 0).onMe (fun c => { c with under := g :: rest }))
          (s.frame.pc + 4) :=
      fun hlo hn hg hsel => tfwr_completes hc htrap hunder (hsel ▸ hn) (fun h => by omega) (hsel ▸ hg)
    refine ⟨fun r hsel hfull => ?register, item (by decide) (by decide) rfl, item (by decide) (by decide) rfl,
      item (by decide) (by decide) rfl,
      fun hlo hhi => item (by omega) hhi (Frame.setItem_unwritten f _ hlo) rfl⟩
    case register =>
      exact tfwr_completes hc htrap hunder (by omega) (fun _ => by simpa [hsel] using hfull)
        (by rw [hsel, Frame.setItem_reg])
  case noWrite =>
    refine exec_of_run (exec_tfwr ..) hc eSrc_append_mem ?_
    simp only [wake_frame, htrap]
    rfl

/-! ### The hold mask (R50, R225) -/

section Hold

variable {s : State} {rs1 : XReg} {e1 : BitVec 1} {i : Instr} {k : State → State} (hc : s.clear false [rs1] 0 = true)
  (he : exec i s = s.run i [rs1] (eSrc rs1 e1) 0 k) (hp : isPrefixed i = false)
include hc he hp

/-- An instruction that changes HOLDM alone, in one cycle. -/
theorem changes_holdm {m : Word → Word} (hk : k (s.wake [rs1] 0) =
      ((s.wake [rs1] 0).onMe (fun c => { c with csr := { c.csr with holdm := m c.csr.holdm } })).retire 1) :
    s.completesIn i ((s.wake [rs1] 0).onMe (fun c => { c with csr := { c.csr with holdm := m c.csr.holdm } }))
      (s.frame.pc + 4) 1 :=
  completesIn_of_retire he (by rw [hp]; exact hc) eSrc_mem hk (onMe_wake_pc fun _ => rfl)

theorem sets_holdm {v : Word} (hk : k (s.wake [rs1] 0) = ((s.wake [rs1] 0).setHold v).retire 1) :
    s.completesIn i ((s.wake [rs1] 0).onMe (fun c => { c with
      csr := { c.csr with holdm := c.csr.holdm ||| (v &&& ~~~1#64) } })) (s.frame.pc + 4) 1 :=
  changes_holdm hc he hp (m := fun h => h ||| (v &&& ~~~1#64)) hk

theorem clears_holdm {v : Word} (hk : k (s.wake [rs1] 0) = ((s.wake [rs1] 0).clearHold v).retire 1) :
    s.completesIn i ((s.wake [rs1] 0).onMe (fun c => { c with
      csr := { c.csr with holdm := c.csr.holdm &&& ~~~(v &&& ~~~1#64) } })) (s.frame.pc + 4) 1 :=
  changes_holdm hc he hp (m := fun h => h &&& ~~~(v &&& ~~~1#64)) hk

end Hold

/-- Settles O23: each form by its mask, and the values above 63 by the illegal branch. -/
theorem holdsChangeTheHoldMask : Obligations.HoldsChangeTheHoldMask := by
  intro s rs1 e1 hc v w hold bits
  have hx : w.x rs1 = v := wake_x ..
  refine ⟨sets_holdm hc (exec_holdm ..) rfl ?_, clears_holdm hc (exec_unholdm ..) rfl ?_,
    fun hv => ⟨sets_holdm hc (exec_hold ..) rfl ?_, clears_holdm hc (exec_unhold ..) rfl ?_⟩,
    fun hv => ⟨exec_of_run (exec_hold ..) hc eSrc_mem ?_, exec_of_run (exec_unhold ..) hc eSrc_mem ?_⟩⟩
  · rw [hx]
  · rw [hx]
  · rw [hx, if_neg (Nat.not_lt.2 hv)]
  · rw [hx, if_neg (Nat.not_lt.2 hv)]
  · rw [hx, if_pos hv, State.illegal]
  · rw [hx, if_pos hv, State.illegal]

/-! ### Table jumps (R233) -/

theorem withData_data {s u : State} {va : Word} {g : Got × State} {l : List Byte} {k : List Byte → State → State}
    (h : g = (.data l, u)) : s.withData va g k = k l u := by
  rw [h]
  rfl

section TableJump

variable {s u : State} {rs1 rs2 : XReg} {e1 e2 : BitVec 1} {l : List Byte}
  (hc : s.clear false [rs1, rs2] 0 = true)
include hc

theorem tjmp_misaligned (hal : (s.x rs2).toNat % 8 ≠ 0) :
    exec (.tjmp rs1 rs2 e1 e2) s = .next ((s.wake [rs1, rs2] 0).trap 6 (s.x rs2)) :=
  exec_of_run (exec_tjmp ..) hc eSrc_append_mem (by simp only [wake_x, hal, ne_eq, not_false_eq_true, if_true])

variable (hal : (s.x rs2).toNat % 8 = 0)
  (hlen : (s.wake [rs1, rs2] 0).fetchData (s.x rs2).toNat 8 true = (.data l, u))
include hal hlen

/-- With the table's length read, TJMP goes on at the next word or reads the entry. -/
theorem tjmp_of_length : exec (.tjmp rs1 rs2 e1 e2) s = .next (
    if leNat l ≤ (s.x rs1).toNat then u.retire 3
    else
      let a := s.x rs2 + 8 + BitVec.ofNat 64 (4 * (s.x rs1).toNat)
      u.withData a (u.fetchData a.toNat 4 true) (fun d w =>
        let tgt := s.x rs2 + extend d true
        if aligned4 tgt then w.retireTo tgt 3 else w.trap 7 tgt)) := by
  refine exec_of_run (exec_tjmp ..) hc eSrc_append_mem ?_
  simp only [wake_x, hal, ne_eq, not_true, if_false, withData_data hlen]

theorem tjmp_of_entry {d : List Byte} {v : State} (hi : (s.x rs1).toNat < leNat l)
    (hd : u.fetchData (s.x rs2 + 8 + BitVec.ofNat 64 (4 * (s.x rs1).toNat)).toNat 4 true = (.data d, v)) :
    exec (.tjmp rs1 rs2 e1 e2) s = .next (
      if aligned4 (s.x rs2 + extend d true) then v.retireTo (s.x rs2 + extend d true) 3
      else v.trap 7 (s.x rs2 + extend d true)) := by
  rw [tjmp_of_length hc hal hlen, if_neg (Nat.not_le.2 hi)]
  exact congrArg _ (withData_data hd)

end TableJump

/-- Settles O31: the index decides what is read, and the entry's target whether it is taken. -/
theorem tableJumpsCheckTheirIndex : Obligations.TableJumpsCheckTheirIndex := by
  intro s rs1 rs2 e1 e2 l u hc i b w
  refine ⟨tjmp_misaligned hc, fun hal hlen => ⟨fun hi => ?beyond, fun d v hi hd => ⟨fun ha => ?taken, fun ha => ?traps⟩⟩⟩
  case beyond => exact ⟨_, (tjmp_of_length hc hal hlen).trans (congrArg _ (if_pos hi)), retire_retires u 3⟩
  case taken =>
    exact ⟨_, (tjmp_of_entry hc hal hlen hi hd).trans (congrArg _ (if_pos (beq_iff_eq.2 ha))), retireTo_retires v _ 3⟩
  case traps => exact (tjmp_of_entry hc hal hlen hi hd).trans (congrArg _ (if_neg fun h => ha (beq_iff_eq.1 h)))

end Sys2Proof.Machine

/-! PROOFS. Counters, copy queries, prefetches and invalidations (R237, R248, R250, R251, R363, R367): what each instruction
does with its operand, and the translation caches after XINV drops the entries that it names. -/

namespace Sys2Proof.Machine

/-! ### Byte counters (R248) -/

theorem wake_carve (s : State) (srcs : List XReg) (dst : XReg) : (s.wake srcs dst).me.carve = s.me.carve :=
  (congrArg Core.carve (State.Beneath.wake s srcs dst).me :)

section Counter

variable {s : State} {rs1 : XReg} {e1 : BitVec 1} (hc : s.clear false [rs1] 0 = true)
include hc

theorem cpcnt_disarms (h0 : rs1 = 0) :
    s.completes (.cpcnt rs1 e1) ((s.wake [rs1] 0).onFrame (fun f => { f with counter := none })) (s.frame.pc + 4) :=
  completes_of_retire (cost := 1) (exec_cpcnt ..) hc eSrc_mem (if_pos h0) (by simp)

variable (h0 : rs1 ≠ 0)
include h0

theorem cpcnt_misaligned (ha : (s.x rs1).toNat % 4 ≠ 0) :
    exec (.cpcnt rs1 e1) s = .next ((s.wake [rs1] 0).trap 6 (s.x rs1)) := by
  refine exec_of_run (exec_cpcnt ..) hc eSrc_mem ((if_neg h0).trans ?_)
  rw [wake_x, if_pos ha]

variable (ha : (s.x rs1).toNat % 4 = 0)
include ha

theorem cpcnt_arms {off : Nat} (hoff : (s.x rs1).toNat = 0x7E0000000000 + off) (hin : off + 4 ≤ s.me.carve.spadSize) :
    s.completes (.cpcnt rs1 e1) ((s.wake [rs1] 0).onFrame (fun f => { f with counter := some off })) (s.frame.pc + 4) := by
  refine completes_of_retire (cost := 1) (exec_cpcnt ..) hc eSrc_mem ((if_neg h0).trans ?_) (by simp)
  rw [wake_x, if_neg (not_not.2 ha), wake_carve, if_pos (by omega)]
  have : (s.x rs1).toNat - 0x7E0000000000 = off := by omega
  rw [this]

theorem cpcnt_outside
    (hout : (s.x rs1).toNat < 0x7E0000000000 ∨ 0x7E0000000000 + s.me.carve.spadSize < (s.x rs1).toNat + 4) :
    exec (.cpcnt rs1 e1) s = .next ((s.wake [rs1] 0).trap 8 (s.x rs1)) := by
  refine exec_of_run (exec_cpcnt ..) hc eSrc_mem ((if_neg h0).trans ?_)
  rw [wake_x, if_neg (not_not.2 ha), wake_carve, if_neg (by omega)]

end Counter

/-! ### Prefetches (R251, log entry 22) -/

/-- The state behind a prefetch of the sector at `a`, translated to `g`: its fill is asked for where the address is global,
aligned and unlocked. -/
def State.prefetched (u : State) (ep a : Nat) (g : Target) : State :=
  match g with
  | .glob x =>
    if a % 8 = 0 ∧ !u.locked ep (.glob x) a 1 false then
      (u.onMe (fun d => { d with nextId := d.nextId + 1 })).askFill ep u.me.nextId x
    else u
  | _ => u

theorem prefetched_glob {u : State} {ep a : Nat} {x : Xlat} (ha : a % 8 = 0)
    (hlock : u.locked ep (.glob x) a 1 false = false) : u.prefetched ep a (.glob x) =
      (u.onMe (fun d => { d with nextId := d.nextId + 1 })).askFill ep u.me.nextId x :=
  if_pos (by simp [ha, hlock])

theorem prefetched_unasked {u : State} {ep a : Nat} {x : Xlat}
    (hno : a % 8 ≠ 0 ∨ u.locked ep (.glob x) a 1 false = true) : u.prefetched ep a (.glob x) = u :=
  if_neg (by rcases hno with h | h <;> simp [h])

theorem prefetched_elsewhere {u : State} {ep a : Nat} {g : Target} (hg : ∀ x, g ≠ .glob x) : u.prefetched ep a g = u := by
  cases g with
  | glob x => exact absurd rfl (hg x)
  | _ => rfl

section Prefetch

variable {s u : State} {rs1 : XReg} {e1 : BitVec 1} {g : Target} (hc : s.clear false [rs1] 0 = true)
  (htr : (s.wake [rs1] 0).translate (s.wake [rs1] 0).asker (s.x rs1).toNat 1 .r = (g, u))
include hc htr

theorem pref_waits (hg : g = .ats) : exec (.pref rs1 e1) s = .next (u.stall .fill) := by
  refine exec_of_run (exec_pref ..) hc eSrc_mem ?_
  simp only [wake_x, htr, hg]
  rfl

/-- Once translated, PREF asks for the sector or passes. -/
theorem pref_completes (hg : g ≠ .ats) (hpc : (u.prefetched s.cur (s.x rs1).toNat g).frame = u.frame) :
    s.completes (.pref rs1 e1) (u.prefetched s.cur (s.x rs1).toNat g) (s.frame.pc + 4) := by
  have hu : u.frame = s.frame := (beneath_wake_translate htr).frame
  have hne : (g == .ats) = false := beq_eq_false_iff_ne.2 hg
  refine completes_of_retire (cost := 1) (exec_pref ..) hc eSrc_mem ?_ (by rw [hpc, hu])
  simp only [wake_x, wake_cur, htr, hne, Bool.false_eq_true, if_false]
  rfl

theorem pref_asks {x : Xlat} (hg : g = .glob x) (ha : (s.x rs1).toNat % 8 = 0)
    (hlock : u.locked s.cur (.glob x) (s.x rs1).toNat 1 false = false) :
    s.completes (.pref rs1 e1)
      ((u.onMe (fun c => { c with nextId := c.nextId + 1 })).askFill s.cur u.me.nextId x) (s.frame.pc + 4) := by
  subst hg
  have hcur : u.cur = s.cur := (beneath_wake_translate htr).cur
  have hz := prefetched_glob ha hlock
  rw [← hz]
  refine pref_completes hc htr Target.noConfusion ?_
  rw [hz, ← hcur]
  exact (askFill_frame _ _ _).trans (onMe_frame u _)

theorem pref_passes (hg : g ≠ .ats) (hz : u.prefetched s.cur (s.x rs1).toNat g = u) :
    s.completes (.pref rs1 e1) u (s.frame.pc + 4) := by
  have h := pref_completes (e1 := e1) hc htr hg (congrArg State.frame hz)
  rwa [hz] at h

end Prefetch

/-! ### Copy queries (R250) -/

theorem foldl_landed (l : List ChunkOut) (m : Nat) :
    l.foldl (fun m f => if f.landed then m + f.n else m) m =
      m + ((l.filter (fun f => f.landed)).map (fun f => f.n)).sum := by
  induction l generalizing m with
  | nil => rfl
  | cons f l ih =>
    rw [List.foldl_cons, ih]
    cases hf : f.landed <;> simp [hf, Nat.add_assoc]

theorem wake_cluster (s : State) (srcs : List XReg) (dst : XReg) (k : Nat) : (s.wake srcs dst).cluster k = s.cluster k := rfl

section CopyQuery

variable {s : State} {rd rs1 : XReg} {e1 : BitVec 1} (hc : s.clear false [rs1] rd = true)
include hc

theorem copyq_lands {c : Copy} (hfind : (s.cluster (clusterOf s.cur)).copies.find? (fun c =>
      c.core == s.cur && c.tag == (s.x rs1).toNat % 65536) = some c) :
    s.completesIn (.copyq rd rs1 e1) ((s.wake [rs1] rd).setX rd (BitVec.ofNat 64
      (c.landed + ((c.flight.filter (fun f => f.landed)).map (fun f => f.n)).sum))) (s.frame.pc + 4) 3 := by
  refine completesIn_of_retire (exec_copyq ..) hc eSrc_mem ?_ (by simp)
  simp only [wake_x, wake_cur, wake_cluster, hfind, foldl_landed, Nat.zero_add]

theorem copyq_misses (hfind : (s.cluster (clusterOf s.cur)).copies.find? (fun c =>
      c.core == s.cur && c.tag == (s.x rs1).toNat % 65536) = none) :
    s.completesIn (.copyq rd rs1 e1) ((s.wake [rs1] rd).setX rd (BitVec.allOnes 64)) (s.frame.pc + 4) 3 := by
  refine completesIn_of_retire (exec_copyq ..) hc eSrc_mem ?_ (by simp)
  simp only [wake_x, wake_cur, wake_cluster, hfind]

end CopyQuery

/-! ### Cached translations (R237, R363) -/

theorem xinvDrops_iff (e : TlbEntry) (v n va : Nat) : xinvDrops e v (bitOf n 8) va = true ↔
    e.vdev = v ∧ (n.testBit 8 = true ∨ (e.va ≤ va ∧ va < e.va + e.size)) := by
  have hbit : bitOf n 8 = n.testBit 8 := by
    rw [bitOf, Nat.testBit_eq_decide_div_mod_eq]
  simp [xinvDrops, hbit]

/-- A core without the cached translations that XINV's operands name. -/
def Core.dropXlat (c : Core) (v : Nat) (all : Bool) (va : Nat) : Core :=
  { c with utlb := c.utlb.filter (fun t => !xinvDrops t v all va) }

/-- The same of a cluster's shared cache. -/
def Cluster.dropXlat (c : Cluster) (v : Nat) (all : Bool) (va : Nat) : Cluster :=
  { c with tlb := c.tlb.filter (fun t => !xinvDrops t v all va) }

theorem dropXlat_core (s : State) (v : Nat) (all : Bool) (va ep : Nat) :
    (s.dropXlat v all va).core ep = (s.core ep).dropXlat v all va := by
  have hfind : tfind (s.dropXlat v all va).cores ep = (tfind s.cores ep).map (Core.dropXlat · v all va) :=
    tfind_map (Core.dropXlat · v all va) s.cores ep
  simp only [State.core, tget, hfind]
  cases tfind s.cores ep <;> rfl

theorem dropXlat_cluster (s : State) (v : Nat) (all : Bool) (va k : Nat) :
    (s.dropXlat v all va).cluster k = (s.cluster k).dropXlat v all va := by
  have hfind : tfind (s.dropXlat v all va).clusters k = (tfind s.clusters k).map (Cluster.dropXlat · v all va) :=
    tfind_map (Cluster.dropXlat · v all va) s.clusters k
  simp only [State.cluster, tget, hfind]
  cases tfind s.clusters k <;> rfl

theorem beneath_dropXlat (s : State) (v : Nat) (all : Bool) (va : Nat) : s.Beneath (s.dropXlat v all va) :=
  ⟨rfl, rfl, fun ep => by rw [dropXlat_core]; rfl⟩

theorem mem_of_tfind {α : Type} {t : Tbl α} {k : Nat} {a : α} (h : tfind t k = some a) : (k, a) ∈ t := by
  induction t with
  | nil => cases h
  | cons e t ih =>
    rw [tfind] at h
    split at h
    next heq =>
      cases h
      rw [heq]
      exact List.mem_cons_self
    next => exact List.mem_cons_of_mem _ (ih h)

/-- The translations that a core caches are among those of the part. -/
theorem mem_cached {s : State} {ep : Nat} {e : TlbEntry} (h : e ∈ (s.core ep).utlb) : e ∈ s.cached := by
  rw [State.core, tget] at h
  cases hf : tfind s.cores ep with
  | none =>
    rw [hf] at h
    exact absurd h List.not_mem_nil
  | some c =>
    rw [hf] at h
    exact List.mem_append_left _ (List.mem_flatMap.2 ⟨_, mem_of_tfind hf, h⟩)

/-- Retirement leaves every core's cached translations. -/
theorem Retires.utlb {u t : State} {n : Word} (h : u.Retires t n) (ep : Nat) : (t.core ep).utlb = (u.core ep).utlb := by
  by_cases he : ep = u.cur
  · subst he
    have hme : t.core u.cur = t.me := by rw [State.me, Retires.cur h]
    rw [hme, Retires.me_eq h]
    rfl
  · have hcore : t.core ep = (u.setCore u.cur t.me).core ep := (congrArg (State.core · ep) h.2 :)
    rw [hcore, core_setCore_other _ _ _ _ he]

theorem Retires.clusters {u t : State} {n : Word} (h : u.Retires t n) : t.clusters = u.clusters := by
  rw [h.2]
  rfl

/-! ### XINV (R237, R367) -/

theorem translatedWaits_eq_false {s : State} {drops : TlbEntry → Bool} {v : Nat}
    (hdrops : ∀ e, drops e = true → e.vdev = v)
    (hout : s.egress.all (fun p => p.numbered || !(p.vdev == v)) = true) : s.translatedWaits drops = false := by
  rw [State.translatedWaits, List.any_eq_false]
  intro p hp h
  have hp' := List.all_eq_true.1 hout p hp
  simp only [Bool.and_eq_true, Bool.not_eq_true'] at h
  obtain ⟨hnum, hpa⟩ := h
  cases hpa? : p.pa? with
  | none => simp [hpa?] at hpa
  | some pa =>
    rw [hpa?] at hpa
    obtain ⟨e, -, he⟩ := List.any_eq_true.1 hpa
    simp only [Bool.and_eq_true, beq_iff_eq, decide_eq_true_eq] at he
    obtain ⟨⟨⟨hd, hvdev⟩, -⟩, -⟩ := he
    simp [hnum, ← hvdev, hdrops e hd] at hp'

theorem translatedWaits_of_mem {s : State} {drops : TlbEntry → Bool} {p : Pkt} {pa ep : Nat} {e : TlbEntry}
    (hp : p ∈ s.egress) (hnum : p.numbered = false) (hpa : p.pa? = some pa) (he : e ∈ (s.core ep).utlb)
    (hd : drops e = true) (hvdev : e.vdev = p.vdev) (hlo : e.base ≤ pa) (hhi : pa < e.base + e.size) :
    s.translatedWaits drops = true := by
  refine List.any_eq_true.2 ⟨p, hp, ?_⟩
  have hany : s.cached.any (fun t => drops t && t.vdev == p.vdev && decide (t.base ≤ pa) && decide (pa < t.base + t.size))
      = true := List.any_eq_true.2 ⟨e, mem_cached he, by simp [hd, hvdev, hlo, hhi]⟩
  simp [hnum, hpa, hany]

section Xinv

variable {s : State} {rs1 rs2 : XReg} {e1 e2 : BitVec 1} (hc : s.clear false [rs1, rs2] 0 = true)
include hc

theorem xinv_illegal (h : s.frame.sup = false ∨ 512 ≤ (s.x rs2).toNat ∨ bitsOf (s.x rs2).toNat 6 2 ≠ 0) :
    exec (.xinv rs1 rs2 e1 e2) s = .next ((s.wake [rs1, rs2] 0).trap 1 (wordOf (.xinv rs1 rs2 e1 e2))) := by
  refine exec_of_run (exec_xinv ..) hc eSrc_append_mem (if_pos ?_)
  rw [wake_frame, wake_x]
  rcases h with h | h | h <;> simp [h]

variable (hsup : s.frame.sup = true) (hn : (s.x rs2).toNat < 512) (hz : bitsOf (s.x rs2).toNat 6 2 = 0)
include hsup hn hz

/-- A legal XINV waits, or drops the translations that it names and retires. -/
theorem xinv_legal : exec (.xinv rs1 rs2 e1 e2) s = .next (
    let w := s.wake [rs1, rs2] 0
    let n := (s.x rs2).toNat
    if w.translatedWaits (fun e => xinvDrops e (bitsOf n 0 6) (bitOf n 8) (s.x rs1).toNat) then w.stall .xinv
    else (w.dropXlat (bitsOf n 0 6) (bitOf n 8) (s.x rs1).toNat).retire 1) := by
  refine exec_of_run (exec_xinv ..) hc eSrc_append_mem ((if_neg ?_).trans ?_)
  · simp [hsup, hn, hz]
  · simp only [wake_x]

end Xinv

/-- The state after XINV, of which every cache keeps what the operands do not name. -/
theorem dropped_goneOn {s t : State} {srcs : List XReg} {v va : Nat} {all : Bool}
    (hret : ((s.wake srcs 0).dropXlat v all va).Retires t (s.frame.pc + 4)) :
    s.goneOn t 4 1 ∧ s.keepsBut t 0 ∧
      (∀ ep e, e ∈ (t.core ep).utlb ↔ e ∈ (s.core ep).utlb ∧ ¬ xinvDrops e v all va = true) ∧
      ∀ k e, e ∈ (t.cluster k).tlb ↔ e ∈ (s.cluster k).tlb ∧ ¬ xinvDrops e v all va = true := by
  have hdrop : (s.wake srcs 0).OnlyX 0 ((s.wake srcs 0).dropXlat v all va) :=
    .of_beneath (beneath_dropXlat ..) fun _ => rfl
  have hpc : ((s.wake srcs 0).dropXlat v all va).frame.pc = s.frame.pc := hdrop.pc.trans (congrArg Frame.pc (wake_frame ..))
  rw [← hpc] at hret
  obtain ⟨hgone, hkeeps⟩ := State.OnlyX.goneOn_keepsFrom (.wake s srcs 0) hdrop hret
  refine ⟨hgone, hkeeps, fun ep e => ?_, fun k e => ?_⟩
  · obtain ⟨b, hcore⟩ := wake_core s srcs 0 ep
    rw [Retires.utlb hret, dropXlat_core, hcore, Core.dropXlat, List.mem_filter, Bool.not_eq_true', Bool.not_eq_true]
  · have hcluster : t.cluster k = ((s.wake srcs 0).dropXlat v all va).cluster k := by
      rw [State.cluster, Retires.clusters hret]
      rfl
    rw [hcluster, dropXlat_cluster, Cluster.dropXlat, List.mem_filter, Bool.not_eq_true', Bool.not_eq_true]
    rfl

/-- Settles O39: CPCNT by its address, COPYQ by the copy that it finds, PREF by its translation, and XINV by its fields and
the requests that wait. -/
theorem countersQueriesPrefetchesAndInvalidations : Obligations.CountersQueriesPrefetchesAndInvalidations := by
  refine ⟨?scalar, ?xinv⟩
  case scalar =>
    intro s rd rs1 e1 a pc4
    refine ⟨fun hc => ⟨cpcnt_disarms hc, cpcnt_misaligned hc, fun h0 ha => ⟨fun off => cpcnt_arms hc h0 ha,
      cpcnt_outside hc h0 ha⟩, fun g u htr => ⟨pref_waits hc htr, fun x => pref_asks hc htr, fun x hg hno => ?unasked,
      fun hats hglob => pref_passes hc htr hats (prefetched_elsewhere hglob)⟩⟩,
      fun hc => ⟨fun c => copyq_lands hc, copyq_misses hc⟩⟩
    case unasked =>
      subst hg
      exact pref_passes hc htr Target.noConfusion (prefetched_unasked hno)
  case xinv =>
    intro s rs1 rs2 e1 e2 hc w n v i gone
    have hv : bitsOf n 0 6 = v := by simp [bitsOf, v]
    refine ⟨xinv_illegal hc, fun hsup hn hz => ⟨fun hout => ?drops, ?waits⟩⟩
    case drops =>
      have hquiet := translatedWaits_eq_false (s := w) (v := v)
        (drops := fun e => xinvDrops e (bitsOf n 0 6) (bitOf n 8) (s.x rs1).toNat)
        (fun e he => hv ▸ ((xinvDrops_iff ..).1 he).1) hout
      have hret := retire_retires (w.dropXlat (bitsOf n 0 6) (bitOf n 8) (s.x rs1).toNat) 1
      rw [(beneath_dropXlat ..).frame, wake_frame] at hret
      obtain ⟨hgone, hkeeps, hutlb, htlb⟩ := dropped_goneOn hret
      refine ⟨_, (xinv_legal hc hsup hn hz).trans (congrArg _ (if_neg (ne_true_of_eq_false hquiet))), hgone, hkeeps,
        fun ep e => ?_, fun k e => ?_⟩
      · rw [hutlb, xinvDrops_iff, hv]
      · rw [htlb, xinvDrops_iff, hv]
    case waits =>
      rintro p hp hnum hvdev ⟨pa, hpa, ep, e, he, hgone, hlo, hhi⟩
      obtain ⟨b, hcore⟩ := wake_core s [rs1, rs2] 0 ep
      refine (xinv_legal hc hsup hn hz).trans (congrArg _ (if_pos ?_))
      exact translatedWaits_of_mem (s := w) (ep := ep) hp hnum hpa (by rw [hcore]; exact he)
        ((xinvDrops_iff ..).2 (hv ▸ hgone)) (hgone.1.trans hvdev.symm) hlo hhi

end Sys2Proof.Machine

/-! PROOFS. Team queries, carve-out requests, ALIGN, and a team barrier that fills a covered register (R45, R58, R59, R121,
R226, R227, R229, R230). TBAR's last arrival gives the followers of the team's open ONEs their results. Where a
follower's frame is covered and its window lies in the spill region, that fill is a write of memory. -/

namespace Sys2Proof.Machine

/-! ### TBARQ, CARVE and ALIGN -/

theorem wake_vdev (s : State) (srcs : List XReg) (dst : XReg) : (s.wake srcs dst).me.vdev = s.me.vdev :=
  (congrArg Core.vdev (State.Beneath.wake s srcs dst).me :)

section Align

variable {s : State} (hc : s.clear false [] 0 = true)
include hc

/-- ALIGN's condition, on the members by their cluster core numbers. -/
theorem exec_align_of_clear : exec .align s = .next (
    let w := s.wake [] 0
    let inst := s.me.alignN + 1
    let since := s.me.alignAt.getD w.now
    if (maskCores s.me.csr.team.toNat).all (fun i => decide (8 * clusterOf s.cur + i = s.cur) ||
        decide (inst ≤ (w.core (8 * clusterOf s.cur + i)).aligned)) || w.passed s.cur since 255 then
      (w.onMe (fun c => { c with alignN := inst })).retire 1
    else (w.onMe (fun c => { c with alignAt := some since })).stall .align) := by
  obtain ⟨b, hme⟩ := wake_me s [] 0
  refine exec_of_run (exec_align s) hc (by simp) ?_
  simp only [wake_cur, hme, List.all_map]
  rfl

end Align

/-- Settles O28: the arrivals as the cluster holds them, the request by its word, and ALIGN by the members and the wait. -/
theorem teamQueriesCarveOutRequestsAndAlign : Obligations.TeamQueriesCarveOutRequestsAndAlign := by
  intro s rd rs1 e1 k team pc4
  refine ⟨fun hc => ?arrivals, fun hc => ⟨fun hw => ?records, fun hw => ?illegal⟩,
    fun hc => ⟨fun hgo => ?aligned, fun hall hlate => ?waits⟩⟩
  case arrivals =>
    refine completesIn_of_retire (exec_tbarq ..) hc (by simp) ?_ (by simp)
    simp only [wake_cur, wake_csr, wake_vdev]
    rfl
  case records =>
    obtain ⟨r, hr⟩ := Option.isSome_iff_exists.1 hw
    refine completesIn_of_retire (exec_carve ..) hc eSrc_mem ?_ (onMe_wake_pc fun _ => rfl)
    simp only [wake_x, hr]
  case illegal =>
    refine exec_of_run (exec_carve ..) hc eSrc_mem ?_
    simp only [wake_x, hw]
    rfl
  case aligned =>
    exact completes_of_next ((exec_align_of_clear hc).trans (congrArg _ (if_pos (Bool.or_eq_true_iff.2 hgo))))
      (onMe_wake_pc fun _ => rfl)
  case waits =>
    have hstays := ne_true_of_eq_false (Bool.or_eq_false_iff.2 ⟨hall, hlate⟩)
    exact (exec_align_of_clear hc).trans (congrArg _ (if_neg hstays))

/-! ### A team barrier over a covered follower (R45, R59, R226) -/

/-- A frame of core 1 that waits for ONE's result in x1, its window in the spill region. -/
def coveredFollower : Frame := { Frame.idle 0 with level := 1, fid := 5, full := ~~~2#32, win := .l2 }

/-- The ONE whose result that frame waits for. -/
def followedOne : OneInst := { Tests.knownOne with team := 3, vdev := 0, result := some (1, false), follow := [(1, 5, 1)] }

/-- Core 0 about to arrive last of a team of two; core 1 has arrived, with a follower of the team's ONE beneath its frame. -/
def lastArrival : State :=
  ((Tests.arriving 3 [1]).setCore 1 { Core.reset 1 with on := true, under := [coveredFollower] }).onCluster 0
    (fun c => { c with ones := [followedOne] })

/-- The byte of the spill region that holds the low byte of the follower's x1. -/
def followerByte : Nat := lastArrival.windowAt 1 1 + 8

theorem tbar_fills_covered_register :
    reaches (exec .tbar lastArrival) (fun t => t.readByte followerByte == 1) = true := by decide +kernel

/-- Refutes O27: the last arrival at `lastArrival` has no successor, and its barrier writes the covered follower's x1 in the
spill region. -/
theorem not_teamBarriersCompleteWithTheLastArrival : ¬ Obligations.TeamBarriersCompleteWithTheLastArrival := by
  unfold Obligations.TeamBarriersCompleteWithTheLastArrival
  intro h
  obtain ⟨-, -, last⟩ := h lastArrival (by decide +kernel) (by decide +kernel) (by decide +kernel)
  obtain ⟨t, ht, -, hmem, -⟩ := last (by decide +kernel) (by decide +kernel)
  have hfilled : t.readByte followerByte = 1 := beq_iff_eq.1 (of_reaches tbar_fills_covered_register ht)
  have hkept : t.readByte followerByte = 0 := (hmem (by decide +kernel) followerByte).trans (by decide +kernel)
  exact absurd (hfilled.symm.trans hkept) (by decide)

end Sys2Proof.Machine

/-! PROOFS. Gang barriers (R212, R228, R327, R328): GBAR's descriptor and endpoint-table entries, the arrival that it opens
where its barrier has no entry, and the rounds of a gang of one and of two. -/

namespace Sys2Proof.Machine

/-- A record that an instruction has read leaves the cores' own part. -/
theorem beneath_recordAt {s t : State} {va : Nat} {l : List Byte} (h : s.recordAt va = (.data l, t)) : s.Beneath t := by
  unfold State.recordAt at h
  split at h
  · exact beneath_fetchData h
  · cases h

/-! ### The rounds of an arrival (R327, R328) -/

/-- An arrival with one more round sent. -/
def GBar.sentNext (g : GBar) : GBar := { g with sent := g.sent + 1 }

/-- The state in which an arrival has sent its next round. -/
def State.sentRound (s : State) (ep bid : Nat) (g : GBar) : State :=
  (s.sendNotice ep g.vdev g.gen (g.peers.getD g.sent 0) (.bar bid g.sent)).onCore ep (fun c => { c with
    gbars := c.gbars.map (fun h => if h.bid == bid then h.sentNext else h) })

/-- The state in which a barrier's entry is free. -/
def State.freedGbar (s : State) (ep bid : Nat) : State :=
  s.onCore ep (fun c => { c with gbars := c.gbars.filter (fun h => !(h.bid == bid)) })

theorem onlyX_sentRound {rd : XReg} (t : State) (ep bid : Nat) (g : GBar) : t.OnlyX rd (t.sentRound ep bid g) := by
  unfold State.sentRound State.sendNotice
  exact (State.OnlyX.send ..).trans (.onCore (fun _ => rfl) (fun _ => rfl) (fun _ => rfl) fun _ => rfl)

theorem onlyX_freedGbar {rd : XReg} (t : State) (ep bid : Nat) : t.OnlyX rd (t.freedGbar ep bid) :=
  .onCore (fun _ => rfl) (fun _ => rfl) (fun _ => rfl) fun _ => rfl

theorem freedGbar_gbars (t : State) (ep bid : Nat) :
    ((t.freedGbar ep bid).core ep).gbars = (t.core ep).gbars.filter (fun h => !(h.bid == bid)) := by
  rw [State.freedGbar, onCore_core]

section Rounds

variable {s : State} {ep bid : Nat} {g : GBar}
  (hfind : (s.core ep).gbars.find? (fun g => g.bid == bid && g.opened) = some g)
include hfind

theorem gbarAdvance_first (fuel : Nat) (hsent : g.sent = 0) (hr : 0 < rounds g.n) :
    s.gbarAdvance ep bid (fuel + 1) = (s.sentRound ep bid g).gbarAdvance ep bid fuel := by
  simp only [State.gbarAdvance, hfind, hsent, hr]
  rw [State.sentRound, hsent]
  rfl

theorem gbarAdvance_all_sent (fuel : Nat) (hsent : rounds g.n ≤ g.sent) : s.gbarAdvance ep bid fuel = s := by
  cases fuel with
  | zero => rfl
  | succ fuel => simp [State.gbarAdvance, hfind, Nat.not_lt.2 hsent]

/-- An arrival that has received no round of some stands. -/
theorem gbarTry_waits (hr : 0 < rounds g.n) (hrcvd : g.rcvd = 0) (habort : g.aborted = false) : s.gbarTry ep bid = s := by
  have hlacks : (List.range (rounds g.n)).all (fun k => g.rcvd.getLsbD k) = false :=
    List.all_eq_false.2 ⟨0, List.mem_range.2 hr, by simp [hrcvd]⟩
  simp [State.gbarTry, hfind, hlacks, habort]

/-- An arrival of no rounds, with no notice held and no successor, is freed. -/
theorem gbarTry_no_rounds (hr : rounds g.n = 0) (hsent : g.sent = 0) (hheld : g.held = []) (hsucc : g.succ = none) :
    s.gbarTry ep bid = s.freedGbar ep bid := by
  simp [State.gbarTry, hfind, hr, hsent, hheld, hsucc, State.freedGbar]

end Rounds

/-! ### The arrival that a GBAR opens (R228, R328) -/

/-- The arrival of a barrier without an entry. -/
def State.newGbar (s : State) (n i bid : Nat) (peers : List Nat) : GBar :=
  { bid := bid, opened := true, n := n, i := i, peers := peers, sent := 0, rcvd := 0, aborted := false, held := [],
    succ := none, hasSucc := false, vdev := s.me.vdev, gen := s.me.gen }

/-- The state whose core has released and holds that arrival. -/
def State.withGbar (s : State) (g : GBar) : State :=
  (s.release s.cur).onMe (fun c => { c with gbars := c.gbars ++ [g] })

theorem openGbar_of_none_held {g : GBar} (h : g.held = []) : openGbar g = g := by
  unfold openGbar
  rw [h, takeFirst]
  refine List.foldlRecOn (motive := (· = g)) _ _ rfl fun b hb k _ => ?_
  rw [hb, h]
  rfl

theorem release_gbars (s : State) : (s.release s.cur).me.gbars = s.me.gbars := by
  obtain ⟨p, eg, h⟩ := release_published s s.cur
  have hcore : ((s.release s.cur).core s.cur).gbars = s.me.gbars := by
    rw [h, published_core]
    rfl
  have hcur : (s.release s.cur).cur = s.cur := by
    rw [h]
    rfl
  rwa [State.me, hcur]

theorem onlyX_withGbar (s : State) (g : GBar) : s.OnlyX 0 (s.withGbar g) := by
  obtain ⟨p, eg, h⟩ := release_published s s.cur
  unfold State.withGbar
  refine .trans (u := s.release s.cur) (h ▸ onlyX_published ..) ?_
  exact .onMe rfl fun _ _ => rfl

theorem retireCk_gbars (v : State) (cost : Nat) : (v.retireCk cost).me.gbars = v.me.gbars := by
  obtain ⟨ck, pub, dq, parked, hown⟩ := ckCycle_own (v.retire cost)
  rw [retireCk_eq]
  exact (congrArg Core.gbars hown :).trans (congrArg Core.gbars (Retires.me_eq (retire_retires v cost)) :)

/-- The arrival stands last among the core's entries once the instruction has retired. -/
theorem withGbar_retired_gbars (s : State) (g : GBar) (cost : Nat) :
    (((s.withGbar g).retireCk cost).core s.cur).gbars = s.me.gbars ++ [g] := by
  have hcur : ((s.withGbar g).retireCk cost).cur = s.cur := (retiredCk ..).cur.trans (onlyX_withGbar s g).cur
  have h := retireCk_gbars (s.withGbar g) cost
  rwa [State.me, hcur, State.withGbar, onMe_me, release_gbars] at h

section Fresh

variable {s : State} {bid : Nat} (hfresh : s.me.gbars.all (fun g => !(g.bid == bid)) = true)
include hfresh

theorem bid_ne_of_fresh : ∀ g ∈ s.me.gbars, (g.bid == bid) = false := fun g hg => by
  simpa using List.all_eq_true.1 hfresh g hg

theorem filter_fresh : s.me.gbars.filter (fun g => !(g.bid == bid)) = s.me.gbars :=
  List.filter_eq_self.2 (List.all_eq_true.1 hfresh)

theorem opened_of_fresh : s.me.gbars.any (fun g => g.bid == bid && g.opened) = false :=
  List.any_eq_false.2 fun g hg => by simp [bid_ne_of_fresh hfresh g hg]

/-- Behind entries of other barriers, an open arrival is the one that its BID finds. -/
theorem find?_arrival {g : GBar} (hbid : g.bid = bid) (hopened : g.opened = true) :
    (s.me.gbars ++ [g]).find? (fun g => g.bid == bid && g.opened) = some g := by
  have hnone : s.me.gbars.find? (fun g => g.bid == bid && g.opened) = none :=
    List.find?_eq_none.2 fun g hg => by simp [bid_ne_of_fresh hfresh g hg]
  simp [hnone, hbid, hopened]

/-- A round sent counts in the arrival's entry alone. -/
theorem sentRound_gbars {t : State} {ep : Nat} {g h : GBar} (ht : (t.core ep).gbars = s.me.gbars ++ [g])
    (hbid : g.bid = bid) :
    ((t.sentRound ep bid h).core ep).gbars = s.me.gbars ++ [g.sentNext] := by
  have hothers : s.me.gbars.map (fun h => if h.bid == bid then h.sentNext else h) = s.me.gbars :=
    (List.map_congr_left (g := id) fun g hg => by simp [bid_ne_of_fresh hfresh g hg]).trans (List.map_id _)
  have hsent : ((t.sentRound ep bid h).core ep).gbars =
      (t.core ep).gbars.map (fun h => if h.bid == bid then h.sentNext else h) := by
    rw [State.sentRound, onCore_core]
    rfl
  rw [hsent, ht, List.map_append, hothers, List.map_singleton, if_pos (by simpa using hbid)]

/-- A GBAR without an entry opens an arrival, retires, and sends what it may. -/
theorem gbarArrive_fresh (n i : Nat) (peers : List Nat) : s.gbarArrive n i bid peers none =
    (((s.withGbar (s.newGbar n i bid peers)).retireCk 4).gbarAdvance s.cur bid 17).gbarTry s.cur bid := by
  have hnone : s.me.gbars.find? (fun g => g.bid == bid) = none :=
    List.find?_eq_none.2 fun g hg => by simp [bid_ne_of_fresh hfresh g hg]
  have hkept : (s.release s.cur).me.gbars.filter (fun h => !(h.bid == bid)) = (s.release s.cur).me.gbars := by
    rw [release_gbars, filter_fresh hfresh]
  have hadd : (s.release s.cur).onMe (fun c => { c with
      gbars := c.gbars.filter (fun h => !(h.bid == bid)) ++ [s.newGbar n i bid peers] }) =
      s.withGbar (s.newGbar n i bid peers) :=
    congrArg (fun l => (s.release s.cur).onMe (fun c => { c with gbars := l ++ [s.newGbar n i bid peers] })) hkept
  simp only [State.gbarArrive, hnone, openGbar_of_none_held]
  exact congrArg (fun z => ((State.retireCk z 4).gbarAdvance s.cur bid 17).gbarTry s.cur bid) hadd

/-- A gang of one is done with its arrival, and leaves no entry. -/
theorem gbarArrive_one (i : Nat) (peers : List Nat) : s.gbarArrive 1 i bid peers none =
    ((s.withGbar (s.newGbar 1 i bid peers)).retireCk 4).freedGbar s.cur bid := by
  have hfind := find?_arrival hfresh (g := s.newGbar 1 i bid peers) rfl rfl
  rw [← withGbar_retired_gbars s _ 4] at hfind
  have hrounds : rounds 1 = 0 := rfl
  rw [gbarArrive_fresh hfresh, gbarAdvance_all_sent hfind 17 hrounds.le, gbarTry_no_rounds hfind hrounds rfl rfl rfl]

/-- A gang of two sends its one round and waits for its peer's. -/
theorem gbarArrive_two (i : Nat) (peers : List Nat) : s.gbarArrive 2 i bid peers none =
    ((s.withGbar (s.newGbar 2 i bid peers)).retireCk 4).sentRound s.cur bid (s.newGbar 2 i bid peers) := by
  have hgbars := withGbar_retired_gbars s (s.newGbar 2 i bid peers) 4
  have hfind := find?_arrival hfresh (g := s.newGbar 2 i bid peers) rfl rfl
  have hfind1 := find?_arrival hfresh (g := (s.newGbar 2 i bid peers).sentNext) rfl rfl
  rw [← hgbars] at hfind
  rw [← sentRound_gbars hfresh hgbars rfl] at hfind1
  have hrounds : rounds 2 = 1 := rfl
  rw [gbarArrive_fresh hfresh, gbarAdvance_first hfind 16 rfl (hrounds ▸ Nat.one_pos),
    gbarAdvance_all_sent hfind1 16 hrounds.le, gbarTry_waits hfind1 (hrounds ▸ Nat.one_pos) rfl rfl]

end Fresh

/-! ### GBAR's operands (R212, R228) -/

/-- GBAR once its endpoint-table entries are read: their permissions, the limit of R142 and room for its entry. -/
def State.gbarChecked (v : State) (n i bid : Nat) (peers : List Nat) : State :=
  match peers.find? (fun d => !v.permits v.cur d) with
  | some d => v.trap 11 (BitVec.ofNat 64 d)
  | none =>
  if v.me.pub.exhausted then v.trap 24 (BitVec.ofNat 64 v.me.pub.lseq)
  else if decide (64 ≤ v.me.gbarCount) && !v.me.gbars.any (fun g => g.bid == bid) then v.stall .barrier
  else v.withSucc (fun r w => w.gbarArrive n i bid peers r)

theorem withSucc_unarmed {s : State} {k : Option TaskRec → State → State} (h : s.frame.succ.getLsbD 0 = false) :
    s.withSucc k = k none s := if_neg (ne_true_of_eq_false h)

theorem gbarChecked_arrives {v : State} {n i bid : Nat} {peers : List Nat}
    (hpeers : ∀ d ∈ peers, v.permits v.cur d = true) (hroom : v.me.gbarCount < 64) (hlimit : v.me.pub.exhausted = false)
    (hsucc : v.frame.succ.getLsbD 0 = false) : v.gbarChecked n i bid peers = v.gbarArrive n i bid peers none := by
  have hpass : peers.find? (fun d => !v.permits v.cur d) = none :=
    List.find?_eq_none.2 fun d hd => by simp [hpeers d hd]
  simp only [State.gbarChecked, hpass, hlimit, decide_eq_false (Nat.not_le.2 hroom), withSucc_unarmed hsucc,
    Bool.false_and, Bool.false_eq_true, if_false]

section Gbar

variable {s u : State} {rs1 : XReg} {e1 : BitVec 1} {bs : List Byte} (hc : s.clear false [rs1] 0 = true)
  (hrec : (s.wake [rs1] 0).recordAt (s.x rs1).toNat = (.data bs, u))
include hc hrec

theorem gbar_malformed (h : natAt bs 0 2 = 0 ∨ natAt bs 0 2 ≤ natAt bs 2 2 ∨ (bs.drop 16).any (fun b => !(b == 0)) = true ∨
      u.me.gbars.any (fun g => g.bid == natAt bs 4 4 && g.opened) = true) :
    exec (.gbar rs1 e1) s = .next (u.trap 12 (BitVec.ofNat 64 (natAt bs 4 4))) := by
  refine exec_of_run (exec_gbar ..) hc eSrc_mem ?_
  rw [wake_x, withData_data hrec]
  exact if_pos h

variable (hi : natAt bs 2 2 < natAt bs 0 2) (hzero : (bs.drop 16).any (fun b => !(b == 0)) = false)
  (hopened : u.me.gbars.any (fun g => g.bid == natAt bs 4 4 && g.opened) = false)
include hi hzero hopened

/-- A clean descriptor: the entries of the members notified are read. -/
theorem gbar_reads_peers : exec (.gbar rs1 e1) s = .next (
    gbarPeers u (wordAt bs 8) (natAt bs 0 2) (natAt bs 2 2) (List.range (rounds (natAt bs 0 2))) []
      (fun peers v => v.gbarChecked (natAt bs 0 2) (natAt bs 2 2) (natAt bs 4 4) peers)) := by
  refine exec_of_run (exec_gbar ..) hc eSrc_mem ?_
  rw [wake_x, withData_data hrec]
  refine (if_neg ?_).trans rfl
  rintro (h | h | h | h)
  · omega
  · omega
  · exact ne_true_of_eq_false hzero h
  · exact ne_true_of_eq_false hopened h

theorem gbar_one (hn : natAt bs 0 2 = 1) :
    exec (.gbar rs1 e1) s = .next (u.gbarChecked 1 (natAt bs 2 2) (natAt bs 4 4) []) := by
  rw [gbar_reads_peers hc hrec hi hzero hopened, hn]
  rfl

/-- A gang of two reads the one entry of its peer. -/
theorem gbar_two {d : List Byte} {v : State} (hn : natAt bs 0 2 = 2)
    (ha : (wordAt bs 8 + BitVec.ofNat 64 (4 * ((natAt bs 2 2 + 1) % 2))).toNat % 4 = 0)
    (hd : u.fetchData (wordAt bs 8 + BitVec.ofNat 64 (4 * ((natAt bs 2 2 + 1) % 2))).toNat 4 true = (.data d, v)) :
    exec (.gbar rs1 e1) s = .next (v.gbarChecked 2 (natAt bs 2 2) (natAt bs 4 4) [leNat d]) := by
  have hrange : List.range (rounds 2) = [0] := rfl
  rw [gbar_reads_peers hc hrec hi hzero hopened, hn, hrange, gbarPeers]
  exact congrArg _ ((if_neg (not_not.2 ha)).trans ((withData_data hd).trans rfl))

end Gbar

/-- What a GBAR leaves that has opened its arrival: the retired state and what its rounds change of the core's entries. -/
theorem gbar_goneOn {s v t : State} {g : GBar} (hb : s.Beneath v) (ho : ((v.withGbar g).retireCk 4).OnlyX 0 t) :
    s.goneOn t 4 1 ∧ s.keepsFrom v t 0 := by
  obtain ⟨hgone, hkeeps⟩ := (retiredCk (v.withGbar g) 4).goneOn_keepsFrom hb (onlyX_withGbar v g)
  exact ⟨ho.goneOn hgone, ho.keepsFrom hkeeps⟩

/-- Settles O29: a malformed descriptor by the first check, a gang of one and of two by the arrival that they open. -/
theorem gangBarriersNotifyTheirPeers : Obligations.GangBarriersNotifyTheirPeers := by
  intro s rs1 e1 bs u hc hrec n i bid bad opened fresh
  have hu : s.Beneath u := (State.Beneath.wake s [rs1] 0).trans (beneath_recordAt hrec)
  refine ⟨gbar_malformed hc hrec, fun hn hi hbad hfresh hroom hlimit hsucc => ?one,
    fun d v hn hi hbad ha hd hperm hfresh hroom hlimit hsucc => ?two⟩
  case one =>
    have hexec := gbar_one (e1 := e1) hc hrec (by omega) hbad (opened_of_fresh hfresh) hn
    rw [gbarChecked_arrives (by simp) hroom hlimit hsucc, gbarArrive_one hfresh] at hexec
    have hgbars := withGbar_retired_gbars u (u.newGbar 1 i bid []) 4
    obtain ⟨hgone, hkeeps⟩ := gbar_goneOn hu (onlyX_freedGbar ((u.withGbar (u.newGbar 1 i bid [])).retireCk 4) u.cur bid)
    refine ⟨_, hexec, hgone, hkeeps, ?_⟩
    rw [State.me, hgone.1, ← hu.cur, freedGbar_gbars, hgbars, List.filter_append, filter_fresh hfresh]
    simp [State.newGbar, State.me]
  case two =>
    have hv : s.Beneath v := hu.trans (beneath_fetchData hd)
    have hopened' : u.me.gbars = v.me.gbars := (congrArg Core.gbars (beneath_fetchData hd).me.symm :)
    have hexec := gbar_two (e1 := e1) hc hrec (by omega) hbad (by rw [hopened']; exact opened_of_fresh hfresh) hn ha hd
    rw [gbarChecked_arrives (by simpa using hperm) hroom hlimit hsucc, gbarArrive_two hfresh] at hexec
    have hgbars := sentRound_gbars (h := v.newGbar 2 i bid [leNat d]) hfresh
      (withGbar_retired_gbars v (v.newGbar 2 i bid [leNat d]) 4) rfl
    obtain ⟨hgone, hkeeps⟩ := gbar_goneOn (g := v.newGbar 2 i bid [leNat d]) hv
      (onlyX_sentRound _ v.cur bid (v.newGbar 2 i bid [leNat d]))
    refine ⟨_, hexec, hgone, hkeeps, ?notice, ?arrival⟩
    case notice =>
      obtain ⟨p, hp, -, hdst, hcls, hbody⟩ := mem_egress_send ((v.withGbar (v.newGbar 2 i bid [leNat d])).retireCk 4) _
      exact ⟨p, hp, hdst, hcls, hbody⟩
    case arrival =>
      refine ⟨(v.newGbar 2 i bid [leNat d]).sentNext, ?_, rfl, rfl, rfl, rfl⟩
      rw [State.me, hgone.1, ← hv.cur, hgbars]
      exact List.mem_append_right _ (List.mem_singleton_self _)

end Sys2Proof.Machine

/-! PROOFS. Kiln commands at the core (R252, R256, R257, R260, R263 to R274, R277, R281, R292): a command with nothing in its
way makes its own checks, and one that passes them stands at the tail of the dispatch queue. -/

namespace Sys2Proof.Machine

/-! ### A kiln instruction with nothing in its way (R252, R417) -/

/-- The gates before the registers let a clear instruction pass. -/
theorem gates_of_clear {s : State} {i : Instr} {srcs : List XReg} {dst : XReg}
    (h : s.clear (isPrefixed i) srcs dst = true) :
    s.startGate = .go s ∧ s.checker = .go s ∧ s.fetchGate i = .go s := by
  simp only [State.clear, Bool.and_eq_true, beq_iff_eq, Bool.not_eq_true', Option.isNone_iff_eq_none] at h
  obtain ⟨⟨⟨⟨⟨⟨hacq, hup⟩, hbr⟩, hpp⟩, -⟩, -⟩, -⟩ := h
  exact ⟨by simp [State.startGate, hacq], by simp [State.checker, hup], by simp [State.fetchGate, hbr, hpp]⟩

theorem kilnClear_iff {s : State} {i : Instr} {srcs : List XReg} :
    s.kilnClear i srcs = true ↔ s.clear (isPrefixed i) srcs 0 = true ∧ s.me.dq.length < 8 := by
  rw [State.kilnClear, Bool.and_eq_true, decide_eq_true_eq]

/-- With room in the queue, a clear kiln instruction runs as any other does. -/
theorem runKiln_clear {s : State} {i : Instr} {srcs : List XReg} {k : State → State}
    (h : s.kilnClear i srcs = true) : s.runKiln i srcs k = .next (k (s.wake srcs 0)) := by
  obtain ⟨hclear, hroom⟩ := kilnClear_iff.1 h
  obtain ⟨hstart, hcheck, hfetch⟩ := gates_of_clear hclear
  have hrun : s.run i srcs [] 0 k = .next (k (s.wake srcs 0)) := run_clear hclear (by simp)
  simp only [State.run, State.begin, hstart, hcheck, hfetch] at hrun
  simp only [State.runKiln, hstart, hcheck, hfetch, Nat.not_le.2 hroom, if_false]
  exact hrun

theorem exec_of_runKiln {s t : State} {i : Instr} {srcs : List XReg} {k : State → State}
    (hc : s.kilnClear i srcs = true) (he : exec i s = s.runKiln i srcs k) (hk : k (s.wake srcs 0) = t) :
    exec i s = .next t := by
  rw [he, runKiln_clear hc, hk]

/-! ### The entry (R252) -/

/-- The command of an instruction that takes no successor, as it enters the queue. -/
def State.kilnCmd (s : State) (i : Instr) (x : Word) (ep off target : Nat) : KCmd :=
  { kseq := s.me.kseq, level := s.frame.level, fid := s.frame.fid, ins := i, nxr := s.frame.nxr, f1 := s.frame.code1,
    f2 := s.frame.code2, x := x, ep := ep, off := off, target := target, entered := s.after s.cur (s.me.time 1),
    old := false, pc := s.frame.pc, succ := none }

/-- The state with a command at the tail of the current core's queue. -/
def State.withCmd (s : State) (c : KCmd) : State := s.onMe fun d => { d with kseq := d.kseq + 1, dq := d.dq ++ [c] }

/-- The pending FMT codes used up by an instruction that takes them (R173). -/
def State.usePrefix (s : State) (i : Instr) : State :=
  if isPrefixed i then s.onFrame (fun f => { f with pp := false, pfmt := 0 }) else s

theorem enterKiln_eq_retire (s : State) (i : Instr) (x : Word) (ep off target : Nat) :
    s.enterKiln i x ep off target = ((s.withCmd (s.kilnCmd i x ep off target)).usePrefix i).retire 1 := rfl

@[simp] theorem withCmd_me (s : State) (c : KCmd) :
    (s.withCmd c).me = { s.me with kseq := s.me.kseq + 1, dq := s.me.dq ++ [c] } := onMe_me ..

theorem usePrefix_dq_sets (s : State) (i : Instr) :
    (s.usePrefix i).me.dq = s.me.dq ∧ (s.usePrefix i).me.sets = s.me.sets := by
  unfold State.usePrefix
  split <;> simp

/-- TSTAT.PP is clear behind an instruction that found it as it needs it. -/
theorem usePrefix_pp {s : State} {i : Instr} (h : s.frame.pp = isPrefixed i) : (s.usePrefix i).frame.pp = false := by
  unfold State.usePrefix
  split
  · simp
  · next hi => exact h.trans (Bool.eq_false_of_not_eq_true hi)

theorem onlyX_withCmd (s : State) (c : KCmd) : s.OnlyX 0 (s.withCmd c) := .onMe rfl fun _ _ => rfl

theorem onlyX_usePrefix (s : State) (i : Instr) : s.OnlyX 0 (s.usePrefix i) := by
  unfold State.usePrefix State.onFrame
  exact .ite (.onMe rfl fun _ _ => rfl) (.refl s)

theorem pp_of_clear {s : State} {pp : Bool} {srcs : List XReg} {dst : XReg} (h : s.clear pp srcs dst = true) :
    s.frame.pp = pp := by
  simp only [State.clear, Bool.and_eq_true, beq_iff_eq] at h
  obtain ⟨⟨⟨⟨-, hpp⟩, -⟩, -⟩, -⟩ := h
  exact hpp

theorem wake_dq_sets (s : State) (srcs : List XReg) (dst : XReg) :
    (s.wake srcs dst).me.dq = s.me.dq ∧ (s.wake srcs dst).me.sets = s.me.sets := by
  obtain ⟨b, h⟩ := wake_me s srcs dst
  rw [h]
  exact ⟨rfl, rfl⟩

/-- What keeps the registers and memory of the state with its banks awake keeps those of the state. -/
theorem keepsBut_of_wake {s t : State} {srcs : List XReg} (h : s.keepsFrom (s.wake srcs 0) t 0) : s.keepsBut t 0 := h

/-- An instruction that ends in the entry of its command. -/
theorem entersKiln_of_enterKiln {s : State} {i : Instr} {srcs : List XReg} {x : Word} {ep off target : Nat}
    (hc : s.kilnClear i srcs = true) (he : exec i s = .next ((s.wake srcs 0).enterKiln i x ep off target)) :
    s.entersKiln i x := by
  have hpp : s.frame.pp = isPrefixed i := pp_of_clear (kilnClear_iff.1 hc).1
  obtain ⟨hdq, hsets⟩ := wake_dq_sets s srcs 0
  rw [enterKiln_eq_retire] at he
  have hframe : (s.wake srcs 0).frame = s.frame := wake_frame s srcs 0
  have hbeneath : s.Beneath (s.wake srcs 0) := .wake s srcs 0
  have hkept : ∀ t, s.keepsFrom (s.wake srcs 0) t 0 → s.keepsBut t 0 := fun t => keepsBut_of_wake
  generalize s.wake srcs 0 = w at *
  have hret := retire_retires ((w.withCmd (w.kilnCmd i x ep off target)).usePrefix i) 1
  obtain ⟨hgone, hkeeps⟩ := State.OnlyX.goneOn_keepsFrom hbeneath
    ((onlyX_withCmd w (w.kilnCmd i x ep off target)).trans (onlyX_usePrefix _ i)) hret
  refine ⟨_, w.kilnCmd i x ep off target, he, hgone, hkept _ hkeeps, ?queue, ?sets, ?pending, rfl, ?level, ?nxr, ?f1,
    ?f2, rfl, rfl⟩
  case queue => rw [Retires.me_eq hret, (usePrefix_dq_sets ..).1, withCmd_me, hdq]
  case sets => rw [Retires.me_eq hret, (usePrefix_dq_sets ..).2, withCmd_me, hsets]
  case pending =>
    rw [Retires.frame_eq hret]
    exact usePrefix_pp (by rw [State.frame, withCmd_me, ← hpp, ← hframe]; rfl)
  all_goals simp only [State.kilnCmd, hframe]

/-! ### Commands without a check, and floating commands (R257) -/

section Entry

variable {s : State} {i : Instr} {srcs : List XReg}

theorem plainKiln_enters {x : Word} (hc : s.kilnClear i srcs = true)
    (he : exec i s = .next ((s.wake srcs 0).plainKiln i x)) : s.entersKiln i x := entersKiln_of_enterKiln hc he

theorem plain_enters (he : exec i s = s.runKiln i [] fun t => t.plainKiln i 0) (hc : s.kilnClear i [] = true) :
    s.entersKiln i 0 := entersKiln_of_enterKiln hc (exec_of_runKiln hc he rfl)

/-- A command that captures the value of xs. -/
theorem plainX_enters {xs : XReg} (he : exec i s = s.runKiln i [xs] fun t => t.plainKiln i (t.x xs))
    (hc : s.kilnClear i [xs] = true) : s.entersKiln i (s.x xs) :=
  plainKiln_enters hc (exec_of_runKiln hc he (by rw [wake_x]))

/-- A command with a check of its own enters the queue or is illegal. -/
theorem checked_enters {x : Word} {ok : Bool} {bad : State → Prop} {dec : DecidablePred bad} {f : State → Word}
    (he : exec i s = s.runKiln i srcs fun t => if bad t then t.illegal i else t.plainKiln i (f t))
    (hbad : bad (s.wake srcs 0) ↔ ok = false) (hf : f (s.wake srcs 0) = x) (hc : s.kilnClear i srcs = true) :
    (ok = true → s.entersKiln i x) ∧ (ok = false → exec i s = .next ((s.wake srcs 0).trap 1 (wordOf i))) := by
  refine ⟨fun hok => plainKiln_enters hc (exec_of_runKiln hc he ?_), fun hok => exec_of_runKiln hc he ?_⟩
  · rw [if_neg fun h => Bool.noConfusion (hok.symm.trans (hbad.1 h)), hf]
  · rw [if_pos (hbad.2 hok), State.illegal]

/-- As `checked_enters`, for a command that captures no register. -/
theorem check_enters {ok : Bool} {bad : State → Prop} {dec : DecidablePred bad}
    (he : exec i s = s.runKiln i srcs fun t => if bad t then t.illegal i else t.plainKiln i 0)
    (hbad : bad (s.wake srcs 0) ↔ ok = false) (hc : s.kilnClear i srcs = true) :
    (ok = true → s.entersKiln i 0) ∧ (ok = false → exec i s = .next ((s.wake srcs 0).trap 1 (wordOf i))) :=
  checked_enters (f := fun _ => 0) he hbad rfl hc

/-- A floating command enters the queue but for a pending code that is no floating format's. -/
theorem float_enters {sz : BitVec 2} (he : exec i s = s.runKiln i [] fun t => t.floatKiln i sz)
    (hc : s.kilnClear i [] = true) : ((sz ≠ 3 ∨ s.frame.code1 ≤ 2) → s.entersKiln i 0) ∧
      (sz = 3 → 2 < s.frame.code1 → exec i s = .next ((s.wake [] 0).trap 1 (wordOf i))) := by
  obtain ⟨henters, hillegal⟩ := check_enters (ok := decide (sz ≠ 3 ∨ s.frame.code1 ≤ 2)) he
    (by rw [wake_frame, decide_eq_false_iff_not]; simp [floatCode]) hc
  exact ⟨fun h => henters (decide_eq_true h),
    fun hsz hcode => hillegal (decide_eq_false (by rintro (h | h); exacts [h hsz, Nat.not_le.2 hcode h]))⟩

end Entry

/-- Settles O40: each command by the lemma on the entries that make its check, or none. -/
theorem kilnCommandsEnterTheQueue : Obligations.KilnCommandsEnterTheQueue := by
  refine ⟨fun s vd vs1 vs2 xs sz n => ?plain, fun s vd vs1 vs2 sz code => ?float⟩
  case plain =>
    exact ⟨plainX_enters (exec_vspl ..), plain_enters (exec_vmv ..), plainX_enters (exec_vlane ..),
      plain_enters (exec_viadd ..), plain_enters (exec_visub ..), plain_enters (exec_vimul ..),
      plain_enters (exec_vand ..), plain_enters (exec_vor ..), plain_enters (exec_vxor ..),
      plain_enters (exec_vshl ..), plain_enters (exec_vshr ..), plain_enters (exec_vsra ..),
      plain_enters (exec_viadds ..), plain_enters (exec_vsel ..), plain_enters (exec_vperm ..),
      plainX_enters (exec_vrot ..), plain_enters (exec_vseed ..), plain_enters (exec_lease ..),
      plain_enters (exec_unlease ..), plain_enters (exec_kzero ..), plain_enters (exec_krow ..),
      plain_enters (exec_kputrow ..)⟩
  case float =>
    exact ⟨float_enters (exec_vadd ..), float_enters (exec_vsub ..), float_enters (exec_vmul ..),
      float_enters (exec_vfma ..), float_enters (exec_vmax ..), float_enters (exec_vmin ..),
      float_enters (exec_vabs ..), float_enters (exec_vneg ..), float_enters (exec_vcmpeq ..),
      float_enters (exec_vcmplt ..), float_enters (exec_vcmple ..), float_enters (exec_vsum ..),
      float_enters (exec_vrmax ..), float_enters (exec_vrmin ..), float_enters (exec_vexp2 ..),
      float_enters (exec_vrcp ..), float_enters (exec_vrsq ..), float_enters (exec_vlog2 ..)⟩

/-! ### Queues and conversions (R256, R267, R268, R277) -/

theorem wake_queued (s : State) (srcs : List XReg) (dst : XReg) (ep lvl : Nat) (p : KCmd → Bool) :
    (s.wake srcs dst).queued ep lvl p = s.queued ep lvl p := by
  obtain ⟨b, h⟩ := wake_core s srcs dst ep
  rw [State.queued, h]
  rfl

theorem wake_pushFull (s : State) (srcs : List XReg) (dst : XReg) (q : Nat) :
    (s.wake srcs dst).pushFull q = s.pushFull q := by
  obtain ⟨b, hb⟩ := wake_me s srcs dst
  have hflight : ∀ p, (s.wake srcs dst).inFlight s.cur s.me.run.level p = s.inFlight s.cur s.me.run.level p := fun _ => rfl
  simp only [State.pushFull, wake_kset, wake_cur, wake_queued, hb, hflight]

/-- A full queue makes its command illegal. -/
theorem wake_pushFull_iff {s : State} {srcs : List XReg} {q : Nat} :
    (s.wake srcs 0).pushFull q = true ↔ (!s.pushFull q) = false := by
  rw [wake_pushFull, Bool.not_eq_false']

/-- Settles O41: each command by the check that its entry makes. -/
theorem queueAndConversionCommandsAreChecked : Obligations.QueueAndConversionCommandsAreChecked := by
  intro s vd vs1 part xs sz mode ia sato checked room1
  have cvt : ∀ int, (!cvtOk (s.wake [] 0).frame.code1 (s.wake [] 0).frame.code2 part int) = true ↔
      cvtOk s.frame.code1 s.frame.code2 part int = false := fun int => by rw [wake_frame, Bool.not_eq_true']
  refine ⟨check_enters (exec_vsplq ..) ?splat, checked_enters (exec_voutq ..) wake_pushFull_iff (wake_x ..),
    check_enters (exec_vbq ..) wake_pushFull_iff, check_enters (exec_vcvt ..) (cvt false),
    check_enters (exec_vcvti ..) (cvt true), check_enters (exec_ringq ..) wake_pushFull_iff,
    check_enters (exec_kscq ..) ?kscq0, check_enters (exec_kscq ..) ?kscq1,
    check_enters (exec_kchkq ..) wake_pushFull_iff, check_enters (exec_kflg ..) wake_pushFull_iff,
    checked_enters (exec_kflg ..) wake_pushFull_iff (wake_x ..)⟩
  case splat => rw [wake_kset, wake_queued, wake_cur, wake_frame, decide_eq_false_iff_not, Nat.not_lt]
  case kscq0 => rw [eq_self, true_and]; exact wake_pushFull_iff
  case kscq1 => simp

/-! ### The base of a memory command (R260, R264, R292) -/

theorem wake_spadSize (s : State) (srcs : List XReg) (dst : XReg) (ep : Nat) :
    ((s.wake srcs dst).core ep).carve.spadSize = (s.core ep).carve.spadSize := by
  obtain ⟨b, h⟩ := wake_core s srcs dst ep
  rw [h]

/-- An address of the own window lies in the own scratchpad (R118). -/
theorem kilnWindow_own {s : State} {a : Word} {off n : Nat} (ha : a.toNat = 0x7E0000000000 + off) (hoff : off < 131072)
    (hfit : off + n ≤ s.me.carve.spadSize) : s.kilnWindow a n = some (s.cur, off) := by
  have hwin : s.window s.cur a.toNat n = .spad s.cur off := by
    rw [State.window, ha, if_pos (by omega), Nat.add_sub_cancel_left]
    exact if_pos hfit
  rw [State.kilnWindow, if_neg (by omega), hwin]

theorem kilnWindow_below {s : State} {a : Word} (ha : a.toNat < 0x7E0000000000) (n : Nat) : s.kilnWindow a n = none :=
  if_pos ha

/-- A memory command by its base: aligned in the own scratchpad, misaligned, or below the windows. -/
theorem mem_enters {s : State} {i : Instr} {xs : XReg} {k : State → State} {al n : Nat} {writes : Bool}
    (he : exec i s = s.runKiln i [xs] k)
    (hk : k (s.wake [xs] 0) = (s.wake [xs] 0).enterMem i ((s.wake [xs] 0).x xs) al n writes)
    (hal : 0x7E0000000000 % al = 0) (hc : s.kilnClear i [xs] = true) :
    (∀ off, (s.x xs).toNat = 0x7E0000000000 + off → off % al = 0 → off < 131072 → off + n ≤ s.me.carve.spadSize →
      s.entersKiln i (s.x xs)) ∧
    ((s.x xs).toNat % al ≠ 0 → exec i s = .next ((s.wake [xs] 0).trap 6 (s.x xs))) ∧
    ((s.x xs).toNat % al = 0 → (s.x xs).toNat < 0x7E0000000000 → exec i s = .next ((s.wake [xs] 0).trap 8 (s.x xs))) := by
  have hexec := exec_of_runKiln hc he hk
  rw [wake_x, State.enterMem] at hexec
  refine ⟨fun off ha hmod hoff hfit => ?own, fun ha => by rw [hexec, if_pos ha],
    fun ha hlow => by rw [hexec, if_neg (not_not.2 ha), kilnWindow_below hlow]⟩
  have haligned : (s.x xs).toNat % al = 0 := by rw [ha, Nat.add_mod, hal, hmod]; rfl
  have hfit' : off + n ≤ (s.wake [xs] 0).me.carve.spadSize := by rw [State.me, wake_spadSize]; exact hfit
  rw [if_neg (not_not.2 haligned), kilnWindow_own ha hoff hfit'] at hexec
  -- the own scratchpad needs no checkpoint
  simp only [beq_self_eq_true, Bool.not_true, Bool.and_false, Bool.false_eq_true, if_false] at hexec
  exact entersKiln_of_enterKiln hc hexec

/-- The bytes of an element divide the place of the own window. -/
theorem own_mod_elBytes (f : Fmt) : 0x7E0000000000 % (f.width / 8) = 0 := by cases f <;> rfl

theorem wake_elBytes (s : State) (srcs : List XReg) (dst : XReg) (sz : BitVec 2) :
    (s.wake srcs dst).elBytes sz = s.elBytes sz := by rw [State.elBytes, wake_frame, State.elBytes]

/-- Settles O42: each command by its base, a strided load's alignment and extent being its element's (R257, R264). -/
theorem kilnMemoryCommandsCheckTheirBase : Obligations.KilnMemoryCommandsCheckTheirBase := by
  intro s vd vs1 vs2 xs sz a w mem eb
  exact ⟨mem_enters (exec_vld ..) rfl rfl, mem_enters (exec_vst ..) rfl rfl, mem_enters (exec_vgth ..) rfl rfl,
    mem_enters (exec_vsct ..) rfl rfl, mem_enters (exec_vlds ..) (by rw [wake_elBytes]; rfl) (own_mod_elBytes _),
    mem_enters (exec_kld ..) rfl rfl, mem_enters (exec_kst ..) rfl rfl⟩

end Sys2Proof.Machine

/-! PROOFS. Vector registers and their elements (R103, R109, R258): what elements a register put together from a list has,
what a write leaves of the other registers, and the flags that it gathers. -/

namespace Sys2Proof.Machine

/-! ### Elements of a register (R103) -/

/-- Elements of w bits, one above the other, as a number. -/
theorem bitsOf_foldr (w : Nat) (l : List Nat) (e : Nat) :
    bitsOf (l.foldr (fun b a => b % 2 ^ w + 2 ^ w * a) 0) (w * e) w = l.getD e 0 % 2 ^ w := by
  unfold bitsOf
  induction l generalizing e with
  | nil => simp
  | cons b l ih =>
    rw [List.foldr_cons]
    cases e with
    | zero => simp
    | succ e =>
      have hlow : b % 2 ^ w < 2 ^ w := Nat.mod_lt _ (Nat.two_pow_pos w)
      rw [Nat.mul_succ, Nat.add_comm (w * e), Nat.pow_add, ← Nat.div_div_eq_div_mul, Nat.add_mul_div_left _ _ (Nat.two_pow_pos w),
        Nat.div_eq_of_lt hlow, Nat.zero_add, ih, List.getD_cons_succ]

/-- A field of a number within the word that holds it. -/
theorem bitsOf_toNat_ofNat {n lo w : Nat} (h : lo + w ≤ n) (v : Nat) :
    bitsOf (BitVec.ofNat n v).toNat lo w = bitsOf v lo w := by
  rw [BitVec.toNat_ofNat]
  unfold bitsOf
  obtain ⟨m, rfl⟩ := Nat.exists_eq_add_of_le (Nat.le_of_add_right_le h)
  rw [Nat.pow_add, Nat.mod_mul_right_div_self, Nat.mod_mod_of_dvd _ (Nat.pow_dvd_pow 2 (by omega))]

theorem el_fits {w e : Nat} (he : e < numEls w) : w * e + w ≤ 1024 := by
  rw [← Nat.mul_succ, Nat.mul_comm]
  exact Nat.mul_le_of_le_div _ _ _ he

/-- An element of a register put together from a list. -/
theorem elOf_ofEls {w e : Nat} (he : e < numEls w) (l : List Nat) : elOf (ofEls w l) w e = l.getD e 0 % 2 ^ w := by
  rw [elOf, ofEls, bitsOf_toNat_ofNat (el_fits he), bitsOf_foldr]

theorem elOf_ofEls_range {w e : Nat} (he : e < numEls w) (g : Nat → Nat) :
    elOf (ofEls w ((List.range (numEls w)).map g)) w e = g e % 2 ^ w := by
  rw [elOf_ofEls he]
  simp [he]

theorem elOf_lt (v : BitVec 1024) (w e : Nat) : elOf v w e < 2 ^ w := Nat.mod_lt _ (Nat.two_pow_pos w)

theorem toNat_laneOf (v : BitVec 1024) (e : Nat) : (laneOf v e).toNat = elOf v 32 e := by
  rw [laneOf, BitVec.extractLsb'_toNat, Nat.shiftRight_eq_div_pow]
  rfl

/-- A lane is its element as a word. -/
theorem ofNat_elOf (v : BitVec 1024) (e : Nat) : BitVec.ofNat 32 (elOf v 32 e) = laneOf v e := by
  rw [← toNat_laneOf, BitVec.ofNat_toNat, BitVec.setWidth_eq]

theorem laneOf_eq_iff {v : BitVec 1024} {e : Nat} {x : BitVec 32} : laneOf v e = x ↔ elOf v 32 e = x.toNat := by
  rw [← BitVec.toNat_inj, toNat_laneOf]

/-- One element in a register of zeros. -/
theorem elOf_ofNat {w e r : Nat} (he : e < numEls w) (hr : r < 2 ^ w) :
    elOf (BitVec.ofNat 1024 r) w e = if e = 0 then r else 0 := by
  have hone : BitVec.ofNat 1024 r = ofEls w [r] := by simp [ofEls, Nat.mod_eq_of_lt hr]
  rw [hone, elOf_ofEls he]
  cases e with
  | zero => simp [Nat.mod_eq_of_lt hr]
  | succ e => simp

/-! ### Writes of a register -/

@[simp] theorem vr_setVr_same (k : KSet) (i : BitVec 3) (v : BitVec 1024) : (k.setVr i v).vr i = v := by
  simp [KSet.setVr, KSet.vr]

theorem vr_setVr_other (k : KSet) {i r : BitVec 3} (v : BitVec 1024) (h : r ≠ i) : (k.setVr i v).vr r = k.vr r := by
  have hn : i.toNat ≠ r.toNat := fun e => h (BitVec.eq_of_toNat_eq e).symm
  simp [KSet.setVr, KSet.vr, hn]

@[simp] theorem setVr_flags (k : KSet) (i : BitVec 3) (v : BitVec 1024) : (k.setVr i v).flags = k.flags := rfl

@[simp] theorem flag_vr (k : KSet) (f : BitVec 7) (r : BitVec 3) : (k.flag f).vr r = k.vr r := rfl

@[simp] theorem flag_flags (k : KSet) (f : BitVec 7) : (k.flag f).flags = k.flags ||| f := rfl

theorem setEls_vr_other (k : KSet) {vd r : BitVec 3} (w : Nat) (l : List (Nat × BitVec 7)) (h : r ≠ vd) :
    (k.setEls vd w l).vr r = k.vr r := by rw [KSet.setEls, flag_vr, vr_setVr_other _ _ h]

@[simp] theorem setEls_flags (k : KSet) (vd : BitVec 3) (w : Nat) (l : List (Nat × BitVec 7)) :
    (k.setEls vd w l).flags = k.flags ||| orFlags l := rfl

/-- The elements that a write of all elements leaves. -/
theorem setEls_elOf (k : KSet) (vd : BitVec 3) {w e : Nat} (he : e < numEls w) (g : Nat → Nat × BitVec 7) :
    elOf ((k.setEls vd w ((List.range (numEls w)).map g)).vr vd) w e = (g e).1 % 2 ^ w := by
  rw [KSet.setEls, flag_vr, vr_setVr_same, List.map_map, elOf_ofEls_range he]
  rfl

/-! ### Flags gathered (R109) -/

theorem foldl_or_flags (l : List (Nat × BitVec 7)) (a : BitVec 7) :
    l.foldl (fun a r => a ||| r.2) a = a ||| orFlags l := by
  unfold orFlags
  induction l generalizing a with
  | nil => simp
  | cons r l ih =>
    rw [List.foldl_cons, List.foldl_cons, ih, ih ((0 : BitVec 7) ||| r.2)]
    simp only [BitVec.ofNat_eq_ofNat, BitVec.zero_or, BitVec.or_assoc]

theorem orFlags_cons (r : Nat × BitVec 7) (l : List (Nat × BitVec 7)) : orFlags (r :: l) = r.2 ||| orFlags l := by
  rw [orFlags, List.foldl_cons, foldl_or_flags]
  simp only [BitVec.ofNat_eq_ofNat, BitVec.zero_or]

/-- A flag is raised where one of the elements raises it. -/
theorem getLsbD_orFlags (l : List (Nat × BitVec 7)) (b : Nat) :
    (orFlags l).getLsbD b = l.any fun r => r.2.getLsbD b := by
  induction l with
  | nil => simp [orFlags]
  | cons r l ih => rw [orFlags_cons, BitVec.getLsbD_or, ih, List.any_cons]

/-- Elements of which those outside a property raise one and the same flag. -/
theorem orFlags_map_ite (l : List Nat) (p : Nat → Bool) (v : Nat → Nat) (f : BitVec 7) :
    orFlags (l.map fun e => (v e, if p e then 0 else f)) = if l.all p then 0 else f := by
  induction l with
  | nil => rfl
  | cons e l ih =>
    rw [List.map_cons, orFlags_cons, ih, List.all_cons]
    cases p e <;> cases l.all p <;> simp

/-- Elements that raise no flag. -/
theorem orFlags_map_zero (l : List Nat) (v : Nat → Nat) : orFlags (l.map fun e => (v e, 0)) = 0 := by
  simpa using orFlags_map_ite l (fun _ => true) v 0

end Sys2Proof.Machine

/-! PROOFS. The bits of a rounded result fit its format (R92, R94, R104, R107): the exponent field of a finite magnitude in
range is one of the format's. -/

namespace Sys2Proof.Machine

/-! ### The length of a significand -/

theorem lt_two_pow_bitLen (m : Nat) : m < 2 ^ bitLen m := by
  unfold bitLen
  split
  · next h => simp [h]
  · exact Nat.lt_log2_self

theorem two_pow_bitLen_le {m : Nat} (h : m ≠ 0) : 2 ^ (bitLen m - 1) ≤ m := by
  rw [bitLen, if_neg h, Nat.add_sub_cancel]
  exact Nat.log2_self_le h

theorem bitLen_pos {m : Nat} (h : m ≠ 0) : 0 < bitLen m := by
  rw [bitLen, if_neg h]
  exact Nat.succ_pos _

/-- A magnitude M × 2^q not above L × 2^p has its top bit no higher. -/
theorem top_le_of_dyGt {M L : Nat} {q p : Int} (hM : M ≠ 0) (h : dyGt M q L p = false) :
    L ≠ 0 ∧ q + (bitLen M : Int) ≤ p + (bitLen L : Int) := by
  have hle : M * 2 ^ (q - min q p).toNat ≤ L * 2 ^ (p - min q p).toNat :=
    Nat.not_lt.1 (of_decide_eq_false h)
  have hL : L ≠ 0 := by
    rintro rfl
    have hpos : 0 < M * 2 ^ (q - min q p).toNat := Nat.mul_pos (Nat.pos_of_ne_zero hM) (Nat.two_pow_pos _)
    omega
  have hpow : 2 ^ (bitLen M - 1 + (q - min q p).toNat) < 2 ^ (bitLen L + (p - min q p).toNat) := by
    rw [Nat.pow_add, Nat.pow_add]
    calc 2 ^ (bitLen M - 1) * 2 ^ (q - min q p).toNat
        ≤ M * 2 ^ (q - min q p).toNat := Nat.mul_le_mul_right _ (two_pow_bitLen_le hM)
      _ ≤ L * 2 ^ (p - min q p).toNat := hle
      _ < 2 ^ bitLen L * 2 ^ (p - min q p).toNat :=
        Nat.mul_lt_mul_of_pos_right (lt_two_pow_bitLen L) (Nat.two_pow_pos _)
  have hexp := (Nat.pow_lt_pow_iff_right (by decide)).1 hpow
  have := bitLen_pos hM
  exact ⟨hL, by omega⟩

/-! ### The fields of a finite result -/

/-- The significand of a normal result, its leading bit at the fraction's top. -/
theorem aligned_lt (M n : Nat) :
    (if bitLen M ≤ n then M * 2 ^ (n - bitLen M) else M / 2 ^ (bitLen M - n)) < 2 ^ n := by
  have hM := lt_two_pow_bitLen M
  split
  · next h =>
    calc M * 2 ^ (n - bitLen M) < 2 ^ bitLen M * 2 ^ (n - bitLen M) := Nat.mul_lt_mul_of_pos_right hM (Nat.two_pow_pos _)
      _ = 2 ^ n := by rw [← Nat.pow_add, Nat.add_sub_cancel' h]
  · next h =>
    refine Nat.div_lt_of_lt_mul ?_
    rwa [← Nat.pow_add, Nat.sub_add_cancel (Nat.le_of_not_le h)]

/-- A finite magnitude on the format's grid, its exponent field in the format's range. -/
theorem pack_lt {f : Fmt} {M : Nat} {q : Int}
    (hlow : q + (bitLen M : Int) - 1 < f.emin → f.emin - (f.frac : Int) ≤ q)
    (htop : q + (bitLen M : Int) - 1 + f.bias < 2 ^ f.ebits) : f.pack M q < 2 ^ (f.ebits + f.frac) := by
  unfold Fmt.pack
  dsimp only
  split
  · next h =>
    have hgrid := hlow h
    calc M * 2 ^ (q - (f.emin - (f.frac : Int))).toNat
        < 2 ^ bitLen M * 2 ^ (q - (f.emin - (f.frac : Int))).toNat :=
          Nat.mul_lt_mul_of_pos_right (lt_two_pow_bitLen M) (Nat.two_pow_pos _)
      _ = 2 ^ (bitLen M + (q - (f.emin - (f.frac : Int))).toNat) := (Nat.pow_add ..).symm
      _ ≤ 2 ^ (f.ebits + f.frac) := Nat.pow_le_pow_right (by decide) (by omega)
  · have hal := aligned_lt M (f.frac + 1)
    have hexp : (q + (bitLen M : Int) - 1 + f.bias).toNat + 1 ≤ 2 ^ f.ebits := by
      have hpos : 0 < 2 ^ f.ebits := Nat.two_pow_pos _
      have hcast : ((2 ^ f.ebits : Nat) : Int) = 2 ^ f.ebits := by norm_cast
      omega
    have hmul := Nat.mul_le_mul_right (2 ^ f.frac) hexp
    rw [Nat.add_mul, Nat.one_mul, ← Nat.pow_add] at hmul
    rw [Nat.pow_succ] at hal
    omega

/-- The greatest finite magnitude of a floating format has an exponent field of the format's. -/
theorem top_lt_of_largest {f : Fmt} (hf : (f.largest false).1 ≠ 0) :
    (f.largest false).2 + (bitLen (f.largest false).1 : Int) - 1 + f.bias < 2 ^ f.ebits ∧
      f.ebits + f.frac + 1 = f.width := by
  cases f
  case ps8 | int8 | int32 => exact absurd rfl hf
  all_goals decide

/-- A quantum is no finer than that of the subnormals, but for BF16, which has none. -/
theorem emin_le_quantum {f : Fmt} (hf : f ≠ .bf16) (m : Nat) (e : Int) : f.emin - (f.frac : Int) ≤ f.quantum m e := by
  unfold Fmt.quantum
  dsimp only
  split
  · exact Int.le_refl _
  · next h =>
    have : ¬ e + (bitLen m : Int) - 1 < f.emin := fun hlt => h ⟨hf, hlt⟩
    omega

/-! ### The bits of a result -/

theorem signBit_add_lt {f : Fmt} (s : Bool) {b : Nat} (hb : b < 2 ^ (f.width - 1)) : f.signBit s + b < 2 ^ f.width := by
  have hw : 2 ^ f.width = 2 ^ (f.width - 1) + 2 ^ (f.width - 1) := by cases f <;> rfl
  unfold Fmt.signBit
  split <;> omega

theorem constant_bits_lt (f : Fmt) :
    f.nanBits < 2 ^ f.width ∧ f.infBits < 2 ^ (f.width - 1) ∧ f.largestBits false < 2 ^ (f.width - 1) := by
  cases f <;> decide

/-- The bits of a result fit its format. -/
theorem result_lt (f : Fmt) (x : Fp) : (f.result x).1 < 2 ^ f.width := by
  obtain ⟨hnan, hinf, hlargest⟩ := constant_bits_lt f
  have hzero : ∀ s, f.signBit s < 2 ^ f.width := fun s => signBit_add_lt s (Nat.two_pow_pos _)
  unfold Fmt.result Fmt.encFloat
  dsimp only
  split
  case h_1 => split <;> [exact hnan; exact Nat.two_pow_pos _]
  case h_2 s => split <;> exact signBit_add_lt s (by assumption)
  case h_3 s m e =>
    split
    · exact hzero s
    split
    · exact hzero s
    next hM =>
    split
    · split <;> exact signBit_add_lt s (by assumption)
    next hgt =>
    split
    · exact hzero s
    next hsub =>
    obtain ⟨hL, hle⟩ := top_le_of_dyGt hM (Bool.eq_false_of_not_eq_true hgt)
    obtain ⟨htop, hwidth⟩ := top_lt_of_largest hL
    refine signBit_add_lt s ?_
    rw [← hwidth, Nat.add_sub_cancel]
    refine pack_lt (fun hlow => emin_le_quantum (fun hbf => hsub ⟨hbf, hlow⟩) m e) ?_
    omega

end Sys2Proof.Machine

/-! PROOFS. Issue in the vector section (R253, log entry 16): which command issues, and what its issue leaves of the core, of
memory, of the kiln and of the command's state set. -/

namespace Sys2Proof.Machine

/-! ### Commands that only compute -/

/-- Whether a command at its issue does no more than compute on its state set: no KEEP, no lease, no load, no write of a
ring, a frame or a count. -/
def onlyComputes : Instr → Bool
  | .keep .. | .lease | .unlease | .vld .. | .vlds .. | .vgth .. | .ringdef .. | .ringadv .. | .kscq _ | .kchkq _
  | .kflg .. => false
  | _ => true

theorem readOffs_onlyComputes {c : KCmd} (h : onlyComputes c.ins = true) (k : KSet) : k.readOffs c = none := by
  unfold KSet.readOffs
  split
  case h_4 => rfl
  all_goals next heq => rw [heq] at h; exact Bool.noConfusion h

theorem control_onlyComputes {c : KCmd} (h : onlyComputes c.ins = true) (k : KSet) : (k.control c).1 = k := by
  unfold KSet.control
  split
  case h_2 | h_7 => rfl
  all_goals next heq => rw [heq] at h; exact Bool.noConfusion h

/-- What the issue of a command that only computes changes: its state set, its core's queue, and the commands in flight. -/
theorem issueVec_onlyComputes {c : KCmd} (h : onlyComputes c.ins = true) (s : State) (q ep : Nat) :
    ∃ fl, s.issueVec q ep c = (((s.snapshot ep c).onSet ep c fun k => (k.vector c).1).dropHead ep).fly q fl := by
  unfold State.issueVec
  extract_lets fl k
  split
  case h_4 =>
    rw [readOffs_onlyComputes h]
    simp only [control_onlyComputes h]
    exact ⟨_, rfl⟩
  all_goals next heq => rw [heq] at h; exact Bool.noConfusion h

/-! ### What the parts of an issue leave -/

/-- Parts of an issue change a core's state sets, checkpoint and queue alone. -/
theorem onSet_keeps (s : State) (ep : Nat) (c : KCmd) (g : KSet → KSet) :
    ((s.onSet ep c g).core ep).run = (s.core ep).run ∧ ((s.onSet ep c g).core ep).dq = (s.core ep).dq := by
  simp only [State.onSet, onCore_core]
  split
  · split <;> exact ⟨rfl, rfl⟩
  · exact ⟨rfl, rfl⟩

theorem snapshot_keeps (s : State) (ep : Nat) (c : KCmd) :
    ((s.snapshot ep c).core ep).run = (s.core ep).run ∧ ((s.snapshot ep c).core ep).dq = (s.core ep).dq ∧
    ((s.snapshot ep c).core ep).sets = (s.core ep).sets := by
  unfold State.snapshot
  split
  · exact ⟨rfl, rfl, rfl⟩
  · simp only [onCore_core]
    split
    · split <;> exact ⟨rfl, rfl, rfl⟩
    · exact ⟨rfl, rfl, rfl⟩

theorem snapshot_readByte (s : State) (ep : Nat) (c : KCmd) (p : Nat) : (s.snapshot ep c).readByte p = s.readByte p := by
  unfold State.snapshot
  split <;> rfl

@[simp] theorem kiln_snapshot (s : State) (ep : Nat) (c : KCmd) (q : Nat) : (s.snapshot ep c).kiln q = s.kiln q := by
  unfold State.snapshot
  split <;> rfl

@[simp] theorem kiln_dropHead (s : State) (ep q : Nat) : (s.dropHead ep).kiln q = s.kiln q := rfl

theorem core_dropHead (s : State) (ep : Nat) :
    (s.dropHead ep).core ep = { s.core ep with dq := (s.core ep).dq.drop 1, dqFree := s.after ep 1 } := onCore_core ..

@[simp] theorem core_fly (s : State) (q : Nat) (f : Flight) (ep : Nat) : (s.fly q f).core ep = s.core ep := rfl

/-- A further command in flight leaves the turns and the slot of the vector section. -/
theorem fly_keeps (s : State) (q : Nat) (f : Flight) (p : Nat) :
    ((s.fly q f).kiln p).lastVec = (s.kiln p).lastVec ∧ ((s.fly q f).kiln p).vecFree = (s.kiln p).vecFree := by
  unfold State.fly
  by_cases hp : p = q
  · rw [hp, onKiln_kiln]
    exact ⟨rfl, rfl⟩
  · rw [State.kiln, State.onKiln, tget_tset_other _ _ _ _ _ hp]
    exact ⟨rfl, rfl⟩

/-- `t` is `s` after core `ep` has issued command c, which leaves its state set as r. -/
structure State.IssuedTo (s : State) (ep : Nat) (c : KCmd) (r : KSet) (t : State) : Prop where
  run : (t.core ep).run = (s.core ep).run
  mem : ∀ p, t.readByte p = s.readByte p
  dq : (t.core ep).dq = (s.core ep).dq.drop 1
  set : t.ksetOf ep c.level = r
  lastVec : ∀ q, (t.kiln q).lastVec = (s.kiln q).lastVec
  vecFree : ∀ q, (t.kiln q).vecFree = (s.kiln q).vecFree

theorem issuedTo_onlyComputes {c : KCmd} (h : onlyComputes c.ins = true) (s : State) (q ep : Nat) :
    s.IssuedTo ep c ((s.ksetOf ep c.level).vector c).1 (s.issueVec q ep c) := by
  obtain ⟨fl, hissue⟩ := issueVec_onlyComputes h s q ep
  obtain ⟨hrun, hdq, hsets⟩ := snapshot_keeps s ep c
  obtain ⟨hrun', hdq'⟩ := onSet_keeps (s.snapshot ep c) ep c fun k => (k.vector c).1
  rw [hissue]
  constructor
  case run => rw [core_fly, core_dropHead]; exact hrun'.trans hrun
  case mem => exact snapshot_readByte s ep c
  case dq => rw [core_fly, core_dropHead, hdq', hdq]
  case set =>
    rw [State.fly, ksetOf_onKiln, State.dropHead, ksetOf_congr (sets_onCore rfl), ksetOf_onSet, ksetOf_congr hsets]
  case lastVec => exact fun p => by rw [(fly_keeps ..).1, kiln_dropHead, kiln_onSet, kiln_snapshot]
  case vecFree => exact fun p => by rw [(fly_keeps ..).2, kiln_dropHead, kiln_onSet, kiln_snapshot]

/-! ### The command that issues (R253) -/

/-- The state set of the command that core j of a quad issues. -/
abbrev State.issueSet (s : State) (quad j : Nat) (c : KCmd) : KSet := s.ksetOf (quadCore quad j) c.level

/-- The vector section is free and awake, and core j of the quad, with command c at the head of its queue, is next; no
word that the command could read is in error. -/
structure State.VectorReady (s : State) (quad j : Nat) (c : KCmd) : Prop where
  free : (s.kiln quad).vecFree ≤ s.now
  awake : (s.kiln quad).vecGated = false
  next : (rotation (s.kiln quad).lastVec).find? (fun j => s.vecRequest quad j) = some j
  head : s.head (quadCore quad j) = some c
  setGood : (s.issueSet quad j c).bad = []
  cmdGood : c.bad = false

/-- The vector section has issued core j's command, whose destination is vd, and its state set now has property q. -/
def State.VectorIssues (s : State) (quad j : Nat) (c : KCmd) (vd : BitVec 3) (q : KSet → Prop) : Prop :=
  ∃ t, exec (.kilnVectorIssue quad) s = .next t ∧
    (t.core (quadCore quad j)).run = (s.core (quadCore quad j)).run ∧ (∀ p, t.readByte p = s.readByte p) ∧
    (∀ r, r ≠ vd → (t.ksetOf (quadCore quad j) c.level).vr r = (s.issueSet quad j c).vr r) ∧
    (t.core (quadCore quad j)).dq = (s.core (quadCore quad j)).dq.drop 1 ∧ (t.kiln quad).lastVec = j ∧
    (t.kiln quad).vecFree = s.after (4 * quad) 1 ∧ q (t.ksetOf (quadCore quad j) c.level)

theorem State.VectorIssues.imp {s : State} {quad j : Nat} {c : KCmd} {vd : BitVec 3} {p q : KSet → Prop}
    (h : s.VectorIssues quad j c vd p) (hpq : ∀ n, p n → q n) : s.VectorIssues quad j c vd q := by
  obtain ⟨t, hexec, hrun, hmem, hother, hdq, hlast, hslot, hp⟩ := h
  exact ⟨t, hexec, hrun, hmem, hother, hdq, hlast, hslot, hpq _ hp⟩

/-- The vector section's slot taken by core j. -/
def State.vecTurn (s : State) (quad j : Nat) : State :=
  s.onKiln quad fun n => { n with lastVec := j, vecFree := s.after (4 * quad) 1, vecIdleAt := s.now }

@[simp] theorem ksetOf_vecTurn (s : State) (quad j ep lvl : Nat) :
    (s.vecTurn quad j).ksetOf ep lvl = s.ksetOf ep lvl := rfl

/-- What the core in turn issues finds its state set without an error, and so is not a consumption (R407). -/
theorem useSet_good {s : State} {ep : Nat} {c : KCmd} (hset : (s.ksetOf ep c.level).bad = []) (hcmd : c.bad = false)
    (k : State → State) : s.useSet ep c k = k s := by
  simp only [State.useSet, hset, hcmd, List.isEmpty_nil, Bool.false_eq_true, if_false, if_true]

theorem State.VectorReady.exec {s : State} {quad j : Nat} {c : KCmd} (h : s.VectorReady quad j c) :
    exec (.kilnVectorIssue quad) s = .next ((s.vecTurn quad j).issueVec quad (quadCore quad j) c) := by
  obtain ⟨hfree, hawake, hnext, hhead, hset, hcmd⟩ := h
  have huse := useSet_good (s := s.vecTurn quad j) hset hcmd fun t => t.issueVec quad (quadCore quad j) c
  simp only [exec_kilnVectorIssue, execKilnVectorIssue, Nat.not_lt.2 hfree, hawake, hnext, hhead, Bool.false_eq_true, if_false]
  exact congrArg Host.Outcome.next huse

/-- A command that only computes issues, and its state set is what it computes. -/
theorem State.VectorReady.issues {s : State} {quad j : Nat} {c : KCmd} {vd : BitVec 3} {i : Instr} {r : KSet} {q : KSet → Prop}
    (h : s.VectorReady quad j c) (hi : onlyComputes i = true) (hins : c.ins = i)
    (hr : ((s.issueSet quad j c).vector { c with ins := i }).1 = r)
    (hother : ∀ x, x ≠ vd → r.vr x = (s.issueSet quad j c).vr x) (hq : q r) :
    s.VectorIssues quad j c vd q := by
  subst hins hr
  have ht := issuedTo_onlyComputes hi (s.vecTurn quad j) quad (quadCore quad j)
  rw [ksetOf_vecTurn] at ht
  refine ⟨_, h.exec, ht.run, ht.mem, ?other, ht.dq, ?last, ?slot, ?result⟩
  case other => rw [ht.set]; exact hother
  case last => rw [ht.lastVec, State.vecTurn, onKiln_kiln]
  case slot => rw [ht.vecFree, State.vecTurn, onKiln_kiln]
  case result => rw [ht.set]; exact hq

end Sys2Proof.Machine

/-! PROOFS. What vector commands compute (R265 to R273, R115): for each shape of result, what an issued command of that shape
leaves in its destination and in the flags. -/

namespace Sys2Proof.Machine

/-! ### The shapes of a result -/

section Shapes

variable {s : State} {quad j : Nat} {c : KCmd} {vd vs1 vs2 : BitVec 3}

/-- A result of one value for each element, its flags gathered (R265, R269, R273). -/
theorem State.VectorReady.issues_els (h : s.VectorReady quad j c) (w : Nat) (g : Nat → Nat × BitVec 7) (i : Instr)
    (hi : onlyComputes i = true)
    (hr : ((s.issueSet quad j c).vector { c with ins := i }).1 =
      (s.issueSet quad j c).setEls vd w ((List.range (numEls w)).map g)) (hins : c.ins = i) :
    s.VectorIssues quad j c vd fun n =>
      (∀ e, e < numEls w → elOf (n.vr vd) w e = (g e).1 % 2 ^ w) ∧
      ∀ b, b < 7 → n.flags.getLsbD b = ((s.issueSet quad j c).flags.getLsbD b ||
        (List.range (numEls w)).any fun e => (g e).2.getLsbD b) := by
  refine h.issues hi hins hr (fun x hx => setEls_vr_other _ _ _ hx) ⟨fun e he => setEls_elOf _ _ he g, fun b _ => ?_⟩
  rw [setEls_flags, BitVec.getLsbD_or, getLsbD_orFlags, List.any_map]
  rfl

/-- A result of one word for each lane (R266). -/
theorem State.VectorReady.issues_lanes (h : s.VectorReady quad j c) (g : Nat → BitVec 32 × BitVec 7) (i : Instr)
    (hi : onlyComputes i = true)
    (hr : ((s.issueSet quad j c).vector { c with ins := i }).1 =
      (s.issueSet quad j c).setEls vd 32 ((List.range 32).map fun e => ((g e).1.toNat, (g e).2)))
    (hins : c.ins = i) :
    s.VectorIssues quad j c vd fun n => (∀ e, e < 32 → laneOf (n.vr vd) e = (g e).1) ∧
      n.flags = (s.issueSet quad j c).flags |||
        orFlags ((List.range 32).map fun e => ((g e).1.toNat, (g e).2)) := by
  refine h.issues hi hins hr (fun x hx => setEls_vr_other _ _ _ hx) ⟨fun e he => laneOf_eq_iff.2 ?_, rfl⟩
  exact (setEls_elOf (w := 32) _ _ he _).trans (Nat.mod_eq_of_lt (g e).1.isLt)

/-- As `issues_lanes`, for a command that raises no flag. -/
theorem State.VectorReady.issues_words (h : s.VectorReady quad j c) (g : Nat → BitVec 32) (i : Instr)
    (hi : onlyComputes i = true)
    (hr : ((s.issueSet quad j c).vector { c with ins := i }).1 =
      (s.issueSet quad j c).setEls vd 32 ((List.range 32).map fun e => ((g e).toNat, 0)))
    (hins : c.ins = i) :
    s.VectorIssues quad j c vd fun n => (∀ e, e < 32 → laneOf (n.vr vd) e = g e) ∧
      n.flags = (s.issueSet quad j c).flags := by
  have hissues := h.issues_lanes (fun e => (g e, 0)) i hi hr hins
  dsimp only at hissues
  rw [orFlags_map_zero] at hissues
  simpa only [BitVec.ofNat_eq_ofNat, BitVec.or_zero] using hissues

/-- A lane-wise integer operation that raises no flag (R266). -/
theorem State.VectorReady.issues_int2 (h : s.VectorReady quad j c) (f : BitVec 32 → BitVec 32 → BitVec 32) (i : Instr)
    (hi : onlyComputes i = true)
    (hr : ((s.issueSet quad j c).vector { c with ins := i }).1 =
      (s.issueSet quad j c).int2 vd vs1 vs2 fun x y => (f x y, 0)) (hins : c.ins = i) :
    s.VectorIssues quad j c vd fun n => (∀ e, e < 32 → laneOf (n.vr vd) e =
        f (laneOf ((s.issueSet quad j c).vr vs1) e) (laneOf ((s.issueSet quad j c).vr vs2) e)) ∧
      n.flags = (s.issueSet quad j c).flags := by
  refine h.issues_words _ i hi (hr.trans ?_) hins
  simp only [KSet.int2, ofNat_elOf]

/-- A result that moves elements and raises no flag (R263, R272). -/
theorem State.VectorReady.issues_moves (h : s.VectorReady quad j c) (w : Nat) (g : Nat → Nat) (i : Instr)
    (hi : onlyComputes i = true)
    (hr : ((s.issueSet quad j c).vector { c with ins := i }).1 =
      (s.issueSet quad j c).setVr vd (ofEls w ((List.range (numEls w)).map g))) (hins : c.ins = i) :
    s.VectorIssues quad j c vd fun n => (∀ e, e < numEls w → elOf (n.vr vd) w e = g e % 2 ^ w) ∧
      n.flags = (s.issueSet quad j c).flags := by
  refine h.issues hi hins hr (fun x hx => vr_setVr_other _ _ hx) ⟨fun e he => ?_, rfl⟩
  rw [vr_setVr_same, elOf_ofEls_range he]

end Shapes

/-! ### Saturating sums and selection (R100, R266, R270) -/

/-- Whether the exact sum of two lanes is a 32-bit integer. -/
def sumFits (x y : BitVec 32) : Bool :=
  decide (-(2 ^ 31) ≤ x.toInt + y.toInt) && decide (x.toInt + y.toInt < 2 ^ 31)

theorem addSat_eq (x y : BitVec 32) : addSat x y =
    (if sumFits x y then x + y else if 0 ≤ x.toInt + y.toInt then 0x7FFFFFFF else 0x80000000,
      if sumFits x y then 0 else flSAT) := by
  have hsum : BitVec.ofInt 32 (x.toInt + y.toInt) = x + y := by
    rw [BitVec.ofInt_add, BitVec.ofInt_toInt, BitVec.ofInt_toInt]
  unfold addSat
  dsimp only
  split
  · next h =>
    have hfits : sumFits x y = false := by rw [sumFits, decide_eq_false (Int.not_le.2 h), Bool.false_and]
    rw [hfits, if_neg (by omega : ¬ 0 ≤ x.toInt + y.toInt)]
    rfl
  split
  · next h =>
    have hfits : sumFits x y = false := by rw [sumFits, decide_eq_false (Int.not_lt.2 h), Bool.and_false]
    rw [hfits, if_pos (by omega : 0 ≤ x.toInt + y.toInt)]
    rfl
  · next hlow hhigh =>
    have hfits : sumFits x y = true := by
      rw [sumFits, decide_eq_true (Int.not_lt.1 hlow), decide_eq_true (Int.not_le.1 hhigh), Bool.and_self]
    rw [hfits, hsum]
    rfl

theorem laneOf_select (x y z : BitVec 1024) {e : Nat} (he : e < 32) :
    laneOf ((z &&& x) ||| (~~~z &&& y)) e = (laneOf z e &&& laneOf x e) ||| (~~~laneOf z e &&& laneOf y e) := by
  unfold laneOf
  ext b hb
  have hin : 32 * e + b < 1024 := by omega
  simp [hin]

/-! ### Reductions (R115, R271) -/

theorem pairUp_map {α β : Type} (p : α → β) (f : α → α → α) (g : β → β → β) (h : ∀ a b, p (f a b) = g (p a) (p b)) :
    ∀ l : List α, (pairUp f l).map p = pairUp g (l.map p)
  | [] => rfl
  | [_] => rfl
  | a :: b :: l => by simp [pairUp, h, pairUp_map p f g h l]

/-- A tree on what is seen of its elements. -/
theorem treeUp_map {α β : Type} (p : α → β) (f : α → α → α) (g : β → β → β) (h : ∀ a b, p (f a b) = g (p a) (p b))
    (n : Nat) (l : List α) : (treeUp f n l).map p = treeUp g n (l.map p) := by
  induction n generalizing l with
  | zero => rfl
  | succ n ih => rw [treeUp, treeUp, ih, pairUp_map p f g h]

theorem pairUp_forall {α : Type} {P : α → Prop} {f : α → α → α} (h : ∀ a b, P (f a b)) :
    ∀ l : List α, (∀ x ∈ l, P x) → ∀ x ∈ pairUp f l, P x
  | [], hl => hl
  | [_], hl => hl
  | a :: b :: l, hl => by
    simp only [List.forall_mem_cons] at hl
    exact List.forall_mem_cons.2 ⟨h a b, pairUp_forall h l hl.2.2⟩

/-- What the elements of a tree satisfy, and every combination, the results satisfy. -/
theorem treeUp_forall {α : Type} {P : α → Prop} {f : α → α → α} (h : ∀ a b, P (f a b)) (n : Nat) (l : List α)
    (hl : ∀ x ∈ l, P x) : ∀ x ∈ treeUp f n l, P x := by
  induction n generalizing l with
  | zero => exact hl
  | succ n ih => exact ih _ (pairUp_forall h l hl)

theorem headD_map {α β : Type} (p : α → β) (l : List α) (d : α) : p (l.headD d) = (l.map p).headD (p d) := by
  cases l <;> rfl

theorem headD_forall {α : Type} {P : α → Prop} {l : List α} {d : α} (hd : P d) (hl : ∀ x ∈ l, P x) : P (l.headD d) := by
  cases l with
  | nil => exact hd
  | cons a l => exact hl a (List.mem_cons_self ..)

section Reduce

variable {s : State} {quad j : Nat} {c : KCmd} {vd vs1 : BitVec 3} {sz : BitVec 2} {code : BitVec 1}
  {fi : BitVec 32 → BitVec 32 → BitVec 32} {ff : Fp → Fp → Fp}

theorem reduce_vr_other (k : KSet) (n : Nat) {x : BitVec 3} (hx : x ≠ vd) :
    (k.reduce sz n code vd vs1 fi ff).vr x = k.vr x := by
  unfold KSet.reduce
  split
  · exact vr_setVr_other _ _ hx
  · exact (flag_vr ..).trans (vr_setVr_other _ _ hx)

/-- An integer reduction leaves its result in lane 0 and zeros above. -/
theorem reduce_int (k : KSet) (n : Nat) (h : sz = 0 ∧ code = 1) :
    (k.reduce sz n code vd vs1 fi ff).flags = k.flags ∧ ∀ e, e < 32 → laneOf ((k.reduce sz n code vd vs1 fi ff).vr vd) e =
      if e = 0 then (treeUp fi 5 ((List.range 32).map fun e => laneOf (k.vr vs1) e)).headD 0 else 0 := by
  rw [KSet.reduce, if_pos h]
  refine ⟨rfl, fun e he => laneOf_eq_iff.2 ?_⟩
  have hels : (els (k.vr vs1) 32).map (fun b => BitVec.ofNat 32 b) = (List.range 32).map fun e => laneOf (k.vr vs1) e := by
    rw [els, List.map_map]
    exact List.map_congr_left fun e _ => ofNat_elOf ..
  rw [vr_setVr_same, hels, elOf_ofNat he (BitVec.isLt _)]
  split <;> rfl

/-- The bits of two elements combined by a floating reduction, rounded to the elements' format. -/
def combineBits (m : Fmt) (ff : Fp → Fp → Fp) (x y : Nat) : Nat := (m.result (ff (m.dec false x) (m.dec false y))).1

/-- Two elements combined, with the flags gathered so far. -/
def combineEls (m : Fmt) (ff : Fp → Fp → Fp) (a b : Nat × BitVec 7) : Nat × BitVec 7 :=
  (combineBits m ff a.1 b.1, a.2 ||| b.2 ||| (m.result (ff (m.dec false a.1) (m.dec false b.1))).2)

/-- The bits that a floating reduction of a register leaves in element 0. -/
def reducedBits (m : Fmt) (ff : Fp → Fp → Fp) (v : BitVec 1024) : Nat :=
  (treeUp (combineBits m ff) (treeLevels (numEls m.width)) (els v m.width)).headD 0

theorem reducedBits_lt (m : Fmt) (ff : Fp → Fp → Fp) (v : BitVec 1024) : reducedBits m ff v < 2 ^ m.width := by
  refine headD_forall (P := (· < 2 ^ m.width)) (Nat.two_pow_pos _)
    (treeUp_forall (P := (· < 2 ^ m.width)) (fun _ _ => result_lt ..) _ _ fun x hx => ?_)
  obtain ⟨e, -, rfl⟩ := List.mem_map.1 hx
  exact elOf_lt ..

/-- The bits of the tree are a tree of bits: the flags go beside them. -/
theorem treeUp_combineEls (m : Fmt) (ff : Fp → Fp → Fp) (n : Nat) (l : List Nat) :
    ((treeUp (combineEls m ff) n (l.map fun b => (b, 0))).headD (0, 0)).1 = (treeUp (combineBits m ff) n l).headD 0 := by
  rw [headD_map Prod.fst, treeUp_map Prod.fst (combineEls m ff) (combineBits m ff) fun _ _ => rfl, List.map_map]
  exact congrArg (fun l => (treeUp (combineBits m ff) n l).headD 0) (List.map_id l)

/-- A floating reduction leaves its result in element 0 and zeros above. -/
theorem reduce_float (k : KSet) (n : Nat) (h : ¬ (sz = 0 ∧ code = 1)) {e : Nat} (he : e < numEls (Fmt.ofCode n).width) :
    elOf ((k.reduce sz n code vd vs1 fi ff).vr vd) (Fmt.ofCode n).width e =
      (if e = 0 then reducedBits (Fmt.ofCode n) ff (k.vr vs1) else 0) % 2 ^ (Fmt.ofCode n).width := by
  have hbits := treeUp_combineEls (Fmt.ofCode n) ff (treeLevels (numEls (Fmt.ofCode n).width))
    (els (k.vr vs1) (Fmt.ofCode n).width)
  have hlt := reducedBits_lt (Fmt.ofCode n) ff (k.vr vs1)
  rw [KSet.reduce, if_neg h, flag_vr, vr_setVr_same]
  refine (congrArg (fun r => elOf (BitVec.ofNat 1024 r) _ e) hbits).trans ((elOf_ofNat he hlt).trans ?_)
  split
  · exact (Nat.mod_eq_of_lt hlt).symm
  · rfl

end Reduce

/-! ### Conversions (R267, R268) -/

/-- The rounding of a conversion's mode code, but for mode SR. -/
def roundingOf (mode : BitVec 2) : Mode := if mode = 1 then .tz else .ne

theorem getD_setAt {α : Type} (l : List α) (n i : Nat) (b d : α) :
    (setAt l n b).getD i d = if i = n ∧ i < l.length then b else l.getD i d := by
  induction l generalizing n i with
  | nil => simp [setAt]
  | cons a l ih =>
    cases n <;> cases i
    case succ.succ n i => simpa [setAt] using ih n i
    all_goals simp [setAt]

section Convert

variable {k : KSet} {nxr sat : Bool} {S T : Fmt} {vs1 vd : BitVec 3} {mode : BitVec 2} {si ti : Nat}

/-- A state set with element j of a conversion delivered. -/
def KSet.converted (k : KSet) (nxr : Bool) (S T : Fmt) (vs1 : BitVec 3) (sat : Bool) (mode : BitVec 2) (vd : BitVec 3)
    (si ti j : Nat) : KSet :=
  let r := T.enc nxr (roundingOf mode) sat (S.dec nxr (elOf (k.vr vs1) S.width (si + j)))
  (k.setVr vd (ofEls T.width (setAt (els (k.vr vd) T.width) (ti + j) r.1))).flag r.2

/-- A conversion in mode NE or TZ delivers one element after another. -/
theorem convertGo_cons (hmode : mode ≠ 2) (j : Nat) (l : List Nat) :
    k.convertGo nxr S T vs1 sat mode vd si ti (j :: l) =
      (k.converted nxr S T vs1 sat mode vd si ti j).convertGo nxr S T vs1 sat mode vd si ti l := by
  rw [KSet.convertGo]
  simp only [if_neg hmode]
  rfl

theorem converted_vr_other (j : Nat) {x : BitVec 3} (hx : x ≠ vd) :
    (k.converted nxr S T vs1 sat mode vd si ti j).vr x = k.vr x := vr_setVr_other _ _ hx

theorem converted_elOf (j : Nat) {e : Nat} (he : e < numEls T.width) :
    elOf ((k.converted nxr S T vs1 sat mode vd si ti j).vr vd) T.width e =
      if e = ti + j then (T.enc nxr (roundingOf mode) sat (S.dec nxr (elOf (k.vr vs1) S.width (si + j)))).1 % 2 ^ T.width
      else elOf (k.vr vd) T.width e := by
  have hlen : e < (els (k.vr vd) T.width).length := by simpa [els] using he
  have hold : (els (k.vr vd) T.width).getD e 0 = elOf (k.vr vd) T.width e := by simp [els, he]
  rw [KSet.converted, flag_vr, vr_setVr_same, elOf_ofEls he, getD_setAt, hold]
  simp only [hlen, and_true]
  split
  · rfl
  · exact Nat.mod_eq_of_lt (elOf_lt ..)

theorem convertGo_vr_other (hmode : mode ≠ 2) (l : List Nat) {x : BitVec 3} (hx : x ≠ vd) :
    (k.convertGo nxr S T vs1 sat mode vd si ti l).vr x = k.vr x := by
  induction l generalizing k with
  | nil => rfl
  | cons j l ih => rw [convertGo_cons hmode, ih, converted_vr_other j hx]

/-- Delivery from a source that stays: each element of the list from its own source element, the others as they were. -/
theorem convertGo_elOf (hmode : mode ≠ 2) (hne : vs1 ≠ vd) (l : List Nat) {e : Nat} (he : e < numEls T.width) :
    elOf ((k.convertGo nxr S T vs1 sat mode vd si ti l).vr vd) T.width e =
      if ti ≤ e ∧ e - ti ∈ l then
        (T.enc nxr (roundingOf mode) sat (S.dec nxr (elOf (k.vr vs1) S.width (si + (e - ti))))).1 % 2 ^ T.width
      else elOf (k.vr vd) T.width e := by
  induction l generalizing k with
  | nil => simp [KSet.convertGo]
  | cons j l ih =>
    rw [convertGo_cons hmode, ih, converted_vr_other j hne, converted_elOf j he]
    by_cases hmem : ti ≤ e ∧ e - ti ∈ l
    · rw [if_pos hmem, if_pos ⟨hmem.1, List.mem_cons_of_mem _ hmem.2⟩]
    by_cases hj : e = ti + j
    · have hsub : e - ti = j := by omega
      rw [if_neg hmem, if_pos hj, if_pos ⟨by omega, hsub ▸ List.mem_cons_self ..⟩, hsub]
    · have hnot : ¬ (ti ≤ e ∧ e - ti ∈ j :: l) := by
        rintro ⟨hle, hin⟩
        rcases List.mem_cons.1 hin with h | h
        · omega
        · exact hmem ⟨hle, h⟩
      rw [if_neg hmem, if_neg hj, if_neg hnot]

end Convert

end Sys2Proof.Machine

/-! PROOFS. The commands of the vector section, each by the shape of its result (R263 to R273, R115). -/

namespace Sys2Proof.Machine

section Commands

variable {s : State} {quad j : Nat} {c : KCmd} {vd vs1 vs2 : BitVec 3} {sz : BitVec 2} {code : BitVec 1}

/-- A compare of integer lanes, and one of elements (R269). -/
theorem State.VectorReady.issues_compares (h : s.VectorReady quad j c) (quiet : Bool) (fi : Int → Int → Bool)
    (ff : Fp → Fp → Bool) (i : Instr) (hi : onlyComputes i = true)
    (hr : ((s.issueSet quad j c).vector { c with ins := i }).1 =
      (s.issueSet quad j c).compare sz (elemCode sz c.f1) code vd vs1 vs2 fi ff (!quiet)) :
    let old := s.issueSet quad j c
    let m := Fmt.ofCode (elemCode sz c.f1)
    let val := fun (r : BitVec 3) (e : Nat) => m.dec false (elOf (old.vr r) m.width e)
    (sz = 0 ∧ code = 1 → c.ins = i → s.VectorIssues quad j c vd fun n =>
      (∀ e, e < 32 → laneOf (n.vr vd) e =
        if fi (laneOf (old.vr vs1) e).toInt (laneOf (old.vr vs2) e).toInt then BitVec.allOnes 32 else 0) ∧
      n.flags = old.flags) ∧
    (¬ (sz = 0 ∧ code = 1) → c.ins = i → s.VectorIssues quad j c vd fun n =>
      (∀ e, e < numEls m.width → elOf (n.vr vd) m.width e =
        (if ff (val vs1 e) (val vs2 e) then 2 ^ m.width - 1 else 0) % 2 ^ m.width) ∧
      ∀ b, b < 7 → n.flags.getLsbD b = (old.flags.getLsbD b || (List.range (numEls m.width)).any fun e =>
        (if !quiet && ((val vs1 e).isNan || (val vs2 e).isNan) then flINV else 0).getLsbD b)) := by
  intro old m val
  refine ⟨fun hint => h.issues_words _ i hi (hr.trans ?int), fun hfloat => h.issues_els m.width
    (fun e => (if ff (val vs1 e) (val vs2 e) then 2 ^ m.width - 1 else 0,
      if !quiet && ((val vs1 e).isNan || (val vs2 e).isNan) then flINV else 0)) i hi (hr.trans (if_neg hfloat))⟩
  case int =>
    rw [KSet.compare, if_pos hint]
    congr 1
    refine List.map_congr_left fun e _ => ?_
    rw [ofNat_elOf, ofNat_elOf]
    split <;> rfl

/-- A reduction of integer lanes, and one of elements (R115, R271). -/
theorem State.VectorReady.issues_reduces (h : s.VectorReady quad j c) (fi : BitVec 32 → BitVec 32 → BitVec 32)
    (ff : Fp → Fp → Fp) (i : Instr) (hi : onlyComputes i = true)
    (hr : ((s.issueSet quad j c).vector { c with ins := i }).1 =
      (s.issueSet quad j c).reduce sz (elemCode sz c.f1) code vd vs1 fi ff) :
    let old := s.issueSet quad j c
    let m := Fmt.ofCode (elemCode sz c.f1)
    (sz = 0 ∧ code = 1 → c.ins = i → s.VectorIssues quad j c vd fun n => n.flags = old.flags ∧
      ∀ e, e < 32 → laneOf (n.vr vd) e =
        if e = 0 then (treeUp fi 5 ((List.range 32).map fun e => laneOf (old.vr vs1) e)).headD 0 else 0) ∧
    (¬ (sz = 0 ∧ code = 1) → c.ins = i → s.VectorIssues quad j c vd fun n =>
      ∀ e, e < numEls m.width → elOf (n.vr vd) m.width e =
        (if e = 0 then reducedBits m ff (old.vr vs1) else 0) % 2 ^ m.width) := by
  intro old m
  exact ⟨fun hint hins => h.issues hi hins hr (fun _ => reduce_vr_other old _) (reduce_int old _ hint),
    fun hfloat hins => h.issues hi hins hr (fun _ => reduce_vr_other old _) fun _ => reduce_float old _ hfloat⟩

/-- A conversion in mode NE or TZ to another register (R267, R268). -/
theorem State.VectorReady.issues_converts (h : s.VectorReady quad j c) {part : BitVec 3} {sato : BitVec 1} (mode : BitVec 2)
    (hmode : mode ≠ 2) (i : Instr) (hi : onlyComputes i = true)
    (hr : ((s.issueSet quad j c).vector { c with ins := i }).1 =
      (s.issueSet quad j c).convert { c with ins := i } vd vs1 part sato mode) :
    let old := s.issueSet quad j c
    let S := Fmt.ofCode c.f1
    let T := Fmt.ofCode c.f2
    let cs := numEls S.width
    let cd := numEls T.width
    let si := if cd < cs then part.toNat * cd else 0
    let ti := if cs < cd then part.toNat * cs else 0
    vd ≠ vs1 → c.ins = i → s.VectorIssues quad j c vd fun n => ∀ e, e < cd →
      elOf (n.vr vd) T.width e =
        if ti ≤ e ∧ e < ti + min cs cd then
          (T.enc c.nxr (roundingOf mode) (sato == 1) (S.dec c.nxr (elOf (old.vr vs1) S.width (si + (e - ti))))).1 % 2 ^ T.width
        else elOf (old.vr vd) T.width e := by
  intro old S T cs cd si ti hne hins
  have hconvert : old.convert { c with ins := i } vd vs1 part sato mode =
      old.convertGo c.nxr S T vs1 (sato == 1) mode vd si ti (List.range (min cs cd)) := by
    have hsi : (if cd < cs then part.toNat * min cs cd else 0) = si :=
      ite_congr rfl (fun hlt => by rw [Nat.min_eq_right (Nat.le_of_lt hlt)]) fun _ => rfl
    have hti : (if cs < cd then part.toNat * min cs cd else 0) = ti :=
      ite_congr rfl (fun hlt => by rw [Nat.min_eq_left (Nat.le_of_lt hlt)]) fun _ => rfl
    rw [← hsi, ← hti]
    rfl
  refine h.issues hi hins (hr.trans hconvert) (fun _ => convertGo_vr_other hmode _) fun e he => ?_
  rw [convertGo_elOf hmode hne.symm _ he]
  refine if_congr ?_ rfl rfl
  rw [List.mem_range]
  omega

/-- VIADDS saturates the sums that are no 32-bit integers, and sets SAT where there is one (R100, R266). -/
theorem State.VectorReady.issues_viadds (h : s.VectorReady quad j c) :
    let old := s.issueSet quad j c
    let a := fun (e : Nat) => laneOf (old.vr vs1) e
    let b := fun (e : Nat) => laneOf (old.vr vs2) e
    c.ins = .viadds vd vs1 vs2 → s.VectorIssues quad j c vd fun n =>
      (∀ e, e < 32 → laneOf (n.vr vd) e = if sumFits (a e) (b e) then a e + b e
        else if 0 ≤ (a e).toInt + (b e).toInt then 0x7FFFFFFF else 0x80000000) ∧
      n.flags = if (List.range 32).all fun e => sumFits (a e) (b e) then old.flags else old.flags ||| 2 := by
  intro old a b hins
  have hr : (old.vector { c with ins := .viadds vd vs1 vs2 }).1 =
      old.setEls vd 32 ((List.range 32).map fun e => ((addSat (a e) (b e)).1.toNat, (addSat (a e) (b e)).2)) := by
    refine (rfl : _ = old.int2 vd vs1 vs2 addSat).trans ?_
    simp only [KSet.int2, ofNat_elOf, a, b]
  have hissues := h.issues_lanes (fun e => addSat (a e) (b e)) (.viadds vd vs1 vs2) rfl hr hins
  simp only [addSat_eq] at hissues
  refine hissues.imp fun n ⟨hlanes, hflags⟩ => ⟨hlanes, hflags.trans ?_⟩
  rw [orFlags_map_ite]
  split
  · exact BitVec.or_zero
  · rfl

/-- VSEL takes each bit from one source or the other (R270). -/
theorem State.VectorReady.issues_vsel (h : s.VectorReady quad j c) :
    let old := s.issueSet quad j c
    c.ins = .vsel vd vs1 vs2 → s.VectorIssues quad j c vd fun n => n.flags = old.flags ∧ ∀ e, e < 32 →
      laneOf (n.vr vd) e = (laneOf (old.vr vd) e &&& laneOf (old.vr vs1) e) |||
        (~~~laneOf (old.vr vd) e &&& laneOf (old.vr vs2) e) := by
  intro old hins
  refine h.issues (i := .vsel vd vs1 vs2) rfl hins rfl (fun _ => vr_setVr_other _ _) ⟨rfl, fun e he => ?_⟩
  exact (congrArg (laneOf · e) (vr_setVr_same ..)).trans (laneOf_select _ _ _ he)

end Commands

theorem map_range_const (n x : Nat) : (List.range n).map (fun _ => x) = List.replicate n x := by
  rw [List.map_const', List.length_range]

/-- Settles O45: each command by the shape of its result. -/
theorem theVectorSectionComputesLaneWise : Obligations.TheVectorSectionComputesLaneWise := by
  intro s quad j c vd vs1 vs2 part xs sz code sato k ep hfree hawake hnext hhead hset hcmd old issues a b lanes computes
    m w N raw val elems gathers floats moves compares reduces converts
  have h : s.VectorReady quad j c := ⟨hfree, hawake, hnext, hhead, hset, hcmd⟩
  have lane : ∀ i f, onlyComputes i = true →
      (old.vector { c with ins := i }).1 = old.int2 vd vs1 vs2 (fun x y => (f x y, 0)) → computes i f :=
    fun i f => h.issues_int2 f i
  have element : ∀ i g, onlyComputes i = true → (old.vector { c with ins := i }).1 =
      old.setEls vd w ((List.range N).map fun e => m.result (g e)) → floats i g :=
    fun i g => h.issues_els w (fun e => m.result (g e)) i
  have move : ∀ i g, onlyComputes i = true → (old.vector { c with ins := i }).1 =
      old.setVr vd (ofEls w ((List.range N).map g)) → moves i g := fun i g => h.issues_moves w g i
  refine ⟨lane (.viadd vd vs1 vs2) (fun x y => x + y) rfl rfl, lane (.visub vd vs1 vs2) (fun x y => x - y) rfl rfl,
    lane (.vimul vd vs1 vs2) (fun x y => x * y) rfl rfl, lane (.vand vd vs1 vs2) (fun x y => x &&& y) rfl rfl,
    lane (.vor vd vs1 vs2) (fun x y => x ||| y) rfl rfl, lane (.vxor vd vs1 vs2) (fun x y => x ^^^ y) rfl rfl,
    lane (.vshl vd vs1 vs2) (fun x y => x <<< (y.toNat % 32)) rfl rfl,
    lane (.vshr vd vs1 vs2) (fun x y => x >>> (y.toNat % 32)) rfl rfl,
    lane (.vsra vd vs1 vs2) (fun x y => x.sshiftRight (y.toNat % 32)) rfl rfl, h.issues_viadds, h.issues_vsel,
    element (.vadd vd vs1 vs2 sz) (fun e => (val vs1 e).add (val vs2 e)) rfl rfl,
    element (.vsub vd vs1 vs2 sz) (fun e => (val vs1 e).add (val vs2 e).neg) rfl rfl,
    element (.vmul vd vs1 vs2 sz) (fun e => (val vs1 e).mul (val vs2 e)) rfl rfl,
    element (.vfma vd vs1 vs2 sz) (fun e => (val vd e).add ((val vs1 e).mul (val vs2 e))) rfl rfl,
    element (.vmax vd vs1 vs2 sz) (fun e => (val vs1 e).max (val vs2 e)) rfl rfl,
    element (.vmin vd vs1 vs2 sz) (fun e => (val vs1 e).min (val vs2 e)) rfl rfl,
    element (.vabs vd vs1 sz) (fun e => (val vs1 e).abs) rfl rfl,
    element (.vneg vd vs1 sz) (fun e => (val vs1 e).neg) rfl rfl,
    element (.vexp2 vd vs1 sz) (fun e => (val vs1 e).exp2) rfl rfl,
    element (.vrcp vd vs1 sz) (fun e => (val vs1 e).rcp) rfl rfl,
    element (.vrsq vd vs1 sz) (fun e => (val vs1 e).rsqrt) rfl rfl,
    element (.vlog2 vd vs1 sz) (fun e => (val vs1 e).log2) rfl rfl,
    move (.vperm vd vs1 vs2 sz) (fun e => raw vs1 (raw vs2 e % N)) rfl ?perm,
    move (.vrot vd vs1 xs sz) (fun e => raw vs1 ((e + c.x.toNat) % N)) rfl rfl,
    move (.vspl vd xs sz) (fun _ => c.x.toNat) rfl ?splat,
    move (.vlane vd vs1 xs sz) (fun _ => raw vs1 (c.x.toNat % N)) rfl ?splatLane,
    h.issues_compares true (fun x y => decide (x = y)) Fp.eq (.vcmpeq vd vs1 vs2 sz code) rfl rfl,
    h.issues_compares false (fun x y => decide (x < y)) Fp.lt (.vcmplt vd vs1 vs2 sz code) rfl rfl,
    h.issues_compares false (fun x y => decide (x ≤ y)) (fun x y => x.lt y || x.eq y) (.vcmple vd vs1 vs2 sz code) rfl
      rfl,
    h.issues_reduces (fun x y => x + y) Fp.add (.vsum vd vs1 sz code) rfl rfl,
    h.issues_reduces maxInt Fp.max (.vrmax vd vs1 sz code) rfl rfl,
    h.issues_reduces minInt Fp.min (.vrmin vd vs1 sz code) rfl rfl,
    fun hne _ => h.issues_converts 0 (by decide) (.vcvt vd vs1 part sato 0) rfl rfl hne,
    fun hne _ => h.issues_converts 1 (by decide) (.vcvt vd vs1 part sato 1) rfl rfl hne,
    fun hne _ => h.issues_converts 0 (by decide) (.vcvti vd vs1 part sato 0) rfl rfl hne,
    fun hne _ => h.issues_converts 1 (by decide) (.vcvti vd vs1 part sato 1) rfl rfl hne⟩
  case perm => exact congrArg (fun l => old.setVr vd (ofEls w l)) List.map_map
  case splat => exact congrArg (fun l => old.setVr vd (ofEls w l)) (map_range_const ..).symm
  case splatLane => exact congrArg (fun l => old.setVr vd (ofEls w l)) (map_range_const ..).symm

end Sys2Proof.Machine

/-! PROOFS. Rings, KEEP and the solve commands at the core (R282 to R285, R293, R296): what the ring shadows hold before and
after each step of an entry, the checks of R287 on them, and the statement. -/

namespace Sys2Proof.Machine

/-! ### Ring shadows (R283) -/

@[simp] theorem setShadow_me (s : State) (i : BitVec 2) (h : Shadow) : (s.setShadow i h).me =
    { s.me with shadows := tset s.me.shadows (s.me.run.level * 4 + i.toNat) h } := onMe_me ..

@[simp] theorem setShadow_frame (s : State) (i : BitVec 2) (h : Shadow) : (s.setShadow i h).frame = s.frame := by
  rw [State.frame, setShadow_me]
  rfl

theorem shadow_setShadow_same (s : State) (i : BitVec 2) (h : Shadow) : (s.setShadow i h).shadow i = h := by
  rw [State.shadow, setShadow_frame, setShadow_me]
  exact tget_tset_same ..

theorem shadow_setShadow_other (s : State) {i j : BitVec 2} (h : Shadow) (hne : j ≠ i) :
    (s.setShadow i h).shadow j = s.shadow j := by
  have hkey : s.me.run.level * 4 + j.toNat ≠ s.me.run.level * 4 + i.toNat := fun he =>
    hne (BitVec.eq_of_toNat_eq (Nat.add_left_cancel he))
  rw [State.shadow, setShadow_frame, setShadow_me]
  exact tget_tset_other _ _ _ _ _ hkey

/-- A shadow depends on the running level and on the core's shadows alone. -/
theorem shadow_congr {s t : State} (hlevel : t.me.run.level = s.me.run.level) (hshadows : t.me.shadows = s.me.shadows)
    (i : BitVec 2) : t.shadow i = s.shadow i := by
  rw [State.shadow, State.frame, hlevel, hshadows]
  rfl

theorem onlyX_setShadow (s : State) (i : BitVec 2) (h : Shadow) : s.OnlyX 0 (s.setShadow i h) :=
  .onMe rfl fun _ _ => rfl

/-- Two rings that each give up a tile. -/
def State.takeTiles (s : State) (ia ib : BitVec 2) : State := (s.takeTile ia).takeTile ib

theorem takeTiles_frame (s : State) (ia ib : BitVec 2) : (s.takeTiles ia ib).frame = s.frame := by
  simp only [State.takeTiles, State.takeTile, setShadow_frame]

theorem takeTiles_dq (s : State) (ia ib : BitVec 2) : (s.takeTiles ia ib).me.dq = s.me.dq := by
  simp only [State.takeTiles, State.takeTile, setShadow_me]

theorem onlyX_takeTiles (s : State) (ia ib : BitVec 2) : s.OnlyX 0 (s.takeTiles ia ib) :=
  (onlyX_setShadow ..).trans (onlyX_setShadow ..)

theorem shadow_takeTiles (s : State) {ia ib : BitVec 2} (hne : ia ≠ ib) :
    (s.takeTiles ia ib).shadow ia = { s.shadow ia with avail := (s.shadow ia).avail - 1 } ∧
    (s.takeTiles ia ib).shadow ib = { s.shadow ib with avail := (s.shadow ib).avail - 1 } ∧
    ∀ r, r ≠ ia → r ≠ ib → (s.takeTiles ia ib).shadow r = s.shadow r := by
  simp only [State.takeTiles, State.takeTile]
  refine ⟨?_, ?_, fun r ha hb => ?_⟩
  · rw [shadow_setShadow_other _ _ hne, shadow_setShadow_same]
  · rw [shadow_setShadow_same, shadow_setShadow_other _ _ hne.symm]
  · rw [shadow_setShadow_other _ _ hb, shadow_setShadow_other _ _ ha]

/-! ### What the entry of a command leaves (R252, R368) -/

theorem usePrefix_shadow (s : State) (i : Instr) (r : BitVec 2) : (s.usePrefix i).shadow r = s.shadow r := by
  unfold State.usePrefix
  split
  · exact shadow_congr (by rw [onFrame_me]) (by rw [onFrame_me]) r
  · rfl

theorem Retires.shadow {u t : State} {n : Word} (h : u.Retires t n) (r : BitVec 2) : t.shadow r = u.shadow r :=
  shadow_congr (by rw [Retires.me_eq h]) (by rw [Retires.me_eq h]) r

section Entry

variable (u : State) (i : Instr) (x : Word) (ep off target : Nat)

theorem enterKiln_shadow (r : BitVec 2) : (u.enterKiln i x ep off target).shadow r = u.shadow r := by
  rw [enterKiln_eq_retire, Retires.shadow (retire_retires ..), usePrefix_shadow]
  exact shadow_congr (by rw [withCmd_me]) (by rw [withCmd_me]) r

theorem enterKiln_dq : (u.enterKiln i x ep off target).me.dq = u.me.dq ++ [u.kilnCmd i x ep off target] := by
  rw [enterKiln_eq_retire, Retires.me_eq (retire_retires ..), (usePrefix_dq_sets ..).1, withCmd_me]

theorem enterKiln_cur : (u.enterKiln i x ep off target).cur = u.cur := by
  rw [enterKiln_eq_retire, Retires.cur (retire_retires ..)]
  exact ((onlyX_withCmd u _).trans (onlyX_usePrefix _ i)).cur

end Entry

/-- A command that enters behind an own part that changes no register. -/
theorem enterKiln_goneOn {s u : State} {srcs : List XReg} (ho : (s.wake srcs 0).OnlyX 0 u) (i : Instr) (x : Word)
    (ep off target : Nat) :
    s.goneOn (u.enterKiln i x ep off target) 4 1 ∧ s.keepsBut (u.enterKiln i x ep off target) 0 := by
  rw [enterKiln_eq_retire]
  obtain ⟨hgone, hkeeps⟩ := State.OnlyX.goneOn_keepsFrom (.wake s srcs 0)
    (ho.trans ((onlyX_withCmd u (u.kilnCmd i x ep off target)).trans (onlyX_usePrefix _ i))) (retire_retires _ 1)
  exact ⟨hgone, keepsBut_of_wake hkeeps⟩

theorem ckCycle_dq (u : State) : (u.ckCycle u.cur).me.dq = u.me.dq.map fun k => { k with old := true } := by
  have hspend : (u.ckCycle u.cur).me.dq = (u.checkpoint u.cur).me.dq :=
    (congrArg Core.dq (beneath_spend (u.checkpoint u.cur) u.cur 1).me :)
  have hck : (u.checkpoint u.cur).me = (u.checkpoint u.cur).core u.cur := rfl
  rw [hspend, hck, State.checkpoint, onCore_core]
  rfl

theorem ckCycle_shadow (u : State) (r : BitVec 2) : (u.ckCycle u.cur).shadow r = u.shadow r := by
  obtain ⟨ck, pub, dq, parked, hown⟩ := ckCycle_own u
  exact shadow_congr (congrArg (fun c => c.run.level) hown :) (congrArg Core.shadows hown :) r

/-- As `enterKiln_goneOn`, for a command that also takes a checkpoint, with the queue and the shadows that it leaves. -/
theorem enterKiln_ckCycle {s u : State} {srcs : List XReg} (ho : (s.wake srcs 0).OnlyX 0 u) (i : Instr) (x : Word)
    (ep off target : Nat) :
    let t := (u.enterKiln i x ep off target).ckCycle u.cur
    s.goneOn t 4 1 ∧ s.keepsBut t 0 ∧
      t.me.dq = (u.me.dq ++ [u.kilnCmd i x ep off target]).map (fun k => { k with old := true }) ∧
      ∀ r, t.shadow r = u.shadow r := by
  intro t
  obtain ⟨hgone, hkeeps⟩ := enterKiln_goneOn ho i x ep off target
  have hck : (u.enterKiln i x ep off target).OnlyX 0 t := .ckCycle ..
  have ht : t = (u.enterKiln i x ep off target).ckCycle (u.enterKiln i x ep off target).cur := by rw [enterKiln_cur]
  refine ⟨hck.goneOn hgone, hck.keepsFrom hkeeps, ?queue, fun r => ?shadow⟩
  case queue => rw [ht, ckCycle_dq, enterKiln_dq]
  case shadow => rw [ht, ckCycle_shadow, enterKiln_shadow]

/-! ### What a kiln instruction finds with its banks awake -/

section Wake

variable (s : State) (srcs : List XReg) (dst : XReg)

theorem wake_shadow (r : BitVec 2) : (s.wake srcs dst).shadow r = s.shadow r := by
  obtain ⟨b, h⟩ := wake_me s srcs dst
  exact shadow_congr (by rw [h]) (by rw [h]) r

theorem wake_ringBad (r : BitVec 2) (need : Nat) : (s.wake srcs dst).ringBad r need = s.ringBad r need := by
  rw [State.ringBad, wake_shadow, wake_carve]
  rfl

theorem wake_keeper : (s.wake srcs dst).keeper = s.keeper := by
  rw [State.keeper, wake_frame]
  rfl

theorem wake_framesTo (tgt lvl : Nat) : (s.wake srcs dst).framesTo tgt lvl = s.framesTo tgt lvl := rfl

end Wake

/-! ### RINGDEF (R282, R284) -/

/-- The shadow of a ring as its record defines it. -/
def Ring.toShadow (r : Ring) : Shadow :=
  { base := r.base, tiles := r.tiles, tbytes := r.tbytes, avail := (r.tail + 65536 - r.head) % 65536 }

/-- A valid record in the own scratchpad, unlocked and clean, becomes the shadow, and the command enters. -/
theorem exec_ringdef_own {s : State} {xs : XReg} {ia : BitVec 2} {off : Nat} {r : Ring}
    (hc : s.kilnClear (.ringdef xs ia) [xs] = true) (ha : (s.x xs).toNat = 0x7E0000000000 + off) (hal : off % 16 = 0)
    (hoff : off < 131072) (hfit : off + 16 ≤ s.me.carve.spadSize)
    (hlock : s.locked s.cur (.spad s.cur off) (s.x xs).toNat 16 false = false)
    (hpois : s.anyPoison (arrayBase s.cur + off) 16 = false)
    (hring : ringOf (s.spadBytes s.cur off 16) s.me.carve.spadSize = some r) :
    exec (.ringdef xs ia) s = .next (((s.wake [xs] 0).setShadow ia r.toShadow).enterKiln (.ringdef xs ia)
      (wordAt (s.spadBytes s.cur off 16) 0) s.cur (natAt (s.spadBytes s.cur off 16) 8 4) 0) := by
  refine exec_of_runKiln hc (exec_ringdef ..) ?_
  have haligned : ¬ (s.x xs).toNat % 16 ≠ 0 := by omega
  have hbelow : ¬ 0x7E0000020000 ≤ (s.x xs).toNat := by omega
  have hwin : (s.wake [xs] 0).kilnWindow (s.x xs) 16 = some (s.cur, off) :=
    kilnWindow_own ha hoff (by rw [wake_carve]; exact hfit)
  simp only [wake_x, haligned, hbelow, hwin, wake_locked, wake_cur, hlock, wake_anyPoison, hpois, wake_spad, wake_carve,
    hring, if_false, Bool.false_eq_true]
  rfl

/-! ### KEEP (R293, R368) -/

section Rings

variable {s : State} {ia ib : BitVec 2} {na nb : Nat} {k : State → State}

theorem withRings_pass (ha : s.ringBad ia na = false) (hb : s.ringBad ib nb = false) (hne : ia ≠ ib) :
    s.withRings ia ib na nb k = k s := by
  rw [State.withRings, ha, hb, beq_false_of_ne hne]
  rfl

theorem withRings_first (ha : s.ringBad ia na = true) : s.withRings ia ib na nb k = s.trap 14 (ia.zeroExtend 64) :=
  if_pos ha

theorem withRings_second (ha : s.ringBad ia na = false) (hb : s.ringBad ib nb = true ∨ ia = ib) :
    s.withRings ia ib na nb k = s.trap 14 (ib.zeroExtend 64) := by
  have hbad : (s.ringBad ib nb || ia == ib) = true := by rwa [Bool.or_eq_true, beq_iff_eq]
  rw [State.withRings, ha, if_neg Bool.false_ne_true, if_pos hbad]
  rfl

end Rings

/-- The running level's keeper is the core itself (R85, R293). -/
def State.keeps (s : State) : Prop := bitOf s.keeper 2 = true ∧ bitsOf s.keeper 0 2 = s.cur % 4

/-- The own q3 has room for a frame beside those that it holds and that are on their way to it (R293, log entry 28). -/
def State.keepRoom (s : State) (tgt : Nat) : Prop :=
  s.kset.q3.length + s.queued s.cur s.frame.level (isKeepTo tgt) + s.framesTo tgt s.frame.level <
    2 + s.queued s.cur s.frame.level isKmmas

/-- KEEP's part after its own checks: the rings, the tiles, the entry and the checkpoint. -/
def State.keepEnters (s : State) (xs : XReg) (ia ib : BitVec 2) : State :=
  s.withRings ia ib 128 128 fun u =>
    ((u.takeTiles ia ib).enterKiln (.keep xs ia ib) (s.x xs) u.cur 0 ((s.x xs).toNat % 4)).ckCycle u.cur

/-- KEEP is for the level's keeper, a target of the quad and, where the target is the core itself, a q3 with room. -/
def State.keepLegal (s : State) (tgt : Nat) : Prop := s.keeps ∧ tgt < 4 ∧ (tgt = s.cur % 4 → s.keepRoom tgt)

/-- The check by which KEEP is illegal. -/
def State.keepRefused (s : State) (a : Nat) : Bool :=
  !bitOf s.keeper 2 || !(bitsOf s.keeper 0 2 == s.cur % 4) || decide (4 ≤ a) ||
    (a % 4 == s.cur % 4 && decide (2 + s.queued s.cur s.frame.level isKmmas ≤
      s.kset.q3.length + s.queued s.cur s.frame.level (isKeepTo (a % 4)) + s.framesTo (a % 4) s.frame.level))

theorem keepRefused_iff (s : State) (a : Nat) : s.keepRefused a = true ↔ ¬ s.keepLegal a := by
  simp only [State.keepRefused, State.keepLegal, State.keeps, Bool.or_eq_true, Bool.and_eq_true, Bool.not_eq_true',
    beq_iff_eq, beq_eq_false_iff_ne, decide_eq_true_eq]
  by_cases h : a < 4
  · simp only [State.keepRoom, Nat.mod_eq_of_lt h, ← Nat.not_le, ← Bool.not_eq_true]
    tauto
  · simp [h, Nat.not_lt.1 h]

theorem wake_keepRefused (s : State) (srcs : List XReg) (dst : XReg) (a : Nat) :
    (s.wake srcs dst).keepRefused a = s.keepRefused a := by
  simp only [State.keepRefused, wake_keeper, wake_cur, wake_frame, wake_kset, wake_queued, wake_framesTo]

section Keep

variable {s : State} {xs : XReg} {ia ib : BitVec 2} (hc : s.kilnClear (.keep xs ia ib) [xs] = true)
include hc

theorem exec_keep_illegal (h : ¬ s.keepLegal (s.x xs).toNat) :
    exec (.keep xs ia ib) s = .next ((s.wake [xs] 0).trap 1 (wordOf (.keep xs ia ib))) := by
  have hrefused : (s.wake [xs] 0).keepRefused ((s.wake [xs] 0).x xs).toNat = true := by
    rw [wake_keepRefused, wake_x]; exact (keepRefused_iff ..).2 h
  exact exec_of_runKiln hc (exec_keep ..) (if_pos hrefused)

theorem exec_keep_legal (h : s.keepLegal (s.x xs).toNat) :
    exec (.keep xs ia ib) s = .next ((s.wake [xs] 0).keepEnters xs ia ib) := by
  have hrefused : ¬ (s.wake [xs] 0).keepRefused ((s.wake [xs] 0).x xs).toNat = true := by
    rw [wake_keepRefused, wake_x]; exact fun hr => (keepRefused_iff ..).1 hr h
  exact exec_of_runKiln hc (exec_keep ..) (if_neg hrefused)

variable (h : s.keepLegal (s.x xs).toNat)
include h

/-- Rings that hold a scale tile each: the command enters with its target, and each shadow loses a tile. -/
theorem keep_enters (ha : s.ringBad ia 128 = false) (hb : s.ringBad ib 128 = false) (hne : ia ≠ ib) :
    ∃ t c, exec (.keep xs ia ib) s = .next t ∧ s.goneOn t 4 1 ∧ s.keepsBut t 0 ∧
      t.me.dq = (s.me.dq ++ [c]).map (fun (k : KCmd) => { k with old := true }) ∧ c.ins = .keep xs ia ib ∧
      c.level = s.frame.level ∧ c.target = (s.x xs).toNat ∧
      t.shadow ia = { s.shadow ia with avail := (s.shadow ia).avail - 1 } ∧
      t.shadow ib = { s.shadow ib with avail := (s.shadow ib).avail - 1 } ∧
      ∀ r, r ≠ ia → r ≠ ib → t.shadow r = s.shadow r := by
  have hexec := exec_keep_legal hc h
  obtain ⟨-, hquad, -⟩ := h
  rw [State.keepEnters, withRings_pass (by rwa [wake_ringBad]) (by rwa [wake_ringBad]) hne] at hexec
  obtain ⟨hgone, hkeeps, hdq, hshadow⟩ := enterKiln_ckCycle (onlyX_takeTiles (s.wake [xs] 0) ia ib) (.keep xs ia ib)
    ((s.wake [xs] 0).x xs) s.cur 0 (((s.wake [xs] 0).x xs).toNat % 4)
  obtain ⟨hshadowA, hshadowB, hother⟩ := shadow_takeTiles (s.wake [xs] 0) hne
  rw [takeTiles_dq, (wake_dq_sets ..).1] at hdq
  refine ⟨_, _, hexec, hgone, hkeeps, hdq, rfl, ?level, ?target, ?first, ?second, fun r hra hrb => ?other⟩
  case level => exact (congrArg Frame.level (takeTiles_frame ..)).trans (congrArg Frame.level (wake_frame ..))
  case target => rw [wake_x]; exact Nat.mod_eq_of_lt hquad
  case first => exact (hshadow ia).trans (by rw [hshadowA, wake_shadow])
  case second => exact (hshadow ib).trans (by rw [hshadowB, wake_shadow])
  case other => exact (hshadow r).trans (by rw [hother r hra hrb, wake_shadow])

theorem keep_badRing :
    (s.ringBad ia 128 = true → exec (.keep xs ia ib) s = .next ((s.wake [xs] 0).trap 14 (ia.zeroExtend 64))) ∧
    (s.ringBad ia 128 = false → (s.ringBad ib 128 = true ∨ ia = ib) →
      exec (.keep xs ia ib) s = .next ((s.wake [xs] 0).trap 14 (ib.zeroExtend 64))) := by
  have hexec := exec_keep_legal hc h
  rw [State.keepEnters] at hexec
  refine ⟨fun ha => ?first, fun ha hb => ?second⟩
  case first => rw [hexec, withRings_first (by rwa [wake_ringBad])]
  case second => rw [hexec, withRings_second (by rwa [wake_ringBad]) (by rwa [wake_ringBad])]

end Keep

/-! ### RINGADV (R285) -/

section Ringadv

variable {s : State} {xs : XReg} {ia : BitVec 2} (hc : s.kilnClear (.ringadv xs ia) [xs] = true)
include hc

/-- An advance within the ring makes its tiles available. -/
theorem exec_ringadv_within (hdef : (s.shadow ia).tiles ≠ 0)
    (hfit : (s.shadow ia).avail + (s.x xs).toNat ≤ (s.shadow ia).tiles) :
    exec (.ringadv xs ia) s = .next (((s.wake [xs] 0).setShadow ia
      { s.shadow ia with avail := (s.shadow ia).avail + (s.x xs).toNat }).plainKiln (.ringadv xs ia) (s.x xs)) := by
  refine exec_of_runKiln hc (exec_ringadv ..) ?_
  have hok : ¬ ((s.shadow ia).tiles = 0 ∨ (s.shadow ia).tiles < (s.shadow ia).avail + (s.x xs).toNat) := by omega
  simp only [wake_shadow, wake_x, hok, if_false]

theorem exec_ringadv_beyond
    (hbad : (s.shadow ia).tiles = 0 ∨ (s.shadow ia).tiles < (s.shadow ia).avail + (s.x xs).toNat) :
    exec (.ringadv xs ia) s = .next ((s.wake [xs] 0).trap 14 (ia.zeroExtend 64)) := by
  refine exec_of_runKiln hc (exec_ringadv ..) ?_
  simp only [wake_shadow, wake_x, hbad, if_true]
  rfl

end Ringadv

/-- A command that enters with one shadow set: what RINGDEF and RINGADV leave. -/
theorem setShadow_enters (s : State) (srcs : List XReg) (ia : BitVec 2) (h : Shadow) (i : Instr) (x : Word)
    (ep off target : Nat) :
    let u := (s.wake srcs 0).setShadow ia h
    let t := u.enterKiln i x ep off target
    let c := u.kilnCmd i x ep off target
    s.goneOn t 4 1 ∧ s.keepsBut t 0 ∧ t.me.dq = s.me.dq ++ [c] ∧ c.level = s.frame.level ∧ t.shadow ia = h := by
  intro u t c
  obtain ⟨hgone, hkeeps⟩ := enterKiln_goneOn (onlyX_setShadow (s.wake srcs 0) ia h) i x ep off target
  refine ⟨hgone, hkeeps, ?queue, ?level, ?shadow⟩
  case queue =>
    have hdq : u.me.dq = s.me.dq := by rw [setShadow_me, (wake_dq_sets ..).1]
    rw [← hdq]
    exact enterKiln_dq ..
  case level => exact (congrArg Frame.level (setShadow_frame ..)).trans (congrArg Frame.level (wake_frame ..))
  case shadow => exact (enterKiln_shadow ..).trans (shadow_setShadow_same ..)

/-! ### Solve commands (R296) -/

section Solve

variable {s : State} {i : Instr} {srcs : List XReg}

/-- A solve command enters the queue with 1 to 32 rows, and is illegal with another count (R296). -/
theorem solve_enters {n : BitVec 6} {x : Word} {f : State → Word}
    (he : exec i s = s.runKiln i srcs fun t => t.solveKiln i n (f t)) (hf : f (s.wake srcs 0) = x)
    (hc : s.kilnClear i srcs = true) :
    (n ≠ 0 → n.toNat ≤ 32 → s.entersKiln i x) ∧
    ((n = 0 ∨ 32 < n.toNat) → exec i s = .next ((s.wake srcs 0).trap 1 (wordOf i))) := by
  obtain ⟨henters, hillegal⟩ := checked_enters (ok := decide (n ≠ 0 ∧ n.toNat ≤ 32)) he
    (by rw [decide_eq_false_iff_not, not_and_or, not_not, Nat.not_le]) hf hc
  exact ⟨fun h0 h32 => henters (decide_eq_true ⟨h0, h32⟩), fun hbad => hillegal (decide_eq_false (by
    rw [not_and_or, not_not, Nat.not_le]; exact hbad))⟩

end Solve

/-- Settles O44: each form by its checks, and the entries by the shadows that they leave. -/
theorem ringsKeepsAndSolvesAreChecked : Obligations.RingsKeepsAndSolvesAreChecked := by
  intro s vd vs xs ia ib n a w queues
  refine ⟨?ringdef, fun hc => ⟨?advance, exec_ringadv_beyond hc⟩, fun hc => ?keep, ?solve⟩
  case ringdef =>
    intro off r hc ha hal hoff hfit hlock hpois hring
    obtain ⟨hgone, hkeeps, hdq, hlevel, hshadow⟩ := setShadow_enters s [xs] ia r.toShadow (.ringdef xs ia)
      (wordAt (s.spadBytes s.cur off 16) 0) s.cur (natAt (s.spadBytes s.cur off 16) 8 4) 0
    exact ⟨_, _, exec_ringdef_own hc ha hal hoff hfit hlock hpois hring, hgone, hkeeps, hdq, rfl, hlevel, hshadow⟩
  case advance =>
    intro hdef hfit
    obtain ⟨hgone, hkeeps, hdq, hlevel, hshadow⟩ := setShadow_enters s [xs] ia
      { s.shadow ia with avail := (s.shadow ia).avail + a.toNat } (.ringadv xs ia) a 0 0 0
    exact ⟨_, _, exec_ringadv_within hc hdef hfit, hgone, hkeeps, hdq, rfl, hlevel, rfl, hshadow⟩
  case keep =>
    intro keeps lvl room
    refine ⟨fun hkeeps hquad hroom => ?legal, fun hillegal => exec_keep_illegal hc ?illegal⟩
    case legal => exact ⟨keep_enters hc ⟨hkeeps, hquad, hroom⟩, keep_badRing hc ⟨hkeeps, hquad, hroom⟩⟩
    case illegal =>
      rintro ⟨hkeeps, hquad, hroom⟩
      rcases hillegal with hnot | hbeyond | ⟨hself, hfull⟩
      · exact hnot hkeeps
      · exact Nat.not_lt.2 hbeyond hquad
      · exact hfull (hroom hself)
  case solve =>
    exact ⟨solve_enters (exec_kfac ..) rfl, solve_enters (exec_ktrsl ..) rfl, solve_enters (exec_ktrsu ..) rfl,
      solve_enters (exec_kmv ..) rfl, solve_enters (exec_kmvt ..) rfl, solve_enters (exec_kdiag ..) (wake_x ..)⟩

end Sys2Proof.Machine

/-! PROOFS. The array's own steps (R278 to R281, R292, R376): when the lease is granted, what the issue of a KZERO leaves of
the kiln, the core's queue and the state set, and when a section is gated. -/

namespace Sys2Proof.Machine

/-! ### The lease (R279, R281) -/

section Lease

variable {s : State} {quad : Nat}

/-- A kiln set to what it is leaves every kiln. -/
theorem kiln_onKiln_fixed {q : Nat} {g : Kiln → Kiln} (h : g (s.kiln q) = s.kiln q) (p : Nat) :
    (s.onKiln q g).kiln p = s.kiln p := by
  by_cases hp : p = q
  · rw [hp, onKiln_kiln, h]
  · exact tget_tset_other _ _ _ _ _ hp

theorem matRequest_onKiln_fixed {q : Nat} {g : Kiln → Kiln} (h : g (s.kiln q) = s.kiln q) (p j : Nat) :
    (s.onKiln q g).matRequest p j = s.matRequest p j := by
  simp only [State.matRequest, State.kReady, State.keepWaits, kiln_onKiln_fixed h]
  rfl

/-- With no lease held, no firing ends: what a grant finds is the state with its kiln set to what it is. -/
theorem firingEnds_free (h : (s.kiln quad).lease = none) :
    ∃ g : Kiln → Kiln, g (s.kiln quad) = s.kiln quad ∧ (s.checkEvent5 quad).endFiring quad = s.onKiln quad g := by
  have hevent : s.checkEvent5 quad = s := by rw [State.checkEvent5, h]
  rw [hevent]
  exact ⟨_, by rw [h], rfl⟩

/-- A free array that is awake and past its gap goes to the first core that requests it. -/
theorem leaseGrant_grants {j lvl : Nat} {byL : Bool} (hfree : (s.kiln quad).lease = none)
    (hgap : (s.kiln quad).nextGrant ≤ s.now) (hawake : (s.kiln quad).matGated = false)
    (hfirst : (rotation (s.kiln quad).lastHolder).findSome? (fun j => (s.matRequest quad j).map (fun r => (j, r))) =
      some (j, lvl, byL)) :
    ∃ t, exec (.leaseGrant quad) s = .next t ∧ (t.kiln quad).lease =
      some { core := j, level := lvl, grantedAt := s.now, from' := s.after (4 * quad) 1, issued := 0, ending := false,
             byLease := byL } := by
  obtain ⟨g, hg, hs1⟩ := firingEnds_free hfree
  have hnow : ¬ (s.onKiln quad g).now < (s.kiln quad).nextGrant := Nat.not_lt.2 hgap
  simp only [exec_leaseGrant, execLeaseGrant, hs1, kiln_onKiln_fixed hg, matRequest_onKiln_fixed hg, hfree, hfirst, hawake,
    hnow, Option.isSome_none, decide_false, Bool.or_self, Bool.false_eq_true, if_false]
  exact ⟨_, rfl, congrArg Kiln.lease (onKiln_kiln ..)⟩

/-- The protection of a grant to a LEASE ends once its 64 cycles have passed. -/
theorem leaseGrantTermExpiry_ends {l : Lease} (hheld : (s.kiln quad).lease = some l) (hby : l.byLease = true)
    (hpassed : s.passed (4 * quad) l.grantedAt 64 = true) :
    ∃ t, exec (.leaseGrantTermExpiry quad) s = .next t ∧ (t.kiln quad).lease = some { l with byLease := false } := by
  refine ⟨_, by rw [exec_leaseGrantTermExpiry, execLeaseGrantTermExpiry], ?_⟩
  simp only [onKiln_kiln, hheld, hby, hpassed, and_self, if_true]

end Lease

/-! ### Gating (R376) -/

section Gating

variable {s : State} {quad : Nat}

theorem kilnGate_array (hidle : (s.kiln quad).matIdleAt + 1024 ≤ s.now)
    (hflight : (s.kiln quad).flight.all (fun f => !isMatrix f.cmd.ins) = true)
    (hnone : (List.range 4).all (fun j => (s.matRequest quad j).isNone) = true) :
    ∃ t, exec (.kilnGate quad true) s = .next t ∧ (t.kiln quad).matGated = true := by
  refine ⟨_, by rw [exec_kilnGate, execKilnGate, if_pos rfl, if_pos ⟨hidle, hflight, hnone⟩], ?_⟩
  rw [onKiln_kiln]

theorem kilnGate_vector (hidle : (s.kiln quad).vecIdleAt + 1024 ≤ s.now)
    (hflight : (s.kiln quad).flight.all (fun f => isMatrix f.cmd.ins) = true)
    (hnone : (List.range 4).all (fun j => !s.vecRequest quad j) = true) :
    ∃ t, exec (.kilnGate quad false) s = .next t ∧ (t.kiln quad).vecGated = true := by
  refine ⟨_, by rw [exec_kilnGate, execKilnGate, if_neg Bool.false_ne_true, if_pos ⟨hidle, hflight, hnone⟩], ?_⟩
  rw [onKiln_kiln]

end Gating

/-! ### The issue of KZERO (R278, R280, R292) -/

/-- What KZERO writes when it retires: a k0 of zeros. -/
def zeroedK0 : KOut := { v := none, k0 := some [], flags := 0 }

theorem outOf_kzero {c : KCmd} (h : c.ins = .kzero) (k : KSet) : k.outOf c = zeroedK0 := by
  simp [KSet.outOf, KSet.matrix1, h, zeroedK0]

/-- A KZERO in flight, to retire 2 cycles after its issue. -/
def State.zeroFlight (s : State) (ep : Nat) (c : KCmd) : Flight :=
  { mkFlight c ep (s.after ep 2) with out := some zeroedK0 }

/-- The issue of a KZERO: it leaves the queue and is in flight, and the array is busy for a cycle. -/
theorem issueMat_kzero {c : KCmd} (h : c.ins = .kzero) (s : State) (q ep : Nat) :
    s.issueMat q ep c = (((s.snapshot ep c).dropHead ep).fly q (s.zeroFlight ep c)).onKiln q fun n =>
      { n with arrayFree := s.after ep 1 } := by
  simp only [State.issueMat, h, prodOf, isSolve, outOf_kzero h, matTimes]
  rfl

/-- The array is held, free and awake, and the KZERO c of the holder's level is ready at the head of the holder's queue; no
word that it could read is in error. -/
structure State.ZeroReady (s : State) (quad : Nat) (l : Lease) (c : KCmd) : Prop where
  held : (s.kiln quad).lease = some l
  awake : (s.kiln quad).matGated = false
  firing : l.ending = false
  started : l.from' ≤ s.now
  free : (s.kiln quad).arrayFree ≤ s.now
  level : c.level = l.level
  head : s.head (quadCore quad l.core) = some c
  ins : c.ins = .kzero
  setGood : (s.ksetOf (quadCore quad l.core) c.level).bad = []
  cmdGood : c.bad = false
  slot : s.slotOpen (quadCore quad l.core) = true
  ready : s.kReady (quadCore quad l.core) c = true

/-- A command that has left its core's queue counts towards the firing. -/
def State.counted (t : State) (quad : Nat) (l : Lease) (now : Nat) : State :=
  t.onKiln quad fun n => { n with
    lease := some { l with issued := l.issued + 1, ending := decide (64 ≤ l.issued + 1) }, matIdleAt := now }

theorem core_counted (t : State) (quad : Nat) (l : Lease) (now ep : Nat) :
    (t.counted quad l now).core ep = t.core ep := rfl

theorem issueMat_kzero_keeps {c : KCmd} (h : c.ins = .kzero) (s : State) (q ep : Nat) :
    ((s.issueMat q ep c).core ep).dq = (s.core ep).dq.drop 1 ∧ ((s.issueMat q ep c).core ep).sets = (s.core ep).sets := by
  have hcore : (s.issueMat q ep c).core ep = ((s.snapshot ep c).dropHead ep).core ep := by rw [issueMat_kzero h]; rfl
  obtain ⟨-, hdq, hsets⟩ := snapshot_keeps s ep c
  rw [hcore, core_dropHead]
  exact ⟨congrArg (List.drop 1) hdq, hsets⟩

theorem State.ZeroReady.exec {s : State} {quad : Nat} {l : Lease} {c : KCmd} (h : s.ZeroReady quad l c) :
    exec (.matrixCommandIssue quad) s =
      .next ((s.issueMat quad (quadCore quad l.core) c).counted quad l s.now) := by
  obtain ⟨hheld, hawake, hfiring, hstarted, hfree, hlevel, hhead, hins, hset, hcmd, hslot, hready⟩ := h
  have hleaves : ((s.issueMat quad (quadCore quad l.core) c).core (quadCore quad l.core)).dq.length <
      (s.core (quadCore quad l.core)).dq.length := by
    rw [(issueMat_kzero_keeps hins ..).1, List.length_drop]
    have hpos : (s.core (quadCore quad l.core)).dq ≠ [] := fun hnil => by simp [State.head, hnil] at hhead
    exact Nat.sub_lt (List.length_pos_iff.2 hpos) Nat.one_pos
  have hmatrix : isMatrix c.ins = true := by rw [hins]; rfl
  have huse := useSet_good hset hcmd fun u => u.issueMat quad (quadCore quad l.core) c
  simp only [exec_matrixCommandIssue, execMatrixCommandIssue, hheld, hhead, hfiring, Nat.not_lt.2 hstarted,
    Nat.not_lt.2 hfree, hmatrix, hlevel, hslot, hready, hawake, huse, hleaves, decide_false, beq_self_eq_true,
    Bool.not_true, Bool.or_self, Bool.false_eq_true, if_false, if_true, State.counted]

/-- The holder's KZERO issues. -/
theorem State.ZeroReady.issues {s : State} {quad : Nat} {l : Lease} {c : KCmd} (h : s.ZeroReady quad l c) :
    let ep := quadCore quad l.core
    ∃ t f, Machine.exec (.matrixCommandIssue quad) s = .next t ∧ (t.kiln quad).flight = (s.kiln quad).flight ++ [f] ∧
      f.cmd = c ∧ f.core = ep ∧ f.due = s.after ep 2 ∧ f.out = some { v := none, k0 := some [], flags := 0 } ∧
      t.ksetOf ep c.level = s.ksetOf ep c.level ∧ (t.core ep).dq = (s.core ep).dq.drop 1 ∧
      (t.kiln quad).arrayFree = s.after ep 1 ∧
      (t.kiln quad).lease = some { l with issued := l.issued + 1, ending := decide (64 ≤ l.issued + 1) } := by
  intro ep
  obtain ⟨hdq, hsets⟩ := issueMat_kzero_keeps h.ins s quad ep
  refine ⟨_, s.zeroFlight ep c, h.exec, ?flight, rfl, rfl, rfl, rfl, ?set, ?queue, ?free, ?lease⟩
  case flight =>
    rw [State.counted, onKiln_kiln, issueMat_kzero h.ins, onKiln_kiln, State.fly, onKiln_kiln, kiln_dropHead, kiln_snapshot]
  case set => rw [State.counted, ksetOf_onKiln, ksetOf_congr hsets]
  case queue => rw [core_counted, hdq]
  case free => rw [State.counted, onKiln_kiln, issueMat_kzero h.ins, onKiln_kiln]
  case lease => rw [State.counted, onKiln_kiln]

/-- Settles O46: each step by the lemma above that says when it happens. -/
theorem theArrayIsLeasedAndIssues : Obligations.TheArrayIsLeasedAndIssues := by
  intro s quad j lvl byL l c k
  refine ⟨leaseGrant_grants, ?issue, leaseGrantTermExpiry_ends, kilnGate_array, kilnGate_vector⟩
  case issue =>
    intro hheld hawake hfiring hstarted hfree hlevel hhead hins hset hcmd hslot hready
    have h : s.ZeroReady quad l c :=
      ⟨hheld, hawake, hfiring, hstarted, hfree, hlevel, hhead, hins, hset, hcmd, hslot, hready⟩
    exact h.issues

end Sys2Proof.Machine

/-! PROOFS. A skip notice at its first router (R461): it carries no number of its own, so that it passes what waits for
the number that it names, and the pair's next number is left for the packet behind it. -/

namespace Sys2Proof.Machine

/-- A skip notice for core 128, from the router of core 0. -/
def skipNotice128 : Pkt :=
  { src := 0, dst := 128, cls := 6, sseq := 0, vdev := 0, gen := 0, fkey := 0, len := 16, redok := false,
    body := .skipNote 8 128 3, pos := 0, numbered := false, link := none }

/-- The mesh with that notice at its first router; a packet of its pair has been numbered before. -/
def skipAtRouter : State := { State.reset.sendSkip 0 8 128 3 with sseqOut := [(pairKey 0 128, 1)] }

/-- The east output of the router of core 0. -/
def eastOutput : Nat := 2 ^ 11

/-- The notice's request, and the output after its grant. -/
def eastGrant : ArbReq × Arb :=
  ({ vdev := 0, cls := 6, cost := 1 }, { Arb.reset with lastG := 0, lastCls := [(0, 6)], freeAt := 1 })

theorem skipNotice_granted :
    (skipAtRouter.arb 0 eastOutput).grant 0 skipAtRouter.now (headReqs meshFlits [skipNotice128] []) =
      some eastGrant := by
  decide +kernel

/-- The notice moves one hop with the number that it came with. -/
theorem skipNotice_keeps_sseq :
    reaches (exec (.arbiterGrant 0 eastOutput) skipAtRouter) (fun t => t.egress.all (fun q => q.sseq == 0)) = true := by
  decide +kernel

/-- Refutes O57: the skip notice at `skipAtRouter` takes no number at its first router, where the pair's next is 1. -/
theorem not_packetsMoveThroughTheFabric : ¬ Obligations.PacketsMoveThroughTheFabric := by
  unfold Obligations.PacketsMoveThroughTheFabric
  intro h
  obtain ⟨mesh, -⟩ :=
    h skipAtRouter skipNotice128 ⟨skipNotice128, 0, 0, 0, 0, []⟩ [] eastOutput 0 0 eastGrant.1 eastGrant.2
  obtain ⟨-, unnumbered⟩ := mesh rfl (by decide +kernel) skipNotice_granted rfl rfl
  obtain ⟨east, -⟩ := unnumbered rfl (by decide) (by decide +kernel)
  obtain ⟨t, ht, hegress⟩ := east 1 1 (by decide +kernel)
  have hkept := of_reaches skipNotice_keeps_sseq ht
  rw [hegress] at hkept
  exact absurd hkept (by decide +kernel)

end Sys2Proof.Machine

/-! PROOFS. Barrier and ABORT notices (R327, R328, R446): a notice that finds no arrival is held, a round that an open
arrival has not received is marked in it, and the arrival ends with its last round or with ABORT. -/

namespace Sys2Proof.Machine

/-! ### A delivered packet taken -/

/-- The state whose endpoint's deliveries are what remains after its first packet. -/
def State.tookPkt (s : State) (ep : Nat) (l : List Pkt) : State := { s with inbox := tset s.inbox ep l }

theorem takePkt_head {s : State} {ep : Nat} {p : Pkt} {l : List Pkt} {f : Pkt → Bool}
    (hin : tget s.inbox ep [] = p :: l) (hp : f p = true) : s.takePkt ep f = some (p, s.tookPkt ep l) := by
  simp [State.takePkt, hin, takeOrdered, hp, State.tookPkt]

theorem tookPkt_core (s : State) (ep : Nat) (l : List Pkt) (e : Nat) : (s.tookPkt ep l).core e = s.core e := rfl

theorem asDevice_of_runs {s : State} {ep v : Nat} (h : (s.core ep).runs v = true) (f : State → State) :
    s.asDevice ep v f = f s := by
  simp [State.asDevice, h]

/-- A notice for a device that runs finds an entry where one of the core bears its BID, or where one is free. -/
theorem entryFor_of_runs {s : State} {ep v bid : Nat} (hruns : (s.core ep).runs v = true)
    (h : (s.core ep).gbars.any (fun g => g.bid == bid) = true ∨ (s.core ep).gbarCount < 64) :
    s.entryFor ep v bid = true := by
  simpa [State.entryFor, hruns] using h

/-! ### A notice without an open arrival (R328) -/

/-- The entry that a notice without one takes. -/
def heldEntry (p : Pkt) (bid round : Nat) (abort : Bool) : GBar :=
  { bid := bid, opened := false, n := 0, i := 0, peers := [], sent := 0, rcvd := 0, aborted := false,
    held := [(round, abort)], succ := none, hasSucc := false, vdev := p.vdev, gen := p.gen }

theorem holdNotice_free {c : Core} (h : c.gbars = []) (p : Pkt) (bid round : Nat) (abort : Bool) :
    (c.holdNotice bid round p.vdev p.gen abort).gbars = [heldEntry p bid round abort] := by
  simp [Core.holdNotice, h, heldEntry]

section Notice

variable {s : State} {ep bid k : Nat} {p : Pkt} {l : List Pkt} (hin : tget s.inbox ep [] = p :: l)
  (hruns : (s.core ep).runs p.vdev = true)
include hin hruns

theorem barrierNotice_held (hbody : p.body = .bar bid k) (hnone : (s.core ep).gbars = [])
    (hroom : (s.core ep).gbarCount < 64) :
    exec (.barrierNotice ep) s =
      .next ((s.tookPkt ep l).onCore ep (fun c => c.holdNotice bid k p.vdev p.gen false)) := by
  have hentry := entryFor_of_runs (bid := bid) hruns (.inr hroom)
  rw [exec_barrierNotice, execBarrierNotice, takePkt_head hin (by rw [hbody]; exact hentry)]
  simp only [hbody]
  rw [asDevice_of_runs (by exact hruns), tookPkt_core, hnone]
  rfl

theorem abortNotice_held (hbody : p.body = .abort bid) (hnone : (s.core ep).gbars = [])
    (hroom : (s.core ep).gbarCount < 64) :
    exec (.abortNotice ep) s =
      .next ((s.tookPkt ep l).onCore ep (fun c => c.holdNotice bid 0 p.vdev p.gen true)) := by
  have hentry := entryFor_of_runs (bid := bid) hruns (.inr hroom)
  rw [exec_abortNotice, execAbortNotice, takePkt_head hin (by rw [hbody]; exact hentry)]
  simp only [hbody]
  rw [asDevice_of_runs (by exact hruns), tookPkt_core, hnone]
  rfl

end Notice

/-! ### A notice of an open arrival (R327) -/

/-- An arrival that has received one more round. -/
def GBar.receive (g : GBar) (k : Nat) : GBar := { g with rcvd := g.rcvd ||| BitVec.ofNat 16 (2 ^ k) }

/-- An arrival that ABORT has ended. -/
def GBar.abort (g : GBar) : GBar := { g with aborted := true }

theorem receive_getLsbD (g : GBar) {k j : Nat} (hj : j < 16) :
    (g.receive k).rcvd.getLsbD j = (j == k || g.rcvd.getLsbD j) := by
  have hbit : (BitVec.ofNat 16 (2 ^ k)).getLsbD j = (j == k) := by
    rw [BitVec.getLsbD_ofNat, Nat.testBit_two_pow, decide_eq_true hj, Bool.true_and]
    exact decide_eq_decide.2 eq_comm
  rw [GBar.receive, BitVec.getLsbD_or, hbit, Bool.or_comm]

theorem rounds_le (n : Nat) : rounds n ≤ 16 := by
  unfold rounds
  cases h : (List.range 17).find? (fun r => decide (n ≤ 2 ^ r)) with
  | none => rfl
  | some r => exact Nat.lt_succ_iff.1 (List.mem_range.1 (List.mem_of_find?_eq_some h))

theorem receive_all (g : GBar) (k : Nat) :
    (List.range (rounds g.n)).all (fun j => (g.receive k).rcvd.getLsbD j) =
      (List.range (rounds g.n)).all (fun j => j == k || g.rcvd.getLsbD j) := by
  rw [Bool.eq_iff_iff, List.all_eq_true, List.all_eq_true]
  refine forall₂_congr fun j hj => ?_
  rw [receive_getLsbD g ((List.mem_range.1 hj).trans_le (rounds_le g.n))]

/-- An arrival still lacks a round, and stands. -/
theorem gbarTry_lacking {s : State} {ep bid : Nat} {g : GBar}
    (hfind : (s.core ep).gbars.find? (fun g => g.bid == bid && g.opened) = some g)
    (hlacks : (List.range (rounds g.n)).all (fun k => g.rcvd.getLsbD k) = false) (habort : g.aborted = false) :
    s.gbarTry ep bid = s := by
  simp [State.gbarTry, hfind, hlacks, habort]

/-- An arrival that is done or aborted, with no notice held and no successor, leaves its entry free. -/
theorem gbarTry_ends {s : State} {ep bid : Nat} {g : GBar}
    (hfind : (s.core ep).gbars.find? (fun g => g.bid == bid && g.opened) = some g)
    (hends : (g.sent = rounds g.n ∧ (List.range (rounds g.n)).all (fun k => g.rcvd.getLsbD k) = true) ∨
      g.aborted = true)
    (hheld : g.held = []) (hsucc : g.succ = none) : s.gbarTry ep bid = s.freedGbar ep bid := by
  have hdone : (g.sent == rounds g.n && (List.range (rounds g.n)).all (fun k => g.rcvd.getLsbD k) ||
      g.aborted) = true := by
    rcases hends with ⟨hsent, hall⟩ | habort
    · simp only [hsent, hall, beq_self_eq_true, Bool.and_self, Bool.true_or]
    · simp only [habort, Bool.or_true]
  simp [State.gbarTry, hfind, hdone, hheld, hsucc, State.freedGbar]

theorem find?_own {g : GBar} {bid : Nat} (hbid : g.bid = bid) (hopen : g.opened = true) :
    [g].find? (fun g => g.bid == bid && g.opened) = some g := by
  simp [hbid, hopen]

theorem freedGbar_own {t : State} {ep bid : Nat} {g : GBar} (h : (t.core ep).gbars = [g]) (hbid : g.bid = bid) :
    ((t.freedGbar ep bid).core ep).gbars = [] := by
  simp [freedGbar_gbars, h, hbid]

/-- The state in which an arrival of a core has received a round. -/
def State.received (s : State) (ep bid k : Nat) : State :=
  s.onCore ep (fun c => { c with gbars := c.gbars.map (fun h => if h.bid == bid then h.receive k else h) })

/-- The state in which ABORT has ended an arrival of a core. -/
def State.abortedGbar (s : State) (ep bid : Nat) : State :=
  s.onCore ep (fun c => { c with gbars := c.gbars.map (fun h => if h.bid == bid then h.abort else h) })

section Arrival

variable {s : State} {ep bid k : Nat} {g : GBar} (hown : (s.core ep).gbars = [g]) (hbid : g.bid = bid)
include hown hbid

theorem received_gbars : ((s.received ep bid k).core ep).gbars = [g.receive k] := by
  simp [State.received, hown, hbid]

theorem abortedGbar_gbars : ((s.abortedGbar ep bid).core ep).gbars = [g.abort] := by
  simp [State.abortedGbar, hown, hbid]

end Arrival

/-! ### The forwarding of ABORT (R446) -/

theorem gbarAbort_core (s : State) (ep : Nat) (g : GBar) (e : Nat) : (s.gbarAbort ep g).core e = s.core e :=
  List.foldlRecOn (motive := fun (t : State) => t.core e = s.core e) _ _ rfl fun _ h _ _ => h

/-- ABORT goes to every member that an arrival notifies, behind what waits. -/
theorem gbarAbort_sends (s : State) (ep : Nat) (g : GBar) :
    (∀ q ∈ s.egress, q ∈ (s.gbarAbort ep g).egress) ∧
    ∀ d ∈ g.peers, ∃ q ∈ (s.gbarAbort ep g).egress, q.dst = d ∧ q.cls = 5 ∧ q.body = .abort g.bid := by
  unfold State.gbarAbort
  generalize g.peers = ds
  induction ds generalizing s with
  | nil => exact ⟨fun _ h => h, fun _ h => absurd h List.not_mem_nil⟩
  | cons d ds ih =>
    obtain ⟨hkept, hsent⟩ := ih (s.sendNotice ep g.vdev g.gen d (.abort g.bid))
    refine ⟨fun q hq => hkept q (List.mem_append_left _ hq), fun e he => ?_⟩
    rcases List.mem_cons.1 he with rfl | he
    · exact ⟨_, hkept _ (List.mem_append_right _ (List.mem_singleton.2 rfl)), rfl, rfl, rfl⟩
    · exact hsent e he

/-! ### A notice at the core of its open arrival -/

section OpenArrival

variable {s : State} {ep bid k : Nat} {p : Pkt} {l : List Pkt} {g : GBar} (hin : tget s.inbox ep [] = p :: l)
  (hruns : (s.core ep).runs p.vdev = true) (hown : (s.core ep).gbars = [g]) (hbid : g.bid = bid)
  (hopen : g.opened = true)
include hin hruns hown hbid hopen

/-- A round that the arrival has not received is marked, and what then may go on does. -/
theorem barrierNotice_received (hbody : p.body = .bar bid k) (hnew : g.rcvd.getLsbD k = false) :
    exec (.barrierNotice ep) s =
      .next ((((s.tookPkt ep l).received ep bid k).gbarAdvance ep bid 17).gbarTry ep bid) := by
  have hentry := entryFor_of_runs (bid := bid) hruns (.inl (by simp [hown, hbid]))
  rw [exec_barrierNotice, execBarrierNotice, takePkt_head hin (by rw [hbody]; exact hentry)]
  simp only [hbody]
  rw [asDevice_of_runs (by exact hruns), tookPkt_core, hown, find?_own hbid hopen]
  simp only [hnew]
  rfl

/-- ABORT goes on to the members, and the arrival ends. -/
theorem abortNotice_forwarded (hbody : p.body = .abort bid) :
    exec (.abortNotice ep) s =
      .next ((((s.tookPkt ep l).abortedGbar ep bid).gbarAbort ep g).gbarTry ep bid) := by
  have hentry := entryFor_of_runs (bid := bid) hruns (.inl (by simp [hown, hbid]))
  have hany : (s.core ep).gbars.any (fun g => g.bid == bid && g.opened) = true := by simp [hown, hbid, hopen]
  rw [exec_abortNotice, execAbortNotice, takePkt_head hin (by rw [hbody]; exact hentry)]
  simp only [hbody]
  rw [asDevice_of_runs (by exact hruns), tookPkt_core, if_pos hany, State.abortOpen, tookPkt_core, hown,
    find?_own hbid hopen]
  rfl

end OpenArrival

/-- Settles O58: without an entry a notice is held; a round received, the last one too, and ABORT by what the arrival
then does. -/
theorem barrierNoticesAdvanceTheirArrival : Obligations.BarrierNoticesAdvanceTheirArrival := by
  unfold Obligations.BarrierNoticesAdvanceTheirArrival
  intro s ep bid k p l g hin hruns c heldOne
  refine ⟨fun hbody hnone hroom => ?_, fun hbody hnone hroom => ?_, fun hown hbid hopen hgoes => ⟨?_, ?_⟩⟩
  · refine ⟨_, barrierNotice_held hin hruns hbody hnone hroom, heldEntry p bid k false, ?_, rfl, rfl, rfl⟩
    rw [onCore_core]
    exact holdNotice_free hnone ..
  · refine ⟨_, abortNotice_held hin hruns hbody hnone hroom, heldEntry p bid 0 true, ?_, rfl, rfl, rfl⟩
    rw [onCore_core]
    exact holdNotice_free hnone ..
  · intro hbody hnew _ hsent got
    have hgot := received_gbars (s := s.tookPkt ep l) (k := k) hown hbid
    have hfind : (((s.tookPkt ep l).received ep bid k).core ep).gbars.find? (fun g => g.bid == bid && g.opened) =
        some (g.receive k) := by
      rw [hgot]
      exact find?_own hbid hopen
    have hexec := barrierNotice_received hin hruns hown hbid hopen hbody hnew
    rw [gbarAdvance_all_sent hfind 17 hsent.ge] at hexec
    refine ⟨fun hlacks => ⟨_, hexec, ?_⟩, fun hall hheld hsucc => ⟨_, hexec, ?_⟩⟩
    · rw [gbarTry_lacking hfind ((receive_all g k).trans hlacks) hgoes, hgot]
      rfl
    · rw [gbarTry_ends hfind (.inl ⟨hsent, (receive_all g k).trans hall⟩) hheld hsucc]
      exact freedGbar_own hgot hbid
  · intro hbody hheld hsucc
    have hgbars : ((((s.tookPkt ep l).abortedGbar ep bid).gbarAbort ep g).core ep).gbars = [g.abort] := by
      rw [gbarAbort_core, abortedGbar_gbars (s := s.tookPkt ep l) hown hbid]
    have hfind : ((((s.tookPkt ep l).abortedGbar ep bid).gbarAbort ep g).core ep).gbars.find?
        (fun g => g.bid == bid && g.opened) = some g.abort := by
      rw [hgbars]
      exact find?_own hbid hopen
    refine ⟨_, abortNotice_forwarded hin hruns hown hbid hopen hbody, ?_⟩
    rw [gbarTry_ends hfind (.inr rfl) hheld hsucc]
    exact ⟨freedGbar_own hgbars hbid, hbid ▸ (gbarAbort_sends ..).2⟩

end Sys2Proof.Machine

/-! PROOFS. Enqueues and the dispatchers (R329 to R331, R333, R335, R336): what an access of a queue port answers, the
record that an enqueue adds to a dispatcher's queue, the placement of a record, its delivery, and the report of occupancies. -/

namespace Sys2Proof.Machine

/-! ### What has passed CXL ingress, and what waits there (R337) -/

theorem through_passed {s u : State} {v n : Nat} (h : s.ingress v n = (true, u)) (f : State → State) :
    s.through v n f = f u := by
  simp [State.through, h]

theorem through_waits {s u : State} {v n : Nat} (h : s.ingress v n = (false, u)) (f : State → State) :
    s.through v n f = u := by
  simp [State.through, h]

/-- An access of a virtual function that is no enqueue waits where ingress does not pass it (R329). -/
theorem queuePortOtherAccess_waits {s u : State} {a : PortAccess} (ha : a ≠ .pfDmwr)
    (h : s.ingress ((Config.freeByte s.fresh).toNat % 64) (64 * ((Config.freeByte (s.fresh + 1)).toNat % 8)) =
      (false, u)) :
    exec (.queuePortOtherAccess a) s = .next u := by
  cases a with
  | pfDmwr => exact absurd rfl ha
  | otherDmwr | postedWrite | read => exact congrArg Host.Outcome.next (through_waits h _)

/-! ### Enqueues (R331) -/

/-- The state with another state of a die's dispatcher. -/
def State.setDisp (s : State) (die : Nat) (d : Dispatcher) : State := { s with disps := tset s.disps die d }

@[simp] theorem setDisp_disp (s : State) (die : Nat) (d : Dispatcher) : (s.setDisp die d).disp die = d :=
  tget_tset_same ..

/-- An accepted enqueue is told to the host, and its record stands last in the dispatcher's queue. -/
theorem takeEnqueue_queues (z : State) (v die : Nat) (bytes : List Byte) :
    (z.takeEnqueue v die bytes).hostOut = z.hostOut ++ [.enqueued] ∧
    ∃ e, ((z.takeEnqueue v die bytes).disp die).queue = (z.disp die).queue ++ [e] ∧ e.task = z.hostTask v bytes ∧
      e.vdev = v ∧ e.chosen = none :=
  ⟨rfl, _, congrArg Dispatcher.queue (setDisp_disp z die _), rfl, rfl, rfl⟩

/-- What an enqueue must be so that it is not answered unsupported. -/
structure State.Acceptable (u : State) (vf port : Nat) (bytes : List Byte) : Prop where
  one_le : 1 ≤ vf
  le_64 : vf ≤ 64
  port_lt : port < 256
  length : bytes.length = 128
  record : u.enqOk (vf - 1) bytes = true

theorem State.Acceptable.passes {u : State} {vf port : Nat} {bytes : List Byte} (h : u.Acceptable vf port bytes) :
    (vf = 0 || 64 < vf || 256 ≤ port || !(bytes.length == 128) || !u.enqOk (vf - 1) bytes) = false := by
  obtain ⟨h1, h64, hport, hlen, hok⟩ := h
  simp [hok, hlen]
  omega

/-- The die of the store entry that an enqueue names. -/
def State.enqDie (u : State) (v : Nat) (bytes : List Byte) : Nat :=
  entryDie ((u.entryOf v (Enq.ofBytes bytes).entry).getD 0)

/-- The token of an enqueue that its port's arbiter has granted. -/
def portToken (port v : Nat) : Ask := { msgAsk 4 port v 1 with done := true }

section Enqueue

variable {s u : State} {vf port : Nat} {bytes : List Byte} (hpass : s.ingress (vf - 1) 128 = (true, u))
include hpass

theorem enqueue_unsupported
    (h : vf = 0 ∨ 64 < vf ∨ 256 ≤ port ∨ bytes.length ≠ 128 ∨ u.enqOk (vf - 1) bytes = false) :
    exec (.enqueue vf port bytes) s = .next (u.tellHost .unsupported) := by
  have hbad : (vf = 0 || 64 < vf || 256 ≤ port || !(bytes.length == 128) || !u.enqOk (vf - 1) bytes) = true := by
    simpa [or_assoc] using h
  simp only [exec_enqueue, execEnqueue, hpass, hbad]
  rfl

variable (hok : u.Acceptable vf port bytes)
include hok

/-- One that the port's arbiter has granted before joins the queue, where that has room. -/
theorem enqueue_granted (hgranted : u.asks.contains (portToken port (vf - 1)) = true)
    (hroom : (u.disp (u.enqDie (vf - 1) bytes)).queue.length < 4096) :
    exec (.enqueue vf port bytes) s =
      .next (State.takeEnqueue { u with asks := u.asks.erase (portToken port (vf - 1)) } (vf - 1)
        (u.enqDie (vf - 1) bytes) bytes) := by
  have hfull := decide_eq_false (Nat.not_le.2 hroom)
  rw [State.enqDie] at hfull
  rw [portToken] at hgranted
  simp only [exec_enqueue, execEnqueue, hpass, hok.passes, hgranted, hfull]
  rfl

variable (hnew : u.asks.contains (portToken port (vf - 1)) = false) (hfree : (u.arb 4 port).freeAt ≤ u.now)
include hnew hfree

/-- One whose rate check fails, whose device is in reset or whose queue is full is answered busy. -/
theorem enqueue_busy
    (h : u.portRate port (vf - 1) = false ∨ (u.vdevOf (vf - 1)).resetAt.isSome = true ∨
      ¬ (u.disp (u.enqDie (vf - 1) bytes)).queue.length < 4096) :
    exec (.enqueue vf port bytes) s =
      .next (State.tellHost { u with asks := u.asks.erase (msgAsk 4 port (vf - 1) 1) } .busy) := by
  have hbusy : (!u.portRate port (vf - 1) || (u.vdevOf (vf - 1)).resetAt.isSome ||
      decide (4096 ≤ (u.disp (u.enqDie (vf - 1) bytes)).queue.length)) = true := by
    simpa [or_assoc] using h
  rw [State.enqDie] at hbusy
  rw [portToken] at hnew
  simp only [exec_enqueue, execEnqueue, hpass, hok.passes, hnew, Nat.not_lt.2 hfree, hbusy]
  rfl

/-- Else it asks at the port, and joins the queue where the grant falls on it. -/
theorem enqueue_passes {z : State} (hrate : u.portRate port (vf - 1) = true)
    (hreset : (u.vdevOf (vf - 1)).resetAt = none) (hroom : (u.disp (u.enqDie (vf - 1) bytes)).queue.length < 4096)
    (hgrant : u.passArb 4 port (vf - 1) 1 = (true, z)) :
    exec (.enqueue vf port bytes) s = .next (z.takeEnqueue (vf - 1) (u.enqDie (vf - 1) bytes) bytes) := by
  have hfull := decide_eq_false (Nat.not_le.2 hroom)
  rw [State.enqDie] at hfull
  rw [portToken] at hnew
  simp only [exec_enqueue, execEnqueue, hpass, hok.passes, hnew, Nat.not_lt.2 hfree, hrate, hreset, hfull, hgrant]
  rfl

end Enqueue

/-! ### The placement of a record (R335) -/

theorem length_replaceFirst {α : Type} (p : α → Bool) (f : α → α) (l : List α) :
    (replaceFirst p f l).length = l.length := by
  induction l with
  | nil => rfl
  | cons a l ih =>
    rw [replaceFirst]
    split <;> simp [ih]

/-- What is taken first is what is replaced. -/
theorem mem_replaceFirst {α : Type} {p : α → Bool} {l rest : List α} {e : α} (h : takeFirst p l = some (e, rest))
    (f : α → α) : f e ∈ replaceFirst p f l := by
  induction l generalizing rest with
  | nil => cases h
  | cons a l ih =>
    rw [takeFirst] at h
    rw [replaceFirst]
    split at h
    · next ha =>
      cases h
      rw [if_pos ha]
      exact List.mem_cons_self
    · next ha =>
      rw [if_neg ha]
      split at h
      · next hl =>
        cases h
        exact List.mem_cons_of_mem _ (ih hl)
      · cases h

theorem member_of_mode_zero {e : DispEntry} (h : e.mode = 0) (s : State) (d : Dispatcher) (p : Nat) :
    s.member d e p = e.core := by
  simp [State.member, h]

section Resolve

variable {s : State} {die p : Nat} {e : DispEntry} {rest : List DispEntry}
  (hfirst : takeFirst (fun (q : DispEntry) => q.chosen.isNone) (s.disp die).queue = some (e, rest))
  (hentry : s.entryOf e.vdev e.entry = some p)
include hfirst hentry

/-- A record placed in its device's saggars is kept with its core. -/
theorem dispatcherResolve_places (hin : s.inDevice e.vdev (bitsOf p 0 6) (bitsOf p 6 5) = true) :
    ∃ d, exec (.dispatcherResolve die) s = .next (s.setDisp die d) ∧ d.queue.length = (s.disp die).queue.length ∧
      { e with chosen := some (epAt (bitsOf p 0 6) (bitsOf p 6 5) (s.member (s.disp die) e p)) } ∈ d.queue := by
  simp only [exec_dispatcherResolve, execDispatcherResolve, hfirst, hentry, hin]
  exact ⟨_, rfl, length_replaceFirst .., mem_replaceFirst hfirst _⟩

/-- One placed outside them is discarded, with a record in the error log. -/
theorem dispatcherResolve_discards (hout : s.inDevice e.vdev (bitsOf p 0 6) (bitsOf p 6 5) = false) :
    ∃ r, exec (.dispatcherResolve die) s = .next ((s.setDisp die { s.disp die with queue := rest }).report r) := by
  simp only [exec_dispatcherResolve, execDispatcherResolve, hfirst, hentry, hout]
  exact ⟨_, rfl⟩

end Resolve

theorem report_disp (s : State) (r : ErrRec) (die : Nat) : (s.report r).disp die = s.disp die := by
  obtain ⟨_, _, _, _, _, h⟩ := report_frame s r
  rw [h]
  rfl

/-! ### Delivery (R336) -/

/-- A record that arrives is among the ready ones, but for its arrival stamp. -/
theorem mem_arrive (l : List Ready) (r : Ready) : ∃ n, { r with stamp := n } ∈ arrive l r :=
  ⟨_, List.mem_append_right _ (List.mem_singleton.2 rfl)⟩

/-- The record that a delivery makes ready at a core. -/
def State.delivered (s : State) (die ep : Nat) (e : DispEntry) : Ready :=
  { mkReady { e.task with pseq := (s.disp die).count } (s.core ep).stampN s.now .slot with
    pasid := e.pasid, hseq := e.hseq }

/-- A dispatcher that has delivered a record. -/
def Dispatcher.deliver (d : Dispatcher) (e : DispEntry) : Dispatcher :=
  { d with queue := d.queue.erase e, count := (d.count + 1) % 2 ^ 32 }

/-- A record for a core that runs its device takes a slot there. -/
theorem dispatcherDelivery_to_running {s : State} {die ep : Nat} {e : DispEntry}
    (hfirst : s.deliverable (s.disp die).queue [] = some e) (hchosen : e.chosen = some ep)
    (hruns : (s.core ep).runs e.vdev = true) :
    exec (.dispatcherDelivery die) s = .next ((s.setDisp die ((s.disp die).deliver e)).setCore ep { s.core ep with
      stampN := (s.core ep).stampN + 1, ready := arrive (s.core ep).ready (s.delivered die ep e) }) := by
  simp only [exec_dispatcherDelivery, execDispatcherDelivery, hfirst, hchosen, Option.getD_some]
  exact congrArg Host.Outcome.next (if_pos hruns)

/-! ### Occupancies (R335) -/

theorem tget_foldl_tput (f : Nat → Nat) (l : List Nat) (t : Tbl Nat) (i : Nat) :
    tget (l.foldl (fun t j => tput t j (f j) 0) t) i 0 = if i ∈ l then f i else tget t i 0 := by
  induction l generalizing t with
  | nil => rfl
  | cons j l ih =>
    rw [List.foldl_cons, ih]
    by_cases hij : i = j
    · simp [hij]
    · simp [hij, tget_tput_other _ _ _ _ _ hij]

/-- A report holds each core's occupancy. -/
theorem occupancyReport_holds (s : State) (cluster : Nat) :
    ∃ t, exec (.occupancyReport cluster) s = .next t ∧
      ∀ i, i < 8 → tget (t.cluster cluster).occ i 0 = (s.core (8 * cluster + i)).occupancy := by
  refine ⟨_, rfl, fun i hi => ?_⟩
  rw [onCluster_cluster]
  exact (tget_foldl_tput (fun i => (s.core (8 * cluster + i)).occupancy) _ [] i).trans (if_pos (List.mem_range.2 hi))

/-- Settles O52: each access by its pass at ingress, an enqueue by what its port answers, and the dispatchers' steps by
the lemmas above. -/
theorem enqueuedRecordsReachACore : Obligations.EnqueuedRecordsReachACore := by
  unfold Obligations.EnqueuedRecordsReachACore
  intro s vf port die cluster bytes v w n
  refine ⟨rfl, fun u hpass => ?accesses, fun u hwait a ha => queuePortOtherAccess_waits ha hwait, fun u hwait => ?waits,
    fun u hpass => ⟨fun hbad => ?bad, fun h1 h64 hport hlen hok => ?port⟩,
    fun e rest p hfirst hentry => ⟨fun hin => ?places, fun hout => ?discards⟩,
    fun e ep hfirst hchosen hruns => ?delivers, occupancyReport_holds s cluster⟩
  case accesses =>
    have hthrough := fun f => congrArg (Host.Outcome.next (φ := Fault) (ρ := Refusal)) (through_passed hpass f)
    exact ⟨hthrough _, hthrough _, hthrough _⟩
  case waits => simp [exec_enqueue, execEnqueue, v, hwait]
  case bad => exact ⟨_, enqueue_unsupported hpass hbad, rfl, rfl⟩
  case port =>
    have hacc : u.Acceptable vf port bytes := ⟨h1, h64, hport, hlen, hok⟩
    refine ⟨fun hgranted hroom => ?_, fun hnew hfree => ⟨fun hbusy => ?_, fun hrate hreset hroom z hgrant => ?_⟩⟩
    · exact ⟨_, enqueue_granted hpass hacc hgranted hroom, takeEnqueue_queues ..⟩
    · exact ⟨_, enqueue_busy hpass hacc hnew hfree hbusy, rfl⟩
    · exact ⟨_, enqueue_passes hpass hacc hnew hfree hrate hreset hroom hgrant, takeEnqueue_queues ..⟩
  case places =>
    obtain ⟨d, hexec, hlen, hmem⟩ := dispatcherResolve_places hfirst hentry hin
    refine ⟨_, hexec, ?_⟩
    rw [setDisp_disp]
    exact ⟨hlen, hmem, fun hmode => member_of_mode_zero hmode ..⟩
  case discards =>
    obtain ⟨r, hexec⟩ := dispatcherResolve_discards hfirst hentry hout
    exact ⟨_, hexec, by rw [report_disp, setDisp_disp]⟩
  case delivers =>
    obtain ⟨n, hmem⟩ := mem_arrive (s.core ep).ready (s.delivered die ep e)
    have hdisp := setDisp_disp s die ((s.disp die).deliver e)
    refine ⟨_, _, dispatcherDelivery_to_running hfirst hchosen hruns, by rwa [core_setCore], rfl, rfl, rfl, rfl, ?_⟩
    exact ⟨congrArg Dispatcher.queue hdisp, congrArg Dispatcher.count hdisp⟩

end Sys2Proof.Machine

/-! PROOFS. What is done to the contexts, the cores and the collectives of a device leaves every virtual device and every
dispatcher as it stands (R91, R354 to R356, R371, R446). One lemma for each operation, in the order in which they call
one another. -/

namespace Sys2Proof.Machine

/-- `t` is `s` with the same virtual devices and dispatchers. -/
structure State.KeepsDevices (s t : State) : Prop where
  vdevs : t.vdevs = s.vdevs
  disps : t.disps = s.disps

namespace State.KeepsDevices

variable {s t u : State}

theorem of_eq (hvdevs : t.vdevs = s.vdevs := by rfl) (hdisps : t.disps = s.disps := by rfl) : s.KeepsDevices t :=
  ⟨hvdevs, hdisps⟩

theorem refl (s : State) : s.KeepsDevices s := of_eq

theorem trans (h : s.KeepsDevices t) (g : t.KeepsDevices u) : s.KeepsDevices u :=
  ⟨g.vdevs.trans h.vdevs, g.disps.trans h.disps⟩

theorem ite {c : Prop} [Decidable c] (h : s.KeepsDevices t) (g : s.KeepsDevices u) :
    s.KeepsDevices (if c then t else u) := by
  split <;> assumption

theorem foldl {β : Type} {l : List β} {f : State → β → State} (hf : ∀ t b, State.KeepsDevices t (f t b)) (s : State) :
    s.KeepsDevices (l.foldl f s) := by
  induction l generalizing s with
  | nil => exact refl s
  | cons b l ih => exact (hf s b).trans (ih _)

theorem vdevOf (h : s.KeepsDevices t) (v : Nat) : t.vdevOf v = s.vdevOf v := by
  rw [State.vdevOf, h.vdevs]
  rfl

theorem disp (h : s.KeepsDevices t) (die : Nat) : t.disp die = s.disp die := by
  rw [State.disp, h.disps]
  rfl

/-! ### Memory and the error log -/

theorem writeBytes (s : State) (pa : Nat) (bs : List Byte) : s.KeepsDevices (s.writeBytes pa bs) := by
  obtain ⟨_, _, _, h⟩ := writeBytes_frame bs s pa
  rw [h]
  exact of_eq

theorem setPoison (s : State) (pa : Nat) (p : Bool) : s.KeepsDevices (s.setPoison pa p) := ite of_eq of_eq

theorem clearWhole (s : State) (pa n : Nat) : s.KeepsDevices (s.clearWhole pa n) :=
  foldl (fun t _ => ite (setPoison ..) (refl t)) s

theorem movePoison (s : State) (lo dst n : Nat) : s.KeepsDevices (s.movePoison lo dst n) :=
  foldl (fun _ _ => setPoison ..) s

theorem spadWrite (s : State) (ep off : Nat) (bs : List Byte) : s.KeepsDevices (s.spadWrite ep off bs) :=
  (writeBytes ..).trans (clearWhole ..)

theorem report (s : State) (e : ErrRec) : s.KeepsDevices (s.report e) := by
  obtain ⟨_, _, _, _, _, h⟩ := report_frame s e
  rw [h]
  exact of_eq

theorem mergeHit (s : State) (k : Nat) : s.KeepsDevices (s.mergeHit k) := by
  unfold State.mergeHit
  split
  · exact refl s
  · exact ite (writeBytes ..) (refl s)

theorem machineCheck (s : State) (ep src code addr detail pc : Nat) :
    s.KeepsDevices (s.machineCheck ep src code addr detail pc) := by
  unfold State.machineCheck
  dsimp only
  split
  · exact report ..
  · split
    · exact mergeHit ..
    · exact (report ..).trans of_eq

theorem eccStep (owner : Nat) (s : State) (e : Nat × Bool) : s.KeepsDevices (eccStep owner s e) := by
  unfold Machine.eccStep
  extract_lets r t
  have hlog : s.KeepsDevices (t.report r) := trans of_eq (report t r)
  exact ite hlog (hlog.trans of_eq)

theorem readEcc (s : State) (sector owner : Nat) : s.KeepsDevices (s.readEcc sector owner) := by
  rw [readEcc_eq_foldl]
  exact foldl (eccStep owner) s

theorem scanEcc (s : State) (lo n owner : Nat) : s.KeepsDevices (s.scanEcc lo n owner) :=
  foldl (fun _ _ => readEcc ..) s

theorem rekey (s : State) (key sector : Nat) : s.KeepsDevices (s.rekey key sector) := by
  unfold State.rekey
  refine ite (refl s) ?_
  extract_lets s1
  have hopen : s.KeepsDevices s1 := ite of_eq (refl s)
  split
  · exact hopen.trans of_eq
  · exact hopen

theorem writeKeyed (s : State) (key pa : Nat) (bs : List Byte) : s.KeepsDevices (s.writeKeyed key pa bs) :=
  (foldl (fun _ _ => rekey ..) s).trans (writeBytes ..)

/-! ### The blocks of a device (R91, R354) -/

theorem writeCtx (s : State) (v ep a : Nat) (bs : List Byte) : s.KeepsDevices (s.writeCtx v ep a bs) := writeKeyed ..

theorem saveReady (s : State) (v ep : Nat) (l : List Ready) (inj : List TaskRec) :
    s.KeepsDevices (s.saveReady v ep l inj) :=
  (((writeKeyed ..).trans (writeKeyed ..)).trans (writeKeyed ..)).trans (writeKeyed ..)

theorem saveLive (s : State) (v ep : Nat) (x : Ctx) : s.KeepsDevices (s.saveLive v ep x) := by
  unfold State.saveLive
  extract_lets b s1 s2 s3 s4 s5
  have h1 : s.KeepsDevices s1 := (writeCtx ..).trans (writeCtx ..)
  have h2 : s.KeepsDevices s2 := h1.trans (foldl (fun _ _ => writeCtx ..) s1)
  have h4 : s.KeepsDevices s4 := ((h2.trans (writeCtx ..)).trans (writeCtx ..)).trans (writeCtx ..)
  have h5 : s.KeepsDevices s5 := h4.trans (foldl (fun _ _ => writeCtx ..) s4)
  exact h5.trans (saveReady ..)

theorem saveBlock (s : State) (v ep : Nat) (x : Ctx) (img : List Byte) : s.KeepsDevices (s.saveBlock v ep x img) := by
  unfold State.saveBlock
  extract_lets b p s1 s2 s3 s4 s5 s6 s7 s8 s9 cnts
  have h4 : s.KeepsDevices s4 := (((writeCtx ..).trans (writeCtx ..)).trans (writeCtx ..)).trans (writeCtx ..)
  have h5 : s.KeepsDevices s5 := h4.trans (foldl (fun _ _ => writeCtx ..) s4)
  have h9 : s.KeepsDevices s9 :=
    (((h5.trans (writeCtx ..)).trans (writeCtx ..)).trans (writeCtx ..)).trans (writeCtx ..)
  exact (((h9.trans (writeCtx ..)).trans (clearWhole ..)).trans (clearWhole ..)).trans (saveLive ..)

theorem withFresh (s : State) (n : Nat) : s.KeepsDevices { s with fresh := n } := of_eq

theorem initBlock (s : State) (v ep : Nat) (x : Ctx) : s.KeepsDevices (s.initBlock v ep x) := by
  unfold State.initBlock
  extract_lets b s0 s1 s2 s3
  have h2 : s.KeepsDevices s2 := ((scanEcc ..).trans (saveBlock ..)).trans (writeCtx ..)
  have h3 : s.KeepsDevices s3 := h2.trans (movePoison ..)
  exact h3.trans (withFresh ..)

/-! ### Cores under a device's contexts (R355, R356, R371) -/

theorem setCore (s : State) (ep : Nat) (c : Core) : s.KeepsDevices (s.setCore ep c) := of_eq

theorem onCore (s : State) (ep : Nat) (f : Core → Core) : s.KeepsDevices (s.onCore ep f) := of_eq

theorem onKiln (s : State) (q : Nat) (f : Kiln → Kiln) : s.KeepsDevices (s.onKiln q f) := of_eq

theorem freeLatch (s : State) (ep : Nat) : s.KeepsDevices (s.freeLatch ep) := of_eq

theorem checkpoint (s : State) (ep : Nat) : s.KeepsDevices (s.checkpoint ep) := (onKiln ..).trans (onCore ..)

theorem unloadCore (s : State) (ep : Nat) : s.KeepsDevices (s.unloadCore ep) := by
  unfold State.unloadCore
  extract_lets mine s1
  have h1 : s.KeepsDevices s1 := of_eq
  exact ite (h1.trans (onKiln ..)) h1

theorem abortSolve (s : State) (q : Nat) (f : Flight) : s.KeepsDevices (s.abortSolve q f) := of_eq

theorem expireKiln (s : State) (ep lvl : Nat) : s.KeepsDevices (s.expireKiln ep lvl) := by
  unfold State.expireKiln
  extract_lets q k s1 susp s2
  have h2 : s.KeepsDevices s2 := by
    unfold s2
    cases susp
    case none => exact onKiln ..
    case some => exact ((onKiln ..).trans (abortSolve ..)).trans (onCore ..)
  exact h2.trans (onCore ..)

theorem lateTasks (s : State) (ep : Nat) : s.KeepsDevices (s.lateTasks ep) := by
  unfold State.lateTasks
  extract_lets late g c
  exact (foldl (fun _ _ => expireKiln ..) s).trans (onCore ..)

theorem withLcnt (s : State) (t : Tbl Word) : s.KeepsDevices { s with lcnt := t } := of_eq

theorem loadSliceCounters (s : State) (v ep : Nat) : s.KeepsDevices (s.loadSliceCounters v ep) :=
  withLcnt ..

theorem loadCore (s : State) (v ep : Nat) (x : Ctx) : s.KeepsDevices (s.loadCore v ep x) := by
  unfold State.loadCore
  extract_lets who s0 c d y c1 c' c2 s1 img s2 s3
  have h0 : s.KeepsDevices s0 := (scanEcc ..).trans (scanEcc ..)
  have h2 : s.KeepsDevices s2 :=
    ((h0.trans (setCore ..)).trans (spadWrite ..)).trans ((movePoison ..).trans (loadSliceCounters ..))
  have h3 : s.KeepsDevices s3 := ((h2.trans (withFresh ..)).trans (lateTasks ..)).trans (checkpoint ..)
  split
  · exact h3
  · exact h3.trans (machineCheck ..)

theorem freshContexts (s : State) (v : Nat) : s.KeepsDevices (s.freshContexts v) := by
  refine foldl (fun t ep => ?_) s
  extract_lets c was x' x t0 t1
  have h0 : t.KeepsDevices t0 := ite (freeLatch ..) (refl t)
  have h1 : t.KeepsDevices t1 := (h0.trans (initBlock ..)).trans (onCore ..)
  exact ite ((h1.trans (unloadCore ..)).trans (loadCore ..)) (h1.trans (onCore ..))

theorem withSags (s : State) (t : Tbl Saggar) : s.KeepsDevices { s with sags := t } := of_eq

/-! ### Collectives (R446) -/

theorem send (s : State) (p : Pkt) : s.KeepsDevices (s.send p) := of_eq

theorem gbarAbort (s : State) (ep : Nat) (g : GBar) : s.KeepsDevices (s.gbarAbort ep g) := foldl (fun _ _ => send ..) s

theorem asDevice (s : State) (ep v : Nat) {f : State → State} (hf : ∀ t, State.KeepsDevices t (f t)) :
    s.KeepsDevices (s.asDevice ep v f) := by
  unfold State.asDevice
  extract_lets c
  refine ite (hf s) ?_
  split
  · exact refl s
  · extract_lets y t d x
    have ht : s.KeepsDevices t := trans of_eq (hf _)
    exact (ht.trans of_eq).trans (saveLive ..)

theorem abortArrivals (s : State) (v : Nat) (eps : List Nat) : s.KeepsDevices (s.abortArrivals v eps) :=
  foldl (fun t ep => asDevice t ep v fun u => foldl (fun _ _ => gbarAbort ..) u) s

theorem endCollectives (s : State) (v : Nat) : s.KeepsDevices (s.endCollectives v) :=
  (abortArrivals s v (s.coresOf v)).trans of_eq

end State.KeepsDevices

end Sys2Proof.Machine

/-! PROOFS. Launch, reset, scan and teardown of a virtual device, and the quiet handshake (R356, R444 to R448): what
each leaves of the device, of the dispatchers' queues and of the reservations. -/

namespace Sys2Proof.Machine

/-! ### Launch (R356) -/

/-- A device that a launch has just started. -/
def VDev.launch (d : VDev) (now : Nat) : VDev :=
  { d with gen := (d.gen + 1) % 1024, launched := true, vh := 0, refresh := none, refreshAt := now, refreshed := none }

theorem launchDevice_vdevOf (s : State) (v : Nat) : (s.launchDevice v).vdevOf v = (s.vdevOf v).launch s.now := by
  unfold State.launchDevice
  extract_lets s1 cleared s2
  have h1 : s1.vdevOf v = (s.vdevOf v).launch s.now := onVdev_vdevOf ..
  exact ((State.KeepsDevices.freshContexts s2 v).vdevOf v).trans h1

/-! ### Reset (R445, R446) -/

/-- A device whose reset has just begun. -/
def VDev.restart (d : VDev) (now : Nat) : VDev :=
  { d with gen := (d.gen + 1) % 1024, resetAt := some now, vh := 0, refresh := none, refreshed := none, again := false }

theorem resetDevice_vdevOf (s : State) (v : Nat) : (s.resetDevice v).vdevOf v = (s.vdevOf v).restart s.now := by
  unfold State.resetDevice
  extract_lets s1 s2 cleared s3
  have h1 : s1.vdevOf v = s.vdevOf v := (State.KeepsDevices.endCollectives s v).vdevOf v
  have h2 : s2.vdevOf v = (s1.vdevOf v).restart s.now := onVdev_vdevOf ..
  rw [← h1, ← h2]
  exact (State.KeepsDevices.freshContexts s3 v).vdevOf v

/-- A dispatcher without the records of a device. -/
def Dispatcher.without (v : Nat) (d : Dispatcher) : Dispatcher :=
  { d with queue := d.queue.filter (fun q => !(q.vdev == v)) }

/-- A reset empties every dispatcher of the device. -/
theorem resetDevice_queue (s : State) (v die : Nat) : ∀ e ∈ ((s.resetDevice v).disp die).queue, e.vdev ≠ v := by
  unfold State.resetDevice
  extract_lets s1 s2 cleared s3
  have hdisp : s3.disp die = ((tfind s2.disps die).map (Dispatcher.without v)).getD Dispatcher.reset :=
    congrArg (Option.getD · _) (tfind_map (Dispatcher.without v) s2.disps die)
  rw [(State.KeepsDevices.freshContexts s3 v).disp die, hdisp]
  intro e he
  cases h : tfind s2.disps die with
  | none => rw [h] at he; exact absurd he List.not_mem_nil
  | some d =>
    rw [h] at he
    simpa using (List.mem_filter.1 he).2

/-- A reset that is legal is made (R444). -/
theorem exec_reset_legal {s : State} {v : Nat} (hv : v < 64) (hlaunched : (s.vdevOf v).launched = true)
    (hfree : s.busy v = false) : exec (.reset v) s = .next (s.resetDevice v) := by
  rw [exec_reset, execReset, Nat.mod_eq_of_lt hv]
  simp [hlaunched, hfree]

/-- So is a teardown, which starts with a reset (R448). -/
theorem exec_teardown_legal {s : State} {v : Nat} (hv : v < 64) (hlaunched : (s.vdevOf v).launched = true)
    (hfree : s.busy v = false) : exec (.teardown v) s = .next (s.teardownDevice v) := by
  rw [exec_teardown, execTeardown, Nat.mod_eq_of_lt hv]
  simp [hlaunched, hfree]

/-! ### The scan (R447) -/

/-- A core whose reservations for a device are those of one generation. -/
def Core.scan (c : Core) (v g : Nat) : Core :=
  { c with
    orphans := c.orphans.filter (fun o => !(o.1 == v)),
    reqs := c.reqs.filter (fun r => !(r.vdev == v && !(r.gen == g))),
    saved := c.saved.map (fun x => (x.1, { x.2 with
      reqs := x.2.reqs.filter (fun r => !(r.vdev == v && !(r.gen == g))) })) }

theorem scanDevice_core (s : State) (v ep : Nat) : (s.scanDevice v).core ep =
    ((tfind s.cores ep).map (fun c => c.scan v (s.vdevOf v).gen)).getD (Core.reset ep) :=
  congrArg (Option.getD · (Core.reset ep)) (tfind_map (Core.scan · v (s.vdevOf v).gen) s.cores ep :)

/-- After a scan no core holds a reservation of an old generation of the device. -/
theorem scanDevice_reqs (s : State) (v ep : Nat) :
    ∀ r ∈ ((s.scanDevice v).core ep).reqs, r.vdev = v → r.gen = (s.vdevOf v).gen := by
  rw [scanDevice_core]
  intro r hr hv
  cases h : tfind s.cores ep with
  | none => rw [h] at hr; exact absurd hr List.not_mem_nil
  | some c =>
    rw [h] at hr
    simpa [hv] using (List.mem_filter.1 hr).2

section Scan

variable {s : State} {v t0 : Nat} (hreset : (s.vdevOf v).resetAt = some t0) (hdue : t0 + 2 ^ 17 ≤ s.now)
  (hteardown : (s.vdevOf v).teardown = none)

/-- The state in which a scan has ended the device's reset. -/
def State.scanned (s : State) (v : Nat) : State := (s.scanDevice v).onVdev v (fun d => { d with resetAt := none })

theorem scanned_vdevOf (s : State) (v : Nat) : (s.scanned v).vdevOf v = { s.vdevOf v with resetAt := none } :=
  onVdev_vdevOf ..

include hreset hdue hteardown

/-- Without a teardown a scan that is due goes on to a further reset exactly where one was asked for meanwhile (R438,
R441). -/
theorem exec_resetScan_due :
    exec (.resetScan v) s =
      .next (if (s.vdevOf v).again then (s.scanned v).resetDevice v else s.scanned v) := by
  have h := scanned_vdevOf s v
  rw [State.scanned] at h
  simp only [exec_resetScan, execResetScan, hreset, Nat.not_lt.2 hdue, if_false, h, hteardown]
  rfl

end Scan

/-! ### The quiet handshake (R448) -/

/-- A teardown that is complete leaves its device no longer launched. -/
theorem endTeardown_vdevOf (s : State) (v : Nat) :
    ((s.endTeardown v).vdevOf v).launched = false ∧ ((s.endTeardown v).vdevOf v).teardown = none := by
  unfold State.endTeardown
  extract_lets s1 s2 s3
  have hdown : s3.vdevOf v = { s2.vdevOf v with launched := false, teardown := none } := onVdev_vdevOf ..
  rw [(State.KeepsDevices.withSags s3 _).vdevOf v, hdown]
  exact ⟨rfl, rfl⟩

theorem quietHandshakeTimeout_ends {s : State} {v : Nat} {ps : List Nat} (hteardown : (s.vdevOf v).teardown = some ps)
    (hreset : (s.vdevOf v).resetAt = none) (hdue : (s.vdevOf v).downAt + 2 ^ 20 ≤ s.now) :
    ∃ u : State, exec (.quietHandshakeTimeout v) s = .next (u.endTeardown v) := by
  simp only [exec_quietHandshakeTimeout, execQuietHandshakeTimeout, hteardown, hreset, Nat.not_lt.2 hdue]
  exact ⟨_, rfl⟩

/-- The state in which a port's first link packet has been taken and counted. -/
def State.tookLink (s : State) (port : Nat) (lp : LinkPkt) : State :=
  (s.takeLink port).onSluice port (fun u => u.count 2 lp.flits)

theorem tookLink_vdevOf (s : State) (port : Nat) (lp : LinkPkt) (v : Nat) :
    (s.tookLink port lp).vdevOf v = s.vdevOf v := rfl

@[simp] theorem onSluice_sluice (s : State) (port : Nat) (f : Sluice → Sluice) :
    (s.onSluice port f).sluice port = f (s.sluice port) := tget_tset_same ..

/-- The answer to a peer's marker, behind what its port has queued. -/
def State.quietReply (s : State) (lp : LinkPkt) (f w : Nat) : Pkt :=
  { lp.pkt.answer (s.epId 0) 6 8 (.quietAns f w) with fkey := 0, numbered := true, key := s.fabricKey 0 }

section Link

variable {s : State} {port : Nat} {lp : LinkPkt} {l : List LinkPkt} (hin : tget s.linkIn port [] = lp :: l)
include hin

theorem arrived_head : s.arrived port = some lp := by
  rw [State.arrived, hin]
  rfl

theorem takeLink_linkIn : tget (s.takeLink port).linkIn port [] = l := by
  rw [State.takeLink, hin]
  exact tget_tset_same ..

variable (hopens : s.opens lp = true)
include hopens

theorem quietMarker_answered {f w : Nat} (hbody : lp.pkt.body = .quiet f w) :
    exec (.quietMarker port) s = .next ((s.takeLink port).onSluice port (fun u =>
      { u with queue := u.queue ++ [s.quietReply lp f w] }.count 2 lp.flits)) := by
  simp only [exec_quietMarker, execQuietMarker, arrived_head hin, hbody, hopens]
  rfl

/-- The last answer, once the reset has completed, ends the teardown. -/
theorem quietAnswer_last {f v : Nat} (hbody : lp.pkt.body = .quietAns f v)
    (hteardown : (s.vdevOf v).teardown = some [f]) (hreset : (s.vdevOf v).resetAt = none) :
    exec (.quietAnswer v port) s = .next ((s.tookLink port lp).endTeardown v) := by
  have hdev := tookLink_vdevOf s port lp v
  rw [State.tookLink] at hdev
  simp [exec_quietAnswer, execQuietAnswer, arrived_head hin, hbody, hopens, hdev, hteardown, hreset, State.tookLink]

/-- Any other leaves the peers that have not answered. -/
theorem quietAnswer_one_of {f v : Nat} {ps : List Nat} (hbody : lp.pkt.body = .quietAns f v)
    (hteardown : (s.vdevOf v).teardown = some ps) (hrest : ps.filter (fun q => !(q == f)) ≠ []) :
    exec (.quietAnswer v port) s = .next ((s.tookLink port lp).onVdev v (fun d =>
      { d with teardown := some (ps.filter (fun q => !(q == f))) })) := by
  have hdev := tookLink_vdevOf s port lp v
  rw [State.tookLink] at hdev
  have hawaits : (ps.filter (fun q => !(q == f))).isEmpty = false := by simpa using hrest
  simp only [exec_quietAnswer, execQuietAnswer, arrived_head hin, hbody, hopens, hdev, hteardown, hawaits]
  simp [State.tookLink]

end Link

/-- Settles O60: each step by the lemma above that says what it does where it is legal or due. -/
theorem devicesAreLaunchedResetAndTornDown : Obligations.DevicesAreLaunchedResetAndTornDown := by
  unfold Obligations.DevicesAreLaunchedResetAndTornDown
  intro s v port lp l hv d
  refine ⟨fun hmay => ?launch, fun hlaunched hfree => ⟨?reset, ?teardown⟩, fun t0 hreset hdue hteardown => ?scan,
    fun hin => ⟨fun f w hbody hopens => ?marker, fun f hbody hopens => ⟨fun hteardown hreset => ?last,
    fun ps hteardown hrest => ?oneOf⟩⟩, fun ps hteardown hreset hdue => ?timeout⟩
  case launch =>
    have hexec : exec (.launch v) s = .next (s.launchDevice v) := by
      rw [exec_launch, execLaunch, Nat.mod_eq_of_lt hv, if_pos hmay]
    refine ⟨_, hexec, ?_⟩
    rw [launchDevice_vdevOf]
    exact ⟨rfl, rfl, rfl⟩
  case reset =>
    refine ⟨_, exec_reset_legal hv hlaunched hfree, ?_⟩
    rw [resetDevice_vdevOf]
    exact ⟨rfl, rfl, hlaunched, resetDevice_queue s v⟩
  case teardown =>
    refine ⟨_, exec_teardown_legal hv hlaunched hfree, ?_⟩
    rw [State.teardownDevice, onVdev_vdevOf, resetDevice_vdevOf]
    exact ⟨rfl, rfl, rfl, rfl⟩
  case scan =>
    rw [exec_resetScan_due hreset hdue hteardown]
    refine ⟨fun hagain => ⟨_, rfl, ?_⟩, fun hagain => ⟨_, rfl, ?_⟩⟩
    · rw [if_neg (Bool.eq_false_iff.1 hagain), scanned_vdevOf]
      exact ⟨rfl, scanDevice_reqs s v⟩
    · rw [if_pos hagain, resetDevice_vdevOf, scanned_vdevOf]
      exact ⟨rfl, rfl⟩
  case marker =>
    refine ⟨_, s.quietReply lp f w, quietMarker_answered hin hopens hbody, takeLink_linkIn hin, ?_, rfl, rfl, rfl⟩
    rw [onSluice_sluice]
    rfl
  case last => exact ⟨_, quietAnswer_last hin hopens hbody hteardown hreset, endTeardown_vdevOf ..⟩
  case oneOf =>
    refine ⟨_, quietAnswer_one_of hin hopens hbody hteardown hrest, ?_⟩
    rw [onVdev_vdevOf]
  case timeout =>
    obtain ⟨u, hexec⟩ := quietHandshakeTimeout_ends hteardown hreset hdue
    exact ⟨_, hexec, endTeardown_vdevOf ..⟩

end Sys2Proof.Machine
